-- ==== Sys2Proof/Word.lean ====
section
/-! DEFINITION. The machine's words and bytes. -/

namespace Sys2Proof

/-- A 64-bit register value (R8). -/
abbrev Word := BitVec 64

/-- One byte. -/
abbrev Byte := BitVec 8

/-- A string of bytes, lowest address or first on the wire first. -/
abbrev Bytes := List Byte

/-- A 64-byte ring entry or completion, little-endian: byte j is bits 8j+7..8j (R169). -/
abbrev Entry := BitVec 512

end Sys2Proof
end

