-- ==== Sys2Proof/Syntax.lean ====
section
/-! DEFINITION. The commands. -/

namespace Sys2Proof

/-- A party that accesses control space (Table 1.7). -/
inductive Party where
  | surveyor
  | firmware (cluster : Nat)
  | host (port pf : Nat)
  | bmc
  deriving DecidableEq, Repr

/-- What a graticule link makes of a transfer: it arrives and its acknowledgement too, it arrives and the acknowledgement is lost,
or it is lost itself (R95, R96). -/
inductive Fate where
  | acked | unacked | lost
  deriving DecidableEq, Repr

/-- The course of a transfer on a link: whether the checks of a resend pass, and what becomes of the transfer (R94-R96). -/
structure Course where
  resendOk : Bool
  fate : Fate
  deriving DecidableEq, Repr

/-- What a network port finds of a received frame: whether its FCS is good, and the FEC codewords corrected and found uncorrectable since
the frame before it (R214, Table 8.9). -/
structure FrameCheck where
  ok : Bool
  corrected : Nat
  uncorrectable : Nat
  deriving DecidableEq, Repr

/-- What a link partner of a host port negotiates: FLIT mode, and infinite posted credits (R110, Table 3.3). -/
structure LinkPartner where
  flit : Bool
  infCredit : Bool
  deriving DecidableEq, Repr

/-- Fields of a function's Device Control registers that the host sets: Enable Relaxed Ordering, and the Completion Timeout Value (R130,
R134). -/
structure DeviceControl where
  roEn : Bool
  cplTo : Nat
  deriving DecidableEq, Repr

/-- What the partner below a root port offers: CXL alternate-protocol negotiation, the payload size it supports and the bits of the tags
it takes (R140, R143). -/
structure RootPartner where
  cxl : Bool
  mps : Nat
  tagBits : Nat
  deriving DecidableEq, Repr

/-- What the module manager reads at an interrupt: the module's latched flags, and its state as MSTATE shows it (R230, Table 8.8). -/
structure ModuleReport where
  flags : Nat
  mstate : Nat
  deriving DecidableEq, Repr

/-- What reading or writing host memory for an entry or command gives: the data; UR, CA or poison; no ATS permission; a
completion timeout; or a failure after n bytes were written. -/
inductive MemResult where
  | ok (data : Bytes)
  | bad
  | noPermission
  | timeout
  | partly (n : Nat) (data : Bytes)
  deriving DecidableEq, Repr

/-- Component bound below a root port (R141). -/
inductive Component where
  | none | nvme | cxl | other
  deriving DecidableEq, Repr

/-- A function found below a root port: its class code, and whether it carries the CXL device DVSEC of a type 3 device that offers
CXL.mem (R141, R143). -/
structure FoundFunc where
  classCode : Nat
  cxlDevice : Bool
  deriving DecidableEq, Repr

/-- What Identify of a backend namespace gives: format (0 512, 1 4,096 bytes) and size in blocks; none when the backend
did not answer. -/
abbrev Identified := Option (Nat × Nat)

/-- What the boot ROM finds outside the device at power-on: the cause code of Table 17.3 that its checks of fuses and flash
give (0 none, 3 no flash device answers, 4 fuse integrity), and the station and board records of the boot record it accepts:
HP_STN_CFG by station (empty: missing or bad), NET_CAGE_CFG by cage, the SMBus address and the I3C static address (none: no
board record). No records: no boot record was accepted. nextEpoch: the record accepted was sealed under the next epoch (R450,
R457). -/
structure BootFound where
  cause : Nat
  accepted : Bool
  nextEpoch : Bool
  stations : List (BitVec 32)
  cages : List (BitVec 32)
  smb : Option Nat
  i3c : Option Nat
  deriving DecidableEq, Repr

/-- What wear sampling reads from a part (R493): of a module, by lane, the laser bias and the high alarm threshold in µA; of an
NVMe device, Percentage Used and Data Units Written; of an expander, Life Used when it reports it, and the corrected errors
of the last 30 days. -/
inductive WearReading where
  | optical (lanes : List (Nat × Nat))
  | nvme (used units : Nat)
  | expander (life : Option Nat) (errors : Nat)
  deriving DecidableEq, Repr

/-- A command: what comes to the device from outside, or happens in it at a time of its own, one constructor for each row of the
operation table. Operands name what it comes from, and carry what the device reads or is answered (notes/assumptions/7). -/
inductive Instr where
  /-- REGISTER_WRITE: A write to a register that has no row of its own sets, clears or ignores its fields according to their
  access codes. (R9) -/
  | registerWrite (who : Party) (addr size value : Nat)
  /-- ISLAND_RESET_END: An island leaves reset, its spine delay is measured again and held control-space accesses are
  performed. (R16) -/
  | islandResetEnd (node roundTripPs : Nat)
  /-- FLIGHT_SLOT_WAIT_START: An operation that was waiting for a flight-table slot starts at the first start opportunity
  after a slot is freed. (R25) -/
  | flightSlotWaitStart (ring : Nat)
  /-- UNDEFINED_OPCODE: An entry whose opcode has no defined meaning completes with 0x0101, and an opcode not accepted on
  the ring kind completes with 0x0102. (R170) -/
  | undefinedOpcode (ring : Nat)
  /-- NETWORK_FRAME_RECEIVE: A received frame is checked for runt, FCS and oversize, stamped, and handed to the selector of
  its inlet. (R214) -/
  | networkFrameReceive (port : Nat) (frame : Bytes) (check : FrameCheck)
  /-- BUDGET_TOKEN_RELEASE: A packet that waits for HBM read budget is sent to its bench once the bench's budget holds h
  tokens. (R262) -/
  | budgetTokenRelease (inlet : Nat)
  /-- BENCH_ENQUEUE: A packet completes its fixed bench latency and the sett store commits it to its VOQ or the spoil queue
  and acknowledges the inlet. (R247) -/
  | benchEnqueue (place : Nat)
  /-- KEY_LOAD_DONE: A key preparation completes and a packet waiting in dress for its key proceeds. (R326) -/
  | keyLoadDone (place : Nat) (ok : Bool)
  /-- OUTLET_UNIT_SERVE: The outlet scheduler picks the next unit by EDF, strict priority or deficit round robin and hands
  it to the outlet. (R296) -/
  | outletUnitServe (outlet : Nat)
  /-- FRAME_EGRESS: A frame leaves a network port with padding, FCS and any one-step or transparent-clock timestamp updates,
  and a TS_REQ entry completes. (R55) -/
  | frameEgress (port : Nat)
  /-- RX_PLACEMENT: A packet is placed into one or more receive entries of its ring and those entries complete. (R205) -/
  | rxPlacement (ring : Nat) (permitted : Bool)
  /-- PPS_IN_EDGE: A PPS_IN edge is stamped and counted toward qualification and discipline of source 0. (R40) -/
  | ppsInEdge
  /-- SERVO_SAMPLE_WRITE: A servo sample written to DTM_SERVO_A or B is taken unless its SEQ repeats, and drives
  qualification and state. (R43) -/
  | servoSampleWrite (b : Bool) (value : BitVec 64)
  /-- SOURCE_DISQUALIFY: A source missing its edges or samples is disqualified, and Datum switches source or enters
  holdover. (R41) -/
  | sourceDisqualify (n : Nat)
  /-- REF_10M_LOSS: No REF_10M_IN edge for 1 us disqualifies source 0 when REF_AID is set. (R40) -/
  | ref10mLoss
  /-- WAIT_TO_RESTORE_EXPIRY: A higher-priority source that stayed qualified for WTR_S seconds becomes selected under
  revertive selection. (R42) -/
  | waitToRestoreExpiry (n : Nat)
  /-- HOLDOVER_LIMIT_EXPIRY: Holdover lasting longer than LIMIT_S moves Datum to HOLDOVER_LIMIT. (R45) -/
  | holdoverLimitExpiry
  /-- DTM_STEP_REQUEST: A write of 1 to DTM_CTRL.STEP steps Datum when the step conditions hold, and otherwise raises
  STEP_BLOCKED. (R37) -/
  | dtmStepRequest
  /-- SPINE_MEASURE: Every 1 ms the spine delay to each island is measured and applied to its replica by slewing. (R47) -/
  | spineMeasure (node roundTripPs : Nat)
  /-- DATUM_RESTART: The Datum island resets or restarts its firmware and every replica flywheels on its last correction.
  (R50) -/
  | datumRestart (firmware : Bool)
  /-- DATUM_RESUME: Datum resumes from the replicas' time without a step after its restart. (R50) -/
  | datumResume
  /-- SPINE_PATH_FAIL: A failed spine path moves an island's replica to its second path and recalibrates it. (R51) -/
  | spinePathFail (node roundTripPs : Nat)
  /-- PPS_OUT_EDGE: A PPS output drives an edge at each Datum instant k times the period plus PHASE. (R57) -/
  | ppsOutEdge (n : Nat)
  /-- SYNCE_LOS: Loss of signal or lock on the selected lane squelches a SyncE output and raises SYNCE_LOS. (R58) -/
  | synceLos (n : Nat)
  /-- DTM_PORT_CORR_WRITE: A port correction write applies from the next frame boundary. (R60) -/
  | dtmPortCorrWrite (port : Nat) (value : BitVec 32)
  /-- DTM_NOW_READ: A read of DTM_NOW returns Datum nanoseconds and latches the matching fraction into DTM_NOW_FRAC. (R59) -/
  | dtmNowRead (who : Party)
  /-- ADMIT: ADMIT checks a contract in order and admits it to the ring's sheet or refuses it. (R84) -/
  | admitContract (ring pick : Nat)
  /-- WITHDRAW: WITHDRAW moves a contract to WITHDRAWING and sends its new packets to FALLBACK. (R87) -/
  | withdraw (ring : Nat)
  /-- WITHDRAW_DRAIN_END: The contract's earlier packets are delivered or D plus 2 us pass, its reservations are released
  and it becomes FREE. (R87) -/
  | withdrawDrainEnd (contract : Nat)
  /-- MODIFY: MODIFY atomically replaces the parameters of an ADMITTED contract when the check passes. (R86) -/
  | modify (ring : Nat)
  /-- CHECK: CHECK runs the ADMIT check and changes nothing. (R84) -/
  | check (ring : Nat)
  /-- ADMISSION_QUERY: QUERY reports a contract's state, F, slack and NONCONF count. (R81) -/
  | admissionQuery (ring : Nat)
  /-- STAGE_DUMP: STAGE_DUMP writes the admission state of one generation to host memory. (R88) -/
  | stageDump (ring : Nat)
  /-- ADM_CONFIG_WRITE: A write to ADM_OUT_CFGn, ADM_RES_SHARE, ADM_CTRL, HP_PM_CFG.L0P_MIN or HP_PM_EXIT is re-checked
  against every affected contract and applied or refused. (R78) -/
  | admConfigWrite (addr : Nat) (value : BitVec 64)
  /-- GRT_TRANSFER_RECEIVE: A graticule transfer is checked beat by beat and applied whole and acknowledged, or rejected and
  resent once. (R94) -/
  | grtTransferReceive (link src dst : Nat) (seq : BitVec 8) (beats : List (BitVec 512 × Bool)) (course : Course)
      (cut : List Nat)
  /-- GRT_ACK_TIMEOUT: A transfer unacknowledged for 64 ns, or a failed resend, declares the link failed and moves it to its
  reserve path. (R96) -/
  | grtAckTimeout (link : Nat) (cut : List Nat)
  /-- ARBITER_GRANT: A round-robin arbiter grants the next raised request after the index just served. (R98) -/
  | arbiterGrant (kind inst raised : Nat)
  /-- WATCHDOG_BITE: A transfer not finished 1 us after grant is discarded, the grant released and the requester's island
  reset. (R103) -/
  | watchdogBite (kind inst core : Nat)
  /-- GRT_CNT_CLR: A write of 1 to GRT_CTRL.CNT_CLR clears the bite and retry counters. (R105) -/
  | grtCntClr
  /-- HOST_LINK_UP: A host port link trains, samples its function enables, and is marked degraded when below its configured
  width or speed. (R110) -/
  | hostLinkUp (port speed lanes : Nat) (partner : LinkPartner)
  /-- HOST_LINK_DOWN: An endpoint link lost other than by a power state applies FLR handling to every function and retrains.
  (R137) -/
  | hostLinkDown (port : Nat)
  /-- L0P_ENTER: Low transmit use for L0P_IDLE_US reduces the link width to L0P_MIN. (R112) -/
  | l0pEnter (port : Nat)
  /-- L0P_EXIT: Queued data beyond what the reduced width carries in 1 us restores the full width. (R112) -/
  | l0pExit (port : Nat)
  /-- L1_ENTER: Empty transmit queues and no outstanding read for L1_IDLE_US make the device request L1 or a substate as
  permitted. (R112) -/
  | l1Enter (port level : Nat) (enabled : Bool)
  /-- L1_EXIT: The link leaves L1 within the exit latency when traffic needs it. (R113) -/
  | l1Exit (port : Nat)
  /-- CREDIT_WAIT_EXCEEDED: A posted-credit wait longer than CREDIT_NS raises HP_EVENT.CREDIT and is recorded in
  HP_CREDIT_OBS. (R116) -/
  | creditWaitExceeded (port waitNs : Nat)
  /-- MSIX_UNMASK: Unmasking a vector with its pending bit set sends its message. (R119) -/
  | msixUnmask (port pf vec : Nat)
  /-- HOST_MMIO_REQUEST: A host request to a BAR is translated through the active window generation and applied at its
  target or handled under R30. (R122) -/
  | hostMmioRequest (port pf bar off n : Nat) (data : Option Bytes)
  /-- HP_WIN_COMMIT: COMMIT checks the shadow window bank and makes it active, or reports the first failing entry. (R125) -/
  | hpWinCommit (port : Nat)
  /-- WIN_RETIRE_DONE: The last TLP of the old window generation retires, RETIRING clears and WIN_DONE is raised. (R127) -/
  | winRetireDone (port : Nat)
  /-- ATS_INVALIDATION_REQUEST: An Invalidation Request stops use of the matching translation entries. (R132) -/
  | atsInvalidationRequest (port pf pasid page sizeLog2 : Nat)
  /-- ATS_INVALIDATION_COMPLETE: After the requests translated by the invalidated entries finish, the Invalidation
  Completion is sent. (R132) -/
  | atsInvalidationComplete (port pf : Nat)
  /-- PAGE_REQUEST_RESPONSE: A Page Request response of Success retranslates, and a failure fails the access to the region.
  (R133) -/
  | pageRequestResponse (port pf pasid page code : Nat) (absent : List Nat)
  /-- HOST_READ_COMPLETION: The final completion of a non-posted read arrives, its data is used and its tag and flight slot
  are released. (R23) -/
  | hostReadCompletion (port tag : Nat) (ok : Bool) (entries : List Entry) (bytes : Bytes)
  /-- COMPLETION_TIMEOUT: A non-posted request with no completion by the timeout ends and releases its quarantined tag.
  (R134) -/
  | completionTimeout (port tag : Nat)
  /-- BME_CLEAR: Clearing Bus Master Enable stops the function's requests, sets pending bits instead of messages and
  disables its sheets. (R135) -/
  | bmeClear (port pf : Nat)
  /-- BME_SET: Setting Bus Master Enable sends the pending unmasked vectors in ascending order. (R135) -/
  | bmeSet (port pf : Nat) (pasidEn funcMask : Bool) (control : DeviceControl)
  /-- FLR: Function Level Reset withdraws contracts, spoils queued inbound packets, invalidates ATS and resets configuration
  space. (R136) -/
  | flr (port pf : Nat)
  /-- FLR_COMPLETE: The FLR ends and configuration requests to the function are answered normally again. (R136) -/
  | flrComplete (port pf : Nat)
  /-- PASID_ENABLE_CLEAR: Clearing PASID Enable moves ACTIVE or DEBUG sheets with nonzero PASID to DISABLING. (R156) -/
  | pasidEnableClear (port pf : Nat)
  /-- DPC_TRIGGER: Downstream Port Containment fails outstanding requests on a root port and breaks its contracts. (R139) -/
  | dpcTrigger (port : Nat)
  /-- DPC_RELEASE: Containment is released once the link has been down for 100 ms. (R139) -/
  | dpcRelease (port : Nat)
  /-- ROOT_PORT_ENUMERATE: 100 ms after link-up the root port enumerates, configures and binds the component below. (R140) -/
  | rootPortEnumerate (port : Nat) (partner : RootPartner) (funcs : List FoundFunc) (vendor : Nat) (serial : Bytes)
  /-- ROOT_PRESENCE_CHANGE: A root-port presence change raises PRESENCE and starts hot insertion or removal handling. (R142)
  -/
  | rootPresenceChange (port : Nat) (present : Bool)
  /-- CXL_ATTACH: After Memory_Active an expander's HDM range is programmed and added to the CXL aperture, or refused above
  2 TiB. (R143) -/
  | cxlAttach (port capacity classCode vendor : Nat)
  /-- HP_RETRAIN: A write of 1 to HP_PORT_CFG.RETRAIN retrains the host link. (R118) -/
  | hpRetrain (port : Nat)
  /-- HP_LINK_DISABLE: HP_PORT_CFG.LINK_DIS holds the link down while set. (R145) -/
  | hpLinkDisable (port : Nat) (on : Bool)
  /-- HP_OBS_CLR: A write of 1 to OBS_CLR clears HP_CREDIT_OBS. (R145) -/
  | hpObsClr (port : Nat)
  /-- PERST_ASSERT: PCIE_PERST_N low on an endpoint port takes its link down. (R531) -/
  | perstAssert (port : Nat)
  /-- PERST_DEASSERT: PCIE_PERST_N rising lets the endpoint port train after at least 1 ms. (R531) -/
  | perstDeassert (port : Nat)
  /-- MBX_CLAIM: A claim read by the slot's writer claims an EMPTY slot and returns 1, or returns 0. (R153) -/
  | mbxClaim (sheet : Nat) (up : Bool) (who : Party)
  /-- MBX_BELL: A BELL write makes a CLAIMED slot FULL, stamps its header and sends the reader's vector. (R153) -/
  | mbxBell (sheet : Nat) (up : Bool) (who : Party)
  /-- MBX_ACK: An ACK write makes a FULL slot EMPTY and lets the next queued device message fill it. (R153) -/
  | mbxAck (sheet : Nat) (up : Bool) (who : Party)
  /-- MBX_CLAIM_TIMEOUT: A slot CLAIMED for 100 us without a BELL returns to EMPTY. (R153) -/
  | mbxClaimTimeout (sheet : Nat) (up : Bool)
  /-- RESHAPE: RESHAPE grows, shrinks or recaps a sheet's shares as a whole or refuses them. (R162) -/
  | reshape (ring : Nat)
  /-- SHEET_ENABLE: ENABLE moves a DISABLED sheet to ACTIVE when its function and PASID conditions hold. (R157) -/
  | sheetEnable (ring : Nat)
  /-- SHEET_DISABLE: DISABLE moves a sheet to DISABLING, stops its rings, withdraws its contracts and spoils its inbound
  packets. (R164) -/
  | sheetDisable (ring : Nat)
  /-- SHEET_DISABLE_DONE: A sheet reaches DISABLED once its slots are released and its writes have left the host port.
  (R165) -/
  | sheetDisableDone (sheet : Nat)
  /-- SHEET_DEBUG: DEBUG moves a sheet between ACTIVE and DEBUG, suspending or restoring its contracts. (R158) -/
  | sheetDebug (ring : Nat)
  /-- SHEET_QUERY: QUERY reports a sheet's state, limits, usage and PENDING, or the port's pools. (R158) -/
  | sheetQuery (ring : Nat)
  /-- CAD_OP_CREATE: CAD_OP CREATE checks the identity and shares and creates a DISABLED sheet. (R163) -/
  | cadOpCreate (sheet : Nat)
  /-- CAD_OP_ENABLE: CAD_OP ENABLE enables a DISABLED sheet as the ENABLE command does. (R163) -/
  | cadOpEnable (sheet : Nat)
  /-- CAD_OP_DESTROY: CAD_OP DESTROY closes a DISABLED sheet's connections and removes its rings, keys, controllers and
  regions. (R163) -/
  | cadOpDestroy (sheet : Nat)
  /-- SHEET_DESTROY_DONE: The destroy completes, the sheet is FREE and BUSY clears. (R163) -/
  | sheetDestroyDone (sheet : Nat)
  /-- DOORBELL_WRITE: A DB_PRODUCE write sets a ring's producer index when accepted, or is dropped and counted. (R174) -/
  | doorbellWrite (sheet loc pi : Nat) (narrow : Bool)
  /-- ENTRY_FETCH: Fetched ring entries arrive from host memory and are queued, malformed chains and OWN = 0 entries
  completed. (R176) -/
  | entryFetch (ring : Nat) (data : Option (List Entry))
  /-- COAL_TIMER_EXPIRY: COAL_US after the first unannounced completion the head record is written and the ring's vector
  sent. (R187) -/
  | coalTimerExpiry (ring : Nat)
  /-- RING_NOP: NOP completes with 0x0000 and no other effect. (R200) -/
  | ringNop (ring : Nat)
  /-- RING_OPEN: RING_OPEN opens a ring with HEAD and FETCH at START and PI from the entry. (R200) -/
  | ringOpen (ring pick : Nat)
  /-- RING_ENABLE: RING_ENABLE returns a DISABLED ring to RUNNING from START. (R192) -/
  | ringEnable (ring : Nat)
  /-- RING_DISABLE: RING_DISABLE stops fetching and quiesces the ring. (R190) -/
  | ringDisable (ring : Nat)
  /-- RING_QUIESCE_END: Started entries complete, fetched ones are discarded, HEAD is published and the ring becomes
  DISABLED. (R190) -/
  | ringQuiesceEnd (ring : Nat) (writesLeft : Bool)
  /-- RING_IDLE: A DISABLED ring's slots and writes drain, IDLE becomes 1 and a waiting RING_DISABLE completes. (R191) -/
  | ringIdle (ring : Nat)
  /-- RING_CLOSE: RING_CLOSE closes a DISABLED, IDLE ring and returns one ring to the pool. (R200) -/
  | ringClose (ring : Nat)
  /-- RING_QUERY: RING_QUERY reports RNG_RSTATUS and the ring's settings. (R200) -/
  | ringQuery (ring : Nat)
  /-- RING_TUNE: RING_TUNE changes a ring's vector, moderation and contract. (R201) -/
  | ringTune (ring : Nat)
  /-- ADMIN_RING_OPEN: RNG_ADMIN_CTRL OPEN opens ring 0 of a sheet. (R209) -/
  | adminRingOpen (sheet pick : Nat) (oneWrite : Bool)
  /-- ADMIN_RING_ENABLE: RNG_ADMIN_CTRL ENABLE returns ring 0 of a sheet to RUNNING. (R209) -/
  | adminRingEnable (sheet : Nat)
  /-- ADMIN_RING_CLOSE: RNG_ADMIN_CTRL CLOSE closes ring 0 of a sheet. (R209) -/
  | adminRingClose (sheet : Nat)
  /-- RNG_DB_DROP_CLEAR: A write to RNG_DB_DROP clears the dropped-doorbell count. (R208) -/
  | rngDbDropClear
  /-- TX_PKT: A TX_PKT entry or chain starts when not throttled, reads its data and enters its bench. (R204) -/
  | txPkt (ring : Nat) (data : MemResult)
  /-- TX_THROTTLE_RELEASE: A transmit entry held by back-pressure, BENCH_MBPS or the SETTS cap starts once the condition
  ends. (R198) -/
  | txThrottleRelease (ring : Nat) (data : MemResult)
  /-- RX_BUF: An RX_BUF entry is posted as a free receive buffer of its ring. (R205) -/
  | rxBuf (ring : Nat)
  /-- COPY: COPY moves LEN bytes between two addresses of the sheet. (R203) -/
  | copy (ring : Nat) (result : MemResult)
  /-- FILL: FILL writes a 64-bit pattern over LEN bytes. (R203) -/
  | fill (ring : Nat) (result : MemResult)
  /-- NET_MODE_WRITE: A MODE write to an OFF port is applied or refused with CFG_ERR. (R211) -/
  | netModeWrite (port mode : Nat)
  /-- NET_PORT_ENABLE: ENABLE := 1 with a mode starts the port toward NO_MODULE or MODULE_INIT. (R224) -/
  | netPortEnable (port : Nat)
  /-- NET_PORT_DISABLE: ENABLE := 0 turns the port OFF, or is refused while a contract names it. (R225) -/
  | netPortDisable (port : Nat)
  /-- NET_HEADROOM_CONFIG_WRITE: A write to MAX_FRAME, NET_HEAD_CFG or NET_PRIO_MAP recomputes headroom and is applied or
  refused. (R221) -/
  | netHeadroomConfigWrite (port reg value : Nat)
  /-- NET_PRBS_TEST: TEST on an OFF port transmits and checks a PRBS pattern and counts errors. (R213) -/
  | netPrbsTest (port test rate errors : Nat)
  /-- NET_CNT_CLR: A write of 1 to CNT_CLR clears the port counters and NET_TEST_ERR. (R232) -/
  | netCntClr (port : Nat)
  /-- NET_RETRAIN: RETRAIN takes a port that is not OFF back to MODULE_INIT. (R227) -/
  | netRetrain (port : Nat)
  /-- NET_RESTORE: RESTORE returns a PAUSE_FAILED port to UP when no class is paused, or is refused. (R223) -/
  | netRestore (port : Nat)
  /-- PFC_FRAME_RECEIVE: A received PFC or PAUSE frame stops or releases the classes mapped to its priorities. (R219) -/
  | pfcFrameReceive (port op enables : Nat) (quanta : List Nat)
  /-- RX_PAUSE_EXPIRY: A received pause expires after its quanta and the class resumes. (R219) -/
  | rxPauseExpiry (port cls : Nat)
  /-- PFC_REFRESH: While a priority stays paused the PFC frame is sent again at the refresh interval. (R217) -/
  | pfcRefresh (port : Nat)
  /-- PAUSE_LIMIT_EXPIRY: A class held paused for PAUSE_LIMIT_US moves the port to PAUSE_FAILED, re-pins it and breaks its
  contracts. (R222) -/
  | pauseLimitExpiry (port : Nat)
  /-- MODULE_PRESENCE_DEBOUNCED: Presence asserted for 50 ms starts module bring-up. (R228) -/
  | modulePresenceDebounced (cage : Nat) (i3c : Bool) (serial : Bytes) (vendor : Nat)
  /-- MODULE_READY: The module reaches ModuleReady and the port's data path is activated. (R228) -/
  | moduleReady (cage power : Nat) (matching : List Nat)
  /-- DATA_PATH_ACTIVATED: The port's data path becomes active and the port moves to TRAINING. (R228) -/
  | dataPathActivated (port : Nat)
  /-- MODULE_INIT_TIMEOUT: ModuleReady or data path activation not reached in time sends the port to FAULT. (R228) -/
  | moduleInitTimeout (port : Nat)
  /-- MGMT_BUS_ACCESS_FAIL: A module bus access not completed in 5 ms is repeated, and three failures send the port to
  FAULT. (R228) -/
  | mgmtBusAccessFail (cage : Nat)
  /-- MODULE_REMOVE: Presence deasserted moves every port of the cage to NO_MODULE. (R229) -/
  | moduleRemove (cage : Nat)
  /-- MODULE_INTERRUPT: A module interrupt makes the module manager read and clear its latched flags and set ALARM. (R230) -/
  | moduleInterrupt (cage : Nat) (report : ModuleReport)
  /-- CAGE_ACCESS: GO in NET_CAGE_ACC starts a read or write of module page bytes. (R231) -/
  | cageAccess (cage value : Nat)
  /-- CAGE_ACCESS_DONE: A module page access completes, sets ACC_DONE or ACC_ERR. (R231) -/
  | cageAccessDone (cage : Nat) (ok : Bool) (data : Nat)
  /-- LINK_LOCK_ACQUIRED: Lock on every lane for 1 ms moves the port from TRAINING to CALIBRATING. (R224) -/
  | linkLockAcquired (port : Nat)
  /-- CALIBRATION_DONE: Latency calibration completes and headroom is reserved, moving the port to UP, or to FAULT when
  headroom fails. (R221) -/
  | calibrationDone (port : Nat)
  /-- LINK_LOSS_OF_LOCK: Loss of lock or a fault sequence for 200 ns moves the port to TRAINING and takes the outlet and
  contract steps. (R226) -/
  | linkLossOfLock (port uncorrectable : Nat)
  /-- BNC_PROF_COMMIT: A profile commit checks the shadow profiles and makes them active, or reports the failing profile and
  record. (R240) -/
  | bncProfCommit
  /-- PROF_RETIRE_DONE: Packets of the old profile generation are enqueued, RETIRING clears and PROF_DONE is raised. (R240)
  -/
  | profRetireDone
  /-- BNC_DEFAULT_WRITE: A write to BNC_DEFAULTi is applied or refused with CFG_ERR. (R245) -/
  | bncDefaultWrite (inlet : Nat) (value : BitVec 64)
  /-- BUCKET_MOVE: BNC_MOVE GO checks a bucket move and starts it by advancing the epoch and switching selectors. (R249) -/
  | bucketMove (bucket dest : Nat) (force : Bool)
  /-- DRAIN_MARKER_PASS: A drain marker passes the sett store, held packets are released and the move completes when all
  markers pass. (R250) -/
  | drainMarkerPass (inlet : Nat)
  /-- BENCH_FAULT: A bench fault holds the bench in reset and swaps its buckets to a spare bench. (R254) -/
  | benchFault (bench : Nat)
  /-- TBL_INSERT: TBL_INSERT places an exact-match entry directly, by a relocation path, in the stash or fails. (R264) -/
  | tblInsert (ring : Nat) (hbmFault : Bool)
  /-- TBL_UPDATE: TBL_UPDATE replaces the result of an existing key with one write. (R275) -/
  | tblUpdate (ring : Nat) (hbmFault : Bool)
  /-- TBL_DELETE: TBL_DELETE removes a key and moves a stash entry into freed room. (R275) -/
  | tblDelete (ring : Nat) (hbmFault : Bool)
  /-- TBL_LOOKUP: TBL_LOOKUP reports the configured entry for a key. (R275) -/
  | tblLookup (ring : Nat)
  /-- LPM_ADD: LPM_ADD adds or replaces a prefix with the length-filter sequencing rules. (R269) -/
  | lpmAdd (ring : Nat) (hbmFault : Bool)
  /-- LPM_DEL: LPM_DEL removes a prefix with the length-filter sequencing rules. (R269) -/
  | lpmDel (ring : Nat) (hbmFault : Bool)
  /-- LPM_LOOKUP: LPM_LOOKUP reports the longest match for an address. (R275) -/
  | lpmLookup (ring : Nat)
  /-- LEARN_FLUSH: LEARN_FLUSH removes learned entries of a table in the selected benches and drops their queued insertions.
  (R275) -/
  | learnFlush (ring : Nat)
  /-- TBL_PROG_WRITE: A write to TBL_PROGn is applied or refused when h, key offsets or learn steps break the limits. (R260)
  -/
  | tblProgWrite (prog stepNo : Nat) (value : BitVec 64)
  /-- TBL_DESC_WRITE: A write to TBL_DESCt is applied or refused with CFG_ERR. (R277) -/
  | tblDescWrite (table : Nat) (value : BitVec 64)
  /-- TBL_LEARN_CFG_WRITE: A write to TBL_LEARN_CFG changes aging, or changes SLOTS and empties every learned partition, or
  is refused. (R277) -/
  | tblLearnCfgWrite (value : BitVec 64)
  /-- LEARN_INSERT: A bench inserts a queued learned entry into its learned partition. (R272) -/
  | learnInsert (bench : Nat)
  /-- LEARN_AGE: The sweep removes a learned entry whose LAST_SEEN is older than AGE_LIMIT. (R274) -/
  | learnAge (bench : Nat)
  /-- ACT_WRITE: ACT_WRITE writes an action record into every bench between packets. (R281) -/
  | actWrite (ring : Nat)
  /-- ACT_READ: ACT_READ reports an action record. (R314) -/
  | actRead (ring : Nat)
  /-- TMPL_WRITE: TMPL_WRITE replaces 32 bytes of a push template. (R281) -/
  | tmplWrite (ring : Nat)
  /-- PSET_WRITE: PSET_WRITE writes 32 members of a path set. (R304) -/
  | psetWrite (ring : Nat)
  /-- MCG_WRITE: MCG_WRITE writes the outlet mask of a multicast group. (R303) -/
  | mcgWrite (ring : Nat)
  /-- VOQ_QUERY: VOQ_QUERY reports the occupancy and back-pressure of the VOQs of one inlet toward one outlet. (R313) -/
  | voqQuery (ring : Nat)
  /-- BANK_GROUP_FAULT: A bank-group fault stops new setts in the group and reduces the store capacity. (R289) -/
  | bankGroupFault (group : Nat)
  /-- BANK_GROUP_DRAINED: A faulty bank group empties and is taken out of service. (R289) -/
  | bankGroupDrained
  /-- SWC_ALT_WRITE: A write to SWC_ALTo sets the alternate or is refused with CFG_ERR. (R305) -/
  | swcAltWrite (outlet : Nat) (value : BitVec 64)
  /-- SWC_UNPIN: UNPIN places markers in the alternate's VOQs and holds new packets for the outlet. (R308) -/
  | swcUnpin (outlet : Nat)
  /-- UNPIN_MARKER_SERVED: A marker served on the alternate releases held packets, and the last ends unpinning. (R308) -/
  | unpinMarkerServed (voq : Nat)
  /-- KEY_INSTALL: KEY_INSTALL reads a key block and creates an ACTIVE SA. (R345) -/
  | keyInstall (ring pick : Nat) (block : MemResult)
  /-- KEY_RETIRE: KEY_RETIRE moves an unused SA to RETIRING and stops new preparation. (R338) -/
  | keyRetire (ring : Nat)
  /-- SA_RETIRE_DONE: Prepared packets finish, the SA's keys and record are erased and the slot is returned. (R338) -/
  | saRetireDone (sa : Nat)
  /-- KEY_REKEY: KEY_REKEY installs new key material and SALT and resets the SA's counters. (R334) -/
  | keyRekey (ring : Nat) (block : MemResult)
  /-- SA_QUERY: SA_QUERY reports an SA's state, parameters, counter, epoch and users. (R345) -/
  | saQuery (ring : Nat)
  /-- ENTROPY_READ: ENTROPY_READ writes DRBG output to a host buffer. (R345) -/
  | entropyRead (ring : Nat) (result : MemResult)
  /-- NOISE_SOURCE_FAIL: A noise source failing its health tests leaves the other alone, or both failing stops the DRBG.
  (R321) -/
  | noiseSourceFail (source : Nat)
  /-- DRBG_RESEED: The DRBG is reseeded after 2^20 requests or each second. (R321) -/
  | drbgReseed
  /-- KEY_CACHE_ERROR: An uncorrectable key-cache error reloads the lost entries from their SA records. (R325) -/
  | keyCacheError
  /-- REWRAP_DONE: Every SA record is re-wrapped under the new epoch and the old wrapping key is destroyed. (R323) -/
  | rewrapDone
  /-- CONN_OPEN: CONN_OPEN reads the key block and creates an ARMED connection. (R357) -/
  | connOpen (ring pick : Nat) (block : MemResult)
  /-- CONN_CLOSE: CONN_CLOSE moves a connection to CLOSING. (R355) -/
  | connClose (ring : Nat)
  /-- CLOSE_DRAIN_END: Started sends end, unended receives complete, CLOSE is sent and the connection becomes FREE. (R355) -/
  | closeDrainEnd (conn : Nat)
  /-- CONN_QUERY: CONN_QUERY reports a connection's state, cause, paths and sequence numbers. (R357) -/
  | connQuery (ring : Nat)
  /-- CONN_PATH: CONN_PATH enables or disables a path and sets its source port and contract. (R359) -/
  | connPath (ring : Nat)
  /-- MSG_SEND: A SEND entry starts a message and its DATA packets are built and sent. (R363) -/
  | msgSend (ring : Nat) (data : MemResult)
  /-- MSG_RECV: A RECV entry is checked against its region and bound to the lowest unbound MSN. (R378) -/
  | msgRecv (ring : Nat)
  /-- DATA_RECEIVE: A DATA packet is discarded, NAKed or placed and its bitmap bit set. (R364) -/
  | dataReceive (absent : List Nat)
  /-- RECV_COMPLETE: A full bitmap's placements leave the host port, the RECV completes in MSN order and ACK is sent. (R364)
  -/
  | recvComplete (conn msn : Nat)
  /-- ACK_RECEIVE: An ACK completes SENDs below MSN_DONE and updates the path's marks and rate. (R365) -/
  | ackReceive
  /-- NAK_RECEIVE: A NAK resends, fails or completes the named message by its code. (R365) -/
  | nakReceive
  /-- REREQ_RECEIVE: A REREQ makes the sender resend the listed packets with RETX. (R366) -/
  | rereqReceive
  /-- POLL_RECEIVE: A POLL is answered with ACK or with REREQ for missing ranges. (R367) -/
  | pollReceive
  /-- PROBE_RECEIVE: A PROBE is answered with PROBE_ACK and opens an ARMED connection, or with CLOSE in ERROR. (R354) -/
  | probeReceive
  /-- PROBE_ACK_RECEIVE: A PROBE_ACK opens an ARMED connection or returns a DOWN path to UP. (R360) -/
  | probeAckReceive
  /-- CLOSE_RECEIVE: A CLOSE moves an ARMED or OPEN connection to ERROR with cause 2. (R354) -/
  | closeReceive
  /-- PROBE_TIMER: PROBE is sent every PROBE_US on path 0 of an ARMED connection or on a DOWN path. (R360) -/
  | probeTimer (conn path : Nat)
  /-- OPEN_TIMEOUT: An ARMED connection not opened within OPEN_MS enters ERROR with cause 3. (R354) -/
  | openTimeout (conn : Nat)
  /-- PATH_DOWN_TIMEOUT: A packet unacknowledged for POLL_US marks its path DOWN. (R360) -/
  | pathDownTimeout (conn path : Nat)
  /-- PATHS_DOWN_TIMEOUT: Every enabled path DOWN for OPEN_MS moves the connection to ERROR with cause 5. (R354) -/
  | pathsDownTimeout (conn : Nat)
  /-- REASM_TIMER_EXPIRY: Reassembly timer expiry sends REREQ, or after REASM_TRIES fails the message. (R366) -/
  | reasmTimerExpiry (conn msn : Nat)
  /-- POLL_TIMER_EXPIRY: A message unacknowledged for POLL_US is polled, and POLL_TRIES failures move the connection to
  ERROR. (R367) -/
  | pollTimerExpiry (conn msn : Nat)
  /-- ACK_TIMER_EXPIRY: 2 us after the first unacknowledged DATA packet on a path an ACK is sent. (R368) -/
  | ackTimerExpiry (conn path : Nat)
  /-- RNR_RETRY_EXPIRY: After RETRY_US the sender resends the whole message from packet 0. (R365) -/
  | rnrRetryExpiry (conn msn : Nat)
  /-- PACING_RELEASE: A DATA packet is released on a path at its release time T_p and T_p advances. (R393) -/
  | pacingRelease (conn : Nat) (data : MemResult)
  /-- RATE_INCREASE: Every INC_US without a cut a path's rate increases by RATE_INC. (R392) -/
  | rateIncrease (conn path : Nat)
  /-- REG_OPEN: REG_OPEN creates an ACTIVE region and returns its key. (R373) -/
  | regOpen (ring pick : Nat)
  /-- REG_REVOKE: REG_REVOKE takes the revoke fence, makes the region DRAINING and withdraws RECVs not in progress. (R385) -/
  | regRevoke (ring : Nat)
  /-- REVOKE_DONE: The last in-progress message ends, the region becomes FREE and REG_REVOKE completes. (R385) -/
  | revokeDone (region : Nat)
  /-- REG_MODE: REG_MODE changes the mode of an ACTIVE region. (R384) -/
  | regMode (ring : Nat)
  /-- REG_QUERY: REG_QUERY reports a region's state, mode, range and messages in progress. (R388) -/
  | regQuery (ring : Nat)
  /-- CC_QUERY: CC_QUERY reports the rates and mark fractions of eight paths. (R388) -/
  | ccQuery (ring : Nat)
  /-- ODP_WAIT_TIMEOUT: A Page Request unanswered within WAIT_MS fails the faulting messages. (R383) -/
  | odpWaitTimeout (port pf pasid page : Nat)
  /-- SQ_FETCH: Storage SQ entries are fetched in index order after an SQ doorbell. (R401) -/
  | sqFetch (ctrl queue : Nat) (entries : List Entry)
  /-- STORAGE_COMMAND_START: Arbitration starts the next startable command by sheet and queue priority and takes its range
  lock. (R404) -/
  | storageCommandStart (ranges : List (Nat × Nat))
  /-- RANGE_LOCK_RELEASE: A released range-lock entry lets stalled overlapping commands proceed in start order. (R406) -/
  | rangeLockRelease
  /-- NVME_READ: Read serves blocks from the cache or the backend into tenant memory. (R407) -/
  | nvmeRead (cmd : Nat) (pages poisoned : List Nat)
  /-- NVME_WRITE: Write completes in the cache, on two expanders or at the backend by the volume's caching. (R407) -/
  | nvmeWrite (cmd : Nat) (pages : List Nat) (data : MemResult)
  /-- NVME_FLUSH: Flush completes when earlier completed writes have reached the backend. (R407) -/
  | nvmeFlush (cmd : Nat)
  /-- NVME_WRITE_ZEROES: Write Zeroes zeroes blocks of a volume. (R399) -/
  | nvmeWriteZeroes (cmd : Nat)
  /-- NVME_DATASET_MANAGEMENT: Dataset Management deallocates ranges of a volume. (R399) -/
  | nvmeDatasetManagement (cmd : Nat)
  /-- NVME_CREATE_IO_SQ: Create I/O SQ creates a submission queue from the port's pool. (R400) -/
  | nvmeCreateIoSq (cmd pick : Nat)
  /-- NVME_CREATE_IO_CQ: Create I/O CQ creates a completion queue with its vector. (R402) -/
  | nvmeCreateIoCq (cmd pick : Nat)
  /-- NVME_DELETE_IO_SQ: Delete I/O SQ deletes a submission queue. (R399) -/
  | nvmeDeleteIoSq (cmd : Nat)
  /-- NVME_DELETE_IO_CQ: Delete I/O CQ deletes a completion queue. (R399) -/
  | nvmeDeleteIoCq (cmd : Nat)
  /-- NVME_IDENTIFY: Identify reports the controller, namespace or namespace list data. (R399) -/
  | nvmeIdentify (cmd : Nat)
  /-- NVME_GET_LOG_PAGE: Get Log Page returns a log page and removes returned deferred-error entries unless retained. (R409)
  -/
  | nvmeGetLogPage (cmd : Nat) (pages : List Nat)
  /-- NVME_ABORT: Abort catches a named command before it has effect or reports it not caught. (R413) -/
  | nvmeAbort (cmd : Nat)
  /-- NVME_SET_FEATURES: Set Features changes arbitration, power state, write cache, queues, coalescing or event
  configuration. (R411) -/
  | nvmeSetFeatures (cmd : Nat)
  /-- NVME_GET_FEATURES: Get Features reports a feature value. (R399) -/
  | nvmeGetFeatures (cmd : Nat)
  /-- NVME_ASYNC_EVENT_REQUEST: An Asynchronous Event Request is held until an event completes it. (R408) -/
  | nvmeAsyncEventRequest (cmd : Nat)
  /-- NVME_UNSUPPORTED_OPCODE: An unimplemented NVMe opcode completes with Invalid Command Opcode. (R399) -/
  | nvmeUnsupportedOpcode (cmd : Nat)
  /-- POWER_STATE_ENTRY_END: Entry to a power state ends, Set Features completes and held CQ entries are posted. (R412) -/
  | powerStateEntryEnd (ctrl : Nat)
  /-- BACKEND_COMPLETION: A backend request completes and its presented command or write-back proceeds. (R407) -/
  | backendCompletion (req status : Nat) (data : Bytes)
  /-- BACKEND_TIMEOUT: A backend request without reply for BACKEND_MS is abandoned and its command completes Command
  Interrupted. (R410) -/
  | backendTimeout (req : Nat)
  /-- WRITE_BACK: Dirty cache blocks are written back to the backend in the background. (R407) -/
  | writeBack (vol lo n : Nat) (poisoned : List Nat)
  /-- REMOTE_RESPONSE: A remote capsule response completes its request, or is discarded with an unknown CID. (R415) -/
  | remoteResponse
  /-- CTRL_CREATE: CTRL_CREATE creates a DISABLED controller with its admin queue. (R418) -/
  | ctrlCreate (ring pick pickSq pickCq : Nat)
  /-- CTRL_ENABLE: CTRL_SET ENABLE moves a DISABLED controller to READY. (R403) -/
  | ctrlEnable (ring : Nat)
  /-- CTRL_SHUTDOWN_NORMAL: CTRL_SET SHUTDOWN normal moves a READY controller to SHUTTING with write-back. (R403) -/
  | ctrlShutdownNormal (ring : Nat)
  /-- CTRL_SHUTDOWN_ABRUPT: CTRL_SET SHUTDOWN abrupt moves a READY controller to SHUTTING without write-back. (R403) -/
  | ctrlShutdownAbrupt (ring : Nat)
  /-- CTRL_SHUTDOWN_DONE: Started commands complete and dirty blocks are written back, and the controller becomes SHUT.
  (R403) -/
  | ctrlShutdownDone (ctrl : Nat)
  /-- CTRL_RESET: CTRL_SET RESET moves a controller to RESETTING and ends its commands. (R416) -/
  | ctrlReset (ring : Nat)
  /-- CTRL_RESET_DONE: Every command has ended, I/O queues are deleted and the controller becomes DISABLED. (R403) -/
  | ctrlResetDone (ctrl : Nat)
  /-- CTRL_DESTROY: CTRL_DESTROY frees a DISABLED controller and removes its attachments. (R418) -/
  | ctrlDestroy (ring : Nat)
  /-- VOL_CREATE: VOL_CREATE creates a volume with its parameters. (R398) -/
  | volCreate (ring pick : Nat) (ident : Identified)
  /-- VOL_DESTROY: VOL_DESTROY removes an unattached volume and discards its dirty blocks. (R418) -/
  | volDestroy (ring : Nat)
  /-- VOL_BIND: VOL_BIND gives a REMOTE volume a new connection. (R410) -/
  | volBind (ring : Nat)
  /-- NS_ATTACH: NS_ATTACH presents a volume to a controller under an NSID. (R399) -/
  | nsAttach (ring : Nat)
  /-- NS_DETACH: NS_DETACH removes an attachment once its started commands complete. (R418) -/
  | nsDetach (ring : Nat)
  /-- STO_QUERY: STO_QUERY reports a controller or a volume. (R418) -/
  | stoQuery (ring : Nat)
  /-- PN_WFE: PN.WFE returns armed latch bits or sleeps the thread in WAITING. (R430) -/
  | pnWfe (thread rd : Nat) (value : BitVec 64)
  /-- WFE_WAKE: An armed latch bit set wakes a WAITING thread and clears the bits. (R430) -/
  | wfeWake (thread : Nat)
  /-- PN_EVSEND: PN.EVSEND sets the GROUP or FOREIGN latch bit of a thread. (R424) -/
  | pnEvsend (thread : Nat) (value : BitVec 64)
  /-- PN_GRSV: PN.GRSV reserves the lowest FREE slot of a gallery or returns 0. (R435) -/
  | pnGrsv (thread rd : Nat) (value : BitVec 64)
  /-- PN_GSEAL: PN.GSEAL seals a reserved slot with release semantics. (R425) -/
  | pnGseal (thread rd : Nat) (value : BitVec 64)
  /-- PN_GTAKE: PN.GTAKE takes the oldest sealed slot with acquire semantics. (R435) -/
  | pnGtake (thread rd : Nat) (value : BitVec 64)
  /-- PN_GFREE: PN.GFREE returns a TAKEN slot to FREE. (R424) -/
  | pnGfree (thread : Nat) (value : BitVec 64)
  /-- PN_DTIME: PN.DTIME returns the Datum short of the thread's island replica. (R424) -/
  | pnDtime (thread rd : Nat)
  /-- PENLITH_ILLEGAL_INSTRUCTION: An unused custom-0 encoding or custom-1 raises an illegal-instruction exception. (R424) -/
  | penlithIllegalInstruction (thread : Nat) (word : BitVec 32)
  /-- THREAD_TIMER_EXPIRY: Datum reaching PNL_THR_TIMERt sets the thread's TIMER latch bit. (R429) -/
  | threadTimerExpiry (thread : Nat)
  /-- WAIT_DEADLOCK: A wait group unable to wake itself for 64 cycles is snapshotted and its lowest thread woken with an
  exception. (R433) -/
  | waitDeadlock (cluster group : Nat)
  /-- DEADLOCK_SNAPSHOT_CLEAR: A write of 1 to PNL_DLK_GRP.VALID frees the snapshot. (R433) -/
  | deadlockSnapshotClear (cluster : Nat)
  /-- GALLERY_SEND: The cluster inlet consumes a sealed send-gallery slot as one packet, or frees a bad slot unsent. (R436)
  -/
  | gallerySend (cluster gallery : Nat)
  /-- GALLERY_DELIVERY: The cluster outlet writes a packet into a free delivery-gallery slot behind its header. (R437) -/
  | galleryDelivery (cluster : Nat)
  /-- GALLERY_ENABLE: Setting or clearing PNL_GALg.EN is checked and applied or refused. (R447) -/
  | galleryEnable (cluster gallery : Nat) (value : BitVec 64)
  /-- THREAD_START: OP START runs a STOPPED thread at PNL_THR_PCt. (R447) -/
  | threadStart (thread : Nat)
  /-- THREAD_STOP: OP STOP stops a thread and discards its reservations. (R447) -/
  | threadStop (thread : Nat)
  /-- THREAD_HALT: OP HALT halts a thread at an instruction boundary or is refused for a timed thread outside DEBUG. (R438)
  -/
  | threadHalt (thread : Nat)
  /-- THREAD_RESUME: OP RESUME returns a HALTED thread to RUNNING or WAITING and sets RESUME. (R441) -/
  | threadResume (thread : Nat)
  /-- THREAD_KICK: OP KICK sets the thread's FOREIGN latch bit. (R429) -/
  | threadKick (thread : Nat)
  /-- GALLERY_ABANDON: PNL_GAL_ABANDON returns a long-halted thread's reserved slots to FREE or is refused. (R442) -/
  | galleryAbandon (cluster thread gallery : Nat)
  /-- THREAD_MIGRATE: PNL_MIGRATE GO stops two threads and exchanges their contexts. (R446) -/
  | threadMigrate (cluster t u : Nat)
  /-- MIGRATE_DONE: The context exchange completes, BUSY clears and MIGRATE_DONE is raised. (R446) -/
  | migrateDone (cluster : Nat)
  /-- CLUSTER_FREQ_WRITE: A FREQ write changes the cluster clock or is refused while a timed thread runs. (R427) -/
  | clusterFreqWrite (cluster : Nat) (value : BitVec 32)
  /-- CAIRN_CLAIM: A CRN_CLAIMt read claims the highest pending source for the thread. (R444) -/
  | cairnClaim (cluster t : Nat) (who : Party)
  /-- CAIRN_COMPLETE: A CRN_COMPLETEt write clears INSERV of a source. (R444) -/
  | cairnComplete (cluster source : Nat)
  /-- CAIRN_RAISE: A CRN_RAISE write raises a software source. (R443) -/
  | cairnRaise (cluster source : Nat)
  /-- CORE_FAULT: A core fault stops the core, moves its threads to stopped reserve contexts and marks it FAILED. (R479) -/
  | coreFault (core : Nat)
  /-- POWER_ON_RESET: POR_N rising with supplies in tolerance ends power-on reset and starts the boot sequence. (R529) -/
  | powerOnReset (found : BootFound)
  /-- SYS_RESET: SYS_RST_N low for 1 us resets the device without clearing STRIKES. (R530) -/
  | sysReset
  /-- IMAGE_CHUNK_WRITTEN: A 64 KiB chunk of an image lands in its hold region, is locked and releases stalled fetches.
  (R453) -/
  | imageChunkWritten (cls : Nat) (ok : Bool)
  /-- IMAGE_TAG_CHECK: The tag check of a copy completes and releases held outputs, or discards them and tries the other
  copy. (R454) -/
  | imageTagCheck (cls : Nat) (ok : Bool)
  /-- UNIT_READY: A unit reports ready and the boot sequence advances, reaching BOOT_STATE 2 or the step-9 seal. (R456) -/
  | unitReady (cls unit : Nat) (ok : Bool)
  /-- UNIT_READY_TIMEOUT: A unit not ready 100 ms after its tag matches fails its copy with reason 8. (R456) -/
  | unitReadyTimeout (cls unit : Nat)
  /-- HOLD_REGION_WRITE_FAULT: A write to a locked hold region is refused and the unit restarted with reason 7. (R455) -/
  | holdRegionWriteFault (cls : Nat) (who : Party) (addr : Nat)
  /-- MINIMAL_RETRY: Every RETRY_S in minimal mode the ROM retries the privileged classes. (R462) -/
  | minimalRetry
  /-- SVY_COMMIT: A write to SVY_COMMIT commits a TRIAL copy or sets COMMIT_ERR. (R466) -/
  | svyCommit (cls : Nat)
  /-- COMMIT_TIME_UPDATE: The committed running time is added to the boot record, and reaching HOURS raises the floor.
  (R466) -/
  | commitTimeUpdate
  /-- PACKAGE_SUBMIT: SUBMIT checks a package in the staging buffer in the order of Table 17.7. (R470) -/
  | packageSubmit (who : Party)
  /-- IMAGE_PACKAGE_INSTALL: A passing image package is sealed into flash as PENDING or committed and loaded at once. (R465)
  -/
  | imagePackageInstall (ok : Bool)
  /-- EPOCH_ADVANCE: A passing epoch order reseals the boot record, blows epoch fuses and starts the re-wrap. (R468) -/
  | epochAdvance (ok : Bool)
  /-- OWNER_SLOT_REVOKE: A passing revocation package blows the revocation fuse of an owner slot. (R469) -/
  | ownerSlotRevoke
  /-- NOTICE_ACK: A write of 1 to SVY_NOTICE_ACK acknowledges the notice. (R473) -/
  | noticeAck
  /-- HBM_ROW_REPAIR: A row with 16 corrected errors in 24 h is copied to a repair row and redirected. (R478) -/
  | hbmRowRepair (channel bank row : Nat)
  /-- UNCORRECTABLE_ERROR: An error beyond correction poisons the data, sets IMPAIRED and breaks the contracts on the unit.
  (R482) -/
  | uncorrectableError (channel : Option Nat) (lines : List Nat)
  /-- MEMORY_SCRUB: Every SRAM is scrubbed at least once every 24 h and corrected errors counted. (R477) -/
  | memoryScrub (corrected : Nat)
  /-- LOCKSTEP_MISMATCH: A Surveyor lockstep disagreement restarts the Surveyor island alone. (R481) -/
  | lockstepMismatch
  /-- SURVEYOR_RESTART_DONE: The Surveyor island finishes reloading class 0 and resumes service. (R481) -/
  | surveyorRestartDone
  /-- HEALTH_COAL_EXPIRY: A health message held by COAL_US is sent when the interval ends. (R486) -/
  | healthCoalExpiry (port : Nat)
  /-- PROT_LOG_POP: A write of 1 to HLT_PROT_POP removes the oldest protection log entry. (R488) -/
  | protLogPop
  /-- SURVEY_READ_ADVANCE: A write to HLT_SURV_RD advances the read pointer. (R490) -/
  | surveyReadAdvance (value : Nat)
  /-- WEAR_SAMPLE: Every 10 minutes wear is sampled from each attachment and REPLACE_BY and SOON recomputed. (R493) -/
  | wearSample (record : Nat) (reading : WearReading)
  /-- CONSUMABLES_SAVE: Consumables records are copied to the boot record hourly and on removal. (R495) -/
  | consumablesSave
  /-- HLT_SNAPSHOT: HLT_SNAPSHOT writes the health snapshot to a host buffer. (R497) -/
  | hltSnapshot (ring : Nat) (permitted : Bool)
  /-- SURVEY_DRAIN: SURVEY_DRAIN copies unread survey records and advances HLT_SURV_RD. (R497) -/
  | surveyDrain (ring : Nat) (permitted : Bool)
  /-- MCTP_CONTROL: An MCTP control request, including Set Endpoint ID, is served. (R503) -/
  | mctpControl (b cmd op eid : Nat)
  /-- I3C_ADDRESS_ASSIGN: SETDASA or ENTDAA assigns the I3C target address. (R501) -/
  | i3cAddressAssign (static : Option Nat) (dynamic : Nat)
  /-- MCTP_NOT_READY: A request before class 0 runs, during a Surveyor restart or beyond four outstanding is answered not
  ready. (R505) -/
  | mctpNotReady (b kind code : Nat)
  /-- THEIVO_REG_READ: REG_READ returns a control-space register to the BMC or denies it. (R506) -/
  | theivoRegRead (b addr : Nat)
  /-- THEIVO_REG_WRITE: REG_WRITE writes a control-space register for the BMC or denies it. (R506) -/
  | theivoRegWrite (b addr : Nat) (data : Bytes)
  /-- THEIVO_DP_READ: DP_READ reads the data-port aperture for the BMC. (R506) -/
  | theivoDpRead (b off n : Nat)
  /-- THEIVO_DP_WRITE: DP_WRITE writes the data-port aperture for the BMC. (R506) -/
  | theivoDpWrite (b off : Nat) (data : Bytes)
  /-- PLDM_GET_PDR: GetPDR returns a record of the fixed PDR repository. (R507) -/
  | pldmGetPdr (b handle : Nat)
  /-- PLDM_GET_SENSOR_READING: GetSensorReading returns a numeric sensor. (R507) -/
  | pldmGetSensorReading (b sensor : Nat)
  /-- PLDM_GET_STATE_SENSOR_READINGS: GetStateSensorReadings returns state sensors. (R507) -/
  | pldmGetStateSensorReadings (b sensor : Nat)
  /-- PLDM_SET_EVENT_RECEIVER: SetEventReceiver names the receiver of platform events. (R508) -/
  | pldmSetEventReceiver (b eid enable : Nat)
  /-- PLDM_EVENT_RETRY: An unacknowledged platform event is repeated up to three times at 1 s intervals. (R508) -/
  | pldmEventRetry (sensor : Nat) (acked : Bool)
  /-- PLDM_BASE_REQUEST: A PLDM Base request is answered. (R507) -/
  | pldmBaseRequest (b cmd arg : Nat)
  /-- REQUEST_UPDATE: RequestUpdate gives the staging buffer to a firmware update or is refused. (R510) -/
  | requestUpdate (b cls len : Nat)
  /-- FIRMWARE_DATA_RECEIVE: A 1,024-byte firmware data piece arrives into the staging buffer and the next is requested.
  (R509) -/
  | firmwareDataReceive (b : Nat) (data : Bytes)
  /-- FIRMWARE_VERIFY_APPLY: After the last piece the package is checked and written and VerifyComplete and ApplyComplete
  are sent. (R509) -/
  | firmwareVerifyApply (b : Nat) (ok : Bool)
  /-- ACTIVATE_FIRMWARE: ActivateFirmware reports activation by reset or no activation needed. (R509) -/
  | activateFirmware (b : Nat) (selfContained : Bool)
  /-- CANCEL_UPDATE: CancelUpdate ends the update and releases the staging buffer. (R510) -/
  | cancelUpdate (b : Nat)
  /-- UPDATE_IDLE_TIMEOUT: 60 s without an update request releases the staging buffer. (R510) -/
  | updateIdleTimeout
  /-- SPDM_NEGOTIATE: SPDM version, capability and algorithm requests negotiate ECDSA P-384 with SHA-384. (R511) -/
  | spdmNegotiate (b code version : Nat) (offers : Bool) (request : Bytes)
  /-- SPDM_GET_CERTIFICATE: A certificate request returns the chain of slot 0. (R512) -/
  | spdmGetCertificate (b slot off len : Nat) (request : Bytes)
  /-- SPDM_CHALLENGE: CHALLENGE is answered under the identity key. (R512) -/
  | spdmChallenge (b slot : Nat) (request : Bytes)
  /-- SPDM_GET_MEASUREMENTS: GET_MEASUREMENTS returns the measurements of Table 19.4, signed. (R513) -/
  | spdmGetMeasurements (b index : Nat) (signed : Bool) (request : Bytes)
  /-- DP_LOCK_CLAIM: A read of SVY_DP_LOCK claims a free data port for the reading party. (R514) -/
  | dpLockClaim (who : Party)
  /-- DP_RELEASE: RELEASE from the owner frees the data port. (R514) -/
  | dpRelease (who : Party)
  /-- DP_IDLE_TIMEOUT: 1 s without an access by the owner releases the data port. (R514) -/
  | dpIdleTimeout
  /-- DP_APERTURE_ACCESS: An aperture access reads or writes the selected space at ADDR and advances ADDR when AUTO. (R516)
  -/
  | dpApertureAccess (who : Party) (off n : Nat) (data : Option Bytes)
  /-- DP_DUMP: A write of 1 to DUMP starts a debug dump snapshot. (R517) -/
  | dpDump (who : Party)
  /-- DUMP_DONE: The debug dump is captured and DUMP_BUSY clears. (R517) -/
  | dumpDone
  /-- DEBUG_NONCE_NEW: NEW sets a fresh 32-byte nonce from the DRBG. (R519) -/
  | debugNonceNew
  /-- DEBUG_TOKEN_SUBMIT: SUBMIT starts the check of the debug token. (R519) -/
  | debugTokenSubmit
  /-- DEBUG_TOKEN_CHECK_DONE: The token check ends, sets LEVEL or counts a failure, and consumes the nonce. (R519) -/
  | debugTokenCheckDone
  /-- DEBUG_LOCK: LOCK sets the debug level to 0. (R519) -/
  | debugLock
  /-- SUPPLY_FAULT: A monitored rail out of tolerance for 2 us causes power-on reset and drives THERMTRIP_N low. (R529) -/
  | supplyFault
  /-- THERMAL_TRIP: A die at 115 °C or an HBM stack at 105 °C drives THERMTRIP_N low and stops every island. (R533) -/
  | thermalTrip
  /-- SENSOR_SAMPLE: Every 1 ms temperatures and package power are read and the thermal status updated. (R538) -/
  | sensorSample (temps : List Int) (power : Nat)
  /-- AVS_STEP_ACK: The regulator acknowledges an AVS step and the next step toward the target is sent. (R526) -/
  | avsStepAck (rail : Nat)
  /-- AVS_TIMEOUT: An AVS request unacknowledged for 1 ms holds the voltage, sets ERR and retries each second. (R527) -/
  | avsTimeout (rail : Nat) (marginOk : Bool)
  /-- REFCLK_LOSS: Loss of a reference clock takes down its links or lanes, or holds the system clock frequency. (R532) -/
  | refclkLoss (clock : Nat)
  /-- AER_ERROR_MESSAGE: A correctable or non-fatal error message from the component below a root port is counted or passed
  to the storage engine. (R140) -/
  | aerErrorMessage (port severity : Nat)
  /-- ATS_PRI_ENABLE_CHANGE: A host write that disables or re-enables ATS or PRI of a function changes page-request
  behaviour, including lifting the stop after Response Failure. (R133) -/
  | atsPriEnableChange (port pf : Nat) (ats pri : Bool)
  /-- INTERRUPT_COALESCING_EXPIRY: The aggregation time of the Interrupt Coalescing feature runs out and the CQ's MSI-X
  vector is sent. (R402) -/
  | interruptCoalescingExpiry (ctrl queue : Nat)
  /-- POWER_STATE_EXIT_END: A presented controller finishes leaving a non-operational power state, resumes fetching its I/O
  SQs and posts its held CQ entries. (R412) -/
  | powerStateExitEnd (ctrl : Nat)
  /-- RALUSH_MALFORMED_DISCARD: A Ralush packet whose VER is not 1, or whose TYPE is 0 or 9–15, reaches the engine and is
  discarded and counted in RLT_BAD_HDR. (R349) -/
  | ralushMalformedDiscard
  /-- MCTP_MESSAGE_DISCARD: An MCTP message of an unaccepted type, or longer than 4,224 bytes, or an SMBus packet whose PEC
  fails, is discarded. (R503) -/
  | mctpMessageDiscard
  /-- TAP_INSTRUCTION_LOAD: An instruction loaded through the TAP is run, or refused until unlock allows it. (R518) -/
  | tapInstructionLoad (instr : Nat)
  /-- REFCLK_RETURN: A lost reference clock returns: the clock generators follow SYS_REFCLK again, or the affected lanes and
  links can lock and train again. (R532) -/
  | refclkReturn (clock : Nat)
  deriving DecidableEq, Repr

end Sys2Proof
end

