-- ==== Sys2Proof/Config.lean ====
section
/-! DEFINITION. What one part's fuses and boards fix, and the free values: constants without a body, so that no
statement can rest on a number the model chose (notes/assumptions/2, 3). -/

namespace Sys2Proof.Config

/-- A value the spec leaves open: the n-th one drawn is any word. -/
opaque freeWord : Nat → BitVec 64

/-- The MAC address base in fuses (Table 8.7, NET_SRC_MAC). -/
opaque fusedMacBase : BitVec 48

/-- What the spec states no value for: the term of a code that a network port publishes while it is not UP, and the capacity of an
outlet that has none in Table 3.6 (notes/assumptions/14). -/
opaque unpublished : Nat → Nat → Nat

/-- The device serial number in fuses (Table 5.5). -/
opaque fusedSerial : BitVec 64

/-- The Vendor ID every function reports (Table 5.5). -/
opaque vendorId : BitVec 16

/-- The fused asymmetry constant of a node's spine delay, in ps, plus 20: at most 20 ps either way (R47). -/
opaque fusedSpineAsym : Nat → Fin 41

/-- The graticule node of a feed of a sett store port, by port instance and index: assigned at the factory (Table 4.3). -/
opaque settFeedNode : Nat → Nat → Nat

/-- Completion timeout, in ms, of a value of Device Control 2 other than the default (R134). -/
opaque cplRange : Nat → Nat

/-- A path from an inlet to an outlet through a bench uses a graticule link: link, inlet, outlet, bench (R97; the spec gives no
topology of the links). -/
opaque linkOnPath : Nat → Nat → Nat → Nat → Bool

/-- The forward cipher operation of FIPS 197 on one block, under a key of 128 or (true) 256 bits (R316). -/
opaque aesEnc : Bool → BitVec 256 → BitVec 128 → BitVec 128

/-- The inverse cipher operation (R316). -/
opaque aesDec : Bool → BitVec 256 → BitVec 128 → BitVec 128

/-- What loaded microcode makes of a packet in modes 5-7 (R337): mode, key pair, the parameter bytes, the packet. -/
opaque microcode : Nat → BitVec 256 → BitVec 256 → BitVec 32 → Bytes → Bytes

/-- Key epoch, revoked and filled owner key slots in fuses as shipped, laid out as SVY_EPOCH (Table 17.8). -/
opaque fusedEpoch : BitVec 32

/-- SHA-384 hash of an owner key slot in fuses (R469). -/
opaque slotHash : Nat → BitVec 384

/-- Header of an image copy in flash as shipped, by class x 2 + device (R451). -/
opaque shippedHeader : Nat → BitVec 1024

/-- SHA-384 (FIPS 180-4). -/
opaque sha384 : Bytes → BitVec 384

/-- Signature check (R463): ALG, public key, message, signature. -/
opaque verifies : Nat → Bytes → Bytes → Bytes → Bool

/-- HMAC-SHA-384 of a sealed image under KDF(device-unique key, "img-seal", epoch) (R451). -/
opaque sealTag : Nat → Bytes → BitVec 384

/-- Key-wrapping key of a key epoch: KDF(device-unique key, "sa-wrap", epoch) (R322). -/
opaque wrapKey : Nat → BitVec 256

/-- Signature of the SPDM identity key (R512): 96 bytes. -/
opaque identitySign : Bytes → Nat → BitVec 768

/-- Certificate chain of SPDM slot 0 (R512). -/
opaque certChain : Bytes

/-- Manufacturer field of IDCODE (R518). -/
opaque jtagMaker : BitVec 11

/-- Internal address of a cluster's hold region, 48 MiB at the top of HBM stack k / 2 (Table 17.1). -/
opaque holdBase : Nat → BitVec 64

/-- An address of the key-cache region or of an output-hold buffer in internal memory (Table 19.5). -/
opaque keptFromPort : Nat → Bool

/-- The station and board records as they stand in flash, for their digest (Table 19.4): stations, cages, SMBus and I3C
addresses. -/
opaque recordBytes : List (BitVec 32) → List (BitVec 32) → Option Nat → Option Nat → Bytes

/-- Record of the fixed PDR repository by handle; an empty one is none (R507). -/
opaque pdr : Nat → Bytes

/-- Fused AVS target of a rail in mV (R526). -/
opaque fusedAvs : Nat → Nat

/-- An address of internal memory in a region that the memory firewall gives to one engine alone or locks (R122, R257, R323, R407). -/
opaque firewalled : Nat → Bool

end Sys2Proof.Config
end

