-- ==== Sys2Proof/Machine/RegMap.lean ====
section
/-! DEFINITION. The register map: every register field of the spec's tables as an address and a place
of bits (Fld), and one row per register (RegSpec) with its fields, access codes, stored-as rules and
reset values, as Tables 2.5 to 20.12 print them (R8, R9, R10, R27). -/

namespace Sys2Proof.Machine

/-- A field of a register: the register's address, the lowest bit and the width (R6, R9). -/
structure Fld where
  addr : Nat
  lo : Nat
  width : Nat
  deriving DecidableEq, Repr

/-- Access codes of Table 0.5. -/
inductive Acc | rw | ro | wo | w1c | rwl | rws
  deriving DecidableEq, Repr

/-- One field of a register map. stored lists (from, to, value): a written value from..to is stored as value. -/
structure FieldSpec where
  name : String
  lo : Nat
  width : Nat
  acc : Acc
  stored : List (Nat × Nat × Nat)
  reset : Nat
  deriving Repr

/-- One register of a block, or an array of them: base address, (count, stride) of each index, size in bytes. -/
structure RegSpec where
  name : String
  base : Nat
  dims : List (Nat × Nat)
  bytes : Nat
  fields : List FieldSpec
  deriving Repr

/-- Registers of the SVY_ block, part 1. -/
def svyRegs0 : List RegSpec := [
  ⟨"SVY_CTRL", 0x0, [], 4,
    [⟨"FORCE_MIN", 0, 1, .rws, [], 0⟩,
     ⟨"RETRY_S", 1, 16, .rws, [(0, 0, 1)], 0x3c⟩]⟩,
  ⟨"SVY_BOOT_STATUS", 0x4, [], 4,
    [⟨"STATE", 0, 4, .ro, [], 0⟩,
     ⟨"STRIKES", 4, 2, .ro, [], 0⟩,
     ⟨"SEALED", 6, 1, .ro, [], 0⟩,
     ⟨"COMMIT_ERR", 7, 1, .w1c, [], 0⟩]⟩,
  ⟨"SVY_BOOT_CAUSE", 0x8, [], 4,
    [⟨"CODE", 0, 8, .ro, [], 0⟩,
     ⟨"CLASS", 8, 4, .ro, [], 0⟩,
     ⟨"REASON_A", 12, 4, .ro, [], 0⟩,
     ⟨"REASON_B", 16, 4, .ro, [], 0⟩]⟩,
  ⟨"SVY_RELEASE", 0xc, [], 4,
    [⟨"CLUSTER", 0, 8, .ro, [], 0⟩]⟩,
  ⟨"SVY_EPOCH", 0x10, [], 4,
    [⟨"EPOCH", 0, 6, .ro, [], 0⟩,
     ⟨"SLOT_REVOKED", 6, 4, .ro, [], 0⟩,
     ⟨"SLOT_FILLED", 10, 4, .ro, [], 0⟩]⟩,
  ⟨"SVY_IMG_STATUS", 0x40, [(6, 0x8)], 8,
    [⟨"STATE", 0, 3, .ro, [], 0⟩,
     ⟨"COPY", 3, 1, .ro, [], 0⟩,
     ⟨"REASON_A", 4, 4, .ro, [], 0⟩,
     ⟨"REASON_B", 8, 4, .ro, [], 0⟩,
     ⟨"A_STATE", 12, 2, .ro, [], 0⟩,
     ⟨"B_STATE", 14, 2, .ro, [], 0⟩,
     ⟨"HOLD_FAULT", 16, 1, .w1c, [], 0⟩,
     ⟨"VERSION", 32, 32, .ro, [], 0⟩]⟩,
  ⟨"SVY_FLOOR", 0x80, [(6, 0x4)], 4,
    [⟨"FLOOR", 0, 32, .ro, [], 0⟩]⟩,
  ⟨"SVY_COMMIT", 0xa0, [], 4,
    [⟨"CLASS", 0, 4, .wo, [], 0⟩]⟩,
  ⟨"SVY_COMMIT_CFG", 0xa4, [], 4,
    [⟨"HOURS", 0, 16, .rw, [(0, 0, 1)], 0x48⟩]⟩,
  ⟨"SVY_RECOV_CTRL", 0xb0, [], 4,
    [⟨"SUBMIT", 0, 1, .wo, [], 0⟩]⟩,
  ⟨"SVY_RECOV_STATUS", 0xb4, [], 4,
    [⟨"BUSY", 0, 1, .ro, [], 0⟩,
     ⟨"RESULT", 8, 8, .ro, [], 0⟩]⟩,
  ⟨"SVY_RECOV_LEN", 0xb8, [], 4,
    [⟨"LEN", 0, 32, .rw, [], 0⟩]⟩]

/-- Registers of the SVY_ block, part 2. -/
def svyRegs1 : List RegSpec := [
  ⟨"SVY_NOTICE", 0x100, [(16, 0x4)], 4,
    [⟨"NOTICE", 0, 32, .ro, [], 0⟩]⟩,
  ⟨"SVY_NOTICE_ACK", 0x140, [], 4,
    [⟨"ACK", 0, 1, .wo, [], 0⟩]⟩,
  ⟨"SVY_DP_LOCK", 0x1000, [], 4,
    [⟨"GRANTED", 0, 1, .ro, [], 0⟩,
     ⟨"RELEASE", 1, 1, .wo, [], 0⟩,
     ⟨"OWNER", 2, 2, .ro, [], 0⟩,
     ⟨"PORT", 4, 6, .ro, [], 0⟩]⟩,
  ⟨"SVY_DP_CTRL", 0x1004, [], 4,
    [⟨"SPACE", 0, 2, .rw, [], 0⟩,
     ⟨"AUTO", 2, 1, .rw, [], 1⟩,
     ⟨"DUMP", 3, 1, .wo, [], 0⟩]⟩,
  ⟨"SVY_DP_STATUS", 0x1008, [], 4,
    [⟨"DENIED", 0, 1, .w1c, [], 0⟩,
     ⟨"RANGE", 1, 1, .w1c, [], 0⟩,
     ⟨"DUMP_BUSY", 2, 1, .ro, [], 0⟩,
     ⟨"DUMP_LEN", 8, 24, .ro, [], 0⟩]⟩,
  ⟨"SVY_DP_ADDR", 0x1010, [], 8,
    [⟨"ADDR", 0, 48, .rw, [], 0⟩]⟩,
  ⟨"SVY_THERM_CFG", 0x3000, [], 4,
    [⟨"WARN", 0, 8, .rw, [(0, 59, 60), (106, 255, 105)], 0x64⟩]⟩,
  ⟨"SVY_THERM_STATUS", 0x3004, [], 4,
    [⟨"MAX", 0, 12, .ro, [], 0⟩,
     ⟨"MAX_SENSOR", 12, 5, .ro, [], 0⟩,
     ⟨"WARN_NOW", 17, 1, .ro, [], 0⟩,
     ⟨"THROTTLE", 18, 2, .ro, [], 0⟩,
     ⟨"TRIPPED", 20, 1, .w1c, [], 0⟩]⟩,
  ⟨"SVY_TEMP", 0x3040, [(24, 0x4)], 4,
    [⟨"TEMP", 0, 12, .ro, [], 0⟩,
     ⟨"VALID", 12, 1, .ro, [], 0⟩]⟩,
  ⟨"SVY_POWER", 0x3010, [], 4,
    [⟨"PKG", 0, 13, .ro, [], 0⟩]⟩,
  ⟨"SVY_AVS_STATUS", 0x3020, [(3, 0x4)], 4,
    [⟨"VOUT_MV", 0, 10, .ro, [], 0x320⟩,
     ⟨"TARGET_MV", 10, 10, .ro, [], 0x320⟩,
     ⟨"ERR", 20, 1, .w1c, [], 0⟩]⟩]

/-- Registers of the SVY_ block. -/
def svyRegs : List RegSpec := svyRegs0 ++ svyRegs1

/-- Registers of the DTM_ block, part 1. -/
def dtmRegs0 : List RegSpec := [
  ⟨"DTM_CTRL", 0x1000000, [], 4,
    [⟨"STEP", 0, 1, .wo, [], 0⟩,
     ⟨"REVERT", 1, 1, .rw, [], 1⟩,
     ⟨"SLEW_LIMIT", 2, 8, .rw, [(0, 0, 200), (201, 255, 200)], 0x14⟩,
     ⟨"WTR_S", 10, 16, .rw, [], 0x3c⟩]⟩,
  ⟨"DTM_STATUS", 0x1000004, [], 4,
    [⟨"STATE", 0, 3, .ro, [], 0⟩,
     ⟨"SRC", 3, 2, .ro, [], 3⟩,
     ⟨"QUAL", 5, 3, .ro, [], 0⟩,
     ⟨"EPOCH_SET", 8, 1, .ro, [], 0⟩,
     ⟨"STEP_BLOCKED", 9, 1, .ro, [], 0⟩,
     ⟨"HOLD_SEL", 10, 2, .ro, [], 3⟩,
     ⟨"OFFSET", 12, 20, .ro, [], 0⟩]⟩,
  ⟨"DTM_EVENT", 0x1000008, [], 4,
    [⟨"STATE", 0, 1, .w1c, [], 0⟩,
     ⟨"SRC_CHANGE", 1, 1, .w1c, [], 0⟩,
     ⟨"STEP_BLOCKED", 2, 1, .w1c, [], 0⟩,
     ⟨"SYNCE_LOS", 3, 1, .w1c, [], 0⟩,
     ⟨"SPINE", 4, 1, .w1c, [], 0⟩]⟩,
  ⟨"DTM_NOW", 0x1000010, [], 8,
    [⟨"NS", 0, 64, .ro, [], 0⟩]⟩,
  ⟨"DTM_NOW_FRAC", 0x1000018, [], 4,
    [⟨"FRAC", 0, 16, .ro, [], 0⟩]⟩,
  ⟨"DTM_SRC_CFG", 0x1000100, [(3, 0x4)], 4,
    [⟨"EN", 0, 1, .rw, [], 0⟩,
     ⟨"PRIO", 1, 2, .rw, [], 0⟩,
     ⟨"REF_AID", 3, 1, .rw, [], 0⟩,
     ⟨"PORT", 4, 6, .rw, [], 0⟩,
     ⟨"SAMPLE_INT", 10, 18, .rw, [], 0x3d090⟩]⟩,
  ⟨"DTM_SERVO_A", 0x1000200, [], 8,
    [⟨"OFFSET", 0, 48, .wo, [], 0⟩,
     ⟨"SEQ", 48, 8, .wo, [], 0⟩]⟩,
  ⟨"DTM_SERVO_B", 0x1000208, [], 8,
    [⟨"OFFSET", 0, 48, .wo, [], 0⟩,
     ⟨"SEQ", 48, 8, .wo, [], 0⟩]⟩,
  ⟨"DTM_HOLD_CFG", 0x1000210, [], 4,
    [⟨"OSC0_EN", 0, 1, .rw, [], 0⟩,
     ⟨"OSC1_EN", 1, 1, .rw, [], 0⟩,
     ⟨"OSC0_F", 2, 1, .rw, [], 0⟩,
     ⟨"OSC1_F", 3, 1, .rw, [], 0⟩,
     ⟨"LIMIT_S", 4, 20, .rw, [], 0x15180⟩]⟩,
  ⟨"DTM_PPS_CFG", 0x1000300, [(4, 0x8)], 4,
    [⟨"EN", 0, 1, .rw, [], 0⟩,
     ⟨"POL", 1, 1, .rw, [], 0⟩,
     ⟨"RATE", 2, 2, .rw, [], 0⟩,
     ⟨"WIDTH", 4, 16, .rw, [], 0x64⟩]⟩,
  ⟨"DTM_PPS_PHASE", 0x1000304, [(4, 0x8)], 4,
    [⟨"PHASE", 0, 32, .rw, [], 0⟩]⟩,
  ⟨"DTM_SYNCE_CFG", 0x1000340, [(2, 0x4)], 4,
    [⟨"EN", 0, 1, .rw, [], 0⟩,
     ⟨"LANE", 1, 6, .rw, [], 0⟩,
     ⟨"FREQ", 7, 2, .rw, [], 0⟩,
     ⟨"SQUELCH", 9, 1, .rw, [], 1⟩]⟩]

/-- Registers of the DTM_ block, part 2. -/
def dtmRegs1 : List RegSpec := [
  ⟨"DTM_PORT_CORR", 0x1001000, [(64, 0x4)], 4,
    [⟨"RX_PS", 0, 16, .rw, [], 0⟩,
     ⟨"TX_PS", 16, 16, .rw, [], 0⟩]⟩]

/-- Registers of the DTM_ block. -/
def dtmRegs : List RegSpec := dtmRegs0 ++ dtmRegs1

/-- Registers of the ADM_ block, part 1. -/
def admRegs0 : List RegSpec := [
  ⟨"ADM_CTRL", 0x2000000, [], 4,
    [⟨"TIMED", 0, 8, .rw, [], 0xc0⟩,
     ⟨"FALLBACK", 8, 3, .rw, [], 5⟩]⟩,
  ⟨"ADM_STATUS", 0x2000004, [], 4,
    [⟨"READY", 0, 1, .ro, [], 0⟩,
     ⟨"MARGIN_LOST", 1, 1, .ro, [], 0⟩,
     ⟨"NO_SPARE", 2, 1, .ro, [], 0⟩,
     ⟨"CFG_REJECT", 3, 1, .ro, [], 0⟩,
     ⟨"CONTRACTS", 4, 17, .ro, [], 0⟩]⟩,
  ⟨"ADM_EVENT", 0x2000008, [], 4,
    [⟨"MISS", 0, 1, .w1c, [], 0⟩,
     ⟨"BROKEN", 1, 1, .w1c, [], 0⟩,
     ⟨"MARGIN_LOST", 2, 1, .w1c, [], 0⟩,
     ⟨"SUSPEND", 3, 1, .w1c, [], 0⟩,
     ⟨"CFG_REJECT", 4, 1, .w1c, [], 0⟩]⟩,
  ⟨"ADM_GEN", 0x200000c, [], 4,
    [⟨"GENERATION", 0, 32, .ro, [], 0⟩]⟩,
  ⟨"ADM_RES_SHARE", 0x2000010, [], 4,
    [⟨"BENCH", 0, 8, .rw, [], 0x80⟩,
     ⟨"STORE", 8, 8, .rw, [], 0x80⟩,
     ⟨"SETT", 16, 8, .rw, [], 0x40⟩]⟩,
  ⟨"ADM_MISS_CNT", 0x2000018, [], 8,
    [⟨"COUNT", 0, 64, .ro, [], 0⟩]⟩,
  ⟨"ADM_MISS_EXT_CNT", 0x2000020, [], 8,
    [⟨"COUNT", 0, 64, .ro, [], 0⟩]⟩,
  ⟨"ADM_OUT_CFG", 0x2001000, [(128, 0x4)], 4,
    [⟨"SHARE", 0, 8, .rw, [], 0x80⟩,
     ⟨"PM", 8, 2, .rw, [], 0⟩,
     ⟨"CREDIT_NS", 10, 16, .rw, [], 0⟩]⟩]

/-- Registers of the ADM_ block. -/
def admRegs : List RegSpec := admRegs0

/-- Registers of the GRT_ block, part 1. -/
def grtRegs0 : List RegSpec := [
  ⟨"GRT_CTRL", 0x3000000, [], 4,
    [⟨"CNT_CLR", 0, 1, .wo, [], 0⟩,
     ⟨"REPEAT_LIMIT", 1, 3, .rw, [(0, 0, 1)], 3⟩]⟩,
  ⟨"GRT_STATUS", 0x3000004, [], 4,
    [⟨"LINKS_RESERVE", 0, 12, .ro, [], 0⟩,
     ⟨"LINKS_LOST", 12, 12, .ro, [], 0⟩]⟩,
  ⟨"GRT_EVENT", 0x3000008, [], 4,
    [⟨"BITE", 0, 1, .w1c, [], 0⟩,
     ⟨"RESERVE", 1, 1, .w1c, [], 0⟩,
     ⟨"LOST", 2, 1, .w1c, [], 0⟩,
     ⟨"REPEAT", 3, 1, .w1c, [], 0⟩]⟩,
  ⟨"GRT_BITE_CNT", 0x3000010, [], 4,
    [⟨"COUNT", 0, 32, .ro, [], 0⟩]⟩,
  ⟨"GRT_RETRY_CNT", 0x3000014, [], 4,
    [⟨"COUNT", 0, 32, .ro, [], 0⟩]⟩,
  ⟨"GRT_BITE_LAST", 0x3000020, [], 8,
    [⟨"INSTANCE", 0, 12, .ro, [], 0⟩,
     ⟨"KIND", 12, 4, .ro, [], 0⟩,
     ⟨"REQUESTER", 16, 12, .ro, [], 0⟩]⟩,
  ⟨"GRT_BITE_TIME", 0x3000028, [], 8,
    [⟨"TIME", 0, 64, .ro, [], 0⟩]⟩]

/-- Registers of the GRT_ block. -/
def grtRegs : List RegSpec := grtRegs0

/-- Registers of the HP_ block, part 1. -/
def hpRegs0 : List RegSpec := [
  ⟨"HP_PORT_CFG", 0x4000000, [(48, 0x10000)], 4,
    [⟨"MAX_SPEED", 0, 3, .rw, [(0, 0, 6), (7, 7, 6)], 6⟩,
     ⟨"RETRAIN", 3, 1, .wo, [], 0⟩,
     ⟨"LINK_DIS", 4, 1, .rw, [], 0⟩,
     ⟨"CPL_TO_MS", 5, 6, .rw, [(0, 0, 1), (51, 63, 50)], 0xa⟩,
     ⟨"OBS_CLR", 11, 1, .wo, [], 0⟩]⟩,
  ⟨"HP_PORT_STATUS", 0x4000004, [(48, 0x10000)], 4,
    [⟨"LINK_UP", 0, 1, .ro, [], 0⟩,
     ⟨"SPEED", 1, 3, .ro, [], 0⟩,
     ⟨"WIDTH", 4, 5, .ro, [], 0⟩,
     ⟨"FLIT", 9, 1, .ro, [], 0⟩,
     ⟨"ROLE", 10, 1, .ro, [], 0⟩,
     ⟨"PM", 11, 2, .ro, [], 0⟩,
     ⟨"CXL", 13, 1, .ro, [], 0⟩,
     ⟨"DPC", 14, 1, .ro, [], 0⟩,
     ⟨"PRESENT", 15, 1, .ro, [], 0⟩,
     ⟨"DEGRADED", 16, 1, .ro, [], 0⟩]⟩,
  ⟨"HP_EVENT", 0x4000008, [(48, 0x10000)], 4,
    [⟨"LINK", 0, 1, .w1c, [], 0⟩,
     ⟨"WIN_DONE", 1, 1, .w1c, [], 0⟩,
     ⟨"WIN_REJECT", 2, 1, .w1c, [], 0⟩,
     ⟨"CREDIT", 3, 1, .w1c, [], 0⟩,
     ⟨"DPC", 4, 1, .w1c, [], 0⟩,
     ⟨"PRESENCE", 5, 1, .w1c, [], 0⟩,
     ⟨"LATE_CPL", 6, 1, .w1c, [], 0⟩,
     ⟨"DEGRADED", 7, 1, .w1c, [], 0⟩,
     ⟨"PEER_FAULT", 8, 1, .w1c, [], 0⟩]⟩,
  ⟨"HP_PM_CFG", 0x4000020, [(48, 0x10000)], 4,
    [⟨"L1_IDLE_US", 0, 8, .rw, [(0, 0, 1)], 0x10⟩,
     ⟨"L0P_IDLE_US", 8, 8, .rw, [(0, 0, 1)], 4⟩,
     ⟨"L0P_MIN", 16, 2, .rw, [], 2⟩]⟩,
  ⟨"HP_PM_EXIT", 0x4000024, [(48, 0x10000)], 4,
    [⟨"PARTNER_EXIT_NS", 0, 20, .rw, [], 0⟩]⟩,
  ⟨"HP_WIN_COMMIT", 0x4000030, [(48, 0x10000)], 4,
    [⟨"COMMIT", 0, 1, .wo, [], 0⟩]⟩,
  ⟨"HP_WIN_STATUS", 0x4000034, [(48, 0x10000)], 4,
    [⟨"GEN", 0, 16, .ro, [], 0⟩,
     ⟨"RETIRING", 16, 1, .ro, [], 0⟩,
     ⟨"ERR", 17, 1, .ro, [], 0⟩,
     ⟨"ERR_IDX", 18, 5, .ro, [], 0⟩,
     ⟨"ERR_PF", 23, 3, .ro, [], 0⟩]⟩,
  ⟨"HP_TAG_STATUS", 0x4000040, [(48, 0x10000)], 4,
    [⟨"OUTSTANDING", 0, 13, .ro, [], 0⟩,
     ⟨"QUARANTINED", 13, 13, .ro, [], 0⟩]⟩,
  ⟨"HP_LATE_CPL_CNT", 0x4000048, [(48, 0x10000)], 4,
    [⟨"COUNT", 0, 32, .ro, [], 0⟩]⟩,
  ⟨"HP_CREDIT_OBS", 0x4000050, [(48, 0x10000)], 4,
    [⟨"MAX_NS", 0, 20, .ro, [], 0⟩]⟩,
  ⟨"HP_STN_CFG", 0x4000010, [(12, 0x40000)], 4,
    [⟨"MODE", 0, 2, .rwl, [], 0⟩,
     ⟨"ROLE", 2, 4, .rwl, [], 0⟩,
     ⟨"CLK", 6, 2, .rwl, [], 0⟩]⟩,
  ⟨"HP_PF_CFG", 0x4000100, [(48, 0x10000), (8, 0x4)], 4,
    [⟨"EN", 0, 1, .rw, [], 0⟩,
     ⟨"BAR0_LOG2", 1, 5, .rw, [(0, 19, 20), (31, 31, 20)], 0x14⟩,
     ⟨"BAR2_LOG2", 6, 6, .rw, [(1, 29, 30), (41, 63, 40)], 0⟩,
     ⟨"MSIX_N", 12, 11, .rw, [], 0x3f⟩]⟩]

/-- Registers of the HP_ block, part 2. -/
def hpRegs1 : List RegSpec := [
  ⟨"HP_WIN_SHADOW", 0x4002000, [(48, 0x10000), (1024, 8)], 8, [⟨"WORD", 0, 64, .rw, [], 0⟩]⟩,
  ⟨"HP_WIN_ACTIVE", 0x4004000, [(48, 0x10000), (1024, 8)], 8, [⟨"WORD", 0, 64, .ro, [], 0⟩]⟩]

/-- Registers of the HP_ block. -/
def hpRegs : List RegSpec := hpRegs0 ++ hpRegs1

/-- Registers of the CAD_ block, part 1. -/
def cadRegs0 : List RegSpec := [
  ⟨"MBX_STATUS", 0x5000080, [(4096, 0x1000)], 4,
    [⟨"UP_STATE", 0, 2, .ro, [], 0⟩,
     ⟨"DOWN_STATE", 2, 2, .ro, [], 0⟩,
     ⟨"STATE", 4, 3, .ro, [], 0⟩,
     ⟨"DISABLED", 7, 1, .ro, [], 0⟩,
     ⟨"UP_QUEUED", 8, 4, .ro, [], 0⟩,
     ⟨"DOWN_QUEUED", 12, 4, .ro, [], 0⟩,
     ⟨"PENDING", 16, 8, .ro, [], 0⟩]⟩,
  ⟨"CAD_ID", 0x5000800, [(4096, 0x1000)], 8,
    [⟨"PF", 0, 3, .rw, [], 0⟩,
     ⟨"PASID", 3, 20, .rw, [], 0⟩,
     ⟨"VEC_TEN", 23, 11, .rw, [], 0⟩,
     ⟨"VEC_MGR", 34, 11, .rw, [], 0⟩]⟩,
  ⟨"CAD_SHARE", 0x5000808, [(4096, 0x1000), (5, 0x8)], 8,
    [⟨"SHARE", 0, 64, .rw, [], 0⟩]⟩,
  ⟨"CAD_OP", 0x5000830, [(4096, 0x1000)], 4,
    [⟨"OP", 0, 2, .wo, [], 0⟩]⟩,
  ⟨"CAD_OP_STATUS", 0x5000834, [(4096, 0x1000)], 4,
    [⟨"STATUS", 0, 16, .ro, [], 0⟩,
     ⟨"BUSY", 16, 1, .ro, [], 0⟩,
     ⟨"FIELD", 17, 8, .ro, [], 0xff⟩]⟩,
  ⟨"CAD_USE", 0x5000840, [(4096, 0x1000), (5, 0x8)], 8,
    [⟨"USE", 0, 64, .ro, [], 0⟩]⟩]

/-- Registers of the CAD_ block. -/
def cadRegs : List RegSpec := cadRegs0

/-- Registers of the RNG_ block, part 1. -/
def rngRegs0 : List RegSpec := [
  ⟨"RNG_RSTATUS", 0x6000000, [(1048576, 0x8)], 8,
    [⟨"HEAD", 0, 32, .ro, [], 0⟩,
     ⟨"LOCAL", 32, 16, .ro, [], 0⟩,
     ⟨"STATE", 48, 3, .ro, [], 0⟩,
     ⟨"IDLE", 51, 1, .ro, [], 1⟩,
     ⟨"CAUSE", 52, 3, .ro, [], 0⟩]⟩,
  ⟨"RNG_ADMIN_BASE", 0x6800000, [(4096, 0x40)], 8,
    [⟨"BASE", 12, 52, .rw, [], 0⟩]⟩,
  ⟨"RNG_ADMIN_HEAD", 0x6800008, [(4096, 0x40)], 8,
    [⟨"HEAD_ADDR", 3, 61, .rw, [], 0⟩]⟩,
  ⟨"RNG_ADMIN_CFG", 0x6800010, [(4096, 0x40)], 4,
    [⟨"SIZE_LOG2", 0, 5, .rw, [(0, 3, 4), (17, 31, 4)], 4⟩,
     ⟨"VEC", 5, 11, .rw, [], 0⟩,
     ⟨"COAL_N", 16, 8, .rw, [], 1⟩,
     ⟨"COAL_US", 24, 8, .rw, [], 0⟩]⟩,
  ⟨"RNG_ADMIN_CTRL", 0x6800018, [(4096, 0x40)], 4,
    [⟨"OP", 0, 2, .wo, [], 0⟩,
     ⟨"ONE_WRITE", 2, 1, .wo, [], 0⟩]⟩,
  ⟨"RNG_ADMIN_START", 0x680001c, [(4096, 0x40)], 4,
    [⟨"START", 0, 32, .rw, [], 0⟩]⟩,
  ⟨"RNG_ADMIN_STATUS", 0x6800020, [(4096, 0x40)], 4,
    [⟨"STATUS", 0, 16, .ro, [], 0⟩,
     ⟨"BUSY", 16, 1, .ro, [], 0⟩]⟩,
  ⟨"RNG_EVENT", 0x6ff0000, [], 4,
    [⟨"DB_BAD", 0, 1, .w1c, [], 0⟩,
     ⟨"FETCH_FAULT", 1, 1, .w1c, [], 0⟩]⟩,
  ⟨"RNG_DB_DROP", 0x6ff0008, [], 4,
    [⟨"COUNT", 0, 32, .ro, [], 0⟩]⟩]

/-- Registers of the RNG_ block. -/
def rngRegs : List RegSpec := rngRegs0

/-- Registers of the NET_ block, part 1. -/
def netRegs0 : List RegSpec := [
  ⟨"NET_PORT_CFG", 0x7000000, [(64, 0x8000)], 4,
    [⟨"MODE", 0, 5, .rw, [], 0⟩,
     ⟨"ENABLE", 5, 1, .rw, [], 0⟩,
     ⟨"MAX_FRAME", 6, 14, .rw, [(0, 1517, 1518), (9221, 16383, 9220)], 0x5ee⟩,
     ⟨"TEST", 20, 3, .rw, [], 0⟩,
     ⟨"TEST_RATE", 23, 3, .rw, [], 0⟩]⟩,
  ⟨"NET_PORT_CTRL", 0x7000004, [(64, 0x8000)], 4,
    [⟨"RETRAIN", 0, 1, .wo, [], 0⟩,
     ⟨"RESTORE", 1, 1, .wo, [], 0⟩,
     ⟨"CNT_CLR", 2, 1, .wo, [], 0⟩]⟩,
  ⟨"NET_PORT_STATUS", 0x7000008, [(64, 0x8000)], 4,
    [⟨"STATE", 0, 3, .ro, [], 0⟩,
     ⟨"CAUSE", 3, 4, .ro, [], 0⟩,
     ⟨"CFG_ERR", 7, 1, .ro, [], 0⟩,
     ⟨"RX_PAUSED", 8, 8, .ro, [], 0⟩,
     ⟨"TX_XOFF", 16, 8, .ro, [], 0⟩]⟩,
  ⟨"NET_EVENT", 0x700000c, [(64, 0x8000)], 4,
    [⟨"STATE", 0, 1, .w1c, [], 0⟩,
     ⟨"CFG_ERR", 1, 1, .w1c, [], 0⟩,
     ⟨"PAUSE_FAIL", 2, 1, .w1c, [], 0⟩]⟩,
  ⟨"NET_PFC_CFG", 0x7000010, [(64, 0x8000)], 4,
    [⟨"RX_PFC_EN", 0, 8, .rw, [], 0x3f⟩,
     ⟨"RX_PAUSE_EN", 8, 1, .rw, [], 0⟩,
     ⟨"PAUSE_LIMIT_US", 9, 15, .rw, [(0, 0, 1)], 0x1f4⟩]⟩,
  ⟨"NET_PRIO_MAP", 0x7000014, [(64, 0x8000)], 4,
    [⟨"PRIO", 0, 24, .rw, [], 0xfac688⟩]⟩,
  ⟨"NET_HEAD_CFG", 0x7000018, [(64, 0x8000)], 4,
    [⟨"CABLE_M", 0, 14, .rw, [(10001, 16383, 10000)], 0x64⟩,
     ⟨"PARTNER_NS", 14, 16, .rw, [], 0x3e8⟩]⟩,
  ⟨"NET_HEAD_STATUS", 0x700001c, [(64, 0x8000)], 4,
    [⟨"H", 0, 20, .ro, [], 0⟩,
     ⟨"PRIOS", 20, 4, .ro, [], 0⟩]⟩,
  ⟨"NET_SRC_MAC", 0x7000020, [(64, 0x8000)], 8,
    [⟨"MAC", 0, 48, .rw, [], 0⟩]⟩,
  ⟨"NET_TEST_ERR", 0x7000028, [(64, 0x8000)], 4,
    [⟨"COUNT", 0, 32, .ro, [], 0⟩]⟩,
  ⟨"NET_CAGE_CFG", 0x7004000, [(32, 0x8000)], 4,
    [⟨"FIRST_LANE", 0, 6, .rwl, [], 0⟩,
     ⟨"LANES", 6, 4, .rwl, [], 0⟩,
     ⟨"MAX_POWER", 10, 8, .rwl, [], 0⟩]⟩,
  ⟨"NET_CAGE_STATUS", 0x7004004, [(32, 0x8000)], 4,
    [⟨"PRESENT", 0, 1, .ro, [], 0⟩,
     ⟨"MSTATE", 1, 3, .ro, [], 0⟩,
     ⟨"I3C", 4, 1, .ro, [], 0⟩,
     ⟨"ACC_BUSY", 5, 1, .ro, [], 0⟩,
     ⟨"ACC_ERR", 6, 1, .ro, [], 0⟩]⟩]

/-- Registers of the NET_ block, part 2. -/
def netRegs1 : List RegSpec := [
  ⟨"NET_CAGE_ACC", 0x7004008, [(32, 0x8000)], 4,
    [⟨"OFFSET", 0, 8, .wo, [], 0⟩,
     ⟨"PAGE", 8, 8, .wo, [], 0⟩,
     ⟨"BANK", 16, 8, .wo, [], 0⟩,
     ⟨"LEN", 24, 2, .wo, [], 0⟩,
     ⟨"WRITE", 26, 1, .wo, [], 0⟩,
     ⟨"GO", 27, 1, .wo, [], 0⟩]⟩,
  ⟨"NET_CAGE_DATA", 0x700400c, [(32, 0x8000)], 4,
    [⟨"DATA", 0, 32, .rw, [], 0⟩]⟩,
  ⟨"NET_CAGE_EVENT", 0x7004010, [(32, 0x8000)], 4,
    [⟨"PRESENCE", 0, 1, .w1c, [], 0⟩,
     ⟨"ALARM", 1, 1, .w1c, [], 0⟩,
     ⟨"ACC_DONE", 2, 1, .w1c, [], 0⟩]⟩,
  ⟨"NET_RX_FRAMES", 0x7000100, [(64, 0x8000)], 8, [⟨"COUNT", 0, 64, .ro, [], 0⟩]⟩,
  ⟨"NET_RX_BYTES", 0x7000108, [(64, 0x8000)], 8, [⟨"COUNT", 0, 64, .ro, [], 0⟩]⟩,
  ⟨"NET_RX_FCS_ERR", 0x7000110, [(64, 0x8000)], 8, [⟨"COUNT", 0, 64, .ro, [], 0⟩]⟩,
  ⟨"NET_RX_RUNT", 0x7000118, [(64, 0x8000)], 8, [⟨"COUNT", 0, 64, .ro, [], 0⟩]⟩,
  ⟨"NET_RX_OVERSIZE", 0x7000120, [(64, 0x8000)], 8, [⟨"COUNT", 0, 64, .ro, [], 0⟩]⟩,
  ⟨"NET_RX_NOT_UP", 0x7000128, [(64, 0x8000)], 8, [⟨"COUNT", 0, 64, .ro, [], 0⟩]⟩,
  ⟨"NET_RX_HEADROOM_DROP", 0x7000130, [(64, 0x8000)], 8, [⟨"COUNT", 0, 64, .ro, [], 0⟩]⟩,
  ⟨"NET_RX_PFC", 0x7000138, [(64, 0x8000)], 8, [⟨"COUNT", 0, 64, .ro, [], 0⟩]⟩,
  ⟨"NET_TX_FRAMES", 0x7000140, [(64, 0x8000)], 8, [⟨"COUNT", 0, 64, .ro, [], 0⟩]⟩]

/-- Registers of the NET_ block, part 3. -/
def netRegs2 : List RegSpec := [
  ⟨"NET_TX_BYTES", 0x7000148, [(64, 0x8000)], 8, [⟨"COUNT", 0, 64, .ro, [], 0⟩]⟩,
  ⟨"NET_TX_OVERSIZE", 0x7000150, [(64, 0x8000)], 8, [⟨"COUNT", 0, 64, .ro, [], 0⟩]⟩,
  ⟨"NET_TX_PFC", 0x7000158, [(64, 0x8000)], 8, [⟨"COUNT", 0, 64, .ro, [], 0⟩]⟩,
  ⟨"NET_FEC_CORR_CW", 0x7000160, [(64, 0x8000)], 8, [⟨"COUNT", 0, 64, .ro, [], 0⟩]⟩,
  ⟨"NET_FEC_UNCORR_CW", 0x7000168, [(64, 0x8000)], 8, [⟨"COUNT", 0, 64, .ro, [], 0⟩]⟩,
  ⟨"NET_RX_CTRL_OTHER", 0x7000170, [(64, 0x8000)], 8, [⟨"COUNT", 0, 64, .ro, [], 0⟩]⟩]

/-- Registers of the NET_ block. -/
def netRegs : List RegSpec := netRegs0 ++ netRegs1 ++ netRegs2

/-- Registers of the BNC_ block, part 1. -/
def bncRegs0 : List RegSpec := [
  ⟨"PROF_SEL", 0x8010000, [(64, 0x80)], 8,
    [⟨"VALID", 0, 1, .rw, [], 0⟩,
     ⟨"GROUP_ANY", 1, 1, .rw, [], 0⟩,
     ⟨"GROUP", 2, 4, .rw, [], 0⟩,
     ⟨"C0_EN", 6, 1, .rw, [], 0⟩,
     ⟨"C1_EN", 7, 1, .rw, [], 0⟩,
     ⟨"C0_OFF", 8, 8, .rw, [], 0⟩,
     ⟨"C1_OFF", 16, 8, .rw, [], 0⟩,
     ⟨"MIN_LEN", 24, 9, .rw, [], 0⟩]⟩,
  ⟨"ACTIVE_PROF_SEL", 0x8012000, [(64, 0x80)], 8,
    [⟨"VALID", 0, 1, .ro, [], 0⟩,
     ⟨"GROUP_ANY", 1, 1, .ro, [], 0⟩,
     ⟨"GROUP", 2, 4, .ro, [], 0⟩,
     ⟨"C0_EN", 6, 1, .ro, [], 0⟩,
     ⟨"C1_EN", 7, 1, .ro, [], 0⟩,
     ⟨"C0_OFF", 8, 8, .ro, [], 0⟩,
     ⟨"C1_OFF", 16, 8, .ro, [], 0⟩,
     ⟨"MIN_LEN", 24, 9, .ro, [], 0⟩]⟩,
  ⟨"PROF_CMP", 0x8010008, [(64, 0x80)], 8,
    [⟨"C0_VAL", 0, 16, .rw, [], 0⟩,
     ⟨"C0_MASK", 16, 16, .rw, [], 0⟩,
     ⟨"C1_VAL", 32, 16, .rw, [], 0⟩,
     ⟨"C1_MASK", 48, 16, .rw, [], 0⟩]⟩,
  ⟨"ACTIVE_PROF_CMP", 0x8012008, [(64, 0x80)], 8,
    [⟨"C0_VAL", 0, 16, .ro, [], 0⟩,
     ⟨"C0_MASK", 16, 16, .ro, [], 0⟩,
     ⟨"C1_VAL", 32, 16, .ro, [], 0⟩,
     ⟨"C1_MASK", 48, 16, .ro, [], 0⟩]⟩,
  ⟨"PROF_CTL", 0x8010010, [(64, 0x80)], 8,
    [⟨"CLS_PROG", 0, 8, .rw, [], 0⟩,
     ⟨"DEF_CLASS", 8, 3, .rw, [], 0⟩]⟩,
  ⟨"ACTIVE_PROF_CTL", 0x8012010, [(64, 0x80)], 8,
    [⟨"CLS_PROG", 0, 8, .ro, [], 0⟩,
     ⟨"DEF_CLASS", 8, 3, .ro, [], 0⟩]⟩,
  ⟨"PROF_REC", 0x8010040, [(64, 0x80), (16, 0x4)], 4,
    [⟨"REC", 0, 28, .rw, [], 0⟩,
     ⟨"VALID", 31, 1, .rw, [], 0⟩]⟩,
  ⟨"ACTIVE_PROF_REC", 0x8012040, [(64, 0x80), (16, 0x4)], 4,
    [⟨"REC", 0, 28, .ro, [], 0⟩,
     ⟨"VALID", 31, 1, .ro, [], 0⟩]⟩,
  ⟨"BNC_INLET_GRP", 0x8000100, [(16, 0x4)], 4,
    [⟨"GROUP", 0, 32, .rw, [], 0⟩]⟩,
  ⟨"BNC_DEFAULT", 0x8000200, [(128, 0x4)], 4,
    [⟨"ACTION", 0, 2, .rw, [], 0⟩,
     ⟨"OUTLET", 2, 7, .rw, [], 0⟩,
     ⟨"CLASS", 9, 3, .rw, [], 0⟩,
     ⟨"CONTOUR", 12, 4, .rw, [], 0⟩]⟩,
  ⟨"BNC_CONTOUR", 0x8000400, [(16, 0x8)], 8,
    [⟨"RATE", 0, 32, .rw, [], 0⟩,
     ⟨"BURST", 32, 16, .rw, [(0, 0, 1)], 1⟩]⟩,
  ⟨"BNC_STATUS", 0x8000000, [(18, 0x100000)], 4,
    [⟨"STATE", 0, 2, .ro, [], 0⟩,
     ⟨"DIE", 2, 1, .ro, [], 0⟩,
     ⟨"REPLACES", 3, 5, .ro, [], 0x1f⟩,
     ⟨"BUCKETS", 8, 13, .ro, [], 0⟩]⟩]

/-- Registers of the BNC_ block, part 2. -/
def bncRegs1 : List RegSpec := [
  ⟨"BNC_EVENT", 0x8000004, [(18, 0x100000)], 4,
    [⟨"STATE", 0, 1, .w1c, [], 0⟩,
     ⟨"PROF_DONE", 1, 1, .w1c, [], 0⟩,
     ⟨"PROF_REJECT", 2, 1, .w1c, [], 0⟩,
     ⟨"MOVE_DONE", 3, 1, .w1c, [], 0⟩,
     ⟨"CFG_ERR", 4, 1, .w1c, [], 0⟩]⟩,
  ⟨"BNC_PROF_COMMIT", 0x8000040, [(18, 0x100000)], 4,
    [⟨"COMMIT", 0, 1, .wo, [], 0⟩]⟩,
  ⟨"BNC_PROF_STATUS", 0x8000044, [(18, 0x100000)], 4,
    [⟨"GEN", 0, 16, .ro, [], 0⟩,
     ⟨"RETIRING", 16, 1, .ro, [], 0⟩,
     ⟨"ERR", 17, 1, .ro, [], 0⟩,
     ⟨"ERR_PROF", 18, 6, .ro, [], 0⟩,
     ⟨"ERR_REC", 24, 5, .ro, [], 0⟩]⟩,
  ⟨"BNC_MAP", 0x80f0000, [(4096, 0x4)], 4,
    [⟨"BENCH", 0, 5, .ro, [], 0x1f⟩,
     ⟨"EPOCH", 5, 8, .ro, [], 0⟩,
     ⟨"MOVING", 13, 1, .ro, [], 0⟩]⟩,
  ⟨"BNC_MOVE", 0x80f4000, [], 4,
    [⟨"BUCKET", 0, 12, .wo, [], 0⟩,
     ⟨"TO", 12, 5, .wo, [], 0⟩,
     ⟨"FORCE", 17, 1, .wo, [], 0⟩,
     ⟨"GO", 18, 1, .wo, [], 0⟩]⟩,
  ⟨"BNC_MOVE_STATUS", 0x80f4004, [], 4,
    [⟨"STATUS", 0, 16, .ro, [], 0⟩,
     ⟨"BUSY", 16, 1, .ro, [], 0⟩]⟩,
  ⟨"BNC_PARSED", 0x8000800, [(18, 0x100000)], 8, [⟨"COUNT", 0, 64, .ro, [], 0⟩]⟩,
  ⟨"BNC_PARSE_FAIL", 0x8000808, [(18, 0x100000)], 8, [⟨"COUNT", 0, 64, .ro, [], 0⟩]⟩,
  ⟨"BNC_DEFAULT_CNT", 0x8000810, [(18, 0x100000)], 8, [⟨"COUNT", 0, 64, .ro, [], 0⟩]⟩,
  ⟨"BNC_CONTOUR_SPOIL", 0x8000818, [(18, 0x100000)], 8, [⟨"COUNT", 0, 64, .ro, [], 0⟩]⟩,
  ⟨"BNC_REPLAYED", 0x8000820, [(18, 0x100000)], 8, [⟨"COUNT", 0, 64, .ro, [], 0⟩]⟩,
  ⟨"BNC_MARKERS", 0x8000828, [(18, 0x100000)], 8, [⟨"COUNT", 0, 64, .ro, [], 0⟩]⟩]

/-- Registers of the BNC_ block. -/
def bncRegs : List RegSpec := bncRegs0 ++ bncRegs1

/-- Registers of the TBL_ block, part 1. -/
def tblRegs0 : List RegSpec := [
  ⟨"TBL_DESC", 0xa000000, [(64, 0x8)], 8,
    [⟨"TYPE", 0, 2, .rw, [], 0⟩,
     ⟨"KEY_LEN", 2, 6, .rw, [], 0⟩,
     ⟨"FAMILY", 8, 1, .rw, [], 0⟩,
     ⟨"LEN_MAX", 9, 2, .rw, [], 0⟩,
     ⟨"LEARN", 11, 1, .rw, [], 0⟩,
     ⟨"LEARN_RESULT", 32, 32, .rw, [], 0⟩]⟩,
  ⟨"TBL_ENTRIES", 0xa000200, [(64, 0x4)], 4,
    [⟨"ENTRIES", 0, 32, .ro, [], 0⟩]⟩,
  ⟨"TBL_PROG", 0xa001000, [(256, 0x10), (4, 0x4)], 4,
    [⟨"TABLE", 0, 6, .rw, [], 0⟩,
     ⟨"KOFF", 6, 6, .rw, [], 0⟩,
     ⟨"KIND", 12, 2, .rw, [], 0⟩]⟩,
  ⟨"TBL_PROG_READS", 0xa002000, [(256, 0x4)], 4,
    [⟨"H", 0, 4, .ro, [], 0⟩]⟩,
  ⟨"TBL_LEARN_CFG", 0xa003000, [], 4,
    [⟨"SLOTS", 0, 2, .rw, [], 2⟩,
     ⟨"AGE_LIMIT", 2, 15, .rw, [], 0x118⟩]⟩,
  ⟨"TBL_EVENT", 0xa003004, [], 4,
    [⟨"CFG_ERR", 0, 1, .w1c, [], 0⟩,
     ⟨"STASH", 1, 1, .w1c, [], 0⟩,
     ⟨"LEARN_FULL", 2, 1, .w1c, [], 0⟩]⟩,
  ⟨"TBL_DIE_USED", 0xa003008, [], 4,
    [⟨"SLOTS", 0, 32, .ro, [], 0⟩]⟩,
  ⟨"TBL_LPM_USED", 0xa00300c, [], 4,
    [⟨"PREFIXES", 0, 32, .ro, [], 0⟩]⟩,
  ⟨"TBL_HBM_USED", 0xa003010, [], 8,
    [⟨"SLOTS", 0, 64, .ro, [], 0⟩]⟩,
  ⟨"TBL_HBM_READS", 0xa004000, [(18, 0x40)], 8, [⟨"COUNT", 0, 64, .ro, [], 0⟩]⟩,
  ⟨"TBL_BUDGET_WAIT", 0xa004008, [(18, 0x40)], 8, [⟨"COUNT", 0, 64, .ro, [], 0⟩]⟩,
  ⟨"TBL_LEARNED", 0xa004010, [(18, 0x40)], 8, [⟨"COUNT", 0, 64, .ro, [], 0⟩]⟩]

/-- Registers of the TBL_ block, part 2. -/
def tblRegs1 : List RegSpec := [
  ⟨"TBL_LEARN_SKIP", 0xa004018, [(18, 0x40)], 8, [⟨"COUNT", 0, 64, .ro, [], 0⟩]⟩,
  ⟨"TBL_LEARN_FULL_CNT", 0xa004020, [(18, 0x40)], 8, [⟨"COUNT", 0, 64, .ro, [], 0⟩]⟩,
  ⟨"TBL_LEARN_MOVE", 0xa004028, [(18, 0x40)], 8, [⟨"COUNT", 0, 64, .ro, [], 0⟩]⟩,
  ⟨"TBL_AGED", 0xa004030, [(18, 0x40)], 8, [⟨"COUNT", 0, 64, .ro, [], 0⟩]⟩,
  ⟨"TBL_LEARN_USED", 0xa004038, [(18, 0x40)], 8, [⟨"COUNT", 0, 64, .ro, [], 0⟩]⟩]

/-- Registers of the TBL_ block. -/
def tblRegs : List RegSpec := tblRegs0 ++ tblRegs1

/-- Registers of the SWC_ block, part 1. -/
def swcRegs0 : List RegSpec := [
  ⟨"SWC_STATUS", 0xb000000, [], 4,
    [⟨"GROUPS", 0, 5, .ro, [], 0x10⟩,
     ⟨"FLOOR", 5, 1, .ro, [], 0⟩]⟩,
  ⟨"SWC_EVENT", 0xb000004, [], 4,
    [⟨"STORE_FAULT", 0, 1, .w1c, [], 0⟩,
     ⟨"PIN", 1, 1, .w1c, [], 0⟩,
     ⟨"UNPIN_DONE", 2, 1, .w1c, [], 0⟩,
     ⟨"FLOOR", 3, 1, .w1c, [], 0⟩,
     ⟨"CFG_ERR", 4, 1, .w1c, [], 0⟩]⟩,
  ⟨"SWC_FREE", 0xb000008, [], 4,
    [⟨"F", 0, 20, .ro, [], 0⟩]⟩,
  ⟨"SWC_POOL", 0xb00000c, [], 4,
    [⟨"SHARED", 0, 20, .ro, [], 0⟩]⟩,
  ⟨"SWC_BP_CFG", 0xb000010, [], 4,
    [⟨"SHIFT", 0, 32, .rw, [], 0x44444444⟩]⟩,
  ⟨"SWC_BP_FLOOR", 0xb000014, [], 4,
    [⟨"FLOOR", 0, 20, .rw, [], 0x2000⟩]⟩,
  ⟨"SWC_SPOIL_CFG", 0xb000020, [], 8,
    [⟨"MASK", 0, 16, .rw, [], 0⟩,
     ⟨"SNAP", 16, 2, .rw, [], 0⟩,
     ⟨"CLASS", 18, 3, .rw, [], 0⟩,
     ⟨"EN", 21, 1, .rw, [], 0⟩,
     ⟨"CAP_RING", 22, 20, .rw, [], 0⟩]⟩,
  ⟨"SWC_CAP_PPS", 0xb000028, [], 4,
    [⟨"RATE", 0, 32, .rw, [], 0xf4240⟩]⟩,
  ⟨"SWC_MIR", 0xb000104, [(15, 0x4)], 4,
    [⟨"OUTLET", 0, 7, .rw, [], 0⟩,
     ⟨"EN", 7, 1, .rw, [], 0⟩,
     ⟨"TRUNC", 8, 2, .rw, [], 0⟩]⟩,
  ⟨"SWC_OUT_WGT", 0xb001000, [(128, 0x8)], 8,
    [⟨"WGT", 0, 64, .rw, [], 0x101010101010101⟩]⟩,
  ⟨"SWC_ALT", 0xb002000, [(64, 0x4)], 4,
    [⟨"ALT", 0, 6, .rw, [], 0⟩,
     ⟨"EN", 6, 1, .rw, [], 0⟩,
     ⟨"UNPIN", 7, 1, .wo, [], 0⟩,
     ⟨"PINNED", 8, 1, .ro, [], 0⟩,
     ⟨"UNPINNING", 9, 1, .ro, [], 0⟩,
     ⟨"TARGET", 10, 6, .ro, [], 0⟩]⟩,
  ⟨"SWC_RXDEF", 0xb002200, [(48, 0x4)], 4,
    [⟨"RING", 0, 20, .rw, [], 0⟩,
     ⟨"EN", 20, 1, .rw, [], 0⟩]⟩]

/-- Registers of the SWC_ block, part 2. -/
def swcRegs1 : List RegSpec := [
  ⟨"SWC_SPOIL_CNT", 0xb003000, [(16, 0x8)], 8, [⟨"COUNT", 0, 64, .ro, [], 0⟩]⟩,
  ⟨"SWC_COPIES", 0xb003080, [], 8, [⟨"COUNT", 0, 64, .ro, [], 0⟩]⟩,
  ⟨"SWC_MIR_TIMED", 0xb003088, [], 8, [⟨"COUNT", 0, 64, .ro, [], 0⟩]⟩,
  ⟨"SWC_CAP_SKIP", 0xb003090, [], 8, [⟨"COUNT", 0, 64, .ro, [], 0⟩]⟩,
  ⟨"SWC_REPINNED", 0xb003098, [], 8, [⟨"COUNT", 0, 64, .ro, [], 0⟩]⟩]

/-- Registers of the SWC_ block. -/
def swcRegs : List RegSpec := swcRegs0 ++ swcRegs1

/-- Registers of the CPH_ block, part 1. -/
def cphRegs0 : List RegSpec := [
  ⟨"CPH_STATUS", 0xc000000, [], 4,
    [⟨"DRBG_OK", 0, 1, .ro, [], 0⟩,
     ⟨"ES_SINGLE", 1, 1, .ro, [], 0⟩,
     ⟨"REWRAP", 2, 1, .ro, [], 0⟩,
     ⟨"ENGINES", 3, 8, .ro, [], 0⟩,
     ⟨"EPOCH", 11, 21, .ro, [], 0⟩]⟩,
  ⟨"CPH_EVENT", 0xc000004, [], 4,
    [⟨"SA_WARN", 0, 1, .w1c, [], 0⟩,
     ⟨"SA_EXHAUSTED", 1, 1, .w1c, [], 0⟩,
     ⟨"ENTROPY", 2, 1, .w1c, [], 0⟩,
     ⟨"KC_FAULT", 3, 1, .w1c, [], 0⟩,
     ⟨"EPOCH", 4, 1, .w1c, [], 0⟩]⟩,
  ⟨"CPH_KC_STATUS", 0xc000010, [], 4,
    [⟨"USED", 0, 18, .ro, [], 0⟩]⟩,
  ⟨"CPH_KC_PINNED", 0xc000014, [], 4,
    [⟨"PINNED", 0, 17, .ro, [], 0⟩]⟩,
  ⟨"CPH_SA_LAST", 0xc000018, [], 4,
    [⟨"SA", 0, 20, .ro, [], 0xfffff⟩]⟩,
  ⟨"CPH_SA_COUNT", 0xc00001c, [], 4,
    [⟨"INSTALLED", 0, 19, .ro, [], 0⟩]⟩,
  ⟨"CPH_BLANKED", 0xc000100, [], 8, [⟨"COUNT", 0, 64, .ro, [], 0⟩]⟩,
  ⟨"CPH_AUTH_FAIL", 0xc000108, [], 8, [⟨"COUNT", 0, 64, .ro, [], 0⟩]⟩,
  ⟨"CPH_KEY_MISS", 0xc000110, [], 8, [⟨"COUNT", 0, 64, .ro, [], 0⟩]⟩,
  ⟨"CPH_BLOCKS", 0xc000118, [], 8, [⟨"COUNT", 0, 64, .ro, [], 0⟩]⟩,
  ⟨"CPH_LEN_ERR", 0xc000120, [], 8, [⟨"COUNT", 0, 64, .ro, [], 0⟩]⟩]

/-- Registers of the CPH_ block. -/
def cphRegs : List RegSpec := cphRegs0

/-- Registers of the RLT_ block, part 1. -/
def rltRegs0 : List RegSpec := [
  ⟨"RLT_CFG", 0xd000000, [], 4,
    [⟨"UDP_PORT", 0, 16, .rw, [(0, 0, 40013)], 0x9c4d⟩]⟩,
  ⟨"RLT_TIMERS", 0xd000004, [], 4,
    [⟨"REASM_US", 0, 16, .rw, [(0, 0, 1)], 0x1f4⟩,
     ⟨"REASM_TRIES", 16, 4, .rw, [(0, 0, 1)], 4⟩,
     ⟨"POLL_TRIES", 20, 4, .rw, [(0, 0, 1)], 4⟩,
     ⟨"RNR_TRIES", 24, 4, .rw, [(0, 0, 1)], 8⟩]⟩,
  ⟨"RLT_WAITS", 0xd000008, [], 4,
    [⟨"POLL_US", 0, 16, .rw, [(0, 0, 1)], 0x3e8⟩,
     ⟨"RNR_US", 16, 16, .rw, [], 0x64⟩]⟩,
  ⟨"RLT_OPEN", 0xd00000c, [], 4,
    [⟨"PROBE_US", 0, 16, .rw, [(0, 0, 1)], 0x64⟩,
     ⟨"OPEN_MS", 16, 16, .rw, [(0, 0, 1)], 0x3e8⟩]⟩,
  ⟨"RLT_MAC_DST", 0xd000010, [], 8,
    [⟨"MAC", 0, 48, .rw, [], 0⟩]⟩,
  ⟨"RLT_MAC_SRC", 0xd000018, [], 8,
    [⟨"MAC", 0, 48, .rw, [], 0⟩]⟩,
  ⟨"RLT_STATUS", 0xd000020, [], 4,
    [⟨"CONNS", 0, 21, .ro, [], 0⟩,
     ⟨"READY", 21, 1, .ro, [], 0⟩]⟩,
  ⟨"RLT_EVENT", 0xd000024, [], 4,
    [⟨"CONN_ERROR", 0, 1, .w1c, [], 0⟩,
     ⟨"MSG_FAIL", 1, 1, .w1c, [], 0⟩]⟩,
  ⟨"RLT_CC_CFG", 0xd000800, [], 4,
    [⟨"ECN_EN", 0, 1, .rw, [], 1⟩,
     ⟨"G", 1, 4, .rw, [(0, 0, 1), (11, 15, 10)], 4⟩,
     ⟨"CUT_US", 5, 11, .rw, [(0, 0, 1)], 0x32⟩,
     ⟨"INC_US", 16, 16, .rw, [(0, 0, 1)], 0x32⟩]⟩,
  ⟨"RLT_CC_MIN", 0xd000804, [], 4,
    [⟨"RATE_MIN", 0, 32, .rw, [(0, 99, 100), (1600001, 4294967295, 1600000)], 0x3e8⟩]⟩,
  ⟨"RLT_CC_INIT", 0xd000808, [], 4,
    [⟨"RATE_INIT", 0, 32, .rw, [], 0x186a0⟩]⟩,
  ⟨"RLT_CC_MAX", 0xd00080c, [], 4,
    [⟨"RATE_MAX", 0, 32, .rw, [(0, 99, 100), (1600001, 4294967295, 1600000)], 0x61a80⟩]⟩]

/-- Registers of the RLT_ block, part 2. -/
def rltRegs1 : List RegSpec := [
  ⟨"RLT_CC_INC", 0xd000810, [], 4,
    [⟨"RATE_INC", 0, 32, .rw, [(0, 0, 1), (1600001, 4294967295, 1600000)], 0x1388⟩]⟩,
  ⟨"RLT_ODP_CFG", 0xd000820, [], 4,
    [⟨"RETRY_US", 0, 16, .rw, [(0, 0, 1)], 0x32⟩,
     ⟨"WAIT_MS", 16, 8, .rw, [(0, 0, 1)], 0x64⟩]⟩,
  ⟨"RLT_REG_STATUS", 0xd000824, [], 4,
    [⟨"REGIONS", 0, 25, .ro, [], 0⟩]⟩,
  ⟨"RLT_STALL_STATUS", 0xd000828, [], 4,
    [⟨"SLOTS", 0, 13, .ro, [], 0⟩]⟩,
  ⟨"RLT_MEM_EVENT", 0xd00082c, [], 4,
    [⟨"PAGE_FAIL", 0, 1, .w1c, [], 0⟩,
     ⟨"REVOKE_DONE", 1, 1, .w1c, [], 0⟩]⟩,
  ⟨"RLT_DATA_TX", 0xd000100, [], 8, [⟨"COUNT", 0, 64, .ro, [], 0⟩]⟩,
  ⟨"RLT_DATA_RX", 0xd000108, [], 8, [⟨"COUNT", 0, 64, .ro, [], 0⟩]⟩,
  ⟨"RLT_RETX", 0xd000110, [], 8, [⟨"COUNT", 0, 64, .ro, [], 0⟩]⟩,
  ⟨"RLT_REREQ", 0xd000118, [], 8, [⟨"COUNT", 0, 64, .ro, [], 0⟩]⟩,
  ⟨"RLT_DUP", 0xd000120, [], 8, [⟨"COUNT", 0, 64, .ro, [], 0⟩]⟩,
  ⟨"RLT_WINDOW", 0xd000128, [], 8, [⟨"COUNT", 0, 64, .ro, [], 0⟩]⟩,
  ⟨"RLT_NO_BUF", 0xd000130, [], 8, [⟨"COUNT", 0, 64, .ro, [], 0⟩]⟩]

/-- Registers of the RLT_ block, part 3. -/
def rltRegs2 : List RegSpec := [
  ⟨"RLT_BAD_HDR", 0xd000138, [], 8, [⟨"COUNT", 0, 64, .ro, [], 0⟩]⟩,
  ⟨"RLT_CIPHER_DROP", 0xd000140, [], 8, [⟨"COUNT", 0, 64, .ro, [], 0⟩]⟩,
  ⟨"RLT_POLL", 0xd000148, [], 8, [⟨"COUNT", 0, 64, .ro, [], 0⟩]⟩,
  ⟨"RLT_ODP_FAULT", 0xd000900, [], 8, [⟨"COUNT", 0, 64, .ro, [], 0⟩]⟩,
  ⟨"RLT_ODP_STALL", 0xd000908, [], 8, [⟨"COUNT", 0, 64, .ro, [], 0⟩]⟩,
  ⟨"RLT_ODP_DROP", 0xd000910, [], 8, [⟨"COUNT", 0, 64, .ro, [], 0⟩]⟩,
  ⟨"RLT_NAK_WITHDRAWN", 0xd000918, [], 8, [⟨"COUNT", 0, 64, .ro, [], 0⟩]⟩,
  ⟨"RLT_CE_RX", 0xd000920, [], 8, [⟨"COUNT", 0, 64, .ro, [], 0⟩]⟩,
  ⟨"RLT_RATE_CUT", 0xd000928, [], 8, [⟨"COUNT", 0, 64, .ro, [], 0⟩]⟩]

/-- Registers of the RLT_ block. -/
def rltRegs : List RegSpec := rltRegs0 ++ rltRegs1 ++ rltRegs2

/-- Registers of the STO_ block, part 1. -/
def stoRegs0 : List RegSpec := [
  ⟨"STO_CFG", 0xe000000, [], 4,
    [⟨"HOST_CLASS", 0, 3, .rw, [], 0⟩,
     ⟨"BACKEND_MS", 3, 16, .rw, [(0, 0, 1)], 0x1e⟩]⟩,
  ⟨"STO_CACHE_CFG", 0xe000004, [], 4,
    [⟨"PCT", 0, 7, .rw, [(101, 127, 100)], 0⟩]⟩,
  ⟨"STO_STATUS", 0xe000008, [], 4,
    [⟨"READY", 0, 1, .ro, [], 0⟩,
     ⟨"CACHE_NONE", 1, 1, .ro, [], 0⟩,
     ⟨"WT_FORCED", 2, 1, .ro, [], 0⟩,
     ⟨"LOCKS", 3, 15, .ro, [], 0⟩]⟩,
  ⟨"STO_EVENT", 0xe00000c, [], 4,
    [⟨"DEFERRED", 0, 1, .w1c, [], 0⟩,
     ⟨"DOWN", 1, 1, .w1c, [], 0⟩,
     ⟨"WT_FORCED", 2, 1, .w1c, [], 0⟩]⟩,
  ⟨"STO_SHEET_WGT", 0xe001000, [(4096, 0x4)], 4,
    [⟨"WEIGHT", 0, 8, .rw, [(0, 0, 1)], 1⟩]⟩,
  ⟨"STO_CMDS", 0xe000100, [], 8, [⟨"COUNT", 0, 64, .ro, [], 0⟩]⟩,
  ⟨"STO_STALLS", 0xe000108, [], 8, [⟨"COUNT", 0, 64, .ro, [], 0⟩]⟩,
  ⟨"STO_CACHE_HIT", 0xe000110, [], 8, [⟨"COUNT", 0, 64, .ro, [], 0⟩]⟩,
  ⟨"STO_WRITEBACK", 0xe000118, [], 8, [⟨"COUNT", 0, 64, .ro, [], 0⟩]⟩,
  ⟨"STO_DEFERRED_CNT", 0xe000120, [], 8, [⟨"COUNT", 0, 64, .ro, [], 0⟩]⟩,
  ⟨"STO_ABORT_CAUGHT", 0xe000128, [], 8, [⟨"COUNT", 0, 64, .ro, [], 0⟩]⟩,
  ⟨"STO_BACKEND_TO", 0xe000130, [], 8, [⟨"COUNT", 0, 64, .ro, [], 0⟩]⟩]

/-- Registers of the STO_ block. -/
def stoRegs : List RegSpec := stoRegs0

/-- Registers of the PNL_ block, part 1. -/
def pnlRegs0 : List RegSpec := [
  ⟨"PNL_CLU_CFG", 0xf000000, [(8, 0x100000)], 4,
    [⟨"FREQ", 0, 5, .rw, [(0, 9, 26), (27, 31, 26)], 0x1a⟩,
     ⟨"POOL", 5, 1, .rw, [], 0⟩]⟩,
  ⟨"PNL_EVENT", 0xf000004, [(8, 0x100000)], 4,
    [⟨"DEADLOCK", 0, 1, .w1c, [], 0⟩,
     ⟨"CFG_ERR", 1, 1, .w1c, [], 0⟩,
     ⟨"ABANDON", 2, 1, .w1c, [], 0⟩,
     ⟨"MIGRATE_DONE", 3, 1, .w1c, [], 0⟩]⟩,
  ⟨"PNL_DBG_CFG", 0xf000008, [(8, 0x100000)], 4,
    [⟨"ABANDON_MS", 0, 16, .rw, [(0, 0, 1)], 0x3e8⟩]⟩,
  ⟨"PNL_DBG_STATUS", 0xf00000c, [(8, 0x100000)], 4,
    [⟨"REFUSED", 0, 1, .ro, [], 0⟩]⟩,
  ⟨"PNL_GAL_ABANDON", 0xf000010, [(8, 0x100000)], 4,
    [⟨"THREAD", 0, 5, .wo, [], 0⟩,
     ⟨"GAL", 5, 6, .wo, [], 0⟩,
     ⟨"GO", 11, 1, .wo, [], 0⟩]⟩,
  ⟨"PNL_MIGRATE", 0xf000018, [(8, 0x100000)], 4,
    [⟨"T", 0, 5, .wo, [], 0⟩,
     ⟨"U", 5, 5, .wo, [], 0⟩,
     ⟨"GO", 10, 1, .wo, [], 0⟩]⟩,
  ⟨"PNL_MIGRATE_STATUS", 0xf00001c, [(8, 0x100000)], 4,
    [⟨"BUSY", 0, 1, .ro, [], 0⟩,
     ⟨"ERR", 1, 1, .ro, [], 0⟩]⟩,
  ⟨"PNL_DLK_GRP", 0xf000040, [(8, 0x100000)], 4,
    [⟨"GROUP", 0, 4, .ro, [], 0⟩,
     ⟨"VALID", 4, 1, .w1c, [], 0⟩]⟩,
  ⟨"PNL_DLK_TIME", 0xf000048, [(8, 0x100000)], 8,
    [⟨"TIME", 0, 64, .ro, [], 0⟩]⟩,
  ⟨"PNL_SEND_BAD", 0xf000050, [(8, 0x100000)], 8,
    [⟨"COUNT", 0, 64, .ro, [], 0⟩]⟩,
  ⟨"PNL_DLK_MASK", 0xf000080, [(8, 0x100000), (32, 0x4)], 4,
    [⟨"ARMED", 0, 7, .ro, [], 0⟩,
     ⟨"MEMBER", 7, 1, .ro, [], 0⟩]⟩,
  ⟨"PNL_THR_CFG", 0xf000100, [(8, 0x100000), (32, 0x4)], 4,
    [⟨"TIMED", 0, 1, .rw, [], 0⟩,
     ⟨"WGRP", 1, 4, .rw, [], 0xf⟩,
     ⟨"SHEET", 5, 13, .rw, [], 0x1fff⟩]⟩]

/-- Registers of the PNL_ block, part 2. -/
def pnlRegs1 : List RegSpec := [
  ⟨"PNL_THR_CTRL", 0xf000200, [(8, 0x100000), (32, 0x4)], 4,
    [⟨"OP", 0, 3, .wo, [], 0⟩]⟩,
  ⟨"PNL_THR_STAT", 0xf000280, [(8, 0x100000), (32, 0x4)], 4,
    [⟨"STATE", 0, 3, .ro, [], 0⟩,
     ⟨"CONTEXT", 3, 5, .ro, [], 0⟩,
     ⟨"LATCH", 8, 7, .ro, [], 0⟩,
     ⟨"TIMER_ARMED", 15, 1, .ro, [], 0⟩,
     ⟨"EPOCH", 16, 8, .ro, [], 0⟩]⟩,
  ⟨"PNL_THR_PC", 0xf000400, [(8, 0x100000), (32, 0x8)], 8,
    [⟨"PC", 0, 64, .rw, [], 0⟩]⟩,
  ⟨"PNL_THR_WATCH", 0xf000600, [(8, 0x100000), (32, 0x8)], 8,
    [⟨"WATCH", 0, 64, .rw, [], 0⟩]⟩,
  ⟨"PNL_THR_TIMER", 0xf000700, [(8, 0x100000), (32, 0x8)], 8,
    [⟨"DUE", 0, 64, .rw, [], 0⟩]⟩,
  ⟨"PNL_GAL", 0xf001000, [(8, 0x100000), (64, 0x8)], 8,
    [⟨"EN", 0, 1, .rw, [], 0⟩,
     ⟨"KIND", 1, 2, .rw, [], 0⟩,
     ⟨"SIZE_LOG2", 3, 3, .rw, [], 0⟩,
     ⟨"SLOTS_LOG2", 6, 4, .rw, [], 2⟩,
     ⟨"WGRP", 10, 4, .rw, [], 0xf⟩,
     ⟨"CLASS", 14, 3, .rw, [], 0⟩,
     ⟨"BASE", 17, 13, .rw, [], 0⟩]⟩,
  ⟨"PNL_GAL_STAT", 0xf001400, [(8, 0x100000), (64, 0x4)], 4,
    [⟨"FREE", 0, 9, .ro, [], 0⟩,
     ⟨"SEALED", 9, 9, .ro, [], 0⟩,
     ⟨"RESERVED", 18, 9, .ro, [], 0⟩]⟩,
  ⟨"CRN_SRC", 0xf800008, [(8, 0x100000), (1023, 0x8)], 8,
    [⟨"TARGET", 0, 32, .rw, [], 0⟩,
     ⟨"EN", 32, 1, .rw, [], 0⟩,
     ⟨"PENDING", 33, 1, .ro, [], 0⟩,
     ⟨"INSERV", 34, 1, .ro, [], 0⟩]⟩,
  ⟨"CRN_CLAIM", 0xf802000, [(8, 0x100000), (32, 0x4)], 4,
    [⟨"SOURCE", 0, 10, .ro, [], 0⟩]⟩,
  ⟨"CRN_COMPLETE", 0xf802080, [(8, 0x100000), (32, 0x4)], 4,
    [⟨"SOURCE", 0, 10, .wo, [], 0⟩]⟩,
  ⟨"CRN_RAISE", 0xf802100, [(8, 0x100000)], 4,
    [⟨"SOURCE", 0, 10, .wo, [], 0⟩]⟩,
  ⟨"CRN_CNT", 0xf803004, [(8, 0x100000), (64, 0x4)], 4,
    [⟨"COUNT", 0, 32, .ro, [], 0⟩]⟩]

/-- Registers of the PNL_ block. -/
def pnlRegs : List RegSpec := pnlRegs0 ++ pnlRegs1

/-- Registers of the HLT_ block, part 1. -/
def hltRegs0 : List RegSpec := [
  ⟨"HLT_STATUS", 0x10000000, [], 4,
    [⟨"HEALTH", 0, 3, .ro, [], 0⟩,
     ⟨"REPLACE_ME", 3, 1, .ro, [], 0⟩,
     ⟨"IMPAIRED_CAUSE", 4, 4, .ro, [], 0⟩]⟩,
  ⟨"HLT_EVENT", 0x10000004, [], 4,
    [⟨"STATE", 0, 1, .w1c, [], 0⟩,
     ⟨"FAULT", 1, 1, .w1c, [], 0⟩,
     ⟨"HBM_REPAIR", 2, 1, .w1c, [], 0⟩,
     ⟨"SURVEY", 3, 1, .w1c, [], 0⟩,
     ⟨"CONS", 4, 1, .w1c, [], 0⟩,
     ⟨"PROT", 5, 1, .w1c, [], 0⟩]⟩,
  ⟨"HLT_SUMMARY", 0x10000008, [], 4,
    [⟨"BLOCKS", 0, 17, .ro, [], 0⟩]⟩,
  ⟨"HLT_SPARE", 0x1000000c, [], 4,
    [⟨"BENCH", 0, 2, .ro, [], 2⟩,
     ⟨"GROUP", 2, 1, .ro, [], 1⟩,
     ⟨"CORES_FAILED", 3, 7, .ro, [], 0⟩,
     ⟨"HBM_LOW", 10, 1, .ro, [], 0⟩]⟩,
  ⟨"HLT_CTRL", 0x10000010, [], 4,
    [⟨"LOCATE", 0, 1, .rw, [], 0⟩,
     ⟨"COAL_US", 1, 8, .rw, [(0, 0, 1)], 0xa⟩]⟩,
  ⟨"HLT_CONS_CFG", 0x10000014, [], 4,
    [⟨"WARN_DAYS", 0, 16, .rw, [(0, 0, 1)], 0x1e⟩,
     ⟨"CXL_ERR_BUDGET", 16, 16, .rw, [(0, 0, 1)], 0x2710⟩]⟩,
  ⟨"HLT_SURV_WR", 0x10000018, [], 4,
    [⟨"COUNT", 0, 32, .ro, [], 0⟩]⟩,
  ⟨"HLT_SURV_RD", 0x1000001c, [], 4,
    [⟨"COUNT", 0, 32, .rw, [], 0⟩]⟩,
  ⟨"HLT_SURV_LOST", 0x10000020, [], 4,
    [⟨"COUNT", 0, 32, .ro, [], 0⟩]⟩,
  ⟨"HLT_PEER_OVF", 0x10000024, [], 4,
    [⟨"COUNT", 0, 32, .ro, [], 0⟩]⟩,
  ⟨"HLT_FAULT_CNT", 0x10000028, [], 4,
    [⟨"COUNT", 0, 32, .ro, [], 0⟩]⟩,
  ⟨"HLT_PROT_CNT", 0x1000002c, [], 4,
    [⟨"COUNT", 0, 32, .ro, [], 0⟩]⟩]

/-- Registers of the HLT_ block, part 2. -/
def hltRegs1 : List RegSpec := [
  ⟨"HLT_PROT_DROP", 0x10000030, [], 4,
    [⟨"COUNT", 0, 32, .ro, [], 0⟩]⟩,
  ⟨"HLT_PROT_POP", 0x10000034, [], 4,
    [⟨"POP", 0, 1, .wo, [], 0⟩]⟩,
  ⟨"HLT_PROT_ENTRY0", 0x10000038, [], 8,
    [⟨"ADDR", 0, 48, .ro, [], 0⟩,
     ⟨"PORT", 48, 6, .ro, [], 0⟩,
     ⟨"PF", 54, 3, .ro, [], 0⟩,
     ⟨"WRITE", 57, 1, .ro, [], 0⟩,
     ⟨"VALID", 58, 1, .ro, [], 0⟩,
     ⟨"FW", 59, 1, .ro, [], 0⟩,
     ⟨"OFFSET", 60, 1, .ro, [], 0⟩,
     ⟨"BAR", 61, 1, .ro, [], 0⟩]⟩,
  ⟨"HLT_PROT_ENTRY1", 0x10000040, [], 8,
    [⟨"TIME", 0, 64, .ro, [], 0⟩]⟩,
  ⟨"HLT_PORT_CFG", 0x10000100, [(48, 0x4)], 4,
    [⟨"EN", 0, 1, .rw, [], 0⟩,
     ⟨"VEC", 1, 11, .rw, [], 0⟩]⟩,
  ⟨"HLT_FAULT", 0x10000400, [(32, 0x10)], 8,
    [⟨"KIND", 0, 8, .ro, [], 0⟩,
     ⟨"UNIT", 8, 12, .ro, [], 0⟩,
     ⟨"SPARE", 20, 1, .ro, [], 0⟩,
     ⟨"BEYOND", 21, 1, .ro, [], 0⟩]⟩,
  ⟨"HLT_FAULT_T", 0x10000408, [(32, 0x10)], 8,
    [⟨"TIME", 0, 64, .ro, [], 0⟩]⟩]

/-- Registers of the HLT_ block. -/
def hltRegs : List RegSpec := hltRegs0 ++ hltRegs1

/-- Registers of the MGT_ block, part 1. -/
def mgtRegs0 : List RegSpec := [
  ⟨"MGT_CFG", 0x11000000, [], 4,
    [⟨"BMC_MEM", 0, 1, .rw, [], 0⟩]⟩,
  ⟨"MGT_STATUS", 0x11000004, [], 4,
    [⟨"READY", 0, 1, .ro, [], 0⟩,
     ⟨"EID_I3C", 8, 8, .ro, [], 0⟩,
     ⟨"EID_SMB", 16, 8, .ro, [], 0⟩]⟩,
  ⟨"MGT_HEALTH", 0x11000008, [], 4,
    [⟨"HEALTH", 0, 32, .ro, [], 0⟩]⟩,
  ⟨"MGT_DBG_NONCE", 0x11000010, [(8, 0x4)], 4,
    [⟨"NONCE", 0, 32, .ro, [], 0⟩]⟩,
  ⟨"MGT_DBG_CTRL", 0x11000030, [], 4,
    [⟨"NEW", 0, 1, .wo, [], 0⟩,
     ⟨"SUBMIT", 1, 1, .wo, [], 0⟩,
     ⟨"LOCK", 2, 1, .wo, [], 0⟩]⟩,
  ⟨"MGT_DBG_STATUS", 0x11000034, [], 4,
    [⟨"LEVEL", 0, 2, .ro, [], 0⟩,
     ⟨"BUSY", 2, 1, .ro, [], 0⟩,
     ⟨"FAILS", 3, 4, .ro, [], 0⟩,
     ⟨"RESULT", 8, 8, .ro, [], 0⟩]⟩,
  ⟨"MGT_TEL", 0x11000100, [(5, 0x8)], 8,
    [⟨"COUNT", 0, 64, .ro, [], 0⟩]⟩]

/-- Registers of the MGT_ block. -/
def mgtRegs : List RegSpec := mgtRegs0

/-- The registers of the 16 MiB block (Table 1.6) that holds an address. -/
def blockRegs (a : Nat) : List RegSpec :=
  match a / 0x1000000 with
  | 0 => svyRegs
  | 1 => dtmRegs
  | 2 => admRegs
  | 3 => grtRegs
  | 4 => hpRegs
  | 5 => cadRegs
  | 6 => rngRegs
  | 7 => netRegs
  | 8 => bncRegs
  | 9 => bncRegs
  | 10 => tblRegs
  | 11 => swcRegs
  | 12 => cphRegs
  | 13 => rltRegs
  | 14 => stoRegs
  | 15 => pnlRegs
  | 16 => hltRegs
  | 17 => mgtRegs
  | _ => []

/-- The offset inside one element, when an offset falls on an element of an array of registers. -/
def elementOffset : List (Nat × Nat) → Nat → Option Nat
  | [], off => some off
  | (count, stride) :: rest, off =>
      if off / stride < count then elementOffset rest (off % stride) else none

/-- The register row an address falls into, with the address of the register itself. -/
def RegSpec.hit (r : RegSpec) (a : Nat) : Option Nat :=
  if a < r.base then none
  else match elementOffset r.dims (a - r.base) with
    | some off => if off < r.bytes then some (a - off) else none
    | none => none

/-- First register of a list that covers an address. -/
def findIn : List RegSpec → Nat → Option (RegSpec × Nat)
  | [], _ => none
  | r :: rs, a => match r.hit a with
    | some b => some (r, b)
    | none => findIn rs a

/-- A write at bench block offsets +0x0100 to +0x1_1FFF reaches the copy in every bench (R241), and the bench map and
move registers are one map in every block (R255): the model keeps one copy of each, in the block of bench 0.
The profile generation (+0x40) is broadcast too, and is kept there with them. -/
def canonAddr (a : Nat) : Nat :=
  if 0x8000000 ≤ a ∧ a < 0x9200000 then
    let off := (a - 0x8000000) % 0x100000
    if (0x40 ≤ off ∧ off < 0x48) ∨ (0x100 ≤ off ∧ off < 0x800) ∨ (0x10000 ≤ off ∧ off < 0x14000) ∨ 0xF0000 ≤ off then 0x8000000 + off else a
  else a

/-- The register at an address. -/
def findReg (a : Nat) : Option (RegSpec × Nat) := findIn (blockRegs (canonAddr a)) (canonAddr a)

/-- Reset value of a register from its fields. -/
def fieldsReset : List FieldSpec → Nat
  | [] => 0
  | f :: fs => f.reset * 2 ^ f.lo + fieldsReset fs

/-- Reset values that depend on the instance (Tables 2.9, 5.4, 5.13, 8.7, 9.6, 9.9, 16.9). -/
def instReset (r : RegSpec) (a v : Nat) : Nat :=
  if r.base = 0x1000100 then (if a = r.base then 0 else v + 2 * ((a - r.base) / 4))
  else if r.base = 0x4000100 then (if (a - r.base) % 0x10000 = 0 then v + 1 + 20 else v)
  else if r.base = 0x4002000 ∨ r.base = 0x4004000 then (if (a - r.base) % 0x10000 = 0 then 1 + 29 * 4 + 0x100 else 0)
  else if r.base = 0x7000020 then (Config.fusedMacBase.toNat + (a - r.base) / 0x8000) % 2 ^ 48
  else if r.base = 0x8000100 then
    (let j := (a - r.base) / 4
     if j < 8 then 0 else if j < 14 then 0x11111111 else if j = 14 then 0x22222222 else 0x333)
  else if r.base = 0x8000000 then (if 9 ≤ (a - r.base) / 0x100000 then v + 4 else v)
  else if r.base = 0xf000280 then v + 8 * ((a - r.base) % 0x100000 / 4)
  else v

/-- The value a register holds at device reset. -/
def regReset (a : Nat) : BitVec 64 :=
  match findReg a with
  | some (r, b) => BitVec.ofNat 64 (instReset r b (fieldsReset r.fields))
  | none => 0

/-- Address of DTM_CTRL (Table 2.5). -/
def DTM_CTRL : Nat := 0x1000000

/-- DTM_CTRL 0:0 STEP (WO): 1 requests a step under R37. -/
def DTM_CTRL_STEP : Fld := ⟨DTM_CTRL, 0, 1⟩

/-- DTM_CTRL 1:1 REVERT (RW): revertive selection under R42. -/
def DTM_CTRL_REVERT : Fld := ⟨DTM_CTRL, 1, 1⟩

/-- DTM_CTRL 9:2 SLEW_LIMIT (RW): slew limit in ppm, 1–200; a value of 0 or above 200 is stored as 200. -/
def DTM_CTRL_SLEW_LIMIT : Fld := ⟨DTM_CTRL, 2, 8⟩

/-- DTM_CTRL 25:10 WTR_S (RW): wait to restore, in seconds. -/
def DTM_CTRL_WTR_S : Fld := ⟨DTM_CTRL, 10, 16⟩

/-- Address of DTM_STATUS (Table 2.6). -/
def DTM_STATUS : Nat := 0x1000004

/-- DTM_STATUS 2:0 STATE (RO): state code of Table 2.2. -/
def DTM_STATUS_STATE : Fld := ⟨DTM_STATUS, 0, 3⟩

/-- DTM_STATUS 4:3 SRC (RO): selected source n of Table 2.1; 0b11 = none. -/
def DTM_STATUS_SRC : Fld := ⟨DTM_STATUS, 3, 2⟩

/-- DTM_STATUS 7:5 QUAL (RO): bit n = 1 when source n is qualified. -/
def DTM_STATUS_QUAL : Fld := ⟨DTM_STATUS, 5, 3⟩

/-- DTM_STATUS 8:8 EPOCH_SET (RO): 1 after the first step. -/
def DTM_STATUS_EPOCH_SET : Fld := ⟨DTM_STATUS, 8, 1⟩

/-- DTM_STATUS 9:9 STEP_BLOCKED (RO): 1 while an offset > 1 ms awaits a step (R37). -/
def DTM_STATUS_STEP_BLOCKED : Fld := ⟨DTM_STATUS, 9, 1⟩

/-- DTM_STATUS 11:10 HOLD_SEL (RO): oscillator in use for holdover: 0, 1; 0b10 = system reference; 0b11 = not in holdover. -/
def DTM_STATUS_HOLD_SEL : Fld := ⟨DTM_STATUS, 10, 2⟩

/-- DTM_STATUS 31:12 OFFSET (RO): last offset to the selected source, signed, in ns, saturating at ±524,287. -/
def DTM_STATUS_OFFSET : Fld := ⟨DTM_STATUS, 12, 20⟩

/-- Address of DTM_EVENT (Table 2.7). -/
def DTM_EVENT : Nat := 0x1000008

/-- DTM_EVENT 0:0 STATE (W1C): Datum state changed. -/
def DTM_EVENT_STATE : Fld := ⟨DTM_EVENT, 0, 1⟩

/-- DTM_EVENT 1:1 SRC_CHANGE (W1C): selected source changed. -/
def DTM_EVENT_SRC_CHANGE : Fld := ⟨DTM_EVENT, 1, 1⟩

/-- DTM_EVENT 2:2 STEP_BLOCKED (W1C): step refused or deferred. -/
def DTM_EVENT_STEP_BLOCKED : Fld := ⟨DTM_EVENT, 2, 1⟩

/-- DTM_EVENT 3:3 SYNCE_LOS (W1C): a SyncE output squelched. -/
def DTM_EVENT_SYNCE_LOS : Fld := ⟨DTM_EVENT, 3, 1⟩

/-- DTM_EVENT 4:4 SPINE (W1C): an island moved to its second spine path (R51). -/
def DTM_EVENT_SPINE : Fld := ⟨DTM_EVENT, 4, 1⟩

/-- Address of DTM_NOW (Table 2.8). -/
def DTM_NOW : Nat := 0x1000010

/-- DTM_NOW 63:0 NS (RO): Datum nanoseconds; a read latches the matching fraction into DTM_NOW_FRAC. -/
def DTM_NOW_NS : Fld := ⟨DTM_NOW, 0, 64⟩

/-- Address of DTM_NOW_FRAC (Table 2.8). -/
def DTM_NOW_FRAC : Nat := 0x1000018

/-- DTM_NOW_FRAC 15:0 FRAC (RO): fraction latched by the last DTM_NOW read. -/
def DTM_NOW_FRAC_FRAC : Fld := ⟨DTM_NOW_FRAC, 0, 16⟩

/-- Address of DTM_SRC_CFG (Table 2.9). -/
def DTM_SRC_CFG (n : Nat) : Nat := 0x1000100 + 0x4 * n

/-- DTM_SRC_CFG 0:0 EN (RW): source may qualify. -/
def DTM_SRC_CFG_EN (n : Nat) : Fld := ⟨(DTM_SRC_CFG n), 0, 1⟩

/-- DTM_SRC_CFG 2:1 PRIO (RW): priority; lower value preferred. -/
def DTM_SRC_CFG_PRIO (n : Nat) : Fld := ⟨(DTM_SRC_CFG n), 1, 2⟩

/-- DTM_SRC_CFG 3:3 REF_AID (RW): n = 0 only: use REF_10M_IN for frequency; reserved for n = 1–2. -/
def DTM_SRC_CFG_REF_AID (n : Nat) : Fld := ⟨(DTM_SRC_CFG n), 3, 1⟩

/-- DTM_SRC_CFG 9:4 PORT (RW): n = 1–2: network port 0–63 whose servo samples feed the source; reserved for n = 0. -/
def DTM_SRC_CFG_PORT (n : Nat) : Fld := ⟨(DTM_SRC_CFG n), 4, 6⟩

/-- DTM_SRC_CFG 27:10 SAMPLE_INT (RW): n = 1–2: sample interval in µs, 1–262,143 (default 250,000); reserved for n = 0. -/
def DTM_SRC_CFG_SAMPLE_INT (n : Nat) : Fld := ⟨(DTM_SRC_CFG n), 10, 18⟩

/-- Address of DTM_SERVO_A (Table 2.10). -/
def DTM_SERVO_A : Nat := 0x1000200

/-- DTM_SERVO_A 47:0 OFFSET (WO): grandmaster minus Datum, signed, in units of 2⁻¹⁶ ns. -/
def DTM_SERVO_A_OFFSET : Fld := ⟨DTM_SERVO_A, 0, 48⟩

/-- DTM_SERVO_A 55:48 SEQ (WO): sample sequence number (R43). -/
def DTM_SERVO_A_SEQ : Fld := ⟨DTM_SERVO_A, 48, 8⟩

/-- Address of DTM_SERVO_B (Table 2.10). -/
def DTM_SERVO_B : Nat := 0x1000208

/-- DTM_SERVO_B 47:0 OFFSET (WO): grandmaster minus Datum, signed, in units of 2⁻¹⁶ ns. -/
def DTM_SERVO_B_OFFSET : Fld := ⟨DTM_SERVO_B, 0, 48⟩

/-- DTM_SERVO_B 55:48 SEQ (WO): sample sequence number (R43). -/
def DTM_SERVO_B_SEQ : Fld := ⟨DTM_SERVO_B, 48, 8⟩

/-- Address of DTM_HOLD_CFG (Table 2.11). -/
def DTM_HOLD_CFG : Nat := 0x1000210

/-- DTM_HOLD_CFG 0:0 OSC0_EN (RW): HOLD_OSC0 fitted. -/
def DTM_HOLD_CFG_OSC0_EN : Fld := ⟨DTM_HOLD_CFG, 0, 1⟩

/-- DTM_HOLD_CFG 1:1 OSC1_EN (RW): HOLD_OSC1 fitted. -/
def DTM_HOLD_CFG_OSC1_EN : Fld := ⟨DTM_HOLD_CFG, 1, 1⟩

/-- DTM_HOLD_CFG 2:2 OSC0_F (RW): HOLD_OSC0 frequency: 0 = 10 MHz, 1 = 20 MHz. -/
def DTM_HOLD_CFG_OSC0_F : Fld := ⟨DTM_HOLD_CFG, 2, 1⟩

/-- DTM_HOLD_CFG 3:3 OSC1_F (RW): HOLD_OSC1 frequency: 0 = 10 MHz, 1 = 20 MHz. -/
def DTM_HOLD_CFG_OSC1_F : Fld := ⟨DTM_HOLD_CFG, 3, 1⟩

/-- DTM_HOLD_CFG 23:4 LIMIT_S (RW): holdover limit in seconds (default 86,400). -/
def DTM_HOLD_CFG_LIMIT_S : Fld := ⟨DTM_HOLD_CFG, 4, 20⟩

/-- Address of DTM_PPS_CFG (Table 2.12). -/
def DTM_PPS_CFG (n : Nat) : Nat := 0x1000300 + 0x8 * n

/-- DTM_PPS_CFG 0:0 EN (RW): drive the output. -/
def DTM_PPS_CFG_EN (n : Nat) : Fld := ⟨(DTM_PPS_CFG n), 0, 1⟩

/-- DTM_PPS_CFG 1:1 POL (RW): 0 = rising edge active. -/
def DTM_PPS_CFG_POL (n : Nat) : Fld := ⟨(DTM_PPS_CFG n), 1, 1⟩

/-- DTM_PPS_CFG 3:2 RATE (RW): period: 0 = 1 s, 1 = 100 ms, 2 = 10 ms, 3 = 1 ms. -/
def DTM_PPS_CFG_RATE (n : Nat) : Fld := ⟨(DTM_PPS_CFG n), 2, 2⟩

/-- DTM_PPS_CFG 19:4 WIDTH (RW): pulse width in µs; when WIDTH ≥ the period, the device uses half the period. -/
def DTM_PPS_CFG_WIDTH (n : Nat) : Fld := ⟨(DTM_PPS_CFG n), 4, 16⟩

/-- Address of DTM_PPS_PHASE (Table 2.12). -/
def DTM_PPS_PHASE (n : Nat) : Nat := 0x1000304 + 0x8 * n

/-- DTM_PPS_PHASE 31:0 PHASE (RW): signed edge offset from the period boundary, in ns. -/
def DTM_PPS_PHASE_PHASE (n : Nat) : Fld := ⟨(DTM_PPS_PHASE n), 0, 32⟩

/-- Address of DTM_SYNCE_CFG (Table 2.12). -/
def DTM_SYNCE_CFG (n : Nat) : Nat := 0x1000340 + 0x4 * n

/-- DTM_SYNCE_CFG 0:0 EN (RW): drive the output. -/
def DTM_SYNCE_CFG_EN (n : Nat) : Fld := ⟨(DTM_SYNCE_CFG n), 0, 1⟩

/-- DTM_SYNCE_CFG 6:1 LANE (RW): network lane 0–63. -/
def DTM_SYNCE_CFG_LANE (n : Nat) : Fld := ⟨(DTM_SYNCE_CFG n), 1, 6⟩

/-- DTM_SYNCE_CFG 8:7 FREQ (RW): 0 = 25 MHz, 1 = 156.25 MHz, 2 = 10 MHz; 3 is treated as 0. -/
def DTM_SYNCE_CFG_FREQ (n : Nat) : Fld := ⟨(DTM_SYNCE_CFG n), 7, 2⟩

/-- DTM_SYNCE_CFG 9:9 SQUELCH (RW): squelch on loss of signal or lock (R58). -/
def DTM_SYNCE_CFG_SQUELCH (n : Nat) : Fld := ⟨(DTM_SYNCE_CFG n), 9, 1⟩

/-- Address of DTM_PORT_CORR (Table 2.12). -/
def DTM_PORT_CORR (n : Nat) : Nat := 0x1001000 + 0x4 * n

/-- DTM_PORT_CORR 15:0 RX_PS (RW): signed ingress correction in ps, added to the network ingress stamp. -/
def DTM_PORT_CORR_RX_PS (n : Nat) : Fld := ⟨(DTM_PORT_CORR n), 0, 16⟩

/-- DTM_PORT_CORR 31:16 TX_PS (RW): signed egress correction in ps, added to the network egress stamp and one-step fields. -/
def DTM_PORT_CORR_TX_PS (n : Nat) : Fld := ⟨(DTM_PORT_CORR n), 16, 16⟩

/-- Address of ADM_CTRL (Table 3.14). -/
def ADM_CTRL : Nat := 0x2000000

/-- ADM_CTRL 7:0 TIMED (RW): bit c = 1: class c is timed. -/
def ADM_CTRL_TIMED : Fld := ⟨ADM_CTRL, 0, 8⟩

/-- ADM_CTRL 10:8 FALLBACK (RW): class for packets under R63, R64 and R87; must not be timed. -/
def ADM_CTRL_FALLBACK : Fld := ⟨ADM_CTRL, 8, 3⟩

/-- Address of ADM_STATUS (Table 3.15). -/
def ADM_STATUS : Nat := 0x2000004

/-- ADM_STATUS 0:0 READY (RO): 1 when admission serves commands (Table 1.4). -/
def ADM_STATUS_READY : Fld := ⟨ADM_STATUS, 0, 1⟩

/-- ADM_STATUS 1:1 MARGIN_LOST (RO): a spare has been consumed since reset. -/
def ADM_STATUS_MARGIN_LOST : Fld := ⟨ADM_STATUS, 1, 1⟩

/-- ADM_STATUS 2:2 NO_SPARE (RO): a spare inventory is 0. -/
def ADM_STATUS_NO_SPARE : Fld := ⟨ADM_STATUS, 2, 1⟩

/-- ADM_STATUS 3:3 CFG_REJECT (RO): the last checked write was refused; cleared by the next applied write. -/
def ADM_STATUS_CFG_REJECT : Fld := ⟨ADM_STATUS, 3, 1⟩

/-- ADM_STATUS 20:4 CONTRACTS (RO): contracts not FREE, 0–65,536. -/
def ADM_STATUS_CONTRACTS : Fld := ⟨ADM_STATUS, 4, 17⟩

/-- Address of ADM_EVENT (Table 3.16). -/
def ADM_EVENT : Nat := 0x2000008

/-- ADM_EVENT 0:0 MISS (W1C): a late delivery was counted (R76). -/
def ADM_EVENT_MISS : Fld := ⟨ADM_EVENT, 0, 1⟩

/-- ADM_EVENT 1:1 BROKEN (W1C): a contract became BROKEN. -/
def ADM_EVENT_BROKEN : Fld := ⟨ADM_EVENT, 1, 1⟩

/-- ADM_EVENT 2:2 MARGIN_LOST (W1C): a spare was consumed. -/
def ADM_EVENT_MARGIN_LOST : Fld := ⟨ADM_EVENT, 2, 1⟩

/-- ADM_EVENT 3:3 SUSPEND (W1C): a contract entered or left SUSPENDED. -/
def ADM_EVENT_SUSPEND : Fld := ⟨ADM_EVENT, 3, 1⟩

/-- ADM_EVENT 4:4 CFG_REJECT (W1C): a write was refused under R78. -/
def ADM_EVENT_CFG_REJECT : Fld := ⟨ADM_EVENT, 4, 1⟩

/-- Address of ADM_GEN (Table 3.17). -/
def ADM_GEN : Nat := 0x200000c

/-- ADM_GEN 31:0 GENERATION (RO): admitted-set generation (R85); wraps to 0. -/
def ADM_GEN_GENERATION : Fld := ⟨ADM_GEN, 0, 32⟩

/-- Address of ADM_RES_SHARE (Table 3.17). -/
def ADM_RES_SHARE : Nat := 0x2000010

/-- ADM_RES_SHARE 7:0 BENCH (RW): timed share of each bench, in 1/256. -/
def ADM_RES_SHARE_BENCH : Fld := ⟨ADM_RES_SHARE, 0, 8⟩

/-- ADM_RES_SHARE 15:8 STORE (RW): timed share of sett store bandwidth, in 1/256. -/
def ADM_RES_SHARE_STORE : Fld := ⟨ADM_RES_SHARE, 8, 8⟩

/-- ADM_RES_SHARE 23:16 SETT (RW): timed share of sett store capacity, in 1/256. -/
def ADM_RES_SHARE_SETT : Fld := ⟨ADM_RES_SHARE, 16, 8⟩

/-- Address of ADM_MISS_CNT (Table 3.18). -/
def ADM_MISS_CNT : Nat := 0x2000018

/-- ADM_MISS_CNT 63:0 COUNT (RO): late deliveries under R76; saturates at 2⁶⁴ − 1. -/
def ADM_MISS_CNT_COUNT : Fld := ⟨ADM_MISS_CNT, 0, 64⟩

/-- Address of ADM_MISS_EXT_CNT (Table 3.18). -/
def ADM_MISS_EXT_CNT : Nat := 0x2000020

/-- ADM_MISS_EXT_CNT 63:0 COUNT (RO): the late deliveries of ADM_MISS_CNT attributed to a cause outside the device (R76); saturates at 2⁶⁴ − 1. -/
def ADM_MISS_EXT_CNT_COUNT : Fld := ⟨ADM_MISS_EXT_CNT, 0, 64⟩

/-- Address of ADM_OUT_CFG (Table 3.19). -/
def ADM_OUT_CFG (n : Nat) : Nat := 0x2001000 + 0x4 * n

/-- ADM_OUT_CFG 7:0 SHARE (RW): timed share of outlet n, in 1/256; 0 = no contracts. -/
def ADM_OUT_CFG_SHARE (n : Nat) : Fld := ⟨(ADM_OUT_CFG n), 0, 8⟩

/-- ADM_OUT_CFG 9:8 PM (RW): host and root ports: 0 = no power state; 1 = L0p; 2 = L0p and L1; 3 = L0p, L1, L1.1 and L1.2; reserved elsewhe. -/
def ADM_OUT_CFG_PM (n : Nat) : Fld := ⟨(ADM_OUT_CFG n), 8, 2⟩

/-- ADM_OUT_CFG 25:10 CREDIT_NS (RW): host and root ports: posted-credit return bound in ns; reserved elsewhere. -/
def ADM_OUT_CFG_CREDIT_NS (n : Nat) : Fld := ⟨(ADM_OUT_CFG n), 10, 16⟩

/-- Address of GRT_CTRL (Table 4.4). -/
def GRT_CTRL : Nat := 0x3000000

/-- GRT_CTRL 0:0 CNT_CLR (WO): 1 clears GRT_BITE_CNT and GRT_RETRY_CNT. -/
def GRT_CTRL_CNT_CLR : Fld := ⟨GRT_CTRL, 0, 1⟩

/-- GRT_CTRL 3:1 REPEAT_LIMIT (RW): bites per island per second before R104 applies, 1–7; 0 is stored as 1. -/
def GRT_CTRL_REPEAT_LIMIT : Fld := ⟨GRT_CTRL, 1, 3⟩

/-- Address of GRT_STATUS (Table 4.5). -/
def GRT_STATUS : Nat := 0x3000004

/-- GRT_STATUS 11:0 LINKS_RESERVE (RO): links running on their reserve path. -/
def GRT_STATUS_LINKS_RESERVE : Fld := ⟨GRT_STATUS, 0, 12⟩

/-- GRT_STATUS 23:12 LINKS_LOST (RO): links whose reserve path has also failed. -/
def GRT_STATUS_LINKS_LOST : Fld := ⟨GRT_STATUS, 12, 12⟩

/-- Address of GRT_EVENT (Table 4.6). -/
def GRT_EVENT : Nat := 0x3000008

/-- GRT_EVENT 0:0 BITE (W1C): a watchdog bit (R103). -/
def GRT_EVENT_BITE : Fld := ⟨GRT_EVENT, 0, 1⟩

/-- GRT_EVENT 1:1 RESERVE (W1C): a link moved to its reserve path (R96). -/
def GRT_EVENT_RESERVE : Fld := ⟨GRT_EVENT, 1, 1⟩

/-- GRT_EVENT 2:2 LOST (W1C): a reserve path failed (R97). -/
def GRT_EVENT_LOST : Fld := ⟨GRT_EVENT, 2, 1⟩

/-- GRT_EVENT 3:3 REPEAT (W1C): an island reached REPEAT_LIMIT (R104). -/
def GRT_EVENT_REPEAT : Fld := ⟨GRT_EVENT, 3, 1⟩

/-- Address of GRT_BITE_CNT (Table 4.7). -/
def GRT_BITE_CNT : Nat := 0x3000010

/-- GRT_BITE_CNT 31:0 COUNT (RO): bites since reset or CNT_CLR; saturates at 0xFFFF_FFFF. -/
def GRT_BITE_CNT_COUNT : Fld := ⟨GRT_BITE_CNT, 0, 32⟩

/-- Address of GRT_RETRY_CNT (Table 4.7). -/
def GRT_RETRY_CNT : Nat := 0x3000014

/-- GRT_RETRY_CNT 31:0 COUNT (RO): resends under R94; saturates at 0xFFFF_FFFF. -/
def GRT_RETRY_CNT_COUNT : Fld := ⟨GRT_RETRY_CNT, 0, 32⟩

/-- Address of GRT_BITE_LAST (Table 4.8). -/
def GRT_BITE_LAST : Nat := 0x3000020

/-- GRT_BITE_LAST 11:0 INSTANCE (RO): target instance: sett store port group × 4 + port; host port; bench × 8 + engine; HBM port stack × 16 + port. -/
def GRT_BITE_LAST_INSTANCE : Fld := ⟨GRT_BITE_LAST, 0, 12⟩

/-- GRT_BITE_LAST 15:12 KIND (RO): 0 sett store port, 1 PCIe transmit, 2 cipher engine input, 3 HBM table port, 4 HBM general port; 5–15 not used. -/
def GRT_BITE_LAST_KIND : Fld := ⟨GRT_BITE_LAST, 12, 4⟩

/-- GRT_BITE_LAST 27:16 REQUESTER (RO): node number of the bitten requester. -/
def GRT_BITE_LAST_REQUESTER : Fld := ⟨GRT_BITE_LAST, 16, 12⟩

/-- Address of GRT_BITE_TIME (Table 4.8). -/
def GRT_BITE_TIME : Nat := 0x3000028

/-- GRT_BITE_TIME 63:0 TIME (RO): Datum short of the last bite. -/
def GRT_BITE_TIME_TIME : Fld := ⟨GRT_BITE_TIME, 0, 64⟩

/-- Address of HP_PORT_CFG (Table 5.6). -/
def HP_PORT_CFG (p : Nat) : Nat := 0x4000000 + 0x10000 * p

/-- HP_PORT_CFG 2:0 MAX_SPEED (RW): 1 = 2.5, 2 = 5, 3 = 8, 4 = 16, 5 = 32, 6 = 64 GT/s; 0 and 7 are stored as 6. -/
def HP_PORT_CFG_MAX_SPEED (p : Nat) : Fld := ⟨(HP_PORT_CFG p), 0, 3⟩

/-- HP_PORT_CFG 3:3 RETRAIN (WO): 1 retrains the link. -/
def HP_PORT_CFG_RETRAIN (p : Nat) : Fld := ⟨(HP_PORT_CFG p), 3, 1⟩

/-- HP_PORT_CFG 4:4 LINK_DIS (RW): 1 holds the link down. -/
def HP_PORT_CFG_LINK_DIS (p : Nat) : Fld := ⟨(HP_PORT_CFG p), 4, 1⟩

/-- HP_PORT_CFG 10:5 CPL_TO_MS (RW): completion timeout under R134, 1–50 ms; 0 is stored as 1, above 50 as 50. -/
def HP_PORT_CFG_CPL_TO_MS (p : Nat) : Fld := ⟨(HP_PORT_CFG p), 5, 6⟩

/-- HP_PORT_CFG 11:11 OBS_CLR (WO): 1 clears HP_CREDIT_OBS. -/
def HP_PORT_CFG_OBS_CLR (p : Nat) : Fld := ⟨(HP_PORT_CFG p), 11, 1⟩

/-- Address of HP_PORT_STATUS (Table 5.7). -/
def HP_PORT_STATUS (p : Nat) : Nat := 0x4000004 + 0x10000 * p

/-- HP_PORT_STATUS 0:0 LINK_UP (RO): link in L0, L0p or L1. -/
def HP_PORT_STATUS_LINK_UP (p : Nat) : Fld := ⟨(HP_PORT_STATUS p), 0, 1⟩

/-- HP_PORT_STATUS 3:1 SPEED (RO): code as MAX_SPEED; 0 = down. -/
def HP_PORT_STATUS_SPEED (p : Nat) : Fld := ⟨(HP_PORT_STATUS p), 1, 3⟩

/-- HP_PORT_STATUS 8:4 WIDTH (RO): lanes trained: 1, 2, 4, 8 or 16; 0 = down. -/
def HP_PORT_STATUS_WIDTH (p : Nat) : Fld := ⟨(HP_PORT_STATUS p), 4, 5⟩

/-- HP_PORT_STATUS 9:9 FLIT (RO): FLIT mode. -/
def HP_PORT_STATUS_FLIT (p : Nat) : Fld := ⟨(HP_PORT_STATUS p), 9, 1⟩

/-- HP_PORT_STATUS 10:10 ROLE (RO): 0 endpoint, 1 root. -/
def HP_PORT_STATUS_ROLE (p : Nat) : Fld := ⟨(HP_PORT_STATUS p), 10, 1⟩

/-- HP_PORT_STATUS 12:11 PM (RO): 0 full-width L0; 1 L0p reduced; 2 L1 or a substate; 3 not used. -/
def HP_PORT_STATUS_PM (p : Nat) : Fld := ⟨(HP_PORT_STATUS p), 11, 2⟩

/-- HP_PORT_STATUS 13:13 CXL (RO): root port with an attached type 3 expander. -/
def HP_PORT_STATUS_CXL (p : Nat) : Fld := ⟨(HP_PORT_STATUS p), 13, 1⟩

/-- HP_PORT_STATUS 14:14 DPC (RO): containment active. -/
def HP_PORT_STATUS_DPC (p : Nat) : Fld := ⟨(HP_PORT_STATUS p), 14, 1⟩

/-- HP_PORT_STATUS 15:15 PRESENT (RO): partner present. -/
def HP_PORT_STATUS_PRESENT (p : Nat) : Fld := ⟨(HP_PORT_STATUS p), 15, 1⟩

/-- HP_PORT_STATUS 16:16 DEGRADED (RO): R111 applies. -/
def HP_PORT_STATUS_DEGRADED (p : Nat) : Fld := ⟨(HP_PORT_STATUS p), 16, 1⟩

/-- Address of HP_EVENT (Table 5.8). -/
def HP_EVENT (p : Nat) : Nat := 0x4000008 + 0x10000 * p

/-- HP_EVENT 0:0 LINK (W1C): link went up or down. -/
def HP_EVENT_LINK (p : Nat) : Fld := ⟨(HP_EVENT p), 0, 1⟩

/-- HP_EVENT 1:1 WIN_DONE (W1C): R127. -/
def HP_EVENT_WIN_DONE (p : Nat) : Fld := ⟨(HP_EVENT p), 1, 1⟩

/-- HP_EVENT 2:2 WIN_REJECT (W1C): R125, R128. -/
def HP_EVENT_WIN_REJECT (p : Nat) : Fld := ⟨(HP_EVENT p), 2, 1⟩

/-- HP_EVENT 3:3 CREDIT (W1C): R116. -/
def HP_EVENT_CREDIT (p : Nat) : Fld := ⟨(HP_EVENT p), 3, 1⟩

/-- HP_EVENT 4:4 DPC (W1C): R139. -/
def HP_EVENT_DPC (p : Nat) : Fld := ⟨(HP_EVENT p), 4, 1⟩

/-- HP_EVENT 5:5 PRESENCE (W1C): R142. -/
def HP_EVENT_PRESENCE (p : Nat) : Fld := ⟨(HP_EVENT p), 5, 1⟩

/-- HP_EVENT 6:6 LATE_CPL (W1C): a completion was dropped under R135. -/
def HP_EVENT_LATE_CPL (p : Nat) : Fld := ⟨(HP_EVENT p), 6, 1⟩

/-- HP_EVENT 7:7 DEGRADED (W1C): R111. -/
def HP_EVENT_DEGRADED (p : Nat) : Fld := ⟨(HP_EVENT p), 7, 1⟩

/-- HP_EVENT 8:8 PEER_FAULT (W1C): R124. -/
def HP_EVENT_PEER_FAULT (p : Nat) : Fld := ⟨(HP_EVENT p), 8, 1⟩

/-- Address of HP_PM_CFG (Table 5.10). -/
def HP_PM_CFG (p : Nat) : Nat := 0x4000020 + 0x10000 * p

/-- HP_PM_CFG 7:0 L1_IDLE_US (RW): idle time before L1, in µs; 0 is stored as 1. -/
def HP_PM_CFG_L1_IDLE_US (p : Nat) : Fld := ⟨(HP_PM_CFG p), 0, 8⟩

/-- HP_PM_CFG 15:8 L0P_IDLE_US (RW): idle time before width reduction, in µs; 0 is stored as 1. -/
def HP_PM_CFG_L0P_IDLE_US (p : Nat) : Fld := ⟨(HP_PM_CFG p), 8, 8⟩

/-- HP_PM_CFG 17:16 L0P_MIN (RW): 0 x1, 1 x2, 2 x4, 3 x8; a width ≥ the port width disables L0p. -/
def HP_PM_CFG_L0P_MIN (p : Nat) : Fld := ⟨(HP_PM_CFG p), 16, 2⟩

/-- Address of HP_PM_EXIT (Table 5.10). -/
def HP_PM_EXIT (p : Nat) : Nat := 0x4000024 + 0x10000 * p

/-- HP_PM_EXIT 19:0 PARTNER_EXIT_NS (RW): partner's exit latency, in ns (Table 5.2). -/
def HP_PM_EXIT_PARTNER_EXIT_NS (p : Nat) : Fld := ⟨(HP_PM_EXIT p), 0, 20⟩

/-- Address of HP_WIN_COMMIT (Table 5.11). -/
def HP_WIN_COMMIT (p : Nat) : Nat := 0x4000030 + 0x10000 * p

/-- HP_WIN_COMMIT 0:0 COMMIT (WO): 1 commits the shadow bank (R125). -/
def HP_WIN_COMMIT_COMMIT (p : Nat) : Fld := ⟨(HP_WIN_COMMIT p), 0, 1⟩

/-- Address of HP_WIN_STATUS (Table 5.11). -/
def HP_WIN_STATUS (p : Nat) : Nat := 0x4000034 + 0x10000 * p

/-- HP_WIN_STATUS 15:0 GEN (RO): active generation; wraps to 0. -/
def HP_WIN_STATUS_GEN (p : Nat) : Fld := ⟨(HP_WIN_STATUS p), 0, 16⟩

/-- HP_WIN_STATUS 16:16 RETIRING (RO): old-generation TLPs outstanding. -/
def HP_WIN_STATUS_RETIRING (p : Nat) : Fld := ⟨(HP_WIN_STATUS p), 16, 1⟩

/-- HP_WIN_STATUS 17:17 ERR (RO): the last commit failed; cleared by the next successful commit. -/
def HP_WIN_STATUS_ERR (p : Nat) : Fld := ⟨(HP_WIN_STATUS p), 17, 1⟩

/-- HP_WIN_STATUS 22:18 ERR_IDX (RO): window of the first failing entry. -/
def HP_WIN_STATUS_ERR_IDX (p : Nat) : Fld := ⟨(HP_WIN_STATUS p), 18, 5⟩

/-- HP_WIN_STATUS 25:23 ERR_PF (RO): function of the first failing entry. -/
def HP_WIN_STATUS_ERR_PF (p : Nat) : Fld := ⟨(HP_WIN_STATUS p), 23, 3⟩

/-- Address of HP_TAG_STATUS (Table 5.12). -/
def HP_TAG_STATUS (p : Nat) : Nat := 0x4000040 + 0x10000 * p

/-- HP_TAG_STATUS 12:0 OUTSTANDING (RO): tags in use, 0–4,096. -/
def HP_TAG_STATUS_OUTSTANDING (p : Nat) : Fld := ⟨(HP_TAG_STATUS p), 0, 13⟩

/-- HP_TAG_STATUS 25:13 QUARANTINED (RO): tags quarantined under R135, 0–4,096. -/
def HP_TAG_STATUS_QUARANTINED (p : Nat) : Fld := ⟨(HP_TAG_STATUS p), 13, 13⟩

/-- Address of HP_LATE_CPL_CNT (Table 5.12). -/
def HP_LATE_CPL_CNT (p : Nat) : Nat := 0x4000048 + 0x10000 * p

/-- HP_LATE_CPL_CNT 31:0 COUNT (RO): completions dropped under R135; saturates at 0xFFFF_FFFF. -/
def HP_LATE_CPL_CNT_COUNT (p : Nat) : Fld := ⟨(HP_LATE_CPL_CNT p), 0, 32⟩

/-- Address of HP_CREDIT_OBS (Table 5.12). -/
def HP_CREDIT_OBS (p : Nat) : Nat := 0x4000050 + 0x10000 * p

/-- HP_CREDIT_OBS 19:0 MAX_NS (RO): longest posted-credit wait observed, in ns, saturating. -/
def HP_CREDIT_OBS_MAX_NS (p : Nat) : Fld := ⟨(HP_CREDIT_OBS p), 0, 20⟩

/-- Address of HP_STN_CFG (Table 5.9). -/
def HP_STN_CFG (s : Nat) : Nat := 0x4000010 + 0x40000 * s

/-- HP_STN_CFG 1:0 MODE (RWL): Table 5.1. -/
def HP_STN_CFG_MODE (s : Nat) : Fld := ⟨(HP_STN_CFG s), 0, 2⟩

/-- HP_STN_CFG 5:2 ROLE (RWL): bit q: port 4s + q is 0 endpoint, 1 root; ignored for absent ports. -/
def HP_STN_CFG_ROLE (s : Nat) : Fld := ⟨(HP_STN_CFG s), 2, 4⟩

/-- HP_STN_CFG 7:6 CLK (RWL): 0 common reference; 1 SRNS; 2 SRIS; 3 is treated as 0. -/
def HP_STN_CFG_CLK (s : Nat) : Fld := ⟨(HP_STN_CFG s), 6, 2⟩

/-- Address of HP_PF_CFG (Table 5.13). -/
def HP_PF_CFG (p : Nat) (f : Nat) : Nat := 0x4000100 + 0x10000 * p + 0x4 * f

/-- HP_PF_CFG 0:0 EN (RW; RO for f = 0): function present from the next link-up (R118). -/
def HP_PF_CFG_EN (p : Nat) (f : Nat) : Fld := ⟨(HP_PF_CFG p f), 0, 1⟩

/-- HP_PF_CFG 5:1 BAR0_LOG2 (RW; RO for f = 0): BAR0 size 2^BAR0_LOG2, 20–30; other values are stored as 20. -/
def HP_PF_CFG_BAR0_LOG2 (p : Nat) (f : Nat) : Fld := ⟨(HP_PF_CFG p f), 1, 5⟩

/-- HP_PF_CFG 11:6 BAR2_LOG2 (RW): 0 = no BAR2; 30–40; 1–29 are stored as 30, above 40 as 40. -/
def HP_PF_CFG_BAR2_LOG2 (p : Nat) (f : Nat) : Fld := ⟨(HP_PF_CFG p f), 6, 6⟩

/-- HP_PF_CFG 22:12 MSIX_N (RW): MSI-X vectors − 1, 0–2,047. -/
def HP_PF_CFG_MSIX_N (p : Nat) (f : Nat) : Fld := ⟨(HP_PF_CFG p f), 12, 11⟩

/-- Address of MBX_STATUS (Table 6.12). -/
def MBX_STATUS (n : Nat) : Nat := 0x5000080 + 0x1000 * n

/-- MBX_STATUS 1:0 UP_STATE (RO): 0 EMPTY, 1 CLAIMED, 2 FULL; 3 not used. -/
def MBX_STATUS_UP_STATE (n : Nat) : Fld := ⟨(MBX_STATUS n), 0, 2⟩

/-- MBX_STATUS 3:2 DOWN_STATE (RO): as UP_STATE. -/
def MBX_STATUS_DOWN_STATE (n : Nat) : Fld := ⟨(MBX_STATUS n), 2, 2⟩

/-- MBX_STATUS 6:4 STATE (RO): sheet state, Table 6.7. -/
def MBX_STATUS_STATE (n : Nat) : Fld := ⟨(MBX_STATUS n), 4, 3⟩

/-- MBX_STATUS 7:7 DISABLED (RO): 1 when STATE = DISABLED (R166). -/
def MBX_STATUS_DISABLED (n : Nat) : Fld := ⟨(MBX_STATUS n), 7, 1⟩

/-- MBX_STATUS 11:8 UP_QUEUED (RO): device messages queued for UP, 0–8. -/
def MBX_STATUS_UP_QUEUED (n : Nat) : Fld := ⟨(MBX_STATUS n), 8, 4⟩

/-- MBX_STATUS 15:12 DOWN_QUEUED (RO): device messages queued for DOWN, 0–8. -/
def MBX_STATUS_DOWN_QUEUED (n : Nat) : Fld := ⟨(MBX_STATUS n), 12, 4⟩

/-- MBX_STATUS 23:16 PENDING (RO): pending shrinks, mask bits of Table 6.1. -/
def MBX_STATUS_PENDING (n : Nat) : Fld := ⟨(MBX_STATUS n), 16, 8⟩

/-- Address of CAD_ID (Table 6.6). -/
def CAD_ID (n : Nat) : Nat := 0x5000800 + 0x1000 * n

/-- CAD_ID 2:0 PF (RW while FREE, else RO): function on the allotted port. -/
def CAD_ID_PF (n : Nat) : Fld := ⟨(CAD_ID n), 0, 3⟩

/-- CAD_ID 22:3 PASID (as PF): PASID of the sheet. -/
def CAD_ID_PASID (n : Nat) : Fld := ⟨(CAD_ID n), 3, 20⟩

/-- CAD_ID 33:23 VEC_TEN (as PF): DOWN interrupt vector in the sheet's function, ≤ MSIX_N. -/
def CAD_ID_VEC_TEN (n : Nat) : Fld := ⟨(CAD_ID n), 23, 11⟩

/-- CAD_ID 44:34 VEC_MGR (as PF): UP interrupt vector in function 0, ≤ MSIX_N. -/
def CAD_ID_VEC_MGR (n : Nat) : Fld := ⟨(CAD_ID n), 34, 11⟩

/-- Address of CAD_SHARE (Table 6.6). -/
def CAD_SHARE (n : Nat) (m : Nat) : Nat := 0x5000808 + 0x1000 * n + 0x8 * m

/-- CAD_SHARE 63:0 SHARE (as PF): bytes 8m to 8m + 7 of the share record; when not FREE, the effective limits. -/
def CAD_SHARE_SHARE (n : Nat) (m : Nat) : Fld := ⟨(CAD_SHARE n m), 0, 64⟩

/-- Address of CAD_OP (Table 6.6). -/
def CAD_OP (n : Nat) : Nat := 0x5000830 + 0x1000 * n

/-- CAD_OP 1:0 OP (WO): 1 CREATE; 2 DESTROY; 3 ENABLE (R157, R163); 0 no action; ignored while BUSY. -/
def CAD_OP_OP (n : Nat) : Fld := ⟨(CAD_OP n), 0, 2⟩

/-- Address of CAD_OP_STATUS (Table 6.6). -/
def CAD_OP_STATUS (n : Nat) : Nat := 0x5000834 + 0x1000 * n

/-- CAD_OP_STATUS 15:0 STATUS (RO): status word of the last operation, Table 6.11. -/
def CAD_OP_STATUS_STATUS (n : Nat) : Fld := ⟨(CAD_OP_STATUS n), 0, 16⟩

/-- CAD_OP_STATUS 16:16 BUSY (RO): operation in progress. -/
def CAD_OP_STATUS_BUSY (n : Nat) : Fld := ⟨(CAD_OP_STATUS n), 16, 1⟩

/-- CAD_OP_STATUS 24:17 FIELD (RO): refusing share, as in Table 6.10. -/
def CAD_OP_STATUS_FIELD (n : Nat) : Fld := ⟨(CAD_OP_STATUS n), 17, 8⟩

/-- Address of CAD_USE (Table 6.6). -/
def CAD_USE (n : Nat) (m : Nat) : Nat := 0x5000840 + 0x1000 * n + 0x8 * m

/-- CAD_USE 63:0 USE (RO): bytes 8m to 8m + 7 of the usage record (R151). -/
def CAD_USE_USE (n : Nat) (m : Nat) : Fld := ⟨(CAD_USE n m), 0, 64⟩

/-- Address of RNG_RSTATUS (Table 7.12). -/
def RNG_RSTATUS (g : Nat) : Nat := 0x6000000 + 0x8 * g

/-- RNG_RSTATUS 31:0 HEAD (RO): first entry index not completed. -/
def RNG_RSTATUS_HEAD (g : Nat) : Fld := ⟨(RNG_RSTATUS g), 0, 32⟩

/-- RNG_RSTATUS 47:32 LOCAL (RO): local number of the ring. -/
def RNG_RSTATUS_LOCAL (g : Nat) : Fld := ⟨(RNG_RSTATUS g), 32, 16⟩

/-- RNG_RSTATUS 50:48 STATE (RO): Table 7.6. -/
def RNG_RSTATUS_STATE (g : Nat) : Fld := ⟨(RNG_RSTATUS g), 48, 3⟩

/-- RNG_RSTATUS 51:51 IDLE (RO): R191. -/
def RNG_RSTATUS_IDLE (g : Nat) : Fld := ⟨(RNG_RSTATUS g), 51, 1⟩

/-- RNG_RSTATUS 54:52 CAUSE (RO): Table 7.7; 3–7 not used. -/
def RNG_RSTATUS_CAUSE (g : Nat) : Fld := ⟨(RNG_RSTATUS g), 52, 3⟩

/-- Address of RNG_ADMIN_BASE (Table 7.13). -/
def RNG_ADMIN_BASE (n : Nat) : Nat := 0x6800000 + 0x40 * n

/-- RNG_ADMIN_BASE 63:12 BASE (RW while ring 0 is CLOSED, else RO): bits [63:12] of the ring base. -/
def RNG_ADMIN_BASE_BASE (n : Nat) : Fld := ⟨(RNG_ADMIN_BASE n), 12, 52⟩

/-- Address of RNG_ADMIN_HEAD (Table 7.13). -/
def RNG_ADMIN_HEAD (n : Nat) : Nat := 0x6800008 + 0x40 * n

/-- RNG_ADMIN_HEAD 63:3 HEAD_ADDR (as BASE): bits [63:3] of the head record address; 0 = none. -/
def RNG_ADMIN_HEAD_HEAD_ADDR (n : Nat) : Fld := ⟨(RNG_ADMIN_HEAD n), 3, 61⟩

/-- Address of RNG_ADMIN_CFG (Table 7.13). -/
def RNG_ADMIN_CFG (n : Nat) : Nat := 0x6800010 + 0x40 * n

/-- RNG_ADMIN_CFG 4:0 SIZE_LOG2 (as BASE): 4–16; other values are stored as 4. -/
def RNG_ADMIN_CFG_SIZE_LOG2 (n : Nat) : Fld := ⟨(RNG_ADMIN_CFG n), 0, 5⟩

/-- RNG_ADMIN_CFG 15:5 VEC (RW): vector, ≤ MSIX_N. -/
def RNG_ADMIN_CFG_VEC (n : Nat) : Fld := ⟨(RNG_ADMIN_CFG n), 5, 11⟩

/-- RNG_ADMIN_CFG 23:16 COAL_N (RW): R187. -/
def RNG_ADMIN_CFG_COAL_N (n : Nat) : Fld := ⟨(RNG_ADMIN_CFG n), 16, 8⟩

/-- RNG_ADMIN_CFG 31:24 COAL_US (RW): R187. -/
def RNG_ADMIN_CFG_COAL_US (n : Nat) : Fld := ⟨(RNG_ADMIN_CFG n), 24, 8⟩

/-- Address of RNG_ADMIN_CTRL (Table 7.13). -/
def RNG_ADMIN_CTRL (n : Nat) : Nat := 0x6800018 + 0x40 * n

/-- RNG_ADMIN_CTRL 1:0 OP (WO): 1 OPEN, 2 ENABLE, 3 CLOSE; 0 no action; ignored while BUSY. -/
def RNG_ADMIN_CTRL_OP (n : Nat) : Fld := ⟨(RNG_ADMIN_CTRL n), 0, 2⟩

/-- RNG_ADMIN_CTRL 2:2 ONE_WRITE (WO): with OPEN: R177. -/
def RNG_ADMIN_CTRL_ONE_WRITE (n : Nat) : Fld := ⟨(RNG_ADMIN_CTRL n), 2, 1⟩

/-- Address of RNG_ADMIN_START (Table 7.13). -/
def RNG_ADMIN_START (n : Nat) : Nat := 0x680001c + 0x40 * n

/-- RNG_ADMIN_START 31:0 START (RW): HEAD, FETCH and PI after OPEN or ENABLE. -/
def RNG_ADMIN_START_START (n : Nat) : Fld := ⟨(RNG_ADMIN_START n), 0, 32⟩

/-- Address of RNG_ADMIN_STATUS (Table 7.13). -/
def RNG_ADMIN_STATUS (n : Nat) : Nat := 0x6800020 + 0x40 * n

/-- RNG_ADMIN_STATUS 15:0 STATUS (RO): status word of the last OP, Table 7.11. -/
def RNG_ADMIN_STATUS_STATUS (n : Nat) : Fld := ⟨(RNG_ADMIN_STATUS n), 0, 16⟩

/-- RNG_ADMIN_STATUS 16:16 BUSY (RO): OP in progress; OPEN and ENABLE ≤ 10 µs; CLOSE ≤ 1 ms. -/
def RNG_ADMIN_STATUS_BUSY (n : Nat) : Fld := ⟨(RNG_ADMIN_STATUS n), 16, 1⟩

/-- Address of RNG_EVENT (Table 7.14). -/
def RNG_EVENT : Nat := 0x6ff0000

/-- RNG_EVENT 0:0 DB_BAD (W1C): a doorbell write was dropped (R173, R174). -/
def RNG_EVENT_DB_BAD : Fld := ⟨RNG_EVENT, 0, 1⟩

/-- RNG_EVENT 1:1 FETCH_FAULT (W1C): a ring took CAUSE 2 (R194). -/
def RNG_EVENT_FETCH_FAULT : Fld := ⟨RNG_EVENT, 1, 1⟩

/-- Address of RNG_DB_DROP (Table 7.14). -/
def RNG_DB_DROP : Nat := 0x6ff0008

/-- RNG_DB_DROP 31:0 COUNT (RO): dropped doorbell writes; saturates at 0xFFFF_FFFF; a write of any value clears it. -/
def RNG_DB_DROP_COUNT : Fld := ⟨RNG_DB_DROP, 0, 32⟩

/-- Address of NET_PORT_CFG (Table 8.5). -/
def NET_PORT_CFG (p : Nat) : Nat := 0x7000000 + 0x8000 * p

/-- NET_PORT_CFG 4:0 MODE (RW): Table 8.1; applied only while OFF (R211). -/
def NET_PORT_CFG_MODE (p : Nat) : Fld := ⟨(NET_PORT_CFG p), 0, 5⟩

/-- NET_PORT_CFG 5:5 ENABLE (RW): 1 starts the port (Table 8.4); 0 is refused under R225. -/
def NET_PORT_CFG_ENABLE (p : Nat) : Fld := ⟨(NET_PORT_CFG p), 5, 1⟩

/-- NET_PORT_CFG 19:6 MAX_FRAME (RW): 1,518–9,220 bytes; below stored as 1,518, above as 9,220 (R215, R221). -/
def NET_PORT_CFG_MAX_FRAME (p : Nat) : Fld := ⟨(NET_PORT_CFG p), 6, 14⟩

/-- NET_PORT_CFG 22:20 TEST (RW): 0 off; 1 PRBS7; 2 PRBS9; 3 PRBS13; 4 PRBS15; 5 PRBS31; 6–7 treated as 0; acts only while OFF. -/
def NET_PORT_CFG_TEST (p : Nat) : Fld := ⟨(NET_PORT_CFG p), 20, 3⟩

/-- NET_PORT_CFG 25:23 TEST_RATE (RW): 0 mode rate; 1 1.25; 2 10.3125; 3 25.78125; 4 53.125; 5 106.25; 6 212.5 Gb/s; 7 treated as 0. -/
def NET_PORT_CFG_TEST_RATE (p : Nat) : Fld := ⟨(NET_PORT_CFG p), 23, 3⟩

/-- Address of NET_PORT_CTRL (Table 8.6). -/
def NET_PORT_CTRL (p : Nat) : Nat := 0x7000004 + 0x8000 * p

/-- NET_PORT_CTRL 0:0 RETRAIN (WO): R227. -/
def NET_PORT_CTRL_RETRAIN (p : Nat) : Fld := ⟨(NET_PORT_CTRL p), 0, 1⟩

/-- NET_PORT_CTRL 1:1 RESTORE (WO): R223. -/
def NET_PORT_CTRL_RESTORE (p : Nat) : Fld := ⟨(NET_PORT_CTRL p), 1, 1⟩

/-- NET_PORT_CTRL 2:2 CNT_CLR (WO): 1 clears the counters of Table 8.9 and NET_TEST_ERR. -/
def NET_PORT_CTRL_CNT_CLR (p : Nat) : Fld := ⟨(NET_PORT_CTRL p), 2, 1⟩

/-- Address of NET_PORT_STATUS (Table 8.6). -/
def NET_PORT_STATUS (p : Nat) : Nat := 0x7000008 + 0x8000 * p

/-- NET_PORT_STATUS 2:0 STATE (RO): Table 8.3. -/
def NET_PORT_STATUS_STATE (p : Nat) : Fld := ⟨(NET_PORT_STATUS p), 0, 3⟩

/-- NET_PORT_STATUS 6:3 CAUSE (RO): cause of the last move into FAULT, TRAINING, PAUSE_FAILED or NO_MODULE, Table 8.4 (R224); 9–15 not used. -/
def NET_PORT_STATUS_CAUSE (p : Nat) : Fld := ⟨(NET_PORT_STATUS p), 3, 4⟩

/-- NET_PORT_STATUS 7:7 CFG_ERR (RO): the last checked write was refused; cleared by the next applied one. -/
def NET_PORT_STATUS_CFG_ERR (p : Nat) : Fld := ⟨(NET_PORT_STATUS p), 7, 1⟩

/-- NET_PORT_STATUS 15:8 RX_PAUSED (RO): bit c: class c stopped by received pause. -/
def NET_PORT_STATUS_RX_PAUSED (p : Nat) : Fld := ⟨(NET_PORT_STATUS p), 8, 8⟩

/-- NET_PORT_STATUS 23:16 TX_XOFF (RO): bit p: priority p paused by the device. -/
def NET_PORT_STATUS_TX_XOFF (p : Nat) : Fld := ⟨(NET_PORT_STATUS p), 16, 8⟩

/-- Address of NET_EVENT (Table 8.6). -/
def NET_EVENT (p : Nat) : Nat := 0x700000c + 0x8000 * p

/-- NET_EVENT 0:0 STATE (W1C): state changed. -/
def NET_EVENT_STATE (p : Nat) : Fld := ⟨(NET_EVENT p), 0, 1⟩

/-- NET_EVENT 1:1 CFG_ERR (W1C): a write was refused. -/
def NET_EVENT_CFG_ERR (p : Nat) : Fld := ⟨(NET_EVENT p), 1, 1⟩

/-- NET_EVENT 2:2 PAUSE_FAIL (W1C): R222. -/
def NET_EVENT_PAUSE_FAIL (p : Nat) : Fld := ⟨(NET_EVENT p), 2, 1⟩

/-- Address of NET_PFC_CFG (Table 8.7). -/
def NET_PFC_CFG (p : Nat) : Nat := 0x7000010 + 0x8000 * p

/-- NET_PFC_CFG 7:0 RX_PFC_EN (RW): bit c: class c obeys received pause (R219). -/
def NET_PFC_CFG_RX_PFC_EN (p : Nat) : Fld := ⟨(NET_PFC_CFG p), 0, 8⟩

/-- NET_PFC_CFG 8:8 RX_PAUSE_EN (RW): honour Annex 31B PAUSE (R216). -/
def NET_PFC_CFG_RX_PAUSE_EN (p : Nat) : Fld := ⟨(NET_PFC_CFG p), 8, 1⟩

/-- NET_PFC_CFG 23:9 PAUSE_LIMIT_US (RW): pause persistence limit, 1–32,767 µs; 0 stored as 1 (R222). -/
def NET_PFC_CFG_PAUSE_LIMIT_US (p : Nat) : Fld := ⟨(NET_PFC_CFG p), 9, 15⟩

/-- Address of NET_PRIO_MAP (Table 8.7). -/
def NET_PRIO_MAP (p : Nat) : Nat := 0x7000014 + 0x8000 * p

/-- NET_PRIO_MAP 23:0 PRIO (RW): bits [3c+2:3c]: priority of class c. -/
def NET_PRIO_MAP_PRIO (p : Nat) : Fld := ⟨(NET_PRIO_MAP p), 0, 24⟩

/-- Address of NET_HEAD_CFG (Table 8.7). -/
def NET_HEAD_CFG (p : Nat) : Nat := 0x7000018 + 0x8000 * p

/-- NET_HEAD_CFG 13:0 CABLE_M (RW): optical path length, 0–10,000 m; above stored as 10,000. -/
def NET_HEAD_CFG_CABLE_M (p : Nat) : Fld := ⟨(NET_HEAD_CFG p), 0, 14⟩

/-- NET_HEAD_CFG 29:14 PARTNER_NS (RW): partner pause response, 0–65,535 ns. -/
def NET_HEAD_CFG_PARTNER_NS (p : Nat) : Fld := ⟨(NET_HEAD_CFG p), 14, 16⟩

/-- Address of NET_HEAD_STATUS (Table 8.7). -/
def NET_HEAD_STATUS (p : Nat) : Nat := 0x700001c + 0x8000 * p

/-- NET_HEAD_STATUS 19:0 H (RO): setts per priority (R220); 0 when not reserved. -/
def NET_HEAD_STATUS_H (p : Nat) : Fld := ⟨(NET_HEAD_STATUS p), 0, 20⟩

/-- NET_HEAD_STATUS 23:20 PRIOS (RO): priorities in use, 1–8. -/
def NET_HEAD_STATUS_PRIOS (p : Nat) : Fld := ⟨(NET_HEAD_STATUS p), 20, 4⟩

/-- Address of NET_SRC_MAC (Table 8.7). -/
def NET_SRC_MAC (p : Nat) : Nat := 0x7000020 + 0x8000 * p

/-- NET_SRC_MAC 47:0 MAC (RW): source address of PFC frames. -/
def NET_SRC_MAC_MAC (p : Nat) : Fld := ⟨(NET_SRC_MAC p), 0, 48⟩

/-- Address of NET_TEST_ERR (Table 8.7). -/
def NET_TEST_ERR (p : Nat) : Nat := 0x7000028 + 0x8000 * p

/-- NET_TEST_ERR 31:0 COUNT (RO): PRBS errors (R213); saturates at 0xFFFF_FFFF. -/
def NET_TEST_ERR_COUNT (p : Nat) : Fld := ⟨(NET_TEST_ERR p), 0, 32⟩

/-- Address of NET_CAGE_CFG (Table 8.8). -/
def NET_CAGE_CFG (k : Nat) : Nat := 0x7004000 + 0x8000 * k

/-- NET_CAGE_CFG 5:0 FIRST_LANE (RWL): first lane, a multiple of LANES. -/
def NET_CAGE_CFG_FIRST_LANE (k : Nat) : Fld := ⟨(NET_CAGE_CFG k), 0, 6⟩

/-- NET_CAGE_CFG 9:6 LANES (RWL): 1, 2, 4 or 8; any other value = cage absent. -/
def NET_CAGE_CFG_LANES (k : Nat) : Fld := ⟨(NET_CAGE_CFG k), 6, 4⟩

/-- NET_CAGE_CFG 17:10 MAX_POWER (RWL): largest module power the cage cools, in 0.25 W. -/
def NET_CAGE_CFG_MAX_POWER (k : Nat) : Fld := ⟨(NET_CAGE_CFG k), 10, 8⟩

/-- Address of NET_CAGE_STATUS (Table 8.8). -/
def NET_CAGE_STATUS (k : Nat) : Nat := 0x7004004 + 0x8000 * k

/-- NET_CAGE_STATUS 0:0 PRESENT (RO): presence debounced. -/
def NET_CAGE_STATUS_PRESENT (k : Nat) : Fld := ⟨(NET_CAGE_STATUS k), 0, 1⟩

/-- NET_CAGE_STATUS 3:1 MSTATE (RO): CMIS module state: 1 LowPwr, 2 PwrUp, 3 Ready, 4 PwrDn, 5 Fault; 0 none. -/
def NET_CAGE_STATUS_MSTATE (k : Nat) : Fld := ⟨(NET_CAGE_STATUS k), 1, 3⟩

/-- NET_CAGE_STATUS 4:4 I3C (RO): bus in I3C SDR mode. -/
def NET_CAGE_STATUS_I3C (k : Nat) : Fld := ⟨(NET_CAGE_STATUS k), 4, 1⟩

/-- NET_CAGE_STATUS 5:5 ACC_BUSY (RO): R231. -/
def NET_CAGE_STATUS_ACC_BUSY (k : Nat) : Fld := ⟨(NET_CAGE_STATUS k), 5, 1⟩

/-- NET_CAGE_STATUS 6:6 ACC_ERR (RO): last access refused or failed. -/
def NET_CAGE_STATUS_ACC_ERR (k : Nat) : Fld := ⟨(NET_CAGE_STATUS k), 6, 1⟩

/-- Address of NET_CAGE_ACC (Table 8.8). -/
def NET_CAGE_ACC (k : Nat) : Nat := 0x7004008 + 0x8000 * k

/-- NET_CAGE_ACC 7:0 OFFSET (WO): byte offset, 0–255. -/
def NET_CAGE_ACC_OFFSET (k : Nat) : Fld := ⟨(NET_CAGE_ACC k), 0, 8⟩

/-- NET_CAGE_ACC 15:8 PAGE (WO): CMIS page. -/
def NET_CAGE_ACC_PAGE (k : Nat) : Fld := ⟨(NET_CAGE_ACC k), 8, 8⟩

/-- NET_CAGE_ACC 23:16 BANK (WO): CMIS bank. -/
def NET_CAGE_ACC_BANK (k : Nat) : Fld := ⟨(NET_CAGE_ACC k), 16, 8⟩

/-- NET_CAGE_ACC 25:24 LEN (WO): bytes − 1. -/
def NET_CAGE_ACC_LEN (k : Nat) : Fld := ⟨(NET_CAGE_ACC k), 24, 2⟩

/-- NET_CAGE_ACC 26:26 WRITE (WO): 1 write, 0 read. -/
def NET_CAGE_ACC_WRITE (k : Nat) : Fld := ⟨(NET_CAGE_ACC k), 26, 1⟩

/-- NET_CAGE_ACC 27:27 GO (WO): 1 starts the access. -/
def NET_CAGE_ACC_GO (k : Nat) : Fld := ⟨(NET_CAGE_ACC k), 27, 1⟩

/-- Address of NET_CAGE_DATA (Table 8.8). -/
def NET_CAGE_DATA (k : Nat) : Nat := 0x700400c + 0x8000 * k

/-- NET_CAGE_DATA 31:0 DATA (RW): byte i at bits [8i+7:8i]. -/
def NET_CAGE_DATA_DATA (k : Nat) : Fld := ⟨(NET_CAGE_DATA k), 0, 32⟩

/-- Address of NET_CAGE_EVENT (Table 8.8). -/
def NET_CAGE_EVENT (k : Nat) : Nat := 0x7004010 + 0x8000 * k

/-- NET_CAGE_EVENT 0:0 PRESENCE (W1C): module inserted or removed. -/
def NET_CAGE_EVENT_PRESENCE (k : Nat) : Fld := ⟨(NET_CAGE_EVENT k), 0, 1⟩

/-- NET_CAGE_EVENT 1:1 ALARM (W1C): R230. -/
def NET_CAGE_EVENT_ALARM (k : Nat) : Fld := ⟨(NET_CAGE_EVENT k), 1, 1⟩

/-- NET_CAGE_EVENT 2:2 ACC_DONE (W1C): R231. -/
def NET_CAGE_EVENT_ACC_DONE (k : Nat) : Fld := ⟨(NET_CAGE_EVENT k), 2, 1⟩

/-- Address of PROF_SEL (Table 9.2). -/
def PROF_SEL (i : Nat) : Nat := 0x8010000 + 0x80 * i

/-- PROF_SEL 0:0 VALID (RW): profile takes part in selection. -/
def PROF_SEL_VALID (i : Nat) : Fld := ⟨(PROF_SEL i), 0, 1⟩

/-- PROF_SEL 1:1 GROUP_ANY (RW): 1 = any inlet group. -/
def PROF_SEL_GROUP_ANY (i : Nat) : Fld := ⟨(PROF_SEL i), 1, 1⟩

/-- PROF_SEL 5:2 GROUP (RW): inlet group 0–15. -/
def PROF_SEL_GROUP (i : Nat) : Fld := ⟨(PROF_SEL i), 2, 4⟩

/-- PROF_SEL 6:6 C0_EN (RW): compare 0 enabled. -/
def PROF_SEL_C0_EN (i : Nat) : Fld := ⟨(PROF_SEL i), 6, 1⟩

/-- PROF_SEL 7:7 C1_EN (RW): compare 1 enabled. -/
def PROF_SEL_C1_EN (i : Nat) : Fld := ⟨(PROF_SEL i), 7, 1⟩

/-- PROF_SEL 15:8 C0_OFF (RW): byte offset of compare 0, 0–254. -/
def PROF_SEL_C0_OFF (i : Nat) : Fld := ⟨(PROF_SEL i), 8, 8⟩

/-- PROF_SEL 23:16 C1_OFF (RW): byte offset of compare 1, 0–254. -/
def PROF_SEL_C1_OFF (i : Nat) : Fld := ⟨(PROF_SEL i), 16, 8⟩

/-- PROF_SEL 32:24 MIN_LEN (RW): shortest packet accepted, 1–256 bytes. -/
def PROF_SEL_MIN_LEN (i : Nat) : Fld := ⟨(PROF_SEL i), 24, 9⟩

/-- Address of PROF_CMP (Table 9.2). -/
def PROF_CMP (i : Nat) : Nat := 0x8010008 + 0x80 * i

/-- PROF_CMP 15:0 C0_VAL (RW): compare 0 value. -/
def PROF_CMP_C0_VAL (i : Nat) : Fld := ⟨(PROF_CMP i), 0, 16⟩

/-- PROF_CMP 31:16 C0_MASK (RW): compare 0 mask. -/
def PROF_CMP_C0_MASK (i : Nat) : Fld := ⟨(PROF_CMP i), 16, 16⟩

/-- PROF_CMP 47:32 C1_VAL (RW): compare 1 value. -/
def PROF_CMP_C1_VAL (i : Nat) : Fld := ⟨(PROF_CMP i), 32, 16⟩

/-- PROF_CMP 63:48 C1_MASK (RW): compare 1 mask. -/
def PROF_CMP_C1_MASK (i : Nat) : Fld := ⟨(PROF_CMP i), 48, 16⟩

/-- Address of PROF_CTL (Table 9.2). -/
def PROF_CTL (i : Nat) : Nat := 0x8010010 + 0x80 * i

/-- PROF_CTL 7:0 CLS_PROG (RW): classification program, as Forwarding Tables and Learning defines. -/
def PROF_CTL_CLS_PROG (i : Nat) : Fld := ⟨(PROF_CTL i), 0, 8⟩

/-- PROF_CTL 10:8 DEF_CLASS (RW): class of the packet when no action sets one. -/
def PROF_CTL_DEF_CLASS (i : Nat) : Fld := ⟨(PROF_CTL i), 8, 3⟩

/-- Address of PROF_REC (Table 9.2). -/
def PROF_REC (i : Nat) (r : Nat) : Nat := 0x8010040 + 0x80 * i + 0x4 * r

/-- PROF_REC 27:0 REC (RW): OFF, BIT, LEN, DST, HROLE and PAIR of extraction record r (Table 9.3). -/
def PROF_REC_REC (i : Nat) (r : Nat) : Fld := ⟨(PROF_REC i r), 0, 28⟩
/-- PROF_REC 31:31 VALID (RW): record in use. -/
def PROF_REC_VALID (i : Nat) (r : Nat) : Fld := ⟨(PROF_REC i r), 31, 1⟩

/-- Address of BNC_INLET_GRP (Table 9.6). -/
def BNC_INLET_GRP (j : Nat) : Nat := 0x8000100 + 0x4 * j

/-- BNC_INLET_GRP 31:0 GROUP (RW): bits [4m+3:4m]: group of inlet 8j + m. -/
def BNC_INLET_GRP_GROUP (j : Nat) : Fld := ⟨(BNC_INLET_GRP j), 0, 32⟩

/-- Address of BNC_DEFAULT (Table 9.6). -/
def BNC_DEFAULT (i : Nat) : Nat := 0x8000200 + 0x4 * i

/-- BNC_DEFAULT 1:0 ACTION (RW): Table 9.4. -/
def BNC_DEFAULT_ACTION (i : Nat) : Fld := ⟨(BNC_DEFAULT i), 0, 2⟩

/-- BNC_DEFAULT 8:2 OUTLET (RW): outlet, Table 1.3. -/
def BNC_DEFAULT_OUTLET (i : Nat) : Fld := ⟨(BNC_DEFAULT i), 2, 7⟩

/-- BNC_DEFAULT 11:9 CLASS (RW): class of the enqueue. -/
def BNC_DEFAULT_CLASS (i : Nat) : Fld := ⟨(BNC_DEFAULT i), 9, 3⟩

/-- BNC_DEFAULT 15:12 CONTOUR (RW): contour for ACTION 2. -/
def BNC_DEFAULT_CONTOUR (i : Nat) : Fld := ⟨(BNC_DEFAULT i), 12, 4⟩

/-- Address of BNC_CONTOUR (Table 9.6). -/
def BNC_CONTOUR (c : Nat) : Nat := 0x8000400 + 0x8 * c

/-- BNC_CONTOUR 31:0 RATE (RW): packets per second, per bench (R246). -/
def BNC_CONTOUR_RATE (c : Nat) : Fld := ⟨(BNC_CONTOUR c), 0, 32⟩

/-- BNC_CONTOUR 47:32 BURST (RW): depth in packets, 1–65,535; 0 is stored as 1. -/
def BNC_CONTOUR_BURST (c : Nat) : Fld := ⟨(BNC_CONTOUR c), 32, 16⟩

/-- Address of BNC_STATUS (Table 9.9). -/
def BNC_STATUS (k : Nat) : Nat := 0x8000000 + 0x100000 * k

/-- BNC_STATUS 1:0 STATE (RO): Table 9.7. -/
def BNC_STATUS_STATE (k : Nat) : Fld := ⟨(BNC_STATUS k), 0, 2⟩

/-- BNC_STATUS 2:2 DIE (RO): 0 west, 1 east. -/
def BNC_STATUS_DIE (k : Nat) : Fld := ⟨(BNC_STATUS k), 2, 1⟩

/-- BNC_STATUS 7:3 REPLACES (RO): bench whose buckets this bench took; 0x1F none. -/
def BNC_STATUS_REPLACES (k : Nat) : Fld := ⟨(BNC_STATUS k), 3, 5⟩

/-- BNC_STATUS 20:8 BUCKETS (RO): buckets mapped to this bench, 0–4,096. -/
def BNC_STATUS_BUCKETS (k : Nat) : Fld := ⟨(BNC_STATUS k), 8, 13⟩

/-- Address of BNC_EVENT (Table 9.9). -/
def BNC_EVENT (k : Nat) : Nat := 0x8000004 + 0x100000 * k

/-- BNC_EVENT 0:0 STATE (W1C): bench state changed. -/
def BNC_EVENT_STATE (k : Nat) : Fld := ⟨(BNC_EVENT k), 0, 1⟩

/-- BNC_EVENT 1:1 PROF_DONE (W1C): R240; bench 0 block only (R255). -/
def BNC_EVENT_PROF_DONE (k : Nat) : Fld := ⟨(BNC_EVENT k), 1, 1⟩

/-- BNC_EVENT 2:2 PROF_REJECT (W1C): R240; bench 0 block only (R255). -/
def BNC_EVENT_PROF_REJECT (k : Nat) : Fld := ⟨(BNC_EVENT k), 2, 1⟩

/-- BNC_EVENT 3:3 MOVE_DONE (W1C): R249, R250; bench 0 block only (R255). -/
def BNC_EVENT_MOVE_DONE (k : Nat) : Fld := ⟨(BNC_EVENT k), 3, 1⟩

/-- BNC_EVENT 4:4 CFG_ERR (W1C): R245; bench 0 block only (R255). -/
def BNC_EVENT_CFG_ERR (k : Nat) : Fld := ⟨(BNC_EVENT k), 4, 1⟩

/-- Address of BNC_PROF_COMMIT (Table 9.9). -/
def BNC_PROF_COMMIT (k : Nat) : Nat := 0x8000040 + 0x100000 * k

/-- BNC_PROF_COMMIT 0:0 COMMIT (WO): 1 commits the shadow profiles (R240); broadcast. -/
def BNC_PROF_COMMIT_COMMIT (k : Nat) : Fld := ⟨(BNC_PROF_COMMIT k), 0, 1⟩

/-- Address of BNC_PROF_STATUS (Table 9.9). -/
def BNC_PROF_STATUS (k : Nat) : Nat := 0x8000044 + 0x100000 * k

/-- BNC_PROF_STATUS 15:0 GEN (RO): active profile generation; wraps to 0. -/
def BNC_PROF_STATUS_GEN (k : Nat) : Fld := ⟨(BNC_PROF_STATUS k), 0, 16⟩

/-- BNC_PROF_STATUS 16:16 RETIRING (RO): old-generation packets outstanding. -/
def BNC_PROF_STATUS_RETIRING (k : Nat) : Fld := ⟨(BNC_PROF_STATUS k), 16, 1⟩

/-- BNC_PROF_STATUS 17:17 ERR (RO): last commit failed; cleared by the next successful commit. -/
def BNC_PROF_STATUS_ERR (k : Nat) : Fld := ⟨(BNC_PROF_STATUS k), 17, 1⟩

/-- BNC_PROF_STATUS 23:18 ERR_PROF (RO): first failing profile. -/
def BNC_PROF_STATUS_ERR_PROF (k : Nat) : Fld := ⟨(BNC_PROF_STATUS k), 18, 6⟩

/-- BNC_PROF_STATUS 28:24 ERR_REC (RO): first failing record; 16 = selector or control word. -/
def BNC_PROF_STATUS_ERR_REC (k : Nat) : Fld := ⟨(BNC_PROF_STATUS k), 24, 5⟩

/-- Address of BNC_MAP (Table 9.10). -/
def BNC_MAP (b : Nat) : Nat := 0x80f0000 + 0x4 * b

/-- BNC_MAP 4:0 BENCH (RO): bench serving bucket b; 0x1F none (R243). -/
def BNC_MAP_BENCH (b : Nat) : Fld := ⟨(BNC_MAP b), 0, 5⟩

/-- BNC_MAP 12:5 EPOCH (RO): placement epoch; wraps to 0. -/
def BNC_MAP_EPOCH (b : Nat) : Fld := ⟨(BNC_MAP b), 5, 8⟩

/-- BNC_MAP 13:13 MOVING (RO): a move of b is in progress. -/
def BNC_MAP_MOVING (b : Nat) : Fld := ⟨(BNC_MAP b), 13, 1⟩

/-- Address of BNC_MOVE (Table 9.10). -/
def BNC_MOVE : Nat := 0x80f4000

/-- BNC_MOVE 11:0 BUCKET (WO): bucket to move. -/
def BNC_MOVE_BUCKET : Fld := ⟨BNC_MOVE, 0, 12⟩

/-- BNC_MOVE 16:12 TO (WO): target bench. -/
def BNC_MOVE_TO : Fld := ⟨BNC_MOVE, 12, 5⟩

/-- BNC_MOVE 17:17 FORCE (WO): R251. -/
def BNC_MOVE_FORCE : Fld := ⟨BNC_MOVE, 17, 1⟩

/-- BNC_MOVE 18:18 GO (WO): 1 starts the move (R249). -/
def BNC_MOVE_GO : Fld := ⟨BNC_MOVE, 18, 1⟩

/-- Address of BNC_MOVE_STATUS (Table 9.10). -/
def BNC_MOVE_STATUS : Nat := 0x80f4004

/-- BNC_MOVE_STATUS 15:0 STATUS (RO): Table 9.5. -/
def BNC_MOVE_STATUS_STATUS : Fld := ⟨BNC_MOVE_STATUS, 0, 16⟩

/-- BNC_MOVE_STATUS 16:16 BUSY (RO): move in progress. -/
def BNC_MOVE_STATUS_BUSY : Fld := ⟨BNC_MOVE_STATUS, 16, 1⟩

/-- Address of TBL_DESC (Table 10.6). -/
def TBL_DESC (t : Nat) : Nat := 0xa000000 + 0x8 * t

/-- TBL_DESC 1:0 TYPE (RW while ENTRIES = 0, else RO): 0 none; 1 exact on die; 2 exact HBM tier; 3 LPM. -/
def TBL_DESC_TYPE (t : Nat) : Fld := ⟨(TBL_DESC t), 0, 2⟩

/-- TBL_DESC 7:2 KEY_LEN (as TYPE): exact: key bytes 1–48; 0 with TYPE 1 or 2 refused (CFG_ERR). -/
def TBL_DESC_KEY_LEN (t : Nat) : Fld := ⟨(TBL_DESC t), 2, 6⟩

/-- TBL_DESC 8:8 FAMILY (as TYPE): LPM: 0 IPv4, 1 IPv6. -/
def TBL_DESC_FAMILY (t : Nat) : Fld := ⟨(TBL_DESC t), 8, 1⟩

/-- TBL_DESC 10:9 LEN_MAX (as TYPE): LPM: lengths per slice − 1. -/
def TBL_DESC_LEN_MAX (t : Nat) : Fld := ⟨(TBL_DESC t), 9, 2⟩

/-- TBL_DESC 11:11 LEARN (as TYPE): TYPE 1 only: learning table (R271). -/
def TBL_DESC_LEARN (t : Nat) : Fld := ⟨(TBL_DESC t), 11, 1⟩

/-- TBL_DESC 63:32 LEARN_RESULT (RW): result base of learned entries. -/
def TBL_DESC_LEARN_RESULT (t : Nat) : Fld := ⟨(TBL_DESC t), 32, 32⟩

/-- Address of TBL_ENTRIES (Table 10.7). -/
def TBL_ENTRIES (t : Nat) : Nat := 0xa000200 + 0x4 * t

/-- TBL_ENTRIES 31:0 ENTRIES (RO): configured entries or prefixes of table t, wide entries counting 2. -/
def TBL_ENTRIES_ENTRIES (t : Nat) : Fld := ⟨(TBL_ENTRIES t), 0, 32⟩

/-- Address of TBL_PROG (Table 10.8). -/
def TBL_PROG (n : Nat) (k : Nat) : Nat := 0xa001000 + 0x10 * n + 0x4 * k

/-- TBL_PROG 5:0 TABLE (RW; RO 0 for n = 0): table of the step. -/
def TBL_PROG_TABLE (n : Nat) (k : Nat) : Fld := ⟨(TBL_PROG n k), 0, 6⟩

/-- TBL_PROG 11:6 KOFF (as TABLE): field-vector offset of the key. -/
def TBL_PROG_KOFF (n : Nat) (k : Nat) : Fld := ⟨(TBL_PROG n k), 6, 6⟩

/-- TBL_PROG 13:12 KIND (as TABLE): 0 none; 1 lookup; 2 learn; 3 treated as 0. -/
def TBL_PROG_KIND (n : Nat) (k : Nat) : Fld := ⟨(TBL_PROG n k), 12, 2⟩

/-- Address of TBL_PROG_READS (Table 10.9). -/
def TBL_PROG_READS (n : Nat) : Nat := 0xa002000 + 0x4 * n

/-- TBL_PROG_READS 3:0 H (RO): HBM read count of program n (R260). -/
def TBL_PROG_READS_H (n : Nat) : Fld := ⟨(TBL_PROG_READS n), 0, 4⟩

/-- Address of TBL_LEARN_CFG (Table 10.9). -/
def TBL_LEARN_CFG : Nat := 0xa003000

/-- TBL_LEARN_CFG 1:0 SLOTS (RW while the on-die configured partition is empty): 0: 0; 1: 32,768; 2: 65,536; 3: 131,072 learned slots per bench. -/
def TBL_LEARN_CFG_SLOTS : Fld := ⟨TBL_LEARN_CFG, 0, 2⟩

/-- TBL_LEARN_CFG 16:2 AGE_LIMIT (RW): units of 2³⁰ ns, 0–32,767; 0 = no aging; default 280 units, about 300 s. -/
def TBL_LEARN_CFG_AGE_LIMIT : Fld := ⟨TBL_LEARN_CFG, 2, 15⟩

/-- Address of TBL_EVENT (Table 10.9). -/
def TBL_EVENT : Nat := 0xa003004

/-- TBL_EVENT 0:0 CFG_ERR (W1C): a write was refused (R260, Table 10.6). -/
def TBL_EVENT_CFG_ERR : Fld := ⟨TBL_EVENT, 0, 1⟩

/-- TBL_EVENT 1:1 STASH (W1C): a stash holds ≥ 6 entries (R266). -/
def TBL_EVENT_STASH : Fld := ⟨TBL_EVENT, 1, 1⟩

/-- TBL_EVENT 2:2 LEARN_FULL (W1C): a learned insertion was dropped (R272). -/
def TBL_EVENT_LEARN_FULL : Fld := ⟨TBL_EVENT, 2, 1⟩

/-- Address of TBL_DIE_USED (Table 10.9). -/
def TBL_DIE_USED : Nat := 0xa003008

/-- TBL_DIE_USED 31:0 SLOTS (RO): on-die configured slots in use, stash included. -/
def TBL_DIE_USED_SLOTS : Fld := ⟨TBL_DIE_USED, 0, 32⟩

/-- Address of TBL_LPM_USED (Table 10.9). -/
def TBL_LPM_USED : Nat := 0xa00300c

/-- TBL_LPM_USED 31:0 PREFIXES (RO): prefixes held, 0–8,388,608. -/
def TBL_LPM_USED_PREFIXES : Fld := ⟨TBL_LPM_USED, 0, 32⟩

/-- Address of TBL_HBM_USED (Table 10.9). -/
def TBL_HBM_USED : Nat := 0xa003010

/-- TBL_HBM_USED 63:0 SLOTS (RO): HBM-tier slots in use, stash included. -/
def TBL_HBM_USED_SLOTS : Fld := ⟨TBL_HBM_USED, 0, 64⟩

/-- Address of SWC_STATUS (Table 11.11). -/
def SWC_STATUS : Nat := 0xb000000

/-- SWC_STATUS 4:0 GROUPS (RO): bank groups in service. -/
def SWC_STATUS_GROUPS : Fld := ⟨SWC_STATUS, 0, 5⟩

/-- SWC_STATUS 5:5 FLOOR (RO): pool at the floor (R292). -/
def SWC_STATUS_FLOOR : Fld := ⟨SWC_STATUS, 5, 1⟩

/-- Address of SWC_EVENT (Table 11.11). -/
def SWC_EVENT : Nat := 0xb000004

/-- SWC_EVENT 0:0 STORE_FAULT (W1C): a bank group was declared faulty (R289). -/
def SWC_EVENT_STORE_FAULT : Fld := ⟨SWC_EVENT, 0, 1⟩

/-- SWC_EVENT 1:1 PIN (W1C): a re-pin ended (R306). -/
def SWC_EVENT_PIN : Fld := ⟨SWC_EVENT, 1, 1⟩

/-- SWC_EVENT 2:2 UNPIN_DONE (W1C): R308. -/
def SWC_EVENT_UNPIN_DONE : Fld := ⟨SWC_EVENT, 2, 1⟩

/-- SWC_EVENT 3:3 FLOOR (W1C): the pool reached the floor. -/
def SWC_EVENT_FLOOR : Fld := ⟨SWC_EVENT, 3, 1⟩

/-- SWC_EVENT 4:4 CFG_ERR (W1C): a write was refused. -/
def SWC_EVENT_CFG_ERR : Fld := ⟨SWC_EVENT, 4, 1⟩

/-- Address of SWC_FREE (Table 11.11). -/
def SWC_FREE : Nat := 0xb000008

/-- SWC_FREE 19:0 F (RO): free setts of the shared pool. -/
def SWC_FREE_F : Fld := ⟨SWC_FREE, 0, 20⟩

/-- Address of SWC_POOL (Table 11.11). -/
def SWC_POOL : Nat := 0xb00000c

/-- SWC_POOL 19:0 SHARED (RO): size of the shared pool (Table 11.5). -/
def SWC_POOL_SHARED : Fld := ⟨SWC_POOL, 0, 20⟩

/-- Address of SWC_BP_CFG (Table 11.11). -/
def SWC_BP_CFG : Nat := 0xb000010

/-- SWC_BP_CFG 31:0 SHIFT (RW): bits [4c+3:4c]: SHIFT_c, 0–15 (R292). -/
def SWC_BP_CFG_SHIFT : Fld := ⟨SWC_BP_CFG, 0, 32⟩

/-- Address of SWC_BP_FLOOR (Table 11.11). -/
def SWC_BP_FLOOR : Nat := 0xb000014

/-- SWC_BP_FLOOR 19:0 FLOOR (RW): floor in setts, 0–655,360; default 8,192. -/
def SWC_BP_FLOOR_FLOOR : Fld := ⟨SWC_BP_FLOOR, 0, 20⟩

/-- Address of SWC_SPOIL_CFG (Table 11.12). -/
def SWC_SPOIL_CFG : Nat := 0xb000020

/-- SWC_SPOIL_CFG 15:0 MASK (RW): bit r − 0x10: capture reason r (R310). -/
def SWC_SPOIL_CFG_MASK : Fld := ⟨SWC_SPOIL_CFG, 0, 16⟩

/-- SWC_SPOIL_CFG 17:16 SNAP (RW): captured bytes 64 × (SNAP + 1). -/
def SWC_SPOIL_CFG_SNAP : Fld := ⟨SWC_SPOIL_CFG, 16, 2⟩

/-- SWC_SPOIL_CFG 20:18 CLASS (RW): class of captures; a timed class is refused. -/
def SWC_SPOIL_CFG_CLASS : Fld := ⟨SWC_SPOIL_CFG, 18, 3⟩

/-- SWC_SPOIL_CFG 21:21 EN (RW): capture enabled. -/
def SWC_SPOIL_CFG_EN : Fld := ⟨SWC_SPOIL_CFG, 21, 1⟩

/-- SWC_SPOIL_CFG 41:22 CAP_RING (RW): global number of a receive ring of a sheet of function 0; any other ring is refused. -/
def SWC_SPOIL_CFG_CAP_RING : Fld := ⟨SWC_SPOIL_CFG, 22, 20⟩

/-- Address of SWC_CAP_PPS (Table 11.12). -/
def SWC_CAP_PPS : Nat := 0xb000028

/-- SWC_CAP_PPS 31:0 RATE (RW): captures per second; default 1,000,000. -/
def SWC_CAP_PPS_RATE : Fld := ⟨SWC_CAP_PPS, 0, 32⟩

/-- Address of SWC_MIR (Table 11.12). -/
def SWC_MIR (s : Nat) : Nat := 0xb000104 + 0x4 * (s - 1)

/-- SWC_MIR 6:0 OUTLET (RW): mirror outlet; one that R19 rejects is refused. -/
def SWC_MIR_OUTLET (s : Nat) : Fld := ⟨(SWC_MIR s), 0, 7⟩

/-- SWC_MIR 7:7 EN (RW): session enabled. -/
def SWC_MIR_EN (s : Nat) : Fld := ⟨(SWC_MIR s), 7, 1⟩

/-- SWC_MIR 9:8 TRUNC (RW): 0 whole; 1 64 bytes; 2 128 bytes; 3 256 bytes. -/
def SWC_MIR_TRUNC (s : Nat) : Fld := ⟨(SWC_MIR s), 8, 2⟩

/-- Address of SWC_OUT_WGT (Table 11.13). -/
def SWC_OUT_WGT (o : Nat) : Nat := 0xb001000 + 0x8 * o

/-- SWC_OUT_WGT 63:0 WGT (RW): bits [8c+7:8c]: weight of class c; 0 = strict priority (R296). -/
def SWC_OUT_WGT_WGT (o : Nat) : Fld := ⟨(SWC_OUT_WGT o), 0, 64⟩

/-- Address of SWC_ALT (Table 11.13). -/
def SWC_ALT (o : Nat) : Nat := 0xb002000 + 0x4 * o

/-- SWC_ALT 5:0 ALT (RW): alternate network port (R305). -/
def SWC_ALT_ALT (o : Nat) : Fld := ⟨(SWC_ALT o), 0, 6⟩

/-- SWC_ALT 6:6 EN (RW): re-pin on failure. -/
def SWC_ALT_EN (o : Nat) : Fld := ⟨(SWC_ALT o), 6, 1⟩

/-- SWC_ALT 7:7 UNPIN (WO): 1 unpins (R308). -/
def SWC_ALT_UNPIN (o : Nat) : Fld := ⟨(SWC_ALT o), 7, 1⟩

/-- SWC_ALT 8:8 PINNED (RO): outlet pinned. -/
def SWC_ALT_PINNED (o : Nat) : Fld := ⟨(SWC_ALT o), 8, 1⟩

/-- SWC_ALT 9:9 UNPINNING (RO): markers outstanding. -/
def SWC_ALT_UNPINNING (o : Nat) : Fld := ⟨(SWC_ALT o), 9, 1⟩

/-- SWC_ALT 15:10 TARGET (RO): port now carrying this outlet's traffic (R307). -/
def SWC_ALT_TARGET (o : Nat) : Fld := ⟨(SWC_ALT o), 10, 6⟩

/-- Address of SWC_RXDEF (Table 11.13). -/
def SWC_RXDEF (n : Nat) : Nat := 0xb002200 + 0x4 * n

/-- SWC_RXDEF 19:0 RING (RW): default receive ring of host port n; must be a receive ring of a sheet on port n, otherwise refused. -/
def SWC_RXDEF_RING (n : Nat) : Fld := ⟨(SWC_RXDEF n), 0, 20⟩

/-- SWC_RXDEF 20:20 EN (RW): default ring in use (R285). -/
def SWC_RXDEF_EN (n : Nat) : Fld := ⟨(SWC_RXDEF n), 20, 1⟩

/-- Address of CPH_STATUS (Table 12.11). -/
def CPH_STATUS : Nat := 0xc000000

/-- CPH_STATUS 0:0 DRBG_OK (RO): DRBG instantiated and not stopped. -/
def CPH_STATUS_DRBG_OK : Fld := ⟨CPH_STATUS, 0, 1⟩

/-- CPH_STATUS 1:1 ES_SINGLE (RO): one noise source failed (R321). -/
def CPH_STATUS_ES_SINGLE : Fld := ⟨CPH_STATUS, 1, 1⟩

/-- CPH_STATUS 2:2 REWRAP (RO): epoch re-wrap in progress (R323). -/
def CPH_STATUS_REWRAP : Fld := ⟨CPH_STATUS, 2, 1⟩

/-- CPH_STATUS 10:3 ENGINES (RO): engines in ACTIVE and SPARE benches, 0–144. -/
def CPH_STATUS_ENGINES : Fld := ⟨CPH_STATUS, 3, 8⟩

/-- CPH_STATUS 31:11 EPOCH (RO): current key epoch. -/
def CPH_STATUS_EPOCH : Fld := ⟨CPH_STATUS, 11, 21⟩

/-- Address of CPH_EVENT (Table 12.11). -/
def CPH_EVENT : Nat := 0xc000004

/-- CPH_EVENT 0:0 SA_WARN (W1C): a counter reached 2⁶² (R334). -/
def CPH_EVENT_SA_WARN : Fld := ⟨CPH_EVENT, 0, 1⟩

/-- CPH_EVENT 1:1 SA_EXHAUSTED (W1C): an SA became EXHAUSTED. -/
def CPH_EVENT_SA_EXHAUSTED : Fld := ⟨CPH_EVENT, 1, 1⟩

/-- CPH_EVENT 2:2 ENTROPY (W1C): a noise source failed or the DRBG stopped. -/
def CPH_EVENT_ENTROPY : Fld := ⟨CPH_EVENT, 2, 1⟩

/-- CPH_EVENT 3:3 KC_FAULT (W1C): key-cache reload under R325. -/
def CPH_EVENT_KC_FAULT : Fld := ⟨CPH_EVENT, 3, 1⟩

/-- CPH_EVENT 4:4 EPOCH (W1C): a re-wrap ended. -/
def CPH_EVENT_EPOCH : Fld := ⟨CPH_EVENT, 4, 1⟩

/-- Address of CPH_KC_STATUS (Table 12.12). -/
def CPH_KC_STATUS : Nat := 0xc000010

/-- CPH_KC_STATUS 17:0 USED (RO): key-cache entries in use, 0–131,072. -/
def CPH_KC_STATUS_USED : Fld := ⟨CPH_KC_STATUS, 0, 18⟩

/-- Address of CPH_KC_PINNED (Table 12.12). -/
def CPH_KC_PINNED : Nat := 0xc000014

/-- CPH_KC_PINNED 16:0 PINNED (RO): pinned entries (R324). -/
def CPH_KC_PINNED_PINNED : Fld := ⟨CPH_KC_PINNED, 0, 17⟩

/-- Address of CPH_SA_LAST (Table 12.12). -/
def CPH_SA_LAST : Nat := 0xc000018

/-- CPH_SA_LAST 19:0 SA (RO): SA of the last SA_WARN or SA_EXHAUSTED. -/
def CPH_SA_LAST_SA : Fld := ⟨CPH_SA_LAST, 0, 20⟩

/-- Address of CPH_SA_COUNT (Table 12.12). -/
def CPH_SA_COUNT : Nat := 0xc00001c

/-- CPH_SA_COUNT 18:0 INSTALLED (RO): installed SAs not FREE, 0–262,144. -/
def CPH_SA_COUNT_INSTALLED : Fld := ⟨CPH_SA_COUNT, 0, 19⟩

/-- Address of RLT_CFG (Table 13.10). -/
def RLT_CFG : Nat := 0xd000000

/-- RLT_CFG 15:0 UDP_PORT (RW): local Ralush port, 40,013; 0 stored as 0x9C4D. -/
def RLT_CFG_UDP_PORT : Fld := ⟨RLT_CFG, 0, 16⟩

/-- Address of RLT_TIMERS (Table 13.10). -/
def RLT_TIMERS : Nat := 0xd000004

/-- RLT_TIMERS 15:0 REASM_US (RW): reassembly timer, 1–65,535 µs; 0 stored as 1. -/
def RLT_TIMERS_REASM_US : Fld := ⟨RLT_TIMERS, 0, 16⟩

/-- RLT_TIMERS 19:16 REASM_TRIES (RW): 1–15; 0 stored as 1. -/
def RLT_TIMERS_REASM_TRIES : Fld := ⟨RLT_TIMERS, 16, 4⟩

/-- RLT_TIMERS 23:20 POLL_TRIES (RW): 1–15; 0 stored as 1. -/
def RLT_TIMERS_POLL_TRIES : Fld := ⟨RLT_TIMERS, 20, 4⟩

/-- RLT_TIMERS 27:24 RNR_TRIES (RW): 1–15; 0 stored as 1. -/
def RLT_TIMERS_RNR_TRIES : Fld := ⟨RLT_TIMERS, 24, 4⟩

/-- Address of RLT_WAITS (Table 13.10). -/
def RLT_WAITS : Nat := 0xd000008

/-- RLT_WAITS 15:0 POLL_US (RW): 1–65,535 µs; 0 stored as 1. -/
def RLT_WAITS_POLL_US : Fld := ⟨RLT_WAITS, 0, 16⟩

/-- RLT_WAITS 31:16 RNR_US (RW): RETRY_US sent in NAK RNR, 0–65,535 µs. -/
def RLT_WAITS_RNR_US : Fld := ⟨RLT_WAITS, 16, 16⟩

/-- Address of RLT_OPEN (Table 13.10). -/
def RLT_OPEN : Nat := 0xd00000c

/-- RLT_OPEN 15:0 PROBE_US (RW): 1–65,535 µs; 0 stored as 1. -/
def RLT_OPEN_PROBE_US : Fld := ⟨RLT_OPEN, 0, 16⟩

/-- RLT_OPEN 31:16 OPEN_MS (RW): 1–65,535 ms; 0 stored as 1. -/
def RLT_OPEN_OPEN_MS : Fld := ⟨RLT_OPEN, 16, 16⟩

/-- Address of RLT_MAC_DST (Table 13.10). -/
def RLT_MAC_DST : Nat := 0xd000010

/-- RLT_MAC_DST 47:0 MAC (RW): Ethernet destination of engine-built packets. -/
def RLT_MAC_DST_MAC : Fld := ⟨RLT_MAC_DST, 0, 48⟩

/-- Address of RLT_MAC_SRC (Table 13.10). -/
def RLT_MAC_SRC : Nat := 0xd000018

/-- RLT_MAC_SRC 47:0 MAC (RW): Ethernet source of engine-built packets. -/
def RLT_MAC_SRC_MAC : Fld := ⟨RLT_MAC_SRC, 0, 48⟩

/-- Address of RLT_STATUS (Table 13.10). -/
def RLT_STATUS : Nat := 0xd000020

/-- RLT_STATUS 20:0 CONNS (RO): connections not FREE, 0–1,048,576. -/
def RLT_STATUS_CONNS : Fld := ⟨RLT_STATUS, 0, 21⟩

/-- RLT_STATUS 21:21 READY (RO): engine serves commands (Table 1.4). -/
def RLT_STATUS_READY : Fld := ⟨RLT_STATUS, 21, 1⟩

/-- Address of RLT_EVENT (Table 13.10). -/
def RLT_EVENT : Nat := 0xd000024

/-- RLT_EVENT 0:0 CONN_ERROR (W1C): a connection entered ERROR. -/
def RLT_EVENT_CONN_ERROR : Fld := ⟨RLT_EVENT, 0, 1⟩

/-- RLT_EVENT 1:1 MSG_FAIL (W1C): a message failed (R366). -/
def RLT_EVENT_MSG_FAIL : Fld := ⟨RLT_EVENT, 1, 1⟩

/-- Address of RLT_CC_CFG (Table 14.7). -/
def RLT_CC_CFG : Nat := 0xd000800

/-- RLT_CC_CFG 0:0 ECN_EN (RW): R391. -/
def RLT_CC_CFG_ECN_EN : Fld := ⟨RLT_CC_CFG, 0, 1⟩

/-- RLT_CC_CFG 4:1 G (RW): α gain 2⁻ᴳ, 1–10. -/
def RLT_CC_CFG_G : Fld := ⟨RLT_CC_CFG, 1, 4⟩

/-- RLT_CC_CFG 15:5 CUT_US (RW): least time between cuts, 1–2,047 µs. -/
def RLT_CC_CFG_CUT_US : Fld := ⟨RLT_CC_CFG, 5, 11⟩

/-- RLT_CC_CFG 31:16 INC_US (RW): increase interval, 1–65,535 µs. -/
def RLT_CC_CFG_INC_US : Fld := ⟨RLT_CC_CFG, 16, 16⟩

/-- Address of RLT_CC_MIN (Table 14.7). -/
def RLT_CC_MIN : Nat := 0xd000804

/-- RLT_CC_MIN 31:0 RATE_MIN (RW): Mb/s, 100–1,600,000; default 1,000. -/
def RLT_CC_MIN_RATE_MIN : Fld := ⟨RLT_CC_MIN, 0, 32⟩

/-- Address of RLT_CC_INIT (Table 14.7). -/
def RLT_CC_INIT : Nat := 0xd000808

/-- RLT_CC_INIT 31:0 RATE_INIT (RW): Mb/s, RATE_MIN–RATE_MAX; default 100,000. -/
def RLT_CC_INIT_RATE_INIT : Fld := ⟨RLT_CC_INIT, 0, 32⟩

/-- Address of RLT_CC_MAX (Table 14.7). -/
def RLT_CC_MAX : Nat := 0xd00080c

/-- RLT_CC_MAX 31:0 RATE_MAX (RW): Mb/s, 100–1,600,000; default 400,000. -/
def RLT_CC_MAX_RATE_MAX : Fld := ⟨RLT_CC_MAX, 0, 32⟩

/-- Address of RLT_CC_INC (Table 14.7). -/
def RLT_CC_INC : Nat := 0xd000810

/-- RLT_CC_INC 31:0 RATE_INC (RW): Mb/s, 1–1,600,000; default 5,000. -/
def RLT_CC_INC_RATE_INC : Fld := ⟨RLT_CC_INC, 0, 32⟩

/-- Address of RLT_ODP_CFG (Table 14.8). -/
def RLT_ODP_CFG : Nat := 0xd000820

/-- RLT_ODP_CFG 15:0 RETRY_US (RW): RETRY_US sent in NAK PAGE_WAIT, 1–65,535 µs. -/
def RLT_ODP_CFG_RETRY_US : Fld := ⟨RLT_ODP_CFG, 0, 16⟩

/-- RLT_ODP_CFG 23:16 WAIT_MS (RW): page response limit, 1–255 ms (R383). -/
def RLT_ODP_CFG_WAIT_MS : Fld := ⟨RLT_ODP_CFG, 16, 8⟩

/-- Address of RLT_REG_STATUS (Table 14.8). -/
def RLT_REG_STATUS : Nat := 0xd000824

/-- RLT_REG_STATUS 24:0 REGIONS (RO): regions not FREE, 0–16,777,216. -/
def RLT_REG_STATUS_REGIONS : Fld := ⟨RLT_REG_STATUS, 0, 25⟩

/-- Address of RLT_STALL_STATUS (Table 14.8). -/
def RLT_STALL_STATUS : Nat := 0xd000828

/-- RLT_STALL_STATUS 12:0 SLOTS (RO): stall slots in use, 0–4,096. -/
def RLT_STALL_STATUS_SLOTS : Fld := ⟨RLT_STALL_STATUS, 0, 13⟩

/-- Address of RLT_MEM_EVENT (Table 14.8). -/
def RLT_MEM_EVENT : Nat := 0xd00082c

/-- RLT_MEM_EVENT 0:0 PAGE_FAIL (W1C): R383. -/
def RLT_MEM_EVENT_PAGE_FAIL : Fld := ⟨RLT_MEM_EVENT, 0, 1⟩

/-- RLT_MEM_EVENT 1:1 REVOKE_DONE (W1C): a REG_REVOKE completed. -/
def RLT_MEM_EVENT_REVOKE_DONE : Fld := ⟨RLT_MEM_EVENT, 1, 1⟩

/-- Address of STO_CFG (Table 15.11). -/
def STO_CFG : Nat := 0xe000000

/-- STO_CFG 2:0 HOST_CLASS (RW): class of tenant data writes (R417); a timed class is refused. -/
def STO_CFG_HOST_CLASS : Fld := ⟨STO_CFG, 0, 3⟩

/-- STO_CFG 18:3 BACKEND_MS (RW): backend request limit, 1–65,535 ms; 0 stored as 1 (R410). -/
def STO_CFG_BACKEND_MS : Fld := ⟨STO_CFG, 3, 16⟩

/-- Address of STO_CACHE_CFG (Table 15.11). -/
def STO_CACHE_CFG : Nat := 0xe000004

/-- STO_CACHE_CFG 6:0 PCT (RW): percent of each expander taken as cache, 0–100; above stored as 100; applies at the next attachment. -/
def STO_CACHE_CFG_PCT : Fld := ⟨STO_CACHE_CFG, 0, 7⟩

/-- Address of STO_STATUS (Table 15.11). -/
def STO_STATUS : Nat := 0xe000008

/-- STO_STATUS 0:0 READY (RO): engine serves commands (Table 1.4). -/
def STO_STATUS_READY : Fld := ⟨STO_STATUS, 0, 1⟩

/-- STO_STATUS 1:1 CACHE_NONE (RO): no cache present. -/
def STO_STATUS_CACHE_NONE : Fld := ⟨STO_STATUS, 1, 1⟩

/-- STO_STATUS 2:2 WT_FORCED (RO): dirty blocks ≥ 90 % (R407). -/
def STO_STATUS_WT_FORCED : Fld := ⟨STO_STATUS, 2, 1⟩

/-- STO_STATUS 17:3 LOCKS (RO): range-lock entries in use, 0–16,384. -/
def STO_STATUS_LOCKS : Fld := ⟨STO_STATUS, 3, 15⟩

/-- Address of STO_EVENT (Table 15.11). -/
def STO_EVENT : Nat := 0xe00000c

/-- STO_EVENT 0:0 DEFERRED (W1C): a deferred error arose (R408). -/
def STO_EVENT_DEFERRED : Fld := ⟨STO_EVENT, 0, 1⟩

/-- STO_EVENT 1:1 DOWN (W1C): a volume became DOWN (R410). -/
def STO_EVENT_DOWN : Fld := ⟨STO_EVENT, 1, 1⟩

/-- STO_EVENT 2:2 WT_FORCED (W1C): write-through forced. -/
def STO_EVENT_WT_FORCED : Fld := ⟨STO_EVENT, 2, 1⟩

/-- Address of STO_SHEET_WGT (Table 15.12). -/
def STO_SHEET_WGT (n : Nat) : Nat := 0xe001000 + 0x4 * n

/-- STO_SHEET_WGT 7:0 WEIGHT (RW): quantum of sheet n in commands (R404), 1–255; 0 stored as 1. -/
def STO_SHEET_WGT_WEIGHT (n : Nat) : Fld := ⟨(STO_SHEET_WGT n), 0, 8⟩

/-- Address of PNL_CLU_CFG (Table 16.8). -/
def PNL_CLU_CFG (k : Nat) : Nat := 0xf000000 + 0x100000 * k

/-- PNL_CLU_CFG 4:0 FREQ (RW): cluster clock in 100 MHz, 10–26; other values stored as 26 (R427). -/
def PNL_CLU_CFG_FREQ (k : Nat) : Fld := ⟨(PNL_CLU_CFG k), 0, 5⟩

/-- PNL_CLU_CFG 5:5 POOL (RW): R428. -/
def PNL_CLU_CFG_POOL (k : Nat) : Fld := ⟨(PNL_CLU_CFG k), 5, 1⟩

/-- Address of PNL_EVENT (Table 16.8). -/
def PNL_EVENT (k : Nat) : Nat := 0xf000004 + 0x100000 * k

/-- PNL_EVENT 0:0 DEADLOCK (W1C): R433. -/
def PNL_EVENT_DEADLOCK (k : Nat) : Fld := ⟨(PNL_EVENT k), 0, 1⟩

/-- PNL_EVENT 1:1 CFG_ERR (W1C): a write was refused. -/
def PNL_EVENT_CFG_ERR (k : Nat) : Fld := ⟨(PNL_EVENT k), 1, 1⟩

/-- PNL_EVENT 2:2 ABANDON (W1C): R442. -/
def PNL_EVENT_ABANDON (k : Nat) : Fld := ⟨(PNL_EVENT k), 2, 1⟩

/-- PNL_EVENT 3:3 MIGRATE_DONE (W1C): R446. -/
def PNL_EVENT_MIGRATE_DONE (k : Nat) : Fld := ⟨(PNL_EVENT k), 3, 1⟩

/-- Address of PNL_DBG_CFG (Table 16.8). -/
def PNL_DBG_CFG (k : Nat) : Nat := 0xf000008 + 0x100000 * k

/-- PNL_DBG_CFG 15:0 ABANDON_MS (RW): 1–65,535 ms; 0 stored as 1. -/
def PNL_DBG_CFG_ABANDON_MS (k : Nat) : Fld := ⟨(PNL_DBG_CFG k), 0, 16⟩

/-- Address of PNL_DBG_STATUS (Table 16.8). -/
def PNL_DBG_STATUS (k : Nat) : Nat := 0xf00000c + 0x100000 * k

/-- PNL_DBG_STATUS 0:0 REFUSED (RO): the last halt or abandon was refused; cleared by the next accepted one. -/
def PNL_DBG_STATUS_REFUSED (k : Nat) : Fld := ⟨(PNL_DBG_STATUS k), 0, 1⟩

/-- Address of PNL_GAL_ABANDON (Table 16.8). -/
def PNL_GAL_ABANDON (k : Nat) : Nat := 0xf000010 + 0x100000 * k

/-- PNL_GAL_ABANDON 4:0 THREAD (WO): local thread. -/
def PNL_GAL_ABANDON_THREAD (k : Nat) : Fld := ⟨(PNL_GAL_ABANDON k), 0, 5⟩

/-- PNL_GAL_ABANDON 10:5 GAL (WO): gallery. -/
def PNL_GAL_ABANDON_GAL (k : Nat) : Fld := ⟨(PNL_GAL_ABANDON k), 5, 6⟩

/-- PNL_GAL_ABANDON 11:11 GO (WO): R442. -/
def PNL_GAL_ABANDON_GO (k : Nat) : Fld := ⟨(PNL_GAL_ABANDON k), 11, 1⟩

/-- Address of PNL_MIGRATE (Table 16.8). -/
def PNL_MIGRATE (k : Nat) : Nat := 0xf000018 + 0x100000 * k

/-- PNL_MIGRATE 4:0 T (WO): local thread. -/
def PNL_MIGRATE_T (k : Nat) : Fld := ⟨(PNL_MIGRATE k), 0, 5⟩

/-- PNL_MIGRATE 9:5 U (WO): local thread. -/
def PNL_MIGRATE_U (k : Nat) : Fld := ⟨(PNL_MIGRATE k), 5, 5⟩

/-- PNL_MIGRATE 10:10 GO (WO): R446. -/
def PNL_MIGRATE_GO (k : Nat) : Fld := ⟨(PNL_MIGRATE k), 10, 1⟩

/-- Address of PNL_MIGRATE_STATUS (Table 16.8). -/
def PNL_MIGRATE_STATUS (k : Nat) : Nat := 0xf00001c + 0x100000 * k

/-- PNL_MIGRATE_STATUS 0:0 BUSY (RO): exchange in progress. -/
def PNL_MIGRATE_STATUS_BUSY (k : Nat) : Fld := ⟨(PNL_MIGRATE_STATUS k), 0, 1⟩

/-- PNL_MIGRATE_STATUS 1:1 ERR (RO): last GO refused. -/
def PNL_MIGRATE_STATUS_ERR (k : Nat) : Fld := ⟨(PNL_MIGRATE_STATUS k), 1, 1⟩

/-- Address of PNL_DLK_GRP (Table 16.8). -/
def PNL_DLK_GRP (k : Nat) : Nat := 0xf000040 + 0x100000 * k

/-- PNL_DLK_GRP 3:0 GROUP (RO): group of the snapshot. -/
def PNL_DLK_GRP_GROUP (k : Nat) : Fld := ⟨(PNL_DLK_GRP k), 0, 4⟩

/-- PNL_DLK_GRP 4:4 VALID (W1C): snapshot held (R433). -/
def PNL_DLK_GRP_VALID (k : Nat) : Fld := ⟨(PNL_DLK_GRP k), 4, 1⟩

/-- Address of PNL_DLK_TIME (Table 16.8). -/
def PNL_DLK_TIME (k : Nat) : Nat := 0xf000048 + 0x100000 * k

/-- PNL_DLK_TIME 63:0 TIME (RO): Datum short of the declaration. -/
def PNL_DLK_TIME_TIME (k : Nat) : Fld := ⟨(PNL_DLK_TIME k), 0, 64⟩

/-- Address of PNL_SEND_BAD (Table 16.8). -/
def PNL_SEND_BAD (k : Nat) : Nat := 0xf000050 + 0x100000 * k

/-- PNL_SEND_BAD 63:0 COUNT (RO): R436; saturates at 2⁶⁴ − 1. -/
def PNL_SEND_BAD_COUNT (k : Nat) : Fld := ⟨(PNL_SEND_BAD k), 0, 64⟩

/-- Address of PNL_DLK_MASK (Table 16.8). -/
def PNL_DLK_MASK (k : Nat) (i : Nat) : Nat := 0xf000080 + 0x100000 * k + 0x4 * i

/-- PNL_DLK_MASK 6:0 ARMED (RO): bits armed by thread i's PN.WFE. -/
def PNL_DLK_MASK_ARMED (k : Nat) (i : Nat) : Fld := ⟨(PNL_DLK_MASK k i), 0, 7⟩

/-- PNL_DLK_MASK 7:7 MEMBER (RO): thread i is in the group. -/
def PNL_DLK_MASK_MEMBER (k : Nat) (i : Nat) : Fld := ⟨(PNL_DLK_MASK k i), 7, 1⟩

/-- Address of PNL_THR_CFG (Table 16.9). -/
def PNL_THR_CFG (k : Nat) (t : Nat) : Nat := 0xf000100 + 0x100000 * k + 0x4 * t

/-- PNL_THR_CFG 0:0 TIMED (RW while STOPPED, else RO): R427. -/
def PNL_THR_CFG_TIMED (k : Nat) (t : Nat) : Fld := ⟨(PNL_THR_CFG k t), 0, 1⟩

/-- PNL_THR_CFG 4:1 WGRP (RW): wait group 0–14; 15 none. -/
def PNL_THR_CFG_WGRP (k : Nat) (t : Nat) : Fld := ⟨(PNL_THR_CFG k t), 1, 4⟩

/-- PNL_THR_CFG 17:5 SHEET (RW): sheet whose work the thread serves; 0x1FFF none (R438). -/
def PNL_THR_CFG_SHEET (k : Nat) (t : Nat) : Fld := ⟨(PNL_THR_CFG k t), 5, 13⟩

/-- Address of PNL_THR_CTRL (Table 16.9). -/
def PNL_THR_CTRL (k : Nat) (t : Nat) : Nat := 0xf000200 + 0x100000 * k + 0x4 * t

/-- PNL_THR_CTRL 2:0 OP (WO): 1 START at PNL_THR_PCt; 2 STOP; 3 HALT; 4 RESUME; 5 KICK; 0, 6 and 7 no action. -/
def PNL_THR_CTRL_OP (k : Nat) (t : Nat) : Fld := ⟨(PNL_THR_CTRL k t), 0, 3⟩

/-- Address of PNL_THR_STAT (Table 16.9). -/
def PNL_THR_STAT (k : Nat) (t : Nat) : Nat := 0xf000280 + 0x100000 * k + 0x4 * t

/-- PNL_THR_STAT 2:0 STATE (RO): 0 STOPPED; 1 RUNNING; 2 WAITING; 3 HALTED; 4 MIGRATING. -/
def PNL_THR_STAT_STATE (k : Nat) (t : Nat) : Fld := ⟨(PNL_THR_STAT k t), 0, 3⟩

/-- PNL_THR_STAT 7:3 CONTEXT (RO): core within the cluster × 4 + slot. -/
def PNL_THR_STAT_CONTEXT (k : Nat) (t : Nat) : Fld := ⟨(PNL_THR_STAT k t), 3, 5⟩

/-- PNL_THR_STAT 14:8 LATCH (RO): event latch, Table 16.4. -/
def PNL_THR_STAT_LATCH (k : Nat) (t : Nat) : Fld := ⟨(PNL_THR_STAT k t), 8, 7⟩

/-- PNL_THR_STAT 15:15 TIMER_ARMED (RO): PNL_THR_TIMERt armed and not yet fired. -/
def PNL_THR_STAT_TIMER_ARMED (k : Nat) (t : Nat) : Fld := ⟨(PNL_THR_STAT k t), 15, 1⟩

/-- PNL_THR_STAT 23:16 EPOCH (RO): R446; wraps to 0. -/
def PNL_THR_STAT_EPOCH (k : Nat) (t : Nat) : Fld := ⟨(PNL_THR_STAT k t), 16, 8⟩

/-- Address of PNL_THR_PC (Table 16.9). -/
def PNL_THR_PC (k : Nat) (t : Nat) : Nat := 0xf000400 + 0x100000 * k + 0x8 * t

/-- PNL_THR_PC 63:0 PC (RW while STOPPED or HALTED, else RO): start or current PC. -/
def PNL_THR_PC_PC (k : Nat) (t : Nat) : Fld := ⟨(PNL_THR_PC k t), 0, 64⟩

/-- Address of PNL_THR_WATCH (Table 16.9). -/
def PNL_THR_WATCH (k : Nat) (t : Nat) : Nat := 0xf000600 + 0x100000 * k + 0x8 * t

/-- PNL_THR_WATCH 63:0 WATCH (RW): bit g: gallery g sets GAL_DATA and GAL_SPACE. -/
def PNL_THR_WATCH_WATCH (k : Nat) (t : Nat) : Fld := ⟨(PNL_THR_WATCH k t), 0, 64⟩

/-- Address of PNL_THR_TIMER (Table 16.9). -/
def PNL_THR_TIMER (k : Nat) (t : Nat) : Nat := 0xf000700 + 0x100000 * k + 0x8 * t

/-- PNL_THR_TIMER 63:0 DUE (RW): a write arms a single TIMER event at Datum short DUE. -/
def PNL_THR_TIMER_DUE (k : Nat) (t : Nat) : Fld := ⟨(PNL_THR_TIMER k t), 0, 64⟩

/-- Address of PNL_GAL (Table 16.10). -/
def PNL_GAL (k : Nat) (g : Nat) : Nat := 0xf001000 + 0x100000 * k + 0x8 * g

/-- PNL_GAL 0:0 EN (RW): gallery in use; set only by a write that passes the check below. -/
def PNL_GAL_EN (k : Nat) (g : Nat) : Fld := ⟨(PNL_GAL k g), 0, 1⟩

/-- PNL_GAL 2:1 KIND (RW while EN = 0): R434; 3 refused. -/
def PNL_GAL_KIND (k : Nat) (g : Nat) : Fld := ⟨(PNL_GAL k g), 1, 2⟩

/-- PNL_GAL 5:3 SIZE_LOG2 (as KIND): slot 64 × 2^SIZE_LOG2 bytes, 0–6. -/
def PNL_GAL_SIZE_LOG2 (k : Nat) (g : Nat) : Fld := ⟨(PNL_GAL k g), 3, 3⟩

/-- PNL_GAL 9:6 SLOTS_LOG2 (as KIND): 2–8. -/
def PNL_GAL_SLOTS_LOG2 (k : Nat) (g : Nat) : Fld := ⟨(PNL_GAL k g), 6, 4⟩

/-- PNL_GAL 13:10 WGRP (as KIND): producing group for R429; KIND 2 reads 0xF. -/
def PNL_GAL_WGRP (k : Nat) (g : Nat) : Fld := ⟨(PNL_GAL k g), 10, 4⟩

/-- PNL_GAL 16:14 CLASS (as KIND): KIND 2 only. -/
def PNL_GAL_CLASS (k : Nat) (g : Nat) : Fld := ⟨(PNL_GAL k g), 14, 3⟩

/-- PNL_GAL 29:17 BASE (as KIND): offset in cluster memory ÷ 64. -/
def PNL_GAL_BASE (k : Nat) (g : Nat) : Fld := ⟨(PNL_GAL k g), 17, 13⟩

/-- Address of PNL_GAL_STAT (Table 16.10). -/
def PNL_GAL_STAT (k : Nat) (g : Nat) : Nat := 0xf001400 + 0x100000 * k + 0x4 * g

/-- PNL_GAL_STAT 8:0 FREE (RO): FREE slots. -/
def PNL_GAL_STAT_FREE (k : Nat) (g : Nat) : Fld := ⟨(PNL_GAL_STAT k g), 0, 9⟩

/-- PNL_GAL_STAT 17:9 SEALED (RO): SEALED slots. -/
def PNL_GAL_STAT_SEALED (k : Nat) (g : Nat) : Fld := ⟨(PNL_GAL_STAT k g), 9, 9⟩

/-- PNL_GAL_STAT 26:18 RESERVED (RO): RESERVED slots. -/
def PNL_GAL_STAT_RESERVED (k : Nat) (g : Nat) : Fld := ⟨(PNL_GAL_STAT k g), 18, 9⟩

/-- Address of CRN_SRC (Table 16.11). -/
def CRN_SRC (k : Nat) (s : Nat) : Nat := 0xf800008 + 0x100000 * k + 0x8 * (s - 1)

/-- CRN_SRC 31:0 TARGET (RW): bit t: local thread t. -/
def CRN_SRC_TARGET (k : Nat) (s : Nat) : Fld := ⟨(CRN_SRC k s), 0, 32⟩

/-- CRN_SRC 32:32 EN (RW): source enabled. -/
def CRN_SRC_EN (k : Nat) (s : Nat) : Fld := ⟨(CRN_SRC k s), 32, 1⟩

/-- CRN_SRC 33:33 PENDING (RO): R443. -/
def CRN_SRC_PENDING (k : Nat) (s : Nat) : Fld := ⟨(CRN_SRC k s), 33, 1⟩

/-- CRN_SRC 34:34 INSERV (RO): R443. -/
def CRN_SRC_INSERV (k : Nat) (s : Nat) : Fld := ⟨(CRN_SRC k s), 34, 1⟩

/-- Address of CRN_CLAIM (Table 16.11). -/
def CRN_CLAIM (k : Nat) (t : Nat) : Nat := 0xf802000 + 0x100000 * k + 0x4 * t

/-- CRN_CLAIM 9:0 SOURCE (RO): a read claims under R444. -/
def CRN_CLAIM_SOURCE (k : Nat) (t : Nat) : Fld := ⟨(CRN_CLAIM k t), 0, 10⟩

/-- Address of CRN_COMPLETE (Table 16.11). -/
def CRN_COMPLETE (k : Nat) (t : Nat) : Nat := 0xf802080 + 0x100000 * k + 0x4 * t

/-- CRN_COMPLETE 9:0 SOURCE (WO): R444. -/
def CRN_COMPLETE_SOURCE (k : Nat) (t : Nat) : Fld := ⟨(CRN_COMPLETE k t), 0, 10⟩

/-- Address of CRN_RAISE (Table 16.11). -/
def CRN_RAISE (k : Nat) : Nat := 0xf802100 + 0x100000 * k

/-- CRN_RAISE 9:0 SOURCE (WO): raises software source 512–1,023; other values ignored. -/
def CRN_RAISE_SOURCE (k : Nat) : Fld := ⟨(CRN_RAISE k), 0, 10⟩

/-- Address of CRN_CNT (Table 16.11). -/
def CRN_CNT (k : Nat) (s : Nat) : Nat := 0xf803004 + 0x100000 * k + 0x4 * (s - 1)

/-- CRN_CNT 31:0 COUNT (RO): events of source s; wraps to 0 (R445). -/
def CRN_CNT_COUNT (k : Nat) (s : Nat) : Fld := ⟨(CRN_CNT k s), 0, 32⟩

/-- Address of SVY_CTRL (Table 17.8). -/
def SVY_CTRL : Nat := 0x0

/-- SVY_CTRL 0:0 FORCE_MIN (RWS): minimal mode at each device reset (R461). -/
def SVY_CTRL_FORCE_MIN : Fld := ⟨SVY_CTRL, 0, 1⟩

/-- SVY_CTRL 16:1 RETRY_S (RWS): privileged retry period in minimal mode, 1–65,535 s; 0 stored as 1. -/
def SVY_CTRL_RETRY_S : Fld := ⟨SVY_CTRL, 1, 16⟩

/-- Address of SVY_BOOT_STATUS (Table 17.8). -/
def SVY_BOOT_STATUS : Nat := 0x4

/-- SVY_BOOT_STATUS 3:0 STATE (RO): BOOT_STATE (R458). -/
def SVY_BOOT_STATUS_STATE : Fld := ⟨SVY_BOOT_STATUS, 0, 4⟩

/-- SVY_BOOT_STATUS 5:4 STRIKES (RO): R461. -/
def SVY_BOOT_STATUS_STRIKES : Fld := ⟨SVY_BOOT_STATUS, 4, 2⟩

/-- SVY_BOOT_STATUS 6:6 SEALED (RO): RWL fields sealed. -/
def SVY_BOOT_STATUS_SEALED : Fld := ⟨SVY_BOOT_STATUS, 6, 1⟩

/-- SVY_BOOT_STATUS 7:7 COMMIT_ERR (W1C): R466. -/
def SVY_BOOT_STATUS_COMMIT_ERR : Fld := ⟨SVY_BOOT_STATUS, 7, 1⟩

/-- Address of SVY_BOOT_CAUSE (Table 17.8). -/
def SVY_BOOT_CAUSE : Nat := 0x8

/-- SVY_BOOT_CAUSE 7:0 CODE (RO): Table 17.3; mirrored as MIN_CAUSE and BOOT_CAUSE. -/
def SVY_BOOT_CAUSE_CODE : Fld := ⟨SVY_BOOT_CAUSE, 0, 8⟩

/-- SVY_BOOT_CAUSE 11:8 CLASS (RO): class concerned, for CODE 0x01. -/
def SVY_BOOT_CAUSE_CLASS : Fld := ⟨SVY_BOOT_CAUSE, 8, 4⟩

/-- SVY_BOOT_CAUSE 15:12 REASON_A (RO): Table 17.4. -/
def SVY_BOOT_CAUSE_REASON_A : Fld := ⟨SVY_BOOT_CAUSE, 12, 4⟩

/-- SVY_BOOT_CAUSE 19:16 REASON_B (RO): Table 17.4. -/
def SVY_BOOT_CAUSE_REASON_B : Fld := ⟨SVY_BOOT_CAUSE, 16, 4⟩

/-- Address of SVY_RELEASE (Table 17.8). -/
def SVY_RELEASE : Nat := 0xc

/-- SVY_RELEASE 7:0 CLUSTER (RO): bit k: cluster k released (R457). -/
def SVY_RELEASE_CLUSTER : Fld := ⟨SVY_RELEASE, 0, 8⟩

/-- Address of SVY_EPOCH (Table 17.8). -/
def SVY_EPOCH : Nat := 0x10

/-- SVY_EPOCH 5:0 EPOCH (RO): current key epoch. -/
def SVY_EPOCH_EPOCH : Fld := ⟨SVY_EPOCH, 0, 6⟩

/-- SVY_EPOCH 9:6 SLOT_REVOKED (RO): bit s: owner slot s revoked. -/
def SVY_EPOCH_SLOT_REVOKED : Fld := ⟨SVY_EPOCH, 6, 4⟩

/-- SVY_EPOCH 13:10 SLOT_FILLED (RO): bit s: slot s holds a hash. -/
def SVY_EPOCH_SLOT_FILLED : Fld := ⟨SVY_EPOCH, 10, 4⟩

/-- Address of SVY_IMG_STATUS (Table 17.9). -/
def SVY_IMG_STATUS (c : Nat) : Nat := 0x40 + 0x8 * c

/-- SVY_IMG_STATUS 2:0 STATE (RO): 0 NOT_LOADED; 1 LOADING; 2 RUNNING; 3 WAITING; 4 FAILED (privileged); 5–7 not used. -/
def SVY_IMG_STATUS_STATE (c : Nat) : Fld := ⟨(SVY_IMG_STATUS c), 0, 3⟩

/-- SVY_IMG_STATUS 3:3 COPY (RO): copy running: 0 A, 1 B. -/
def SVY_IMG_STATUS_COPY (c : Nat) : Fld := ⟨(SVY_IMG_STATUS c), 3, 1⟩

/-- SVY_IMG_STATUS 7:4 REASON_A (RO): Table 17.4. -/
def SVY_IMG_STATUS_REASON_A (c : Nat) : Fld := ⟨(SVY_IMG_STATUS c), 4, 4⟩

/-- SVY_IMG_STATUS 11:8 REASON_B (RO): Table 17.4. -/
def SVY_IMG_STATUS_REASON_B (c : Nat) : Fld := ⟨(SVY_IMG_STATUS c), 8, 4⟩

/-- SVY_IMG_STATUS 13:12 A_STATE (RO): 0 COMMITTED; 1 PENDING; 2 TRIAL; 3 REJECTED. -/
def SVY_IMG_STATUS_A_STATE (c : Nat) : Fld := ⟨(SVY_IMG_STATUS c), 12, 2⟩

/-- SVY_IMG_STATUS 15:14 B_STATE (RO): as A_STATE. -/
def SVY_IMG_STATUS_B_STATE (c : Nat) : Fld := ⟨(SVY_IMG_STATUS c), 14, 2⟩

/-- SVY_IMG_STATUS 16:16 HOLD_FAULT (W1C): R455. -/
def SVY_IMG_STATUS_HOLD_FAULT (c : Nat) : Fld := ⟨(SVY_IMG_STATUS c), 16, 1⟩

/-- SVY_IMG_STATUS 63:32 VERSION (RO): version running. -/
def SVY_IMG_STATUS_VERSION (c : Nat) : Fld := ⟨(SVY_IMG_STATUS c), 32, 32⟩

/-- Address of SVY_FLOOR (Table 17.9). -/
def SVY_FLOOR (c : Nat) : Nat := 0x80 + 0x4 * c

/-- SVY_FLOOR 31:0 FLOOR (RO): rollback floor (R466). -/
def SVY_FLOOR_FLOOR (c : Nat) : Fld := ⟨(SVY_FLOOR c), 0, 32⟩

/-- Address of SVY_COMMIT (Table 17.9). -/
def SVY_COMMIT : Nat := 0xa0

/-- SVY_COMMIT 3:0 CLASS (WO): commits the class (R466). -/
def SVY_COMMIT_CLASS : Fld := ⟨SVY_COMMIT, 0, 4⟩

/-- Address of SVY_COMMIT_CFG (Table 17.9). -/
def SVY_COMMIT_CFG : Nat := 0xa4

/-- SVY_COMMIT_CFG 15:0 HOURS (RW): committed running time before the floor rises, 1–65,535 h; 0 stored as 1; kept in the boot record. -/
def SVY_COMMIT_CFG_HOURS : Fld := ⟨SVY_COMMIT_CFG, 0, 16⟩

/-- Address of SVY_RECOV_CTRL (Table 17.10). -/
def SVY_RECOV_CTRL : Nat := 0xb0

/-- SVY_RECOV_CTRL 0:0 SUBMIT (WO): R470. -/
def SVY_RECOV_CTRL_SUBMIT : Fld := ⟨SVY_RECOV_CTRL, 0, 1⟩

/-- Address of SVY_RECOV_STATUS (Table 17.10). -/
def SVY_RECOV_STATUS : Nat := 0xb4

/-- SVY_RECOV_STATUS 0:0 BUSY (RO): check or flash write in progress. -/
def SVY_RECOV_STATUS_BUSY : Fld := ⟨SVY_RECOV_STATUS, 0, 1⟩

/-- SVY_RECOV_STATUS 15:8 RESULT (RO): Table 17.7. -/
def SVY_RECOV_STATUS_RESULT : Fld := ⟨SVY_RECOV_STATUS, 8, 8⟩

/-- Address of SVY_RECOV_LEN (Table 17.10). -/
def SVY_RECOV_LEN : Nat := 0xb8

/-- SVY_RECOV_LEN 31:0 LEN (RW): package length in bytes. -/
def SVY_RECOV_LEN_LEN : Fld := ⟨SVY_RECOV_LEN, 0, 32⟩

/-- Address of SVY_NOTICE (Table 17.10). -/
def SVY_NOTICE (w : Nat) : Nat := 0x100 + 0x4 * w

/-- SVY_NOTICE 31:0 NOTICE (RO): bytes 0–3 SVY_BOOT_STATUS; 4–7 SVY_BOOT_CAUSE; 8–15 sequence; 16 RESULT of the last package; 24–31 Datum short. -/
def SVY_NOTICE_NOTICE (w : Nat) : Fld := ⟨(SVY_NOTICE w), 0, 32⟩

/-- Address of SVY_NOTICE_ACK (Table 17.10). -/
def SVY_NOTICE_ACK : Nat := 0x140

/-- SVY_NOTICE_ACK 0:0 ACK (WO): 1 acknowledges the notice. -/
def SVY_NOTICE_ACK_ACK : Fld := ⟨SVY_NOTICE_ACK, 0, 1⟩

/-- Address of SVY_DP_LOCK (Table 19.7). -/
def SVY_DP_LOCK : Nat := 0x1000

/-- SVY_DP_LOCK 0:0 GRANTED (RO): a read claims (R514). -/
def SVY_DP_LOCK_GRANTED : Fld := ⟨SVY_DP_LOCK, 0, 1⟩

/-- SVY_DP_LOCK 1:1 RELEASE (WO): 1 releases, from the owner. -/
def SVY_DP_LOCK_RELEASE : Fld := ⟨SVY_DP_LOCK, 1, 1⟩

/-- SVY_DP_LOCK 3:2 OWNER (RO): 0 none; 1 host port; 2 MCTP; 3 not used. -/
def SVY_DP_LOCK_OWNER : Fld := ⟨SVY_DP_LOCK, 2, 2⟩

/-- SVY_DP_LOCK 9:4 PORT (RO): owner's host port. -/
def SVY_DP_LOCK_PORT : Fld := ⟨SVY_DP_LOCK, 4, 6⟩

/-- Address of SVY_DP_CTRL (Table 19.7). -/
def SVY_DP_CTRL : Nat := 0x1004

/-- SVY_DP_CTRL 1:0 SPACE (RW): Table 19.5. -/
def SVY_DP_CTRL_SPACE : Fld := ⟨SVY_DP_CTRL, 0, 2⟩

/-- SVY_DP_CTRL 2:2 AUTO (RW): R516. -/
def SVY_DP_CTRL_AUTO : Fld := ⟨SVY_DP_CTRL, 2, 1⟩

/-- SVY_DP_CTRL 3:3 DUMP (WO): R517. -/
def SVY_DP_CTRL_DUMP : Fld := ⟨SVY_DP_CTRL, 3, 1⟩

/-- Address of SVY_DP_STATUS (Table 19.7). -/
def SVY_DP_STATUS : Nat := 0x1008

/-- SVY_DP_STATUS 0:0 DENIED (W1C): an access was refused. -/
def SVY_DP_STATUS_DENIED : Fld := ⟨SVY_DP_STATUS, 0, 1⟩

/-- SVY_DP_STATUS 1:1 RANGE (W1C): R515. -/
def SVY_DP_STATUS_RANGE : Fld := ⟨SVY_DP_STATUS, 1, 1⟩

/-- SVY_DP_STATUS 2:2 DUMP_BUSY (RO): R517. -/
def SVY_DP_STATUS_DUMP_BUSY : Fld := ⟨SVY_DP_STATUS, 2, 1⟩

/-- SVY_DP_STATUS 31:8 DUMP_LEN (RO): bytes. -/
def SVY_DP_STATUS_DUMP_LEN : Fld := ⟨SVY_DP_STATUS, 8, 24⟩

/-- Address of SVY_DP_ADDR (Table 19.7). -/
def SVY_DP_ADDR : Nat := 0x1010

/-- SVY_DP_ADDR 47:0 ADDR (RW): space byte address; bits 1:0 read 0. -/
def SVY_DP_ADDR_ADDR : Fld := ⟨SVY_DP_ADDR, 0, 48⟩

/-- Address of SVY_THERM_CFG (Table 20.11). -/
def SVY_THERM_CFG : Nat := 0x3000

/-- SVY_THERM_CFG 7:0 WARN (RW): warning threshold, 60–105 °C; other values stored as the nearer limit; default 100 °C. -/
def SVY_THERM_CFG_WARN : Fld := ⟨SVY_THERM_CFG, 0, 8⟩

/-- Address of SVY_THERM_STATUS (Table 20.11). -/
def SVY_THERM_STATUS : Nat := 0x3004

/-- SVY_THERM_STATUS 11:0 MAX (RO): hottest die sensor. -/
def SVY_THERM_STATUS_MAX : Fld := ⟨SVY_THERM_STATUS, 0, 12⟩

/-- SVY_THERM_STATUS 16:12 MAX_SENSOR (RO): its number, 0–19. -/
def SVY_THERM_STATUS_MAX_SENSOR : Fld := ⟨SVY_THERM_STATUS, 12, 5⟩

/-- SVY_THERM_STATUS 17:17 WARN_NOW (RO): MAX ≥ WARN. -/
def SVY_THERM_STATUS_WARN_NOW : Fld := ⟨SVY_THERM_STATUS, 17, 1⟩

/-- SVY_THERM_STATUS 19:18 THROTTLE (RO): bit 0 west, bit 1 east (R537). -/
def SVY_THERM_STATUS_THROTTLE : Fld := ⟨SVY_THERM_STATUS, 18, 2⟩

/-- SVY_THERM_STATUS 20:20 TRIPPED (W1C): a trip occurred; keeps its value through every reset but power-on reset. -/
def SVY_THERM_STATUS_TRIPPED : Fld := ⟨SVY_THERM_STATUS, 20, 1⟩

/-- Address of SVY_TEMP (Table 20.11). -/
def SVY_TEMP (n : Nat) : Nat := 0x3040 + 0x4 * n

/-- SVY_TEMP 11:0 TEMP (RO): sensor n. -/
def SVY_TEMP_TEMP (n : Nat) : Fld := ⟨(SVY_TEMP n), 0, 12⟩

/-- SVY_TEMP 12:12 VALID (RO): sensor read since reset. -/
def SVY_TEMP_VALID (n : Nat) : Fld := ⟨(SVY_TEMP n), 12, 1⟩

/-- Address of SVY_POWER (Table 20.12). -/
def SVY_POWER : Nat := 0x3010

/-- SVY_POWER 12:0 PKG (RO): package power in 0.125 W, 0–1,023.875 W. -/
def SVY_POWER_PKG : Fld := ⟨SVY_POWER, 0, 13⟩

/-- Address of SVY_AVS_STATUS (Table 20.12). -/
def SVY_AVS_STATUS (n : Nat) : Nat := 0x3020 + 0x4 * n

/-- SVY_AVS_STATUS 9:0 VOUT_MV (RO): last acknowledged voltage in mV; rail n of R526. -/
def SVY_AVS_STATUS_VOUT_MV (n : Nat) : Fld := ⟨(SVY_AVS_STATUS n), 0, 10⟩

/-- SVY_AVS_STATUS 19:10 TARGET_MV (RO): target in mV. -/
def SVY_AVS_STATUS_TARGET_MV (n : Nat) : Fld := ⟨(SVY_AVS_STATUS n), 10, 10⟩

/-- SVY_AVS_STATUS 20:20 ERR (W1C): R527. -/
def SVY_AVS_STATUS_ERR (n : Nat) : Fld := ⟨(SVY_AVS_STATUS n), 20, 1⟩

/-- Address of HLT_STATUS (Table 18.3). -/
def HLT_STATUS : Nat := 0x10000000

/-- HLT_STATUS 2:0 HEALTH (RO): Table 18.2. -/
def HLT_STATUS_HEALTH : Fld := ⟨HLT_STATUS, 0, 3⟩

/-- HLT_STATUS 3:3 REPLACE_ME (RO): R485. -/
def HLT_STATUS_REPLACE_ME : Fld := ⟨HLT_STATUS, 3, 1⟩

/-- HLT_STATUS 7:4 IMPAIRED_CAUSE (RO): 0 none; 1 contract BROKEN by a fault; 2 graticule link lost; 3 unit lost without spare; 4 memory beyond correc. -/
def HLT_STATUS_IMPAIRED_CAUSE : Fld := ⟨HLT_STATUS, 4, 4⟩

/-- Address of HLT_EVENT (Table 18.3). -/
def HLT_EVENT : Nat := 0x10000004

/-- HLT_EVENT 0:0 STATE (W1C): R484. -/
def HLT_EVENT_STATE : Fld := ⟨HLT_EVENT, 0, 1⟩

/-- HLT_EVENT 1:1 FAULT (W1C): a fault was logged. -/
def HLT_EVENT_FAULT : Fld := ⟨HLT_EVENT, 1, 1⟩

/-- HLT_EVENT 2:2 HBM_REPAIR (W1C): R478. -/
def HLT_EVENT_HBM_REPAIR : Fld := ⟨HLT_EVENT, 2, 1⟩

/-- HLT_EVENT 3:3 SURVEY (W1C): a survey record was written. -/
def HLT_EVENT_SURVEY : Fld := ⟨HLT_EVENT, 3, 1⟩

/-- HLT_EVENT 4:4 CONS (W1C): R494. -/
def HLT_EVENT_CONS : Fld := ⟨HLT_EVENT, 4, 1⟩

/-- HLT_EVENT 5:5 PROT (W1C): R488. -/
def HLT_EVENT_PROT : Fld := ⟨HLT_EVENT, 5, 1⟩

/-- Address of HLT_SUMMARY (Table 18.3). -/
def HLT_SUMMARY : Nat := 0x10000008

/-- HLT_SUMMARY 16:0 BLOCKS (RO): bit: 0 SVY notice unacknowledged; 1 DTM; 2 ADM; 3 GRT; 4 HP; 5 RNG; 6 NET; 7 NET_CAGE; 8 BNC; 9 TBL; 10 SWC; 1. -/
def HLT_SUMMARY_BLOCKS : Fld := ⟨HLT_SUMMARY, 0, 17⟩

/-- Address of HLT_SPARE (Table 18.3). -/
def HLT_SPARE : Nat := 0x1000000c

/-- HLT_SPARE 1:0 BENCH (RO): spare benches left. -/
def HLT_SPARE_BENCH : Fld := ⟨HLT_SPARE, 0, 2⟩

/-- HLT_SPARE 2:2 GROUP (RO): spare bank groups left. -/
def HLT_SPARE_GROUP : Fld := ⟨HLT_SPARE, 2, 1⟩

/-- HLT_SPARE 9:3 CORES_FAILED (RO): 0–64. -/
def HLT_SPARE_CORES_FAILED : Fld := ⟨HLT_SPARE, 3, 7⟩

/-- HLT_SPARE 10:10 HBM_LOW (RO): R478. -/
def HLT_SPARE_HBM_LOW : Fld := ⟨HLT_SPARE, 10, 1⟩

/-- Address of HLT_CTRL (Table 18.3). -/
def HLT_CTRL : Nat := 0x10000010

/-- HLT_CTRL 0:0 LOCATE (RW): R485. -/
def HLT_CTRL_LOCATE : Fld := ⟨HLT_CTRL, 0, 1⟩

/-- HLT_CTRL 8:1 COAL_US (RW): 1–255 µs; 0 stored as 1. -/
def HLT_CTRL_COAL_US : Fld := ⟨HLT_CTRL, 1, 8⟩

/-- Address of HLT_CONS_CFG (Table 18.3). -/
def HLT_CONS_CFG : Nat := 0x10000014

/-- HLT_CONS_CFG 15:0 WARN_DAYS (RW): 1–65,535; 0 stored as 1. -/
def HLT_CONS_CFG_WARN_DAYS : Fld := ⟨HLT_CONS_CFG, 0, 16⟩

/-- HLT_CONS_CFG 31:16 CXL_ERR_BUDGET (RW): corrected errors per 30 days; 0 stored as 1. -/
def HLT_CONS_CFG_CXL_ERR_BUDGET : Fld := ⟨HLT_CONS_CFG, 16, 16⟩

/-- Address of HLT_SURV_WR (Table 18.6). -/
def HLT_SURV_WR : Nat := 0x10000018

/-- HLT_SURV_WR 31:0 COUNT (RO): records written; wraps. -/
def HLT_SURV_WR_COUNT : Fld := ⟨HLT_SURV_WR, 0, 32⟩

/-- Address of HLT_SURV_RD (Table 18.6). -/
def HLT_SURV_RD : Nat := 0x1000001c

/-- HLT_SURV_RD 31:0 COUNT (RW): R490; a value beyond HLT_SURV_WR is stored as HLT_SURV_WR. -/
def HLT_SURV_RD_COUNT : Fld := ⟨HLT_SURV_RD, 0, 32⟩

/-- Address of HLT_SURV_LOST (Table 18.6). -/
def HLT_SURV_LOST : Nat := 0x10000020

/-- HLT_SURV_LOST 31:0 COUNT (RO): saturates at 0xFFFF_FFFF. -/
def HLT_SURV_LOST_COUNT : Fld := ⟨HLT_SURV_LOST, 0, 32⟩

/-- Address of HLT_PEER_OVF (Table 18.6). -/
def HLT_PEER_OVF : Nat := 0x10000024

/-- HLT_PEER_OVF 31:0 COUNT (RO): R491; saturates. -/
def HLT_PEER_OVF_COUNT : Fld := ⟨HLT_PEER_OVF, 0, 32⟩

/-- Address of HLT_FAULT_CNT (Table 18.6). -/
def HLT_FAULT_CNT : Nat := 0x10000028

/-- HLT_FAULT_CNT 31:0 COUNT (RO): faults logged since reset; saturates. -/
def HLT_FAULT_CNT_COUNT : Fld := ⟨HLT_FAULT_CNT, 0, 32⟩

/-- Address of HLT_PROT_CNT (Table 18.6). -/
def HLT_PROT_CNT : Nat := 0x1000002c

/-- HLT_PROT_CNT 31:0 COUNT (RO): saturates. -/
def HLT_PROT_CNT_COUNT : Fld := ⟨HLT_PROT_CNT, 0, 32⟩

/-- Address of HLT_PROT_DROP (Table 18.6). -/
def HLT_PROT_DROP : Nat := 0x10000030

/-- HLT_PROT_DROP 31:0 COUNT (RO): saturates. -/
def HLT_PROT_DROP_COUNT : Fld := ⟨HLT_PROT_DROP, 0, 32⟩

/-- Address of HLT_PROT_POP (Table 18.6). -/
def HLT_PROT_POP : Nat := 0x10000034

/-- HLT_PROT_POP 0:0 POP (WO): R488. -/
def HLT_PROT_POP_POP : Fld := ⟨HLT_PROT_POP, 0, 1⟩

/-- Address of HLT_PROT_ENTRY0 (Table 18.6). -/
def HLT_PROT_ENTRY0 : Nat := 0x10000038

/-- HLT_PROT_ENTRY0 47:0 ADDR (RO): translated address (R122); with OFFSET = 1, the request's offset in the BAR named by BAR; with FW = 1, the int. -/
def HLT_PROT_ENTRY0_ADDR : Fld := ⟨HLT_PROT_ENTRY0, 0, 48⟩

/-- HLT_PROT_ENTRY0 53:48 PORT (RO): host port; with FW = 1, the cluster 0–7. -/
def HLT_PROT_ENTRY0_PORT : Fld := ⟨HLT_PROT_ENTRY0, 48, 6⟩

/-- HLT_PROT_ENTRY0 56:54 PF (RO): function; 0 with FW = 1. -/
def HLT_PROT_ENTRY0_PF : Fld := ⟨HLT_PROT_ENTRY0, 54, 3⟩

/-- HLT_PROT_ENTRY0 57:57 WRITE (RO): 1 write. -/
def HLT_PROT_ENTRY0_WRITE : Fld := ⟨HLT_PROT_ENTRY0, 57, 1⟩

/-- HLT_PROT_ENTRY0 58:58 VALID (RO): an entry is shown. -/
def HLT_PROT_ENTRY0_VALID : Fld := ⟨HLT_PROT_ENTRY0, 58, 1⟩

/-- HLT_PROT_ENTRY0 59:59 FW (RO): the access was made by firmware (R30). -/
def HLT_PROT_ENTRY0_FW : Fld := ⟨HLT_PROT_ENTRY0, 59, 1⟩

/-- HLT_PROT_ENTRY0 60:60 OFFSET (RO): the host request fell in no valid window; ADDR holds its BAR offset. -/
def HLT_PROT_ENTRY0_OFFSET : Fld := ⟨HLT_PROT_ENTRY0, 60, 1⟩

/-- HLT_PROT_ENTRY0 61:61 BAR (RO): with OFFSET = 1: 0 BAR0, 1 BAR2. -/
def HLT_PROT_ENTRY0_BAR : Fld := ⟨HLT_PROT_ENTRY0, 61, 1⟩

/-- Address of HLT_PROT_ENTRY1 (Table 18.6). -/
def HLT_PROT_ENTRY1 : Nat := 0x10000040

/-- HLT_PROT_ENTRY1 63:0 TIME (RO): Datum short. -/
def HLT_PROT_ENTRY1_TIME : Fld := ⟨HLT_PROT_ENTRY1, 0, 64⟩

/-- Address of HLT_PORT_CFG (Table 18.3). -/
def HLT_PORT_CFG (n : Nat) : Nat := 0x10000100 + 0x4 * n

/-- HLT_PORT_CFG 0:0 EN (RW): send health events to function 0 of port n; ignored for a root or absent port. -/
def HLT_PORT_CFG_EN (n : Nat) : Fld := ⟨(HLT_PORT_CFG n), 0, 1⟩

/-- HLT_PORT_CFG 11:1 VEC (RW): vector, ≤ MSIX_N. -/
def HLT_PORT_CFG_VEC (n : Nat) : Fld := ⟨(HLT_PORT_CFG n), 1, 11⟩

/-- Address of HLT_FAULT (Table 18.6). -/
def HLT_FAULT (r : Nat) : Nat := 0x10000400 + 0x10 * r

/-- HLT_FAULT 7:0 KIND (RO): Table 18.1; entry r is fault HLT_FAULT_CNT − 32 + k with k ≡ r mod 32. -/
def HLT_FAULT_KIND (r : Nat) : Fld := ⟨(HLT_FAULT r), 0, 8⟩

/-- HLT_FAULT 19:8 UNIT (RO): graticule node (Table 4.9), core, bank group, or HBM stack × 16 + channel. -/
def HLT_FAULT_UNIT (r : Nat) : Fld := ⟨(HLT_FAULT r), 8, 12⟩

/-- HLT_FAULT 20:20 SPARE (RO): a spare was consumed. -/
def HLT_FAULT_SPARE (r : Nat) : Fld := ⟨(HLT_FAULT r), 20, 1⟩

/-- HLT_FAULT 21:21 BEYOND (RO): beyond the model. -/
def HLT_FAULT_BEYOND (r : Nat) : Fld := ⟨(HLT_FAULT r), 21, 1⟩

/-- Address of HLT_FAULT_T (Table 18.6). -/
def HLT_FAULT_T (r : Nat) : Nat := 0x10000408 + 0x10 * r

/-- HLT_FAULT_T 63:0 TIME (RO): Datum short. -/
def HLT_FAULT_T_TIME (r : Nat) : Fld := ⟨(HLT_FAULT_T r), 0, 64⟩

/-- Address of MGT_CFG (Table 19.8). -/
def MGT_CFG : Nat := 0x11000000

/-- MGT_CFG 0:0 BMC_MEM (RW): R515. -/
def MGT_CFG_BMC_MEM : Fld := ⟨MGT_CFG, 0, 1⟩

/-- Address of MGT_STATUS (Table 19.8). -/
def MGT_STATUS : Nat := 0x11000004

/-- MGT_STATUS 0:0 READY (RO): responder running (R505). -/
def MGT_STATUS_READY : Fld := ⟨MGT_STATUS, 0, 1⟩

/-- MGT_STATUS 15:8 EID_I3C (RO): EID assigned on I3C. -/
def MGT_STATUS_EID_I3C : Fld := ⟨MGT_STATUS, 8, 8⟩

/-- MGT_STATUS 23:16 EID_SMB (RO): EID assigned on SMBus. -/
def MGT_STATUS_EID_SMB : Fld := ⟨MGT_STATUS, 16, 8⟩

/-- Address of MGT_HEALTH (Table 19.8). -/
def MGT_HEALTH : Nat := 0x11000008

/-- MGT_HEALTH 31:0 HEALTH (RO): mirror of HLT_STATUS. -/
def MGT_HEALTH_HEALTH : Fld := ⟨MGT_HEALTH, 0, 32⟩

/-- Address of MGT_DBG_NONCE (Table 19.8). -/
def MGT_DBG_NONCE (w : Nat) : Nat := 0x11000010 + 0x4 * w

/-- MGT_DBG_NONCE 31:0 NONCE (RO): R519. -/
def MGT_DBG_NONCE_NONCE (w : Nat) : Fld := ⟨(MGT_DBG_NONCE w), 0, 32⟩

/-- Address of MGT_DBG_CTRL (Table 19.8). -/
def MGT_DBG_CTRL : Nat := 0x11000030

/-- MGT_DBG_CTRL 0:0 NEW (WO): new nonce. -/
def MGT_DBG_CTRL_NEW : Fld := ⟨MGT_DBG_CTRL, 0, 1⟩

/-- MGT_DBG_CTRL 1:1 SUBMIT (WO): check the token; ignored while BUSY. -/
def MGT_DBG_CTRL_SUBMIT : Fld := ⟨MGT_DBG_CTRL, 1, 1⟩

/-- MGT_DBG_CTRL 2:2 LOCK (WO): LEVEL := 0. -/
def MGT_DBG_CTRL_LOCK : Fld := ⟨MGT_DBG_CTRL, 2, 1⟩

/-- Address of MGT_DBG_STATUS (Table 19.8). -/
def MGT_DBG_STATUS : Nat := 0x11000034

/-- MGT_DBG_STATUS 1:0 LEVEL (RO): 0–2. -/
def MGT_DBG_STATUS_LEVEL : Fld := ⟨MGT_DBG_STATUS, 0, 2⟩

/-- MGT_DBG_STATUS 2:2 BUSY (RO): check in progress. -/
def MGT_DBG_STATUS_BUSY : Fld := ⟨MGT_DBG_STATUS, 2, 1⟩

/-- MGT_DBG_STATUS 6:3 FAILS (RO): 0–8. -/
def MGT_DBG_STATUS_FAILS : Fld := ⟨MGT_DBG_STATUS, 3, 4⟩

/-- MGT_DBG_STATUS 15:8 RESULT (RO): Table 17.7 codes; 0x0C nonce wrong or unset; 0x0D failure limit. -/
def MGT_DBG_STATUS_RESULT : Fld := ⟨MGT_DBG_STATUS, 8, 8⟩

/-- Address of MGT_TEL (Table 19.8). -/
def MGT_TEL (w : Nat) : Nat := 0x11000100 + 0x8 * w

/-- MGT_TEL 63:0 COUNT (RO): in order: network bytes received, network bytes sent, packets spoiled, ADM_MISS_CNT, HLT_FAULT_CNT; sums over. -/
def MGT_TEL_COUNT (w : Nat) : Fld := ⟨(MGT_TEL w), 0, 64⟩

/-- Counter NET_RX_FRAMES: 64 bits, RO, saturating. -/
def NET_RX_FRAMES (p : Nat) : Fld := ⟨0x7000100 + 0x8000 * p, 0, 64⟩

/-- Counter NET_RX_BYTES: 64 bits, RO, saturating. -/
def NET_RX_BYTES (p : Nat) : Fld := ⟨0x7000108 + 0x8000 * p, 0, 64⟩

/-- Counter NET_RX_FCS_ERR: 64 bits, RO, saturating. -/
def NET_RX_FCS_ERR (p : Nat) : Fld := ⟨0x7000110 + 0x8000 * p, 0, 64⟩

/-- Counter NET_RX_RUNT: 64 bits, RO, saturating. -/
def NET_RX_RUNT (p : Nat) : Fld := ⟨0x7000118 + 0x8000 * p, 0, 64⟩

/-- Counter NET_RX_OVERSIZE: 64 bits, RO, saturating. -/
def NET_RX_OVERSIZE (p : Nat) : Fld := ⟨0x7000120 + 0x8000 * p, 0, 64⟩

/-- Counter NET_RX_NOT_UP: 64 bits, RO, saturating. -/
def NET_RX_NOT_UP (p : Nat) : Fld := ⟨0x7000128 + 0x8000 * p, 0, 64⟩

/-- Counter NET_RX_HEADROOM_DROP: 64 bits, RO, saturating. -/
def NET_RX_HEADROOM_DROP (p : Nat) : Fld := ⟨0x7000130 + 0x8000 * p, 0, 64⟩

/-- Counter NET_RX_PFC: 64 bits, RO, saturating. -/
def NET_RX_PFC (p : Nat) : Fld := ⟨0x7000138 + 0x8000 * p, 0, 64⟩

/-- Counter NET_TX_FRAMES: 64 bits, RO, saturating. -/
def NET_TX_FRAMES (p : Nat) : Fld := ⟨0x7000140 + 0x8000 * p, 0, 64⟩

/-- Counter NET_TX_BYTES: 64 bits, RO, saturating. -/
def NET_TX_BYTES (p : Nat) : Fld := ⟨0x7000148 + 0x8000 * p, 0, 64⟩

/-- Counter NET_TX_OVERSIZE: 64 bits, RO, saturating. -/
def NET_TX_OVERSIZE (p : Nat) : Fld := ⟨0x7000150 + 0x8000 * p, 0, 64⟩

/-- Counter NET_TX_PFC: 64 bits, RO, saturating. -/
def NET_TX_PFC (p : Nat) : Fld := ⟨0x7000158 + 0x8000 * p, 0, 64⟩

/-- Counter NET_FEC_CORR_CW: 64 bits, RO, saturating. -/
def NET_FEC_CORR_CW (p : Nat) : Fld := ⟨0x7000160 + 0x8000 * p, 0, 64⟩

/-- Counter NET_FEC_UNCORR_CW: 64 bits, RO, saturating. -/
def NET_FEC_UNCORR_CW (p : Nat) : Fld := ⟨0x7000168 + 0x8000 * p, 0, 64⟩

/-- Counter NET_RX_CTRL_OTHER: 64 bits, RO, saturating. -/
def NET_RX_CTRL_OTHER (p : Nat) : Fld := ⟨0x7000170 + 0x8000 * p, 0, 64⟩

/-- Counter BNC_PARSED: 64 bits, RO, saturating. -/
def BNC_PARSED (k : Nat) : Fld := ⟨0x8000800 + 0x100000 * k, 0, 64⟩

/-- Counter BNC_PARSE_FAIL: 64 bits, RO, saturating. -/
def BNC_PARSE_FAIL (k : Nat) : Fld := ⟨0x8000808 + 0x100000 * k, 0, 64⟩

/-- Counter BNC_DEFAULT_CNT: 64 bits, RO, saturating. -/
def BNC_DEFAULT_CNT (k : Nat) : Fld := ⟨0x8000810 + 0x100000 * k, 0, 64⟩

/-- Counter BNC_CONTOUR_SPOIL: 64 bits, RO, saturating. -/
def BNC_CONTOUR_SPOIL (k : Nat) : Fld := ⟨0x8000818 + 0x100000 * k, 0, 64⟩

/-- Counter BNC_REPLAYED: 64 bits, RO, saturating. -/
def BNC_REPLAYED (k : Nat) : Fld := ⟨0x8000820 + 0x100000 * k, 0, 64⟩

/-- Counter BNC_MARKERS: 64 bits, RO, saturating. -/
def BNC_MARKERS (k : Nat) : Fld := ⟨0x8000828 + 0x100000 * k, 0, 64⟩

/-- Counter TBL_HBM_READS: 64 bits, RO, saturating. -/
def TBL_HBM_READS (k : Nat) : Fld := ⟨0xa004000 + 0x40 * k, 0, 64⟩

/-- Counter TBL_BUDGET_WAIT: 64 bits, RO, saturating. -/
def TBL_BUDGET_WAIT (k : Nat) : Fld := ⟨0xa004008 + 0x40 * k, 0, 64⟩

/-- Counter TBL_LEARNED: 64 bits, RO, saturating. -/
def TBL_LEARNED (k : Nat) : Fld := ⟨0xa004010 + 0x40 * k, 0, 64⟩

/-- Counter TBL_LEARN_SKIP: 64 bits, RO, saturating. -/
def TBL_LEARN_SKIP (k : Nat) : Fld := ⟨0xa004018 + 0x40 * k, 0, 64⟩

/-- Counter TBL_LEARN_FULL_CNT: 64 bits, RO, saturating. -/
def TBL_LEARN_FULL_CNT (k : Nat) : Fld := ⟨0xa004020 + 0x40 * k, 0, 64⟩

/-- Counter TBL_LEARN_MOVE: 64 bits, RO, saturating. -/
def TBL_LEARN_MOVE (k : Nat) : Fld := ⟨0xa004028 + 0x40 * k, 0, 64⟩

/-- Counter TBL_AGED: 64 bits, RO, saturating. -/
def TBL_AGED (k : Nat) : Fld := ⟨0xa004030 + 0x40 * k, 0, 64⟩

/-- Counter TBL_LEARN_USED: 64 bits, RO, saturating. -/
def TBL_LEARN_USED (k : Nat) : Fld := ⟨0xa004038 + 0x40 * k, 0, 64⟩

/-- Counter SWC_SPOIL_CNT: 64 bits, RO, saturating. -/
def SWC_SPOIL_CNT (r : Nat) : Fld := ⟨0xb003000 + 0x8 * r, 0, 64⟩

/-- Counter SWC_COPIES: 64 bits, RO, saturating. -/
def SWC_COPIES : Fld := ⟨0xb003080, 0, 64⟩

/-- Counter SWC_MIR_TIMED: 64 bits, RO, saturating. -/
def SWC_MIR_TIMED : Fld := ⟨0xb003088, 0, 64⟩

/-- Counter SWC_CAP_SKIP: 64 bits, RO, saturating. -/
def SWC_CAP_SKIP : Fld := ⟨0xb003090, 0, 64⟩

/-- Counter SWC_REPINNED: 64 bits, RO, saturating. -/
def SWC_REPINNED : Fld := ⟨0xb003098, 0, 64⟩

/-- Counter CPH_BLANKED: 64 bits, RO, saturating. -/
def CPH_BLANKED : Fld := ⟨0xc000100, 0, 64⟩

/-- Counter CPH_AUTH_FAIL: 64 bits, RO, saturating. -/
def CPH_AUTH_FAIL : Fld := ⟨0xc000108, 0, 64⟩

/-- Counter CPH_KEY_MISS: 64 bits, RO, saturating. -/
def CPH_KEY_MISS : Fld := ⟨0xc000110, 0, 64⟩

/-- Counter CPH_BLOCKS: 64 bits, RO, saturating. -/
def CPH_BLOCKS : Fld := ⟨0xc000118, 0, 64⟩

/-- Counter CPH_LEN_ERR: 64 bits, RO, saturating. -/
def CPH_LEN_ERR : Fld := ⟨0xc000120, 0, 64⟩

/-- Counter RLT_DATA_TX: 64 bits, RO, saturating. -/
def RLT_DATA_TX : Fld := ⟨0xd000100, 0, 64⟩

/-- Counter RLT_DATA_RX: 64 bits, RO, saturating. -/
def RLT_DATA_RX : Fld := ⟨0xd000108, 0, 64⟩

/-- Counter RLT_RETX: 64 bits, RO, saturating. -/
def RLT_RETX : Fld := ⟨0xd000110, 0, 64⟩

/-- Counter RLT_REREQ: 64 bits, RO, saturating. -/
def RLT_REREQ : Fld := ⟨0xd000118, 0, 64⟩

/-- Counter RLT_DUP: 64 bits, RO, saturating. -/
def RLT_DUP : Fld := ⟨0xd000120, 0, 64⟩

/-- Counter RLT_WINDOW: 64 bits, RO, saturating. -/
def RLT_WINDOW : Fld := ⟨0xd000128, 0, 64⟩

/-- Counter RLT_NO_BUF: 64 bits, RO, saturating. -/
def RLT_NO_BUF : Fld := ⟨0xd000130, 0, 64⟩

/-- Counter RLT_BAD_HDR: 64 bits, RO, saturating. -/
def RLT_BAD_HDR : Fld := ⟨0xd000138, 0, 64⟩

/-- Counter RLT_CIPHER_DROP: 64 bits, RO, saturating. -/
def RLT_CIPHER_DROP : Fld := ⟨0xd000140, 0, 64⟩

/-- Counter RLT_POLL: 64 bits, RO, saturating. -/
def RLT_POLL : Fld := ⟨0xd000148, 0, 64⟩

/-- Counter RLT_ODP_FAULT: 64 bits, RO, saturating. -/
def RLT_ODP_FAULT : Fld := ⟨0xd000900, 0, 64⟩

/-- Counter RLT_ODP_STALL: 64 bits, RO, saturating. -/
def RLT_ODP_STALL : Fld := ⟨0xd000908, 0, 64⟩

/-- Counter RLT_ODP_DROP: 64 bits, RO, saturating. -/
def RLT_ODP_DROP : Fld := ⟨0xd000910, 0, 64⟩

/-- Counter RLT_NAK_WITHDRAWN: 64 bits, RO, saturating. -/
def RLT_NAK_WITHDRAWN : Fld := ⟨0xd000918, 0, 64⟩

/-- Counter RLT_CE_RX: 64 bits, RO, saturating. -/
def RLT_CE_RX : Fld := ⟨0xd000920, 0, 64⟩

/-- Counter RLT_RATE_CUT: 64 bits, RO, saturating. -/
def RLT_RATE_CUT : Fld := ⟨0xd000928, 0, 64⟩

/-- Counter STO_CMDS: 64 bits, RO, saturating. -/
def STO_CMDS : Fld := ⟨0xe000100, 0, 64⟩

/-- Counter STO_STALLS: 64 bits, RO, saturating. -/
def STO_STALLS : Fld := ⟨0xe000108, 0, 64⟩

/-- Counter STO_CACHE_HIT: 64 bits, RO, saturating. -/
def STO_CACHE_HIT : Fld := ⟨0xe000110, 0, 64⟩

/-- Counter STO_WRITEBACK: 64 bits, RO, saturating. -/
def STO_WRITEBACK : Fld := ⟨0xe000118, 0, 64⟩

/-- Counter STO_DEFERRED_CNT: 64 bits, RO, saturating. -/
def STO_DEFERRED_CNT : Fld := ⟨0xe000120, 0, 64⟩

/-- Counter STO_ABORT_CAUGHT: 64 bits, RO, saturating. -/
def STO_ABORT_CAUGHT : Fld := ⟨0xe000128, 0, 64⟩

/-- Counter STO_BACKEND_TO: 64 bits, RO, saturating. -/
def STO_BACKEND_TO : Fld := ⟨0xe000130, 0, 64⟩

end Sys2Proof.Machine
end

