-- ==== Sys2Proof/Machine/Table.lean ====
section
/-! DEFINITION. Finite tables: lists of (number, value) pairs with strictly rising numbers. The device's sparse
structures (rings, contracts, registers away from reset, memory bytes) are kept in this one canonical form. -/

namespace Sys2Proof.Machine

/-- A table of values by number. -/
abbrev Tbl (α : Type) := List (Nat × α)

/-- The value at a number. -/
def tblGet {α : Type} : Tbl α → Nat → Option α
  | [], _ => none
  | (k, v) :: rest, n => if n = k then some v else tblGet rest n

/-- Set the value at a number, keeping the numbers rising. -/
def tblPut {α : Type} : Tbl α → Nat → α → Tbl α
  | [], n, x => [(n, x)]
  | (k, v) :: rest, n, x =>
      if n < k then (n, x) :: (k, v) :: rest
      else if n = k then (n, x) :: rest
      else (k, v) :: tblPut rest n x

/-- Remove a number. -/
def tblDel {α : Type} : Tbl α → Nat → Tbl α
  | [], _ => []
  | (k, v) :: rest, n => if n = k then rest else (k, v) :: tblDel rest n

/-- Every number of the table is above a given one, and the numbers rise. -/
def tblAbove {α : Type} : Nat → Tbl α → Bool
  | _, [] => true
  | lo, (k, _) :: rest => decide (lo < k) && tblAbove k rest

/-- The canonical form: numbers strictly rising. -/
def tblWf {α : Type} : Tbl α → Bool
  | [] => true
  | (k, _) :: rest => tblAbove k rest

/-- Set with a default: the default value is not listed. -/
def tblSet {α : Type} [DecidableEq α] (d : α) (t : Tbl α) (n : Nat) (x : α) : Tbl α :=
  if x = d then tblDel t n else tblPut t n x

/-- Read with a default. -/
def tblGetD {α : Type} (d : α) (t : Tbl α) (n : Nat) : α :=
  match tblGet t n with
  | some v => v
  | none => d

/-- Apply a function to every value. -/
def tblMap {α : Type} (f : Nat → α → α) : Tbl α → Tbl α
  | [] => []
  | (k, v) :: rest => (k, f k v) :: tblMap f rest

/-- The lowest number not below lo that a table does not hold. -/
def tblFree {α : Type} : Tbl α → Nat → Nat
  | [], lo => lo
  | (k, _) :: rest, lo =>
      if k < lo then tblFree rest lo else if k = lo then tblFree rest (lo + 1) else lo

/-- How many entries of a table satisfy a test. -/
def tblCount {α : Type} (p : Nat → α → Bool) : Tbl α → Nat
  | [] => 0
  | (k, v) :: rest => (if p k v then 1 else 0) + tblCount p rest

/-- Sum of a measure over a table. -/
def tblSum {α : Type} (f : Nat → α → Nat) : Tbl α → Nat
  | [] => 0
  | (k, v) :: rest => f k v + tblSum f rest

/-- The numbers a table holds whose value satisfies a test, rising. -/
def tblKeys {α : Type} (p : Nat → α → Bool) : Tbl α → List Nat
  | [] => []
  | (k, v) :: rest => if p k v then k :: tblKeys p rest else tblKeys p rest

/-- Insert by rank, behind equal ranks. -/
def insertBy {α : Type} (rank : α → Nat) (x : α) : List α → List α
  | [] => [x]
  | y :: rest => if rank x < rank y then x :: y :: rest else y :: insertBy rank x rest

/-- A list in order of rank, equal ranks in their order. -/
def sortBy {α : Type} (rank : α → Nat) (l : List α) : List α := l.foldl (fun acc x => insertBy rank x acc) []

end Sys2Proof.Machine
end

