-- ==== Sys2Proof/Machine/State.lean ====
section
/-! DEFINITION. State: every register, table, queue, counter and pin the spec gives the device, as plain data, and the
queue of commands that wait. Register fields have one home, the sparse register file regs (unlisted = reset value,
RegMap.regReset); what no register holds stands in the structures below. State.reset is the device held in reset. -/

namespace Sys2Proof.Machine

/-- Reasons a step stops with a fault. The spec makes every fault of the device an effect on its state,
so the model raises none. -/
inductive Fault where
  /-- Raised by nothing: kept so that the outcome type has a fault branch. Safe. -/
  | none
  deriving DecidableEq, Repr

/-- Reasons a command is refused. -/
inductive Refusal where
  /-- Raised by an arm of exec that has no meaning yet. Safe: no statement about such a command is proved. -/
  | notModelled (mnemonic : String)
  deriving DecidableEq, Repr

/-! ## What the outside sees -/

/-- A memory request to a host (R117, R129-R131): port and function, the PASID it carries, Relaxed Ordering, whether it is a
Translated request, and the address before translation. -/
structure HostReq where
  port : Nat
  pf : Nat
  pasid : Option Nat
  relaxed : Bool
  translated : Bool
  addr : Nat
  deriving DecidableEq, Repr

/-- What the device writes in the configuration space of a component below a root port (R77, R112, R140, R143). -/
inductive CfgItem where
  | aspm | maxPayload | tagBits | bar | memoryDecode | busMaster | msix | aer | cxlProtocols | hdmBase | hdmSize | hdmCommit
  deriving DecidableEq, Repr

/-- An externally visible action (chapter 00, "externally visible"): what leaves the block. -/
inductive Out where
  /-- MSI-X message of a vector of a function (R119). -/
  | msix (port pf vec : Nat)
  /-- Posted write into host memory, at most 512 bytes (R117), or of a host through a peer window (R124). -/
  | hostWrite (req : HostReq) (bytes : Bytes)
  /-- Non-posted read of host memory issued with a tag, at most 512 bytes (R117), or of a host through a peer window (R124). -/
  | hostRead (req : HostReq) (tag len : Nat)
  /-- Value returned to a party for a read of control space or memory. -/
  | reply (who : Party) (bytes : Bytes)
  /-- A message TLP or link action of a host port: invalidation completion, page request, L1 request, training. -/
  | portMessage (port code value : Nat)
  /-- Configuration write to a function of the component below a root port (R77, R112, R140, R143). -/
  | config (port fn : Nat) (item : CfgItem) (value : Nat)
  /-- Frame leaving a network port, its FCS included (R214). -/
  | frame (port : Nat) (bytes : Bytes)
  /-- PRBS pattern that the lanes of an OFF port transmit from now on, and its signalling rate code; pattern 0 none (R213). -/
  | prbs (port test rate : Nat)
  /-- A packet's data leaving a root port as posted writes (path kind 6). -/
  | rootWrite (port : Nat) (bytes : Bytes)
  /-- PFC frame sent by a network port: source address, priorities with quanta 0xFFFF, and its enable vector (R217). -/
  | pfc (port source pauseMask enables : Nat)
  /-- Level that a PPS output drives from now on (R57). -/
  | pps (n level : Nat)
  /-- What a SyncE output carries from now on: the clock recovered from a lane, divided to a frequency in kHz, or low (R58). -/
  | synce (n : Nat) (clock : Option (Nat × Nat))
  /-- A transfer applied whole at its graticule target (R94). -/
  | grtApplied (src dst : Nat) (beats : List (BitVec 512))
  /-- A beat of a grant at a shared target (R98). -/
  | granted (kind inst index : Nat)
  /-- Module management: cage, code, value. -/
  | cage (cage code value : Nat)
  /-- A backend request to a storage device or remote target: volume, request number, code. -/
  | backend (vol req code : Nat)
  /-- In-band interrupt on the I3C bus: an MCTP packet is pending (R501). -/
  | inBand
  /-- A management message sent: binding, type, code, bytes; of a Theivo message, what follows the vendor ID and the command (R506). -/
  | mctp (binding kind code : Nat) (bytes : Bytes)
  /-- An AVSBus request: rail, millivolts. -/
  | avs (rail mv : Nat)
  /-- Level of a named ball: 0 HEALTH_REQ_N, 1 FAULT_LED, 2 THERMTRIP_N, 3 PCIE_PERST_N of a port, 4 CAGE_LPMODE, 5 CAGE_RST_N. -/
  | ball (name index level : Nat)
  /-- Bytes written to flash: device, code. -/
  | flash (dev code : Nat)
  /-- A thread's result register after a Penlith instruction. -/
  | threadResult (thread : Nat) (value : BitVec 64)
  /-- What the TAP shifts out, and the instruction it ran (R518). -/
  | tap (instr : Nat) (value : BitVec 32)
  deriving DecidableEq, Repr

/-! ## Datum (spec 02) -/

/-- What Datum keeps of one discipline source of Table 2.1. -/
structure DatumSource where
  /-- consecutive good edges (source 0) -/
  good : Nat
  /-- Datum time of the last edge -/
  lastEdge : Option (BitVec 80)
  /-- sequence number of the last servo sample (R43) -/
  lastSeq : Option (BitVec 8)
  /-- last offset, source minus Datum, in units of 2^-16 ns -/
  offset : Int
  /-- offsets of the last samples, newest first, at most 16 (Table 2.1) -/
  window : List Int
  deriving DecidableEq, Repr

/-- A source that has carried nothing yet. -/
def DatumSource.fresh : DatumSource := ⟨0, none, none, 0, []⟩

/-- What Datum keeps of a holdover oscillator (R43): its frequency error against Datum, in 10^-12, measured once a second while
LOCKED, newest first, and the average over 1,000 s last learned. -/
structure Oscillator where
  measured : List Int
  learned : Option Int
  deriving DecidableEq, Repr

/-- An oscillator never measured. -/
def Oscillator.fresh : Oscillator := ⟨[], none⟩

/-- Datum's own state beside its registers and its counter. -/
structure DatumState where
  sources : Tbl DatumSource
  /-- consecutive samples of the selected source with |offset| at most 10 ns -/
  inRange : Nat
  /-- consecutive samples of the selected source with |offset| above 50 ns -/
  outRange : Nat
  /-- offset still to be removed by slewing, in units of 2^-16 ns (R36, R37) -/
  slew : Int
  /-- sources whose wait to restore runs (R42) -/
  wtr : List Nat
  /-- holdover oscillators 0 and 1 (R43, R44) -/
  osc : Tbl Oscillator
  /-- the Datum island restarts and the replicas flywheel (R50) -/
  restarting : Bool
  /-- SyncE outputs held low by a squelch (R58) -/
  squelched : List Nat
  /-- source that qualified with its latest edge or sample (R37) -/
  justQualified : Option Nat
  /-- slewing carried forward, in units of 2^-16 ns / 10^6 -/
  slewAcc : Nat
  /-- correction of the oscillator in holdover carried forward, in units of 2^-16 ns / 10^12 -/
  holdAcc : Nat
  /-- PPS outputs inside their pulse (R57) -/
  pulsing : List Nat
  deriving DecidableEq, Repr

/-! ## Delivery promise (spec 03) -/

/-- Contract states, Table 3.8. -/
inductive ContractState where
  | free | checking | admitted | suspended | broken | withdrawing
  deriving DecidableEq, Repr

/-- Codes of Table 3.8. -/
def ContractState.code : ContractState → Nat
  | .free => 0 | .checking => 1 | .admitted => 2 | .suspended => 3 | .broken => 4 | .withdrawing => 5

/-- Contract parameters, Table 3.1. -/
structure ContractParams where
  cls : Nat
  kind : Nat
  src : Nat
  dst : Nat
  bucket : Nat
  rate : Nat
  burst : Nat
  lmax : Nat
  lmin : Nat
  deadline : Nat
  fabric : Nat
  dress : Nat
  deriving DecidableEq, Repr

/-- Parameters that a MODIFY replaced, with their token bucket: they still apply to packets stamped up to an instant, in 2^-16
ns of Datum (R86). -/
structure PastTerms where
  upTo : Nat
  par : ContractParams
  tokens : Nat
  refilled : Nat
  deriving DecidableEq, Repr

/-- A contract (R61, R64, R80). -/
structure Contract where
  state : ContractState
  sheet : Nat
  par : ContractParams
  /-- tokens held, in units of 1 bit x 10^9 x 2^16 so that refill by r per fraction of a nanosecond is exact (R64) -/
  tokens : Nat
  /-- Datum, in 2^-16 ns, of the last refill -/
  refilled : Nat
  nonconf : Nat
  /-- the WITHDRAW entry to complete: ring and entry index (R87) -/
  waiter : Option (Nat × Nat)
  /-- cause that CONTRACT_STATE carries for WITHDRAWING and FREE (R80) -/
  cause : Nat
  /-- Datum, in 2^-16 ns, at which the withdrawal was accepted (R87) -/
  withdrawnAt : Nat
  /-- parameters replaced by a MODIFY, newest first (R86) -/
  past : List PastTerms
  /-- Datum, in 2^-16 ns, of the last return from SUSPENDED (R79) -/
  back : Option Nat
  deriving DecidableEq, Repr

/-! ## Graticule (spec 04) -/

/-- A round-robin arbiter at a shared target of Table 4.3. -/
structure Arbiter where
  /-- index just served -/
  last : Nat
  /-- index that holds the grant, with the Datum short of the grant -/
  granted : Option (Nat × BitVec 64)
  deriving DecidableEq, Repr

/-- A bite kept for the count of R104: node, core (0 when not a cluster), Datum nanosecond. -/
structure Bite where
  node : Nat
  core : Nat
  time : Nat
  deriving DecidableEq, Repr

/-- A transfer that its sender holds until it is acknowledged (R95): link, sender and receiver, sequence number, beats. -/
structure Transfer where
  link : Nat
  src : Nat
  dst : Nat
  seq : BitVec 8
  beats : List (BitVec 512)
  deriving DecidableEq, Repr

/-- State of the graticule. -/
structure Graticule where
  /-- links by number: 1 on its reserve path, 2 lost; unlisted 0 normal (R96, R97) -/
  links : Tbl Nat
  /-- last sequence number applied, by sender x 4096 + receiver (R95) -/
  applied : Tbl (BitVec 8)
  /-- arbiters by kind x 4096 + instance -/
  arbiters : Tbl Arbiter
  bites : List Bite
  /-- transfers not acknowledged, in the order sent (R95) -/
  sent : List Transfer
  deriving DecidableEq, Repr

/-- A control-space access held for an island in reset (R16), or an output of a unit under output hold (R454). -/
structure HeldAccess where
  who : Party
  isWrite : Bool
  addr : Nat
  size : Nat
  value : Nat
  /-- window generation of a host's request (R127) -/
  gen : Nat
  deriving DecidableEq, Repr

/-- An island, by graticule node number (Table 4.9). -/
structure Island where
  /-- released since device reset (R22, R459) -/
  released : Bool
  inReset : Bool
  /-- spine path in use, 1 or 2 (R51) -/
  path : Nat
  /-- measured one-way spine delay in ps, and the change of it that the replica has still to slew, in fs (R47) -/
  delayPs : Nat
  slewFs : Int
  held : List HeldAccess
  deriving DecidableEq, Repr

/-- An island not released since reset. -/
def Island.fresh : Island := ⟨false, false, 1, 0, 0, []⟩

/-! ## Host ports (spec 05) -/

/-- What an outstanding non-posted read is for. -/
inductive ReadUse where
  /-- ring entries of a ring -/
  | fetch (ring : Nat)
  /-- a host read of len bytes forwarded through a peer window under a generation; the reply goes to the port and function it
  came from -/
  | peer (fromPort pf gen len : Nat)
  /-- anything else an engine reads -/
  | data
  deriving DecidableEq, Repr

/-- An outstanding non-posted read (R23, R135). -/
structure ReadTag where
  req : HostReq
  tag : Nat
  use : ReadUse
  quarantined : Bool
  deriving DecidableEq, Repr

/-- A host port beside its registers. -/
structure HostPort where
  /-- component below a root port -/
  comp : Component
  /-- link-up seen and enumeration not yet done (R140) -/
  enumerating : Bool
  /-- address of the attached expander's range in the CXL aperture, and its size (R28) -/
  cxlBase : Nat
  cxlSize : Nat
  /-- serial, class code, and Vendor ID and Device ID of the component below, for survey -/
  serial : List Byte
  classCode : Nat
  vendor : Nat
  /-- the link partner advertises infinite posted credits (Table 3.3) -/
  infCredit : Bool
  /-- ASPM states the device has enabled in the component below a root port: bit 0 L1, 1 L1.1, 2 L1.2 (R77, R112) -/
  aspm : Nat
  /-- level of L1 the link is in: 1 L1, 2 L1.1, 3 L1.2 (R112) -/
  l1 : Nat
  /-- correctable errors counted (R140) -/
  aerCorr : Nat
  /-- PCIE_PERST_N of an endpoint port is low (R531) -/
  perst : Bool
  /-- reference clock of the station lost (R532) -/
  clkLost : Bool
  deriving DecidableEq, Repr

/-- A host port that has seen nothing. -/
def HostPort.fresh : HostPort := ⟨.none, false, 0, 0, [], 0, 0, false, 0, 0, 0, false, false⟩

/-- A translation held in the ATS cache (R131). -/
structure AtsEntry where
  pasid : Nat
  page : Nat
  sizeLog2 : Nat
  deriving DecidableEq, Repr

/-- A physical function of an endpoint port: sampled set-up and configuration bits. -/
structure Func where
  present : Bool
  bar0Log2 : Nat
  bar2Log2 : Nat
  msixN : Nat
  bme : Bool
  pasidEn : Bool
  roEn : Bool
  /-- Function Mask of MSI-X -/
  fmask : Bool
  atsEn : Bool
  priEn : Bool
  /-- no page requests until PRI is disabled and re-enabled (R133) -/
  priStopped : Bool
  /-- completion timeout value of Device Control 2 (R134) -/
  cplTo : Nat
  /-- FLR in progress (R136) -/
  flr : Bool
  ats : List AtsEntry
  /-- invalidation in progress: pasid, page, sizeLog2 of the request (R132) -/
  invalidating : List (Nat × Nat × Nat)
  deriving DecidableEq, Repr

/-- An absent function. -/
def Func.absent : Func :=
  ⟨false, 0, 0, 0, false, false, false, false, false, false, false, 0, false, [], []⟩

/-- One MSI-X vector: message address and data, Mask bit (1 after reset), pending bit. -/
structure MsixVec where
  addr : BitVec 64
  data : BitVec 32
  mask : Bool
  pend : Bool
  deriving DecidableEq, Repr

/-- A vector after function reset. -/
def MsixVec.fresh : MsixVec := ⟨0, 0, true, false⟩

/-! ## Sheets and mailboxes (spec 06) -/

/-- Sheet states, Table 6.7. -/
inductive SheetState where
  | free | disabled | active | debug | disabling
  deriving DecidableEq, Repr

/-- Codes of Table 6.7. -/
def SheetState.code : SheetState → Nat
  | .free => 0 | .disabled => 1 | .active => 2 | .debug => 3 | .disabling => 4

/-- Slot states, R153. -/
inductive SlotState where
  | empty | claimed | full
  deriving DecidableEq, Repr

/-- Codes of Table 6.12. -/
def SlotState.code : SlotState → Nat
  | .empty => 0 | .claimed => 1 | .full => 2

/-- A mailbox slot with its queue of device messages (R153-R155). -/
structure MailSlot where
  state : SlotState
  bytes : Entry
  /-- fills since CREATE, modulo 2^16 (R154) -/
  fills : BitVec 16
  /-- device messages queued, oldest first, at most 8 -/
  queue : List Entry
  /-- messages were dropped since the last one delivered -/
  lost : Bool
  deriving DecidableEq, Repr

/-- An EMPTY slot with SEQ 0. -/
def MailSlot.fresh : MailSlot := ⟨.empty, 0, 0, [], false⟩

/-- A sheet beside its CAD_ registers. -/
structure Sheet where
  state : SheetState
  up : MailSlot
  down : MailSlot
  /-- pending shrinks, mask bits of Table 6.1 -/
  pendingMask : BitVec 8
  /-- a DESTROY is in progress (R163) -/
  destroying : Bool
  /-- SHEET_DISABLE entries waiting for DISABLED: ring, entry index -/
  waiters : List (Nat × Nat)
  /-- cause of the disable in progress (Table 6.5) -/
  cause : Nat
  /-- tokens of the BENCH_MBPS bucket, in units of 1 bit x 10^9 x 2^16 (R197) -/
  tokens : Nat
  refilled : Nat
  /-- the share record as written before CREATE: CAD_SHARE0-4 show it again when the sheet is FREE (Table 6.6) -/
  record : List Word
  deriving DecidableEq, Repr

/-- A FREE sheet. -/
def Sheet.free : Sheet := ⟨.free, .fresh, .fresh, 0, false, [], 0, 0, 0, []⟩

/-! ## Rings (spec 07) -/

/-- Ring states, Table 7.6. -/
inductive RingState where
  | closed | running | disabling | disabled
  deriving DecidableEq, Repr

/-- Codes of Table 7.6. -/
def RingState.code : RingState → Nat
  | .closed => 0 | .running => 1 | .disabling => 2 | .disabled => 3

/-- Flight-table operation kinds, Table 1.5. -/
inductive SlotKind where
  | dma | sto | msg | rd
  deriving DecidableEq, Repr

/-- Where a fetched entry or chain stands. -/
inductive JobPhase where
  /-- fetched and not started -/
  | fetched
  /-- fetched, and malformed: completed with a status when its turn to start comes (R175, R184, R186) -/
  | bad (status : Nat)
  /-- a receive entry posted as a free buffer, not started (R205) -/
  | posted
  /-- started; what ends it is recorded by the unit that runs it -/
  | running
  /-- its completion is ready and held for order (R179); more: the completions of the later entries of a received packet (R205) -/
  | ready (done : Entry) (more : List Entry)
  /-- completion written -/
  | written
  deriving DecidableEq, Repr

/-- A fetched entry, or a chain as a whole (R182). -/
structure Job where
  /-- index of its first entry -/
  idx : Nat
  /-- its entries, first to last -/
  entries : List Entry
  phase : JobPhase
  /-- flight-table slot it holds until its completion is written (Table 1.5) -/
  slot : Option SlotKind
  deriving DecidableEq, Repr

/-- A job as it is fetched. -/
def Job.fetched (idx : Nat) (entries : List Entry) : Job := ⟨idx, entries, .fetched, none⟩

/-- An open ring (R168-R193). -/
structure Ring where
  sheet : Nat
  localNo : Nat
  kind : Nat
  sizeLog2 : Nat
  oneWrite : Bool
  vec : Nat
  coalN : Nat
  coalUs : Nat
  /-- contract carried by a transmit ring (R201) -/
  contract : Option Nat
  base : Nat
  headAddr : Nat
  state : RingState
  idle : Bool
  cause : Nat
  head : BitVec 32
  fetch : BitVec 32
  pi : BitVec 32
  /-- entries and chains from HEAD on, in index order -/
  jobs : List Job
  /-- entries of a chain whose LAST has not been fetched (R185): index of the first, entries -/
  chain : Option (Nat × List Entry)
  /-- completions written since the last message, and whether the COAL_US timer runs (R187) -/
  unannounced : Nat
  timer : Bool
  /-- entries that the read in progress covers; 0 none -/
  reading : Nat
  /-- a start waits for a flight-table slot (R25), and a slot freed for it is held -/
  slotWait : Bool
  slotHeld : Bool
  /-- RING_DISABLE entries waiting for IDLE: ring, entry index -/
  waiters : List (Nat × Nat)
  deriving DecidableEq, Repr

/-- Slots held in the flight table, by kind (Table 1.5). -/
structure Flight where
  dma : Nat
  sto : Nat
  msg : Nat
  rd : Nat
  deriving DecidableEq, Repr

/-! ## Network ports (spec 08) -/

/-- A class stopped by received pause (R219): Datum, in 2^-16 ns, at which it ends, and since when without a break. -/
structure RxPause where
  ends : Nat
  since : Nat
  deriving DecidableEq, Repr

/-- A cage page access in progress (R231). -/
structure CageAccess where
  offset : Nat
  page : Nat
  bank : Nat
  len : Nat
  isWrite : Bool
  deriving DecidableEq, Repr

/-- Network ports and cages beside their registers. -/
structure NetState where
  /-- received pauses, by port x 8 + class -/
  pause : Tbl RxPause
  /-- page accesses in progress, by cage -/
  access : Tbl CageAccess
  /-- consecutive failed accesses of the module manager, by cage (R228) -/
  busFails : Tbl Nat
  /-- ports whose module reached ModuleReady (R228), by port -/
  ready : List Nat
  /-- module held in low power (CAGEk_LPMODE asserted), by cage; every present cage after reset -/
  powered : List Nat
  deriving DecidableEq, Repr

/-! ## Packets, benches and the sett store (spec 09-12) -/

/-- Part of the sett store that holds a packet's setts (Table 11.5). -/
inductive Part where
  | timed (contract : Nat)
  | headroom (port prio : Nat)
  | hostReserve (inlet : Nat)
  | credit (inlet : Nat)
  | shared
  deriving DecidableEq, Repr

/-- Setts of a stored packet, shared by its copies (R301). -/
structure Resident where
  setts : Nat
  part : Part
  inlet : Nat
  cls : Nat
  /-- sheet whose SETTS usage they count against (R295) -/
  sheet : Option Nat
  /-- queued packets and copies that still use them -/
  refs : Nat
  /-- bank group of each sett (R287) -/
  place : List Nat
  deriving DecidableEq, Repr

/-- What dressing reports of a packet (Table 12.6): CIPHER_STATUS, byte MODE, SA and the IV field. -/
structure CipherInfo where
  status : Nat
  mode : Nat
  sa : Nat
  iv : Nat
  deriving DecidableEq, Repr

/-- Not dressed. -/
def CipherInfo.none : CipherInfo := ⟨0, 0, 0xFFFFF, 0⟩

/-- One-step timestamping of a transmit entry (R55): ORIGIN_OFF, CORR_OFF, UDP_FIX. -/
structure OneStep where
  origin : Nat
  corr : Nat
  udpFix : Bool
  deriving DecidableEq, Repr

/-- A packet, or a copy of one, that has crossed its bench: an entry of a VOQ. -/
structure Packet where
  /-- number of its setts in Switch.residents -/
  id : Nat
  inlet : Nat
  outlet : Nat
  cls : Nat
  bytes : Bytes
  /-- the packet's stamp (Table 2.4) -/
  stamp : BitVec 64
  contract : Option Nat
  /-- sheet that sent it -/
  sheet : Option Nat
  /-- sheet into whose memory it is bound -/
  toSheet : Option Nat
  /-- receive ring it resolves to -/
  ring : Option Nat
  hash : Nat
  /-- classification result and action record applied, and DEFAULT (Table 11.3) -/
  result : Nat
  action : Nat
  isDefault : Bool
  /-- spoil reason of a capture copy, else 0; reason 0x10 or 0x11 of a default delivery to a cluster (R245) -/
  spoil : Nat
  /-- original length -/
  total : Nat
  fallback : Bool
  repinned : Bool
  cipher : CipherInfo
  /-- PTP_TC: byte offset of the PTP header (R283) -/
  ptp : Option Nat
  oneStep : Option OneStep
  /-- TX_PKT entry that waits for its egress: ring, entry index (R204) -/
  tx : Option (Nat × Nat)
  /-- a copy: it holds a descriptor beside the resident packet's (R301) -/
  copy : Bool
  /-- D in ns under which it conformed to its contract (R65, R86) -/
  due : Nat
  /-- D_v in ns it keeps from before a MODIFY (R86) -/
  edf : Option Nat
  /-- bytes already handed to the outlet in units (R297) -/
  sent : Nat
  /-- ns a bucket move held it, added to its deadline (R251) -/
  hold : Nat
  /-- a cause outside the device held it while it waited (R76) -/
  ext : Bool
  /-- block of a local device's reply: request, block (R417) -/
  staging : Option (Nat × Nat)
  /-- an unpin marker of this outlet, and no packet (R308) -/
  marker : Option Nat
  deriving DecidableEq, Repr

/-- The key of a packet in dress (R326): it waits for its key or for a key register, its key register is loaded, or its key is
unavailable because of a fault. -/
inductive KeyStep where
  | waiting | loaded | lost
  deriving DecidableEq, Repr

/-- What the act stage decided for a packet that waits in dress (R326): everything the enqueue needs. -/
structure Acted where
  bytes : Bytes
  /-- outlets of the packet and its copies -/
  outlets : List Nat
  multicast : Bool
  cls : Nat
  contract : Option Nat
  /-- D in ns under which it conformed (R86) -/
  due : Nat
  fallback : Bool
  ring : Nat
  result : Nat
  action : Nat
  isDefault : Bool
  spoil : Nat
  ptp : Option Nat
  mirror : Nat
  /-- SA to apply, and the version prepared (R327) -/
  sa : Option (Nat × Nat)
  /-- SA field reported: the connection SA keeps its name -/
  saName : Nat
  key : KeyStep
  deriving DecidableEq, Repr

/-- A packet an inlet has sent to a bench, or holds for one, and that the store has not acknowledged (R247). -/
structure Flying where
  inlet : Nat
  seq : BitVec 16
  bucket : Nat
  bench : Nat
  /-- profile generation and bucket epoch it was selected under -/
  gen : Nat
  epoch : Nat
  bytes : Bytes
  stamp : BitVec 64
  hash : Nat
  /-- profile, field vector, classification program and default class; none when parsing failed -/
  profile : Option Nat
  fv : Bytes
  prog : Nat
  defCls : Nat
  /-- host inlet: sheet, transmit ring's contract, class of the entry -/
  sheet : Option Nat
  ringContract : Option Nat
  txCls : Option Nat
  /-- its TX_PKT job: ring, entry index, and TS_REQ -/
  job : Option (Nat × Nat)
  tsReq : Bool
  oneStep : Option OneStep
  /-- connection for which the Ralush engine built it (R352) -/
  conn : Option Nat
  /-- storage engine: the root port's outlet its block goes to, and the SA of its volume; 0xFFFFF none (R414) -/
  via : Option (Nat × Nat)
  /-- block of a local device's reply on its way into the staging buffer: request, block (R417) -/
  staging : Option (Nat × Nat)
  /-- gallery slot it came from, freed when it commits (R434) -/
  gallery : Option Nat
  /-- it waited for budget tokens (R262) -/
  waited : Bool
  /-- replayed after a bench fault or reset (R248), and the failed benches that wait for its commit (R254) -/
  replayed : Bool
  owed : List Nat
  acted : Option Acted
  deriving DecidableEq, Repr

/-- An inlet's numbering, and the numbers the store committed last, newest first, at most 1,024 (R247, R248). -/
structure Inlet where
  next : BitVec 16
  committed : List (BitVec 16)
  deriving DecidableEq, Repr

/-- An inlet that has sent nothing. -/
def Inlet.fresh : Inlet := ⟨0, []⟩

/-- A bucket move in progress (R250): markers of these inlets have not passed. -/
structure Move where
  bucket : Nat
  old : Nat
  new : Nat
  oldEpoch : Nat
  markers : List Nat
  deriving DecidableEq, Repr

/-- A committed packet held out of its VOQ by a bucket move (R250): Datum ns of the hold, its sequence number. -/
structure HeldPacket where
  since : Nat
  seq : BitVec 16
  pkt : Packet
  deriving DecidableEq, Repr

/-- A token bucket: tokens and Datum of the last refill, in 2^-16 ns. -/
structure Bucket where
  tokens : Nat
  refilled : Nat
  deriving DecidableEq, Repr

/-- The inlets' selectors and the benches. -/
structure Pipe where
  inlets : Tbl Inlet
  /-- packets held at their inlet: for budget, or for a bench -/
  waiting : List Flying
  /-- packets in benches, oldest first -/
  flying : List Flying
  move : Option Move
  /-- committed packets of the new epoch held out of their VOQs (R250) -/
  held : List HeldPacket
  /-- HBM read budgets by bench (R262), in units of 1 token x 2^17 -/
  budget : Tbl Bucket
  /-- contours by bench x 16 + contour (R246), in units of 1 token x 10^9 x 2^16 -/
  contour : Tbl Bucket
  /-- failed benches whose packets are being replayed (R254) -/
  replays : List Nat
  deriving DecidableEq, Repr

/-- An outlet's scheduler (R296): last inlet served and deficit by class, and the class being visited with whether
it had its quantum of the round. -/
structure Sched where
  last : Tbl Nat
  deficit : Tbl Nat
  visiting : Nat
  credited : Bool
  deriving DecidableEq, Repr

/-- A scheduler that has served nothing. -/
def Sched.fresh : Sched := ⟨[], [], 0, false⟩

/-- The switch core. -/
structure Switch where
  residents : Tbl Resident
  nextId : Nat
  /-- VOQs that are XOFF (R292) -/
  xoff : List Nat
  scheds : Tbl Sched
  /-- packets handed whole to a host or internal outlet, by outlet, oldest first -/
  handed : Tbl (List Packet)
  /-- frames handed to a network port's MAC, by port -/
  mac : Tbl (List Packet)
  /-- VOQs of an unpinning outlet still held out of service (R308) -/
  unpinHeld : List Nat
  /-- captures made in a Datum second: second, count (R310) -/
  captures : Nat × Nat
  /-- Datum ns of the internal faults, newest first (R74) -/
  faults : List Nat
  /-- bank groups declared faulty that still hold setts, and those out of service (R289) -/
  draining : List Nat
  outGroups : List Nat
  /-- the group that each writer used last: inlets 0-127, the copy feed 128 (R287) -/
  lastGroup : Tbl Nat
  deriving DecidableEq, Repr

/-! ## Forwarding tables and actions (spec 10, 11) -/

/-- A table entry: table, key, result, and for a learned one LAST_SEEN and inlet (R258, R271, R274). -/
structure TEntry where
  table : Nat
  key : Bytes
  result : Nat
  seen : Nat
  inlet : Nat
  deriving DecidableEq, Repr

/-- A cuckoo partition: slots by bucket x slots-per-bucket + slot, and its stash by slot, earliest stashed first. -/
structure Partition where
  slots : Tbl TEntry
  stash : List (Nat × TEntry)
  deriving DecidableEq, Repr

/-- An empty partition. -/
def Partition.empty : Partition := ⟨[], []⟩

/-- A prefix of length at most 16 (R267). -/
structure ShortPrefix where
  table : Nat
  plen : Nat
  addr : Bytes
  result : Nat
  deriving DecidableEq, Repr

/-- A queued learned insertion (R271). -/
structure LearnReq where
  table : Nat
  key : Bytes
  inlet : Nat
  stamp : BitVec 64
  deriving DecidableEq, Repr

/-- The forwarding tables, action records, templates, path sets and groups. Every bench holds the same copy of all but
the learned partitions (R256, R264, R281, R304). -/
structure Tables where
  die : Partition
  hbm : Partition
  learned : Tbl Partition
  shorts : List ShortPrefix
  /-- queued learned insertions by bench, oldest first, at most 64 (R272) -/
  queue : Tbl (List LearnReq)
  /-- action records that differ from their reset value (R280) -/
  actions : Tbl (BitVec 256)
  templates : Tbl (BitVec 1024)
  /-- path-set members by set x 256 + member that are not 0x7F (R304) -/
  members : Tbl Nat
  /-- multicast groups with a mask other than 0 -/
  groups : Tbl (BitVec 128)
  deriving DecidableEq, Repr

/-! ## Security associations (spec 12) -/

/-- SA states, Table 12.1, but for FREE. -/
inductive SaState where
  | active | exhausted | retiring
  deriving DecidableEq, Repr

/-- Codes of Table 12.1. -/
def SaState.code : SaState → Nat
  | .active => 1 | .exhausted => 2 | .retiring => 3

/-- Key material and SALT of one version of an SA (R327, R346). -/
structure SaKey where
  version : Nat
  key1 : BitVec 256
  key2 : BitVec 256
  salt : Nat
  deriving DecidableEq, Repr

/-- A security association that is not FREE (R323, R328, R331). Installed ones are numbered 0-262,143; the model keeps
a connection's TX and RX records (R351, R353) under 0x40000 + 2 x connection and the number after it. -/
structure SA where
  state : SaState
  sheet : Nat
  /-- bytes 16-19 of its KEY_INSTALL entry (Table 12.9) -/
  par : BitVec 32
  key : SaKey
  /-- versions still bound by packets prepared before a re-key, newest first (R327) -/
  older : List SaKey
  /-- next counter value, and end of the lease held, by version x 32 + bench (R333) -/
  next : Tbl Nat
  lease : Tbl Nat
  /-- key epoch its record is wrapped under (R323) -/
  epoch : Nat
  /-- KEY_RETIRE entry to complete: ring, entry index -/
  waiter : Option (Nat × Nat)
  deriving DecidableEq, Repr

/-- A key register, the same in all eight engines of a bench (R318): the SA, version and key of its key set it is loaded with,
and the two shares whose XOR is the key (R319). -/
structure KeyReg where
  sa : Nat
  version : Nat
  half : Nat
  share0 : BitVec 256
  share1 : BitVec 256
  deriving DecidableEq, Repr

/-- An engine's mask generator (R319): its seed, and the blocks masked since. -/
structure MaskGen where
  seed : BitVec 64
  used : Nat
  deriving DecidableEq, Repr

/-- The cipher hardware beside its registers. -/
structure Cipher where
  /-- key cache: SAs whose material it holds, most recently used first (R324) -/
  cache : List Nat
  /-- noise sources that pass their health tests (R321) -/
  sources : List Nat
  /-- DRBG generate requests since its last reseed, and Datum ns of that reseed -/
  generated : Nat
  reseededAt : Nat
  /-- modes 5-7 that the loaded microcode defines (R337) -/
  modes : List Nat
  /-- key registers loaded, by bench x 1024 + entry (R318) -/
  keyRegs : Tbl KeyReg
  /-- mask generators, by bench x 8 + engine (R319) -/
  gens : Tbl MaskGen
  /-- key-wrapping keys that the Surveyor island holds, by key epoch (R322, R323) -/
  wrapKeys : Tbl (BitVec 256)
  deriving DecidableEq, Repr

/-! ## Ralush (spec 13, 14) -/

/-- Connection states, Table 13.3, but for FREE. -/
inductive ConnState where
  | armed | opened | closing | error
  deriving DecidableEq, Repr

/-- Codes of Table 13.3. -/
def ConnState.code : ConnState → Nat
  | .armed => 1 | .opened => 2 | .closing => 3 | .error => 4

/-- A path a connection sends on (R359-R361, R392, R393). -/
structure TxPath where
  enabled : Bool
  up : Bool
  sport : Nat
  contract : Option Nat
  /-- PSN of the next packet -/
  psn : BitVec 32
  /-- last_psn_seen; 0xFFFF_FFFF before the first -/
  seen : BitVec 32
  /-- last_ce_cnt -/
  ce : BitVec 32
  /-- R_p in b/s and alpha in 1/1,024 -/
  rate : Nat
  alpha : Nat
  /-- Datum ns of the last cut and the last increase -/
  cutAt : Nat
  incAt : Nat
  /-- T_p in 2^-16 ns -/
  rel : Nat
  /-- bucket of the last packet sent; 0xFFFF none -/
  bucket : Nat
  deriving DecidableEq, Repr

/-- A path never set. -/
def TxPath.none : TxPath := ⟨false, true, 0, .none, 0, 0xFFFFFFFF, 0, 0, 0, 0, 0, 0, 0xFFFF⟩

/-- What a connection has received on a path of its peer (R360, R368, R391). -/
structure RxPath where
  /-- highest PSN received; none before the first packet -/
  seen : Option (BitVec 32)
  ce : BitVec 32
  /-- source port last seen -/
  port : Nat
  /-- DATA packets since the last ACK -/
  unacked : Nat
  deriving DecidableEq, Repr

/-- Nothing received. -/
def RxPath.none : RxPath := ⟨.none, 0, 0, 0⟩

/-- A started message as its sender keeps it (R362-R367). -/
structure SendMsg where
  msn : BitVec 32
  /-- its SEND entry: ring, entry index; none for a capsule of the storage engine -/
  job : Option (Nat × Nat)
  len : Nat
  /-- consecutive unanswered polls, and NAKs RNR -/
  polls : Nat
  rnrs : Nat
  /-- CODE of the last NAK -/
  nak : Nat
  /-- packets to resend once RETRY_US have passed -/
  retry : List Nat
  /-- status of its completion, held for MSN order (R369) -/
  done : Option Nat
  /-- a capsule of the storage engine (R415) -/
  data : Bytes
  /-- ADDR of the data of a SEND (Table 13.7) -/
  addr : Nat
  deriving DecidableEq, Repr

/-- A DATA packet that waits for its release (R361, R393). -/
structure OutPkt where
  msn : BitVec 32
  idx : Nat
  retx : Bool
  deriving DecidableEq, Repr

/-- A RECV bound to an MSN (R363, R364, R378, R386). -/
structure RecvMsg where
  msn : BitVec 32
  /-- its RECV entry: ring, entry index; none for the storage engine's own buffer (R415) -/
  job : Option (Nat × Nat)
  len : Nat
  /-- region key, and address of the buffer -/
  key : Nat
  addr : Nat
  /-- bitmap of the packets placed -/
  bits : Nat
  /-- N and TOTAL, once LAST has arrived -/
  n : Option Nat
  total : Nat
  /-- paths a packet arrived on, and Datum short of the first one placed -/
  paths : Nat
  first : BitVec 64
  /-- path of the most recent packet -/
  lastPath : Nat
  /-- expiries of the reassembly timer, and whether it runs -/
  tries : Nat
  timer : Bool
  /-- it holds a flight-table slot of kind transport message -/
  slot : Bool
  /-- its region was revoked before any packet arrived -/
  withdrawn : Bool
  /-- status of its completion once it ended, held for MSN order -/
  ended : Option Nat
  /-- packets placed, for the storage engine: index, payload -/
  data : List (Nat × Bytes)
  deriving DecidableEq, Repr

/-- A connection that is not FREE (R353-R361). -/
structure Conn where
  state : ConnState
  sheet : Nat
  cause : Nat
  ipv4 : Bool
  mtu : Nat
  tclass : Nat
  /-- handle at the peer -/
  peer : Nat
  /-- global numbers of its message rings -/
  sendRing : Nat
  recvRing : Nat
  dport : Nat
  peerIp : Nat
  localIp : Nat
  paths : Tbl TxPath
  rx : Tbl RxPath
  /-- path used last -/
  cursor : Nat
  nextMsn : BitVec 32
  msnDone : BitVec 32
  sends : List SendMsg
  queue : List OutPkt
  recvs : List RecvMsg
  /-- packets in stall slots, oldest first (R381) -/
  stalled : List Packet
  /-- CONN_CLOSE entries to complete: ring, entry index -/
  closers : List (Nat × Nat)
  deriving DecidableEq, Repr

/-- A region that is not FREE (R373-R379, R385). -/
structure Region where
  draining : Bool
  sheet : Nat
  mode : Nat
  base : Nat
  len : Nat
  /-- REG_REVOKE entry to complete: ring, entry index -/
  revoker : Option (Nat × Nat)
  /-- messages in progress at the fence that completed, and RECVs withdrawn -/
  completed : Nat
  withdrawn : Nat
  /-- messages in progress at the fence: connection, MSN -/
  fenced : List (Nat × Nat)
  deriving DecidableEq, Repr

/-- An outstanding Page Request (R133, R380): function, PASID and page, and the messages that met it: connection, MSN, packet
index. -/
structure PageReq where
  port : Nat
  pf : Nat
  pasid : Nat
  page : Nat
  msgs : List (Nat × Nat × Nat)
  deriving DecidableEq, Repr

/-- The Ralush engine beside its connections. -/
structure Ralush where
  /-- generation of each connection number and of each region (R353, R373) -/
  gens : Tbl Nat
  regGens : Tbl Nat
  regions : Tbl Region
  pages : List PageReq
  deriving DecidableEq, Repr

/-! ## Storage (spec 15) -/

/-- Controller states, Table 15.3, but for FREE. -/
inductive CtrlState where
  | disabled | ready | shutting | shut | resetting
  deriving DecidableEq, Repr

/-- Codes of Table 15.3. -/
def CtrlState.code : CtrlState → Nat
  | .disabled => 1 | .ready => 2 | .shutting => 3 | .shut => 4 | .resetting => 5

/-- A submission queue: global number of its ring, its CQ, QPRIO (0 urgent to 3 low). -/
structure SubQueue where
  ring : Nat
  cq : Nat
  prio : Nat
  deriving DecidableEq, Repr

/-- A completion queue: global number of its ring, vector, interrupts enabled, CQ entries since its last message. -/
structure CompQueue where
  ring : Nat
  vec : Nat
  ien : Bool
  unannounced : Nat
  deriving DecidableEq, Repr

/-- An attachment of a controller (R399, R408). -/
structure Attach where
  vol : Nat
  readOnly : Bool
  deferred : Bool
  /-- NS_DETACH entry that waits for its started commands: ring, entry index -/
  waiter : Option (Nat × Nat)
  deriving DecidableEq, Repr

/-- An entry of the deferred-error log (Table 15.5). -/
structure LostEntry where
  nsid : Nat
  slba : Nat
  nblk : Nat
  cause : Nat
  time : BitVec 64
  deriving DecidableEq, Repr

/-- A presented controller that is not FREE (R399-R413). -/
structure Ctrl where
  state : CtrlState
  sheet : Nat
  localBase : Nat
  /-- I/O queue pairs it may create -/
  nq : Nat
  sqs : Tbl SubQueue
  cqs : Tbl CompQueue
  attach : Tbl Attach
  /-- feature values by FID -/
  feats : Tbl Nat
  /-- power state, last operational one, and the state being entered with its Set Features command -/
  ps : Nat
  lastOp : Nat
  entering : Option (Nat × Nat)
  /-- leaving a non-operational state (R412) -/
  leaving : Bool
  /-- Asynchronous Event Requests held, oldest first -/
  aers : List Nat
  log : List LostEntry
  overflow : Bool
  /-- CTRL_SET entry to complete: ring, entry index -/
  setter : Option (Nat × Nat)
  /-- the shutdown in progress is a normal one -/
  normal : Bool
  /-- SQ served last, commands taken from it in this visit, and commands left of the WRR turn by priority -/
  lastSq : Nat
  burst : Nat
  credit : Tbl Nat
  deriving DecidableEq, Repr

/-- A volume (Table 15.1). -/
structure Volume where
  port : Nat
  remote : Bool
  lba : Nat
  blocks : Nat
  rootPort : Nat
  nsid : Nat
  baseLba : Nat
  /-- connection handle -/
  conn : Nat
  cache : Nat
  sa : Option Nat
  cls : Nat
  contractOut : Option Nat
  contractIn : Option Nat
  /-- lost ranges: first block, blocks (R408) -/
  lost : List (Nat × Nat)
  /-- serial number of its NVMe device (R410) -/
  serial : Bytes
  deriving DecidableEq, Repr

/-- Where a fetched command stands. -/
inductive CmdPhase where
  | fetched | started | stalled | running
  /-- its CQ entry is held by a power state (R412): status, Dword 0 -/
  | held (status dw0 : Nat)
  deriving DecidableEq, Repr

/-- A presented command from its fetch to its CQ entry (R402). -/
structure NvmeCmd where
  ctrl : Nat
  sq : Nat
  sqe : Entry
  phase : CmdPhase
  /-- start order (R405) -/
  order : Nat
  /-- range-lock entry: volume, first and last block -/
  lock : Option (Nat × Nat × Nat)
  /-- backend requests still out -/
  reqs : List Nat
  /-- it has issued a backend request, or read or written tenant data (R413) -/
  touched : Bool
  /-- blocks of a Read at hand: block, data -/
  got : List (Nat × Bytes)
  /-- tenant pages of its data -/
  pages : List Nat
  /-- status gathered so far -/
  status : Nat
  /-- dirty blocks a Flush waits for, by cache number -/
  waits : List Nat
  /-- ranges of a Dataset Management: first block, blocks -/
  ranges : List (Nat × Nat)
  deriving DecidableEq, Repr

/-- A backend request (R410, R415). -/
structure BackReq where
  vol : Nat
  /-- the presented command; none for write-back -/
  cmd : Option Nat
  /-- 0 read, 1 write, 3 write zeroes, 4 deallocate, 5 write-back -/
  op : Nat
  lo : Nat
  n : Nat
  /-- data being written, and how often a write-back timed out in a row -/
  data : Bytes
  tries : Nat
  /-- a local device has completed a read, and the blocks the staging buffer has accepted: block, data (R417) -/
  replied : Bool
  staged : List (Nat × Bytes)
  deriving DecidableEq, Repr

/-- A cached block (R407-R409). -/
structure Cached where
  dirty : Bool
  /-- root ports of the expanders that hold a copy -/
  homes : List Nat
  data : Bytes
  deriving DecidableEq, Repr

/-- The storage engine beside its controllers. -/
structure Storage where
  vols : Tbl Volume
  cmds : Tbl NvmeCmd
  nextCmd : Nat
  nextOrder : Nat
  reqs : Tbl BackReq
  nextReq : Nat
  /-- cached blocks by volume x 2^48 + block -/
  cache : Tbl Cached
  /-- bytes of cache by expander's root port -/
  room : Tbl Nat
  /-- sheet served last and commands left of its turn; controller served last, by sheet (R404) -/
  visiting : Nat
  credit : Nat
  lastCtrl : Tbl Nat
  /-- capsules received on connections of remote volumes, oldest first: connection, message (R415) -/
  inbox : List (Nat × Bytes)
  deriving DecidableEq, Repr

/-! ## Penlith (spec 16) -/

/-- PENDING and INSERV of a cairn source (R443). -/
structure CairnSrc where
  pend : Bool
  inserv : Bool
  deriving DecidableEq, Repr

/-- Architectural state of a thread beside its registers in control space (R429, R430, R446). -/
structure Thread where
  /-- integer registers x1-x31; x0 reads 0 -/
  x : Tbl (BitVec 64)
  /-- floating-point and vector registers -/
  f : Tbl (BitVec 64)
  v : Tbl (BitVec 256)
  /-- CSRs by number -/
  csr : Tbl (BitVec 64)
  /-- privilege: 0 U, 1 S, 3 M -/
  priv : Nat
  /-- armed by PN.WFE: mask and rd -/
  armed : Option (Nat × Nat)
  /-- Datum ns of its halt, and state it resumes to -/
  haltedAt : Nat
  resumeTo : Nat
  deriving DecidableEq, Repr

/-- A thread that has done nothing: machine mode, registers 0. -/
def Thread.fresh : Thread := ⟨[], [], [], [], 3, none, 0, 0⟩

/-- Slot states, Table 16.5, but for FREE. A sealed slot carries its place in the seal order. -/
inductive SlotUse where
  | reserved (thread : Nat)
  | sealed (order : Nat)
  | taken (cluster : Nat)
  deriving DecidableEq, Repr

/-- The clusters beside their registers. -/
structure Penlith where
  /-- threads by number 0-255 -/
  threads : Tbl Thread
  /-- gallery slots that are not FREE, by (cluster x 64 + gallery) x 256 + slot -/
  slots : Tbl SlotUse
  /-- slots taken from a thread by abandonment: slot number, thread (R435, R442) -/
  lost : List (Nat × Nat)
  /-- seals so far, by gallery -/
  seals : Tbl Nat
  /-- cluster memory by control-space address -/
  mem : List Host.Cell
  /-- groups declared deadlocked with no thread issued since: cluster x 16 + group (R433) -/
  declared : List Nat
  /-- exchange in progress by cluster: T, U and the states they had (R446) -/
  moving : Tbl (Nat × Nat × Nat × Nat)
  deriving DecidableEq, Repr


/-! ## Boot (spec 17) -/

/-- The load of an image class that is under way or running (R453-R457). -/
structure Load where
  /-- copy: 0 A, 1 B -/
  copy : Nat
  /-- copies tried since the last start -/
  tried : List Nat
  /-- 64 KiB chunks in the hold region -/
  chunks : Nat
  /-- units execute: the chunk with ENTRY is written -/
  started : Bool
  /-- its tag matched -/
  matched : Bool
  /-- instances that reported ready (R456) -/
  ready : List Nat
  deriving DecidableEq, Repr

/-- Boot, flash and fuses. Copies are numbered class x 2 + device. -/
structure Boot where
  /-- what the ROM found at the last power-on: the station and board records stay in flash -/
  found : BootFound
  /-- CFG_DEFAULT of the legend: the station record is ignored (R108) -/
  cfgDefault : Bool
  /-- key epoch, revoked slots, filled slots: an image of SVY_EPOCH (Table 17.8) -/
  fuses : BitVec 32
  /-- 128-byte header of each copy in flash (Table 17.2); an unlisted copy is as shipped -/
  headers : Tbl Bytes
  /-- boot record: copy states by copy: 0 COMMITTED, 1 PENDING, 2 TRIAL, 3 REJECTED (R449) -/
  copyStates : Tbl Nat
  /-- boot record: rollback floors, and committed running time in ns, by class (R466) -/
  floors : Tbl Nat
  runTime : Tbl Nat
  /-- Datum ns since which running time has not been added, by class -/
  runSince : Tbl Nat
  /-- boot record: HOURS of SVY_COMMIT_CFG, and the sequence number (R450, Table 17.9) -/
  hours : Nat
  recordSeq : Nat
  loads : Tbl Load
  /-- outputs held, by cluster, oldest first (R454) -/
  outputs : Tbl (List HeldAccess)
  /-- staging buffer: bytes other than 0 (R470) -/
  staging : List Host.Cell
  /-- KIND of a package that passed its check and is being acted on; 0 none -/
  installing : Nat
  /-- a notice is not acknowledged (R473) -/
  noticeOpen : Bool
  deriving DecidableEq, Repr

/-! ## Health and survey (spec 18) -/

/-- A survey record, Table 18.5. -/
structure SurveyRec where
  kind : Nat
  event : Nat
  index : Nat
  detail : Nat
  time : BitVec 64
  serial : Bytes
  vendor : Nat
  deriving DecidableEq, Repr

/-- A consumables record, Table 18.8, with what R493-R495 keep for it. -/
structure Consumable where
  valid : Bool
  kind : Nat
  present : Bool
  soon : Bool
  wear : Nat
  /-- Datum ns for which the part was present and powered, up to the instant lastSeen (R493) -/
  onTime : Nat
  lastSeen : Nat
  firstSeen : Nat
  replaceBy : Nat
  serial : Bytes
  vendor : Nat
  metric : Nat
  /-- bias of each lane first seen for this serial (R493) -/
  bias0 : List Nat
  /-- wear samples, newest first: Datum second, wear -/
  samples : List (Nat × Nat)
  /-- latched flags of a module, as last read and cleared (R230) -/
  flags : Nat
  deriving DecidableEq, Repr

/-- A record never used. -/
def Consumable.fresh : Consumable := ⟨false, 0, false, false, 0, 0, 0, 0, 0, [], 0, 0, [], [], 0⟩

/-- A fault that left a unit permanently out of service, as the boot record keeps it (R483). -/
structure Permanent where
  kind : Nat
  unit : Nat
  deriving DecidableEq, Repr

/-- Health and survey beside their registers. -/
structure Health where
  /-- protection log, oldest first, at most 16: HLT_PROT_ENTRY0 and ENTRY1 images (R488) -/
  protLog : List (BitVec 64 × BitVec 64)
  /-- survey ring by HLT_SURV_WR mod 256 (R490) -/
  survey : Tbl SurveyRec
  /-- peers with an OPEN connection (R491): address, with bit 128 set for IPv4, by entry 0-16,383 -/
  peers : Tbl Nat
  /-- consumables records 0-79 (R492) -/
  cons : Tbl Consumable
  /-- endpoint ports whose COAL_US interval runs; true: a message is held (R486) -/
  coal : Tbl Bool
  /-- faults the boot record keeps (R483) -/
  permanent : List Permanent
  /-- Datum seconds of the lockstep mismatches within the last hour (R481) -/
  mismatches : List Nat
  /-- the Surveyor island restarts (R481) -/
  restarting : Bool
  /-- repair rows used, by bank (R478) -/
  repairs : Tbl Nat
  /-- rows redirected to a repair row (R478): bank of a channel, row, repair row -/
  redirected : List (Nat × Nat × Nat)
  /-- FAILED cores (R479) -/
  coresFailed : List Nat
  /-- corrected errors found by the scrub (R477) -/
  scrubbed : Nat
  /-- 64-byte lines of internal memory that read poisoned (R482) -/
  poisoned : List Nat
  /-- consumables records as the boot record holds them (R495) -/
  consSaved : Tbl Consumable
  deriving DecidableEq, Repr

/-! ## Management and the data port (spec 19) -/

/-- Management state beside its registers. Bindings: 0 I3C, 1 SMBus, 2 + n the VDM path of host port n. -/
structure Mgmt where
  /-- EIDs of the VDM bindings, by host port (R503) -/
  eidVdm : Tbl Nat
  /-- requests outstanding, by binding, 0-4 (R504) -/
  outstanding : Tbl Nat
  /-- I3C static address from the board record, and dynamic address (R501) -/
  i3cStatic : Option Nat
  i3cDynamic : Option Nat
  /-- 7-bit SMBus address (R502) -/
  smbAddr : Nat
  /-- PLDM terminus ID (DSP0240) -/
  tid : Nat
  /-- PLDM event receiver: binding, EID (R508) -/
  receiver : Option (Nat × Nat)
  /-- events not acknowledged: sensor, state, times sent (R508) -/
  unacked : List (Nat × Nat × Nat)
  /-- a firmware update owns the staging buffer: component, image length, bytes received (R510) -/
  update : Option (Nat × Nat × Nat)
  /-- the package of the update passed its check and was written (R509); RESULT -/
  updateResult : Option Nat
  /-- Datum ns of the last request of the update (R510) -/
  updateTouched : Nat
  /-- binding whose CancelUpdate is answered when the check ends (R510) -/
  cancel : Option Nat
  /-- SPDM: versions negotiated, by binding (0x12 or 0x13), and steps done: 1 version, 2 capabilities, 3 algorithms (R511) -/
  spdmVersion : Tbl Nat
  spdmPhase : Tbl Nat
  /-- SPDM messages so far, that signatures cover, by binding -/
  spdmLog : Tbl Bytes
  /-- debug nonce set (R519) -/
  nonceSet : Bool
  /-- token buffer of space 3 (Table 19.5), by offset -/
  token : Tbl Byte
  /-- debug dump of space 2 (R517) -/
  dump : Bytes
  /-- Datum ns of the owner's last data-port access (R514) -/
  dpTouched : Nat
  /-- instruction the TAP runs (R518) -/
  tap : Nat
  deriving DecidableEq, Repr

/-! ## Package, power and electrical (spec 20) -/

/-- Power and package state beside the thermal and power registers. -/
structure Power where
  /-- THERMTRIP_N driven low (R533) -/
  tripped : Bool
  /-- held in power-on reset by POR_N or the supply monitors (R529) -/
  inReset : Bool
  /-- SYS_REFCLK lost (R532) -/
  sysClkLost : Bool
  /-- NET_REFCLK groups lost (R532) -/
  netClkLost : List Nat
  /-- AVS rails with a request unacknowledged: rail, millivolts asked (R526) -/
  avsAsked : Tbl Nat
  deriving DecidableEq, Repr

/-! ## The state -/

/-- The device. -/
structure State where
  /-- Commands that wait, first in, first out. The model's own (notes/assumptions/1). -/
  pending : List Instr
  /-- What has left the device, newest last. The model's own (notes/assumptions/4). -/
  outs : List Out
  /-- How many free values have been drawn. The model's own (notes/assumptions/3). -/
  fresh : Nat
  /-- The Datum counter: [79:16] nanoseconds, [15:0] fraction (R7, R35). -/
  datum : BitVec 80
  /-- The register file, by register address; an unlisted register holds its reset value. -/
  regs : Tbl (BitVec 64)
  /-- Internal memory (HBM and CXL apertures, Table 1.6): addresses rising, no zero byte listed. -/
  mem : List Host.Cell
  /-- Datum (spec 02). -/
  dtm : DatumState
  /-- Contracts by CONTRACT_ID; an unlisted one is FREE (spec 03). -/
  contracts : Tbl Contract
  /-- Graticule and arbiters (spec 04). -/
  grt : Graticule
  /-- Islands by node number; an unlisted one is not released (R14, R22). -/
  islands : Tbl Island
  /-- Host ports (spec 05). -/
  ports : Tbl HostPort
  /-- Physical functions, by port x 8 + function. -/
  funcs : Tbl Func
  /-- MSI-X vectors, by (port x 8 + function) x 2048 + vector. -/
  vectors : Tbl MsixVec
  /-- Outstanding non-posted reads. -/
  reads : List ReadTag
  /-- Slots held in the flight table (R23, R24). -/
  flight : Flight
  /-- First address of the CXL aperture never given to an expander (R28). -/
  cxlNext : Nat
  /-- Ranges of removed expanders: base, size (R28). -/
  cxlFree : List (Nat × Nat)
  /-- Sheets that are not FREE (spec 06). -/
  sheets : Tbl Sheet
  /-- Open rings by global number (spec 07). -/
  rings : Tbl Ring
  /-- Cairn sources by cluster x 1024 + source (R443). -/
  cairns : Tbl CairnSrc
  /-- Health and survey (spec 18). -/
  health : Health
  /-- Management and the data port (spec 19). -/
  mgmt : Mgmt
  /-- Package and power (spec 20): held in reset at reset. -/
  power : Power
  /-- Virtual output queues by VOQ index, head first (R20). -/
  voqs : Tbl (List Packet)
  /-- Security associations that are not FREE (spec 12). -/
  sas : Tbl SA
  /-- Network ports and cages (spec 08). -/
  net : NetState
  /-- Inlets and benches (spec 09). -/
  pipe : Pipe
  /-- The switch core (spec 11). -/
  swc : Switch
  /-- Forwarding tables and actions (spec 10, 11). -/
  tables : Tables
  /-- Cipher hardware (spec 12). -/
  cipher : Cipher
  /-- Ralush connections that are not FREE (spec 13). -/
  conns : Tbl Conn
  /-- Presented controllers that are not FREE (spec 15). -/
  ctrls : Tbl Ctrl
  /-- The Ralush engine (spec 13, 14). -/
  rlt : Ralush
  /-- The storage engine (spec 15). -/
  sto : Storage
  /-- Penlith threads, galleries and cluster memory (spec 16). -/
  pnl : Penlith
  /-- Boot, flash and fuses (spec 17). -/
  boot : Boot
  deriving DecidableEq, Repr

/-- The device held in reset: BOOT_STATE 0, every register at its table's reset value, nothing listed anywhere
(R35, R458; the values the spec does not give are in notes/assumptions/5). -/
def State.reset : State where
  pending := []
  outs := []
  fresh := 0
  datum := 0
  regs := []
  mem := []
  dtm := ⟨[], 0, 0, 0, [], [], false, [], none, 0, 0, []⟩
  contracts := []
  grt := ⟨[], [], [], [], []⟩
  islands := []
  ports := []
  funcs := []
  vectors := []
  reads := []
  flight := ⟨0, 0, 0, 0⟩
  cxlNext := 0x800000000000
  cxlFree := []
  sheets := []
  rings := []
  cairns := []
  health := ⟨[], [], [], [], [], [], [], false, [], [], [], 0, [], []⟩
  mgmt := ⟨[], [], none, none, 0x50, 0, none, [], none, none, 0, none, [], [], [], false, [], [], 0, 0⟩
  power := ⟨false, true, false, [], []⟩
  voqs := []
  sas := []
  net := ⟨[], [], [], [], []⟩
  pipe := ⟨[], [], [], none, [], [], [], []⟩
  swc := ⟨[], 1, [], [], [], [], [], (0, 0), [], [], [], []⟩
  tables := ⟨.empty, .empty, [], [], [], [], [], [], []⟩
  cipher := ⟨[], [0, 1], 0, 0, [], [], [], []⟩
  conns := []
  ctrls := []
  rlt := ⟨[], [], [], []⟩
  sto := ⟨[], [], 0, 0, [], 0, [], [], 0, 0, [], []⟩
  pnl := ⟨[], [], [], [], [], [], []⟩
  boot := ⟨⟨0, false, false, [], [], none, none⟩, false, Config.fusedEpoch, [], [], [], [], [], 0x48, 0, [], [], [], 0, false⟩

end Sys2Proof.Machine
end

