-- ==== Sys2Proof/Machine/Ops.lean ====
section
/-! DEFINITION. The named operations on registers, counters, outputs, free values, MSI-X vectors, functions and
internal memory. Everything that reads or writes a register field goes through rd and wr. -/

namespace Sys2Proof.Machine

/-! ## Registers -/

/-- The value of the register at an address (R8): its value in the file, or its reset value. -/
def State.reg (s : State) (a : Nat) : BitVec 64 :=
  match tblGet s.regs (canonAddr a) with
  | some v => v
  | none => regReset a

/-- Give a register a value; a register at its reset value is not listed. -/
def State.setReg (s : State) (a : Nat) (v : BitVec 64) : State :=
  { s with regs := if v = regReset a then tblDel s.regs (canonAddr a) else tblPut s.regs (canonAddr a) v }

/-- The bits of a value in a field. -/
def getField (v : BitVec 64) (lo w : Nat) : Nat := v.toNat / 2 ^ lo % 2 ^ w

/-- A value with one field replaced, the other bits kept. -/
def putField (v : BitVec 64) (lo w x : Nat) : BitVec 64 :=
  BitVec.ofNat 64 (v.toNat % 2 ^ lo + (x % 2 ^ w) * 2 ^ lo + v.toNat / 2 ^ (lo + w) * 2 ^ (lo + w))

/-- Read a register field. -/
def State.rd (s : State) (f : Fld) : Nat := getField (s.reg f.addr) f.lo f.width

/-- Write a register field; the other fields of the register keep their values. -/
def State.wr (s : State) (f : Fld) (x : Nat) : State := s.setReg f.addr (putField (s.reg f.addr) f.lo f.width x)

/-- A one-bit field as a truth value. -/
def State.bit (s : State) (f : Fld) : Bool := s.rd f == 1

/-- Add to a counter that saturates at its largest value. -/
def State.count (s : State) (f : Fld) (n : Nat) : State := s.wr f (min (s.rd f + n) (2 ^ f.width - 1))

/-- The signed value of a field of a given width. -/
def signed (w x : Nat) : Int := if x < 2 ^ (w - 1) then (x : Int) else (x : Int) - 2 ^ w

/-- A signed value as the bits of a field of a given width. -/
def unsigned (w : Nat) (x : Int) : Nat := (x % (2 ^ w : Int)).toNat

/-! ## Time -/

/-- Datum short: the low 64 bits of Datum (R7, Table 0.4). -/
def State.dshort (s : State) : BitVec 64 := s.datum.setWidth 64

/-- Current key epoch (R450). -/
def State.epoch (s : State) : Nat := getField (s.boot.fuses.setWidth 64) 0 6

/-- Datum nanoseconds. -/
def State.ns (s : State) : Nat := s.datum.toNat / 65536

/-- A Datum short d is reached when (now - d) mod 2^48 < 2^47, in nanoseconds (R38). -/
def State.reached (s : State) (d : BitVec 64) : Bool :=
  decide ((s.ns + 2 ^ 48 - d.toNat / 65536) % 2 ^ 48 < 2 ^ 47)

/-- Time since a Datum short, in 2^-16 ns; 0 for one in the future (R38). -/
def State.since (s : State) (d : BitVec 64) : Nat :=
  let n := (s.dshort - d).toNat
  if n < 2 ^ 63 then n else 0

/-- Datum, in 2^-16 ns, at a stamp of the past. -/
def State.startOf (s : State) (stamp : BitVec 64) : Nat := s.datum.toNat - s.since stamp

/-! ## Outputs and free values -/

/-- Record an externally visible action. -/
def State.emit (s : State) (o : Out) : State := { s with outs := s.outs ++ [o] }

/-- Draw a free value: nothing constrains it (notes/assumptions/3). -/
def State.draw (s : State) : BitVec 64 := Config.freeWord s.fresh

/-- Advance past the free value drawn. -/
def State.drawn (s : State) : State := { s with fresh := s.fresh + 1 }

/-- A value of 64 bytes that the spec leaves open: eight free values. -/
def State.drawEntry (s : State) : Entry :=
  BitVec.ofNat 512 (((List.range 8).map (fun k => (Config.freeWord (s.fresh + k)).toNat * 2 ^ (64 * k))).sum)

/-- Advance past it. -/
def State.drawnEntry (s : State) : State := { s with fresh := s.fresh + 8 }

/-! ## Tables of objects -/

/-- A host port. -/
def State.port (s : State) (p : Nat) : HostPort := tblGetD HostPort.fresh s.ports p

/-- Set a host port. -/
def State.setPort (s : State) (p : Nat) (x : HostPort) : State := { s with ports := tblSet HostPort.fresh s.ports p x }

/-- Number of a function: port x 8 + function. -/
def funcKey (p f : Nat) : Nat := p * 8 + f

/-- A physical function. -/
def State.func (s : State) (p f : Nat) : Func := tblGetD Func.absent s.funcs (funcKey p f)

/-- Set a physical function. -/
def State.setFunc (s : State) (p f : Nat) (x : Func) : State := { s with funcs := tblSet Func.absent s.funcs (funcKey p f) x }

/-- Number of a vector: function x 2048 + vector. -/
def vecKey (p f v : Nat) : Nat := funcKey p f * 2048 + v

/-- An MSI-X vector. -/
def State.vec (s : State) (p f v : Nat) : MsixVec := tblGetD MsixVec.fresh s.vectors (vecKey p f v)

/-- Set an MSI-X vector. -/
def State.setVec (s : State) (p f v : Nat) (x : MsixVec) : State :=
  { s with vectors := tblSet MsixVec.fresh s.vectors (vecKey p f v) x }

/-- An island. -/
def State.island (s : State) (n : Nat) : Island := tblGetD Island.fresh s.islands n

/-- Set an island. -/
def State.setIsland (s : State) (n : Nat) (x : Island) : State := { s with islands := tblSet Island.fresh s.islands n x }

/-- A sheet. -/
def State.sheet (s : State) (n : Nat) : Sheet := tblGetD Sheet.free s.sheets n

/-- Set a sheet. -/
def State.setSheet (s : State) (n : Nat) (x : Sheet) : State := { s with sheets := tblSet Sheet.free s.sheets n x }

/-- An open ring. -/
def State.ring? (s : State) (g : Nat) : Option Ring := tblGet s.rings g

/-- Set an open ring. -/
def State.setRing (s : State) (g : Nat) (x : Ring) : State := { s with rings := tblPut s.rings g x }

/-- A contract that is not FREE. -/
def State.contract? (s : State) (c : Nat) : Option Contract := tblGet s.contracts c

/-- Set a contract. -/
def State.setContract (s : State) (c : Nat) (x : Contract) : State := { s with contracts := tblPut s.contracts c x }

/-! ## Stations and ports (R106, Table 5.1) -/

/-- A host port is present: its station's mode gives it lanes. -/
def State.portPresent (s : State) (p : Nat) : Bool :=
  decide (p < 48) &&
    (match s.rd (HP_STN_CFG_MODE (p / 4)) with
     | 1 => p % 4 == 0
     | 2 => p % 2 == 0
     | 3 => true
     | _ => false)

/-- A present port is a root port (Table 5.9). -/
def State.portIsRoot (s : State) (p : Nat) : Bool :=
  s.portPresent p && (s.rd (HP_STN_CFG_ROLE (p / 4)) / 2 ^ (p % 4) % 2 == 1)

/-- A present port is an endpoint port. -/
def State.portIsEndpoint (s : State) (p : Nat) : Bool := s.portPresent p && !s.portIsRoot p

/-- Lanes of a present port in its station's mode. -/
def State.portWidth (s : State) (p : Nat) : Nat :=
  match s.rd (HP_STN_CFG_MODE (p / 4)) with
  | 1 => 16 | 2 => 8 | 3 => 4 | _ => 0

/-- Endpoint ports in ascending number (R147). -/
def State.endpoints (s : State) : List Nat := (List.range 48).filter s.portIsEndpoint

/-! ## MSI-X (R119, R135) -/

/-- Send a vector of a function: a message when Bus Master Enable is 1 and nothing masks it, otherwise its pending
bit. A vector above MSIX_N or an absent function sends nothing. -/
def State.sendVector (s : State) (p f v : Nat) : State :=
  let fn := s.func p f
  if fn.present = false ∨ fn.msixN < v then s
  else
    let m := s.vec p f v
    if fn.bme ∧ ¬ fn.fmask ∧ ¬ m.mask then s.emit (.msix p f v)
    else s.setVec p f v { m with pend := true }

/-! ## Flight table (R23, R24) -/

/-- Slots a kind holds. -/
def Flight.of (t : Flight) : SlotKind → Nat
  | .dma => t.dma | .sto => t.sto | .msg => t.msg | .rd => t.rd

/-- Slots of the shared 196,608 in use: what each kind holds beyond its reserve of 16,384. -/
def Flight.shared (t : Flight) : Nat := (t.dma - 16384) + (t.sto - 16384) + (t.msg - 16384) + (t.rd - 16384)

/-- A slot is free to a kind (R24). -/
def Flight.room (t : Flight) (k : SlotKind) : Bool := decide (t.of k < 16384) || decide (t.shared < 196608)

/-- Take a slot. -/
def Flight.take (t : Flight) : SlotKind → Flight
  | .dma => { t with dma := t.dma + 1 }
  | .sto => { t with sto := t.sto + 1 }
  | .msg => { t with msg := t.msg + 1 }
  | .rd => { t with rd := t.rd + 1 }

/-- Release a slot. -/
def Flight.release (t : Flight) : SlotKind → Flight
  | .dma => { t with dma := t.dma - 1 }
  | .sto => { t with sto := t.sto - 1 }
  | .msg => { t with msg := t.msg - 1 }
  | .rd => { t with rd := t.rd - 1 }

/-- Take a flight-table slot. -/
def State.takeSlot (s : State) (k : SlotKind) : State := { s with flight := s.flight.take k }

/-- Release a flight-table slot. -/
def State.freeSlot (s : State) (k : SlotKind) : State := { s with flight := s.flight.release k }

/-! ## Internal memory (Table 1.6) -/

/-- An address of HBM (192 GiB, Table 1.6). -/
def isHbm (a : Nat) : Bool := decide (0x400000000000 ≤ a) && decide (a < 0x403000000000)

/-- An address of the CXL aperture. -/
def isCxl (a : Nat) : Bool := decide (0x800000000000 ≤ a) && decide (a < 0x820000000000)

/-- The byte at an address of internal memory; a byte not listed reads 0 (notes/assumptions/6). -/
def memGet : List Host.Cell → Nat → Byte
  | [], _ => 0
  | (k, v) :: rest, a => if a = k then v else memGet rest a

/-- Write one byte, keeping the canonical form: a zero byte is not listed. -/
def memPut (m : List Host.Cell) (a : Nat) (b : Byte) : List Host.Cell :=
  if b = 0 then tblDel m a else tblPut m a b

/-- Read n bytes from an address on. -/
def State.memRead (s : State) (a : Nat) : Nat → Bytes
  | 0 => []
  | n + 1 => memGet s.mem a :: s.memRead (a + 1) n

/-- Write bytes from an address on. -/
def memWrite : List Host.Cell → Nat → Bytes → List Host.Cell
  | m, _, [] => m
  | m, a, b :: bs => memWrite (memPut m a b) (a + 1) bs

/-- The canonical form of memory: addresses rising, no zero byte listed. -/
def memWf (m : List Host.Cell) : Bool := tblWf m && m.all (fun c => c.2 != 0)

/-! ## Bytes and words -/

/-- The little-endian bytes of a number. -/
def leBytes : Nat → Nat → Bytes
  | 0, _ => []
  | n + 1, x => BitVec.ofNat 8 x :: leBytes n (x / 256)

/-- The number little-endian bytes spell. -/
def ofLe : Bytes → Nat
  | [] => 0
  | b :: bs => b.toNat + 256 * ofLe bs

/-- The number big-endian bytes spell (wire formats, R6). -/
def ofBe (bs : Bytes) : Nat := bs.foldl (fun acc b => acc * 256 + b.toNat) 0

/-- The big-endian bytes of a number. -/
def beBytes (n x : Nat) : Bytes := (leBytes n x).reverse

/-- Replace bytes of a string from an offset on; bytes beyond its end are not written. -/
def overwrite (bs : Bytes) (off : Nat) (new : Bytes) : Bytes :=
  bs.take off ++ (new.take (bs.length - off)) ++ bs.drop (off + new.length)

/-- n free values, as bytes: for what the DRBG generates, and other strings the spec leaves open (R321). -/
def drawBytes : Nat → State → Bytes × State
  | 0, s => ([], s)
  | n + 1, s =>
    let (bs, t) := drawBytes n s.drawn
    (leBytes 8 s.draw.toNat ++ bs, t)

end Sys2Proof.Machine
end

