-- ==== Sys2Proof/Machine/Flags.lean ====
section
/-! DEFINITION. Event bits: raising one, the cairn source it is, the health messages it sends, and the summary of
HLT_SUMMARY (R443, R486, R487). -/

namespace Sys2Proof.Machine

/-- An event of a cairn source in one cluster: it sets PENDING, merges, or is lost while INSERV (R443). -/
def cairnEventIn (cluster src : Nat) (s : State) : State :=
  let k := cluster * 1024 + src
  let c := tblGetD ⟨false, false⟩ s.cairns k
  if c.inserv then s
  else { s with cairns := tblPut s.cairns k { c with pend := true } }

/-- An event of a device-wide source reaches the cairn of every cluster. -/
def cairnEvent (src : Nat) (s : State) : State :=
  (List.range 8).foldl (fun t k => cairnEventIn k src t) s

/-- The cairn source of an event register (Table 16.7, R487). PNL_EVENT (source 300) is of one cluster and is
raised through raisePnl. -/
def eventSource (a : Nat) : Nat :=
  if a = DTM_EVENT then 128
  else if a = ADM_EVENT then 129
  else if a = GRT_EVENT then 130
  else if a / 0x400000 = 0x10 then 131 + (a - 0x4000000) / 0x10000
  else if a = RNG_EVENT then 179
  else if a / 0x200000 = 0x38 then
    (if (a - 0x7000000) % 0x8000 < 0x4000 then 180 + (a - 0x7000000) / 0x8000 else 244 + (a - 0x7000000) / 0x8000)
  else if 0x8000000 ≤ a ∧ a < 0x9200000 then 276 + (a - 0x8000000) / 0x100000
  else if a = TBL_EVENT then 294
  else if a = SWC_EVENT then 295
  else if a = CPH_EVENT then 296
  else if a = RLT_EVENT then 297
  else if a = RLT_MEM_EVENT then 298
  else if a = STO_EVENT then 299
  else 301

/-- Ports whose HLT_PORT_CFG.EN is 1: only a register away from its reset value can have it. -/
def State.enabledPorts (s : State) : List Nat :=
  (tblKeys (fun a v => decide (HLT_PORT_CFG 0 ≤ a) && decide (a < HLT_PORT_CFG 48) && (getField v 0 1 == 1)) s.regs).map
    (fun a => (a - HLT_PORT_CFG 0) / 4)

/-- One health message to a port, or held while its COAL_US interval runs (R486). -/
def notifyPort (p : Nat) (s : State) : State :=
  if s.portIsEndpoint p = false then s
  else match tblGet s.health.coal p with
    | some _ => { s with health := { s.health with coal := tblPut s.health.coal p true } }
    | none =>
        let s := s.sendVector p 0 (s.rd (HLT_PORT_CFG_VEC p))
        { s with health := { s.health with coal := tblPut s.health.coal p false } }

/-- Tell every enabled manager that an event bit turned 1 (R486). -/
def notifyAll (s : State) : State := s.enabledPorts.foldl (fun t p => notifyPort p t) s

/-- Set an event bit. When it turns from 0 to 1 its cairn source has an event and the managers are told. -/
def raise (f : Fld) (s : State) : State :=
  if s.bit f then s
  else notifyAll (cairnEvent (eventSource f.addr) (s.wr f 1))

/-- Set a bit of PNL_EVENT of one cluster: cairn source 300 of that cluster alone. -/
def raisePnl (cluster : Nat) (f : Fld) (s : State) : State :=
  if s.bit f then s
  else notifyAll (cairnEventIn cluster 300 (s.wr f 1))

/-- A bit is set in some register of a list of addresses. -/
def State.anySet (s : State) (as : List Nat) : Bool := as.any (fun a => s.reg a != 0)

/-- The event registers of each block, in the bit order of HLT_SUMMARY (Table 18.3), from bit 1 on. -/
def summaryRegs : List (List Nat) :=
  [[DTM_EVENT], [ADM_EVENT], [GRT_EVENT], (List.range 48).map HP_EVENT, [RNG_EVENT], (List.range 64).map NET_EVENT,
   (List.range 32).map NET_CAGE_EVENT, (List.range 18).map BNC_EVENT, [TBL_EVENT], [SWC_EVENT], [CPH_EVENT],
   [RLT_EVENT], [RLT_MEM_EVENT], [STO_EVENT], (List.range 8).map PNL_EVENT, [HLT_EVENT]]

/-- Bits of a list, lowest first, as a number. -/
def ofBits : List Bool → Nat
  | [] => 0
  | b :: bs => (if b then 1 else 0) + 2 * ofBits bs

/-- Set when a bit of a list of event registers is (R486). Reserved bits of event registers are never set. -/
def State.summary (s : State) (noticeOpen : Bool) : Nat := ofBits (noticeOpen :: summaryRegs.map s.anySet)

end Sys2Proof.Machine
end

