-- ==== Sys2Proof/Machine/Operands.lean ====
section
/-! DEFINITION. Entry operands: the common header of Table 7.2, the fields of bytes 8-63, and completions built from
(byte, width in bytes, value) triples (R171, R172, R177). -/

namespace Sys2Proof.Machine

/-- The n-byte little-endian field of an entry at a byte offset. -/
def eN (e : Entry) (byte n : Nat) : Nat := e.toNat / 2 ^ (8 * byte) % 2 ^ (8 * n)

/-- w bits of an entry from bit b of a byte on. -/
def eBits (e : Entry) (byte b w : Nat) : Nat := e.toNat / 2 ^ (8 * byte + b) % 2 ^ w

/-- OPCODE. -/
def opcode (e : Entry) : Nat := eN e 0 1
/-- OWN: the device owns the entry. -/
def ownBit (e : Entry) : Bool := eBits e 1 0 1 == 1
/-- FIRST. -/
def firstBit (e : Entry) : Bool := eBits e 1 1 1 == 1
/-- LAST. -/
def lastBit (e : Entry) : Bool := eBits e 1 2 1 == 1
/-- FENCE. -/
def fenceBit (e : Entry) : Bool := eBits e 1 3 1 == 1
/-- INT. -/
def intBit (e : Entry) : Bool := eBits e 1 4 1 == 1
/-- TAG. -/
def tagOf (e : Entry) : Nat := eN e 2 2

/-- Fields of bytes 8-63: byte offset, width in bytes, value. -/
abbrev Body := List (Nat × Nat × Nat)

/-- The number a list of fields spells. -/
def packBody : Body → Nat
  | [] => 0
  | (byte, n, v) :: rest => (v % 2 ^ (8 * n)) * 2 ^ (8 * byte) + packBody rest

/-- Bytes 0-7 of a completion (Table 7.2): OPCODE, TAG, FENCE and INT unchanged, OWN 0, FIRST and LAST as applied. -/
def headerOf (e : Entry) (first last : Bool) (status chainN : Nat) : Nat :=
  opcode e
    + (if first then 2 else 0) * 2 ^ 8 + (if last then 4 else 0) * 2 ^ 8
    + (if fenceBit e then 8 else 0) * 2 ^ 8 + (if intBit e then 16 else 0) * 2 ^ 8
    + tagOf e * 2 ^ 16 + (status % 2 ^ 16) * 2 ^ 32 + (chainN % 2 ^ 8) * 2 ^ 48

/-- The completion of an entry. -/
def mkCompletion (e : Entry) (first last : Bool) (status chainN : Nat) (body : Body) : Entry :=
  BitVec.ofNat 512 (headerOf e first last status chainN + packBody body)

/-- An entry from a header byte 1, an opcode, a tag and fields: for witnesses and tests. -/
def mkEntry (op flags tag : Nat) (body : Body) : Entry :=
  BitVec.ofNat 512 (op + flags * 2 ^ 8 + tag * 2 ^ 16 + packBody body)

/-- An opcode has a defined meaning in stepping A1 (R170). -/
def opcodeDefined (op : Nat) : Bool :=
  !(op == 0x07 || (0x0D ≤ op && op ≤ 0x0F) || (0x16 ≤ op && op ≤ 0x1F) || (0x28 ≤ op && op ≤ 0x2F)
    || (0x36 ≤ op && op ≤ 0x3F) || (0x45 ≤ op && op ≤ 0x4F) || (0x54 ≤ op && op ≤ 0x57)
    || (0x5D ≤ op && op ≤ 0x5F) || (0x69 ≤ op && op ≤ 0x6F) || (0x72 ≤ op && op ≤ 0x7F)
    || (0x82 ≤ op && op ≤ 0x87) || (0x8A ≤ op && op ≤ 0x8F) || (0xA0 ≤ op && op ≤ 0xFF))

/-- A ring kind accepts an opcode (Table 7.1). -/
def kindAccepts (kind op : Nat) : Bool :=
  match kind with
  | 0 => op ≤ 0x7F || op == 0x88 || op == 0x89
  | 1 => op == 0 || op == 0x80
  | 2 => op == 0 || op == 0x81
  | 3 => op == 0 || op == 0x88 || op == 0x89
  | 4 => op == 0 || (0x90 ≤ op && op ≤ 0x9F)
  | _ => false

/-- An opcode that defines a chain form: TX_PKT alone (R204); every other entry stands alone (R184).
-/
def chainForm (op : Nat) : Bool := op == 0x80

end Sys2Proof.Machine
end

