-- ==== Sys2Proof/Machine/HealthOps.lean ====
section
/-! DEFINITION. Shared health operations: protection events, survey records, the fault log, spares, the health state
with replace-me and its balls, and platform events (R30, R75, R482-R491, R508). -/

namespace Sys2Proof.Machine

/-! ## Protection events (R30, R488) -/

/-- HLT_PROT_ENTRY0 of an event. -/
def protEntry (who : Party) (addr : Nat) (isWrite : Bool) (offset : Option Nat) : BitVec 64 :=
  let place := match who with
    | .host p f => p * 2 ^ 48 + f * 2 ^ 54
    | .firmware k => k * 2 ^ 48 + 2 ^ 59
    | _ => 0
  let where' := match offset with
    | some bar => 2 ^ 60 + bar * 2 ^ 61
    | none => 0
  BitVec.ofNat 64 (addr % 2 ^ 48 + place + (if isWrite then 2 ^ 57 else 0) + 2 ^ 58 + where')

/-- Show the oldest entry of the protection log in HLT_PROT_ENTRY0 and ENTRY1. -/
def showProt (s : State) : State :=
  match s.health.protLog with
  | [] => (s.setReg HLT_PROT_ENTRY0 0).setReg HLT_PROT_ENTRY1 0
  | (a, t) :: _ => (s.setReg HLT_PROT_ENTRY0 a).setReg HLT_PROT_ENTRY1 t

/-- Record a protection event: counted, logged in the 16-entry log or dropped and counted, HLT_EVENT.PROT raised by
the first entry of an empty log (R488). offset names the BAR when the request fell in no valid window. The Surveyor
island and the BMC record none (R30, R506). -/
def protEvent (who : Party) (addr : Nat) (isWrite : Bool) (offset : Option Nat) (s : State) : State :=
  match who with
  | .surveyor => s
  | .bmc => s
  | _ =>
    let s := s.count HLT_PROT_CNT_COUNT 1
    if 16 ≤ s.health.protLog.length then s.count HLT_PROT_DROP_COUNT 1
    else
      let first := s.health.protLog.isEmpty
      let log := s.health.protLog ++ [(protEntry who addr isWrite offset, s.dshort)]
      let s := showProt { s with health := { s.health with protLog := log } }
      if first then raise HLT_EVENT_PROT s else s

/-! ## Survey (R489, R490) -/

/-- Write a survey record into the ring of 256; when unread records would exceed 256 the oldest is lost (R490).
Its arrival is cairn source 302 (R487). -/
def surveyRec (kind event index detail : Nat) (serial : Bytes) (vendor : Nat) (s : State) : State :=
  let wr := s.rd HLT_SURV_WR_COUNT
  let r : SurveyRec := ⟨kind, event, index, detail, s.dshort, serial, vendor⟩
  let s := { s with health := { s.health with survey := tblPut s.health.survey (wr % 256) r } }
  let s := s.wr HLT_SURV_WR_COUNT (wr + 1)
  let s := if (wr + 1 + 2 ^ 32 - s.rd HLT_SURV_RD_COUNT) % 2 ^ 32 > 256 then
      (s.wr HLT_SURV_RD_COUNT (s.rd HLT_SURV_RD_COUNT + 1)).count HLT_SURV_LOST_COUNT 1 else s
  cairnEvent 302 (raise HLT_EVENT_SURVEY s)

/-! ## Spares and the health state (R73, R75, R484, R485) -/

/-- Some inventory of Table 3.7 is 0: benches, bank groups, or the path of a link on its reserve. -/
def State.noSpare (s : State) : Bool :=
  s.rd HLT_SPARE_BENCH == 0 || s.rd HLT_SPARE_GROUP == 0 || !s.grt.links.isEmpty

/-- Some spare is consumed, a core is FAILED or a bank has used its last repair row. -/
def State.spared (s : State) : Bool :=
  s.rd HLT_SPARE_BENCH != 2 || s.rd HLT_SPARE_GROUP != 1 || !s.grt.links.isEmpty
    || s.rd HLT_SPARE_CORES_FAILED != 0 || s.bit HLT_SPARE_HBM_LOW

/-- The health state of Table 18.2; MINIMAL and IMPAIRED take precedence. -/
def State.healthCode (s : State) : Nat :=
  if s.rd SVY_BOOT_STATUS_STATE = 4 then 4
  else if s.rd HLT_STATUS_IMPAIRED_CAUSE ≠ 0 then 3
  else if s.noSpare then 2
  else if s.spared then 1
  else 0

/-- Replace-me of a health state (Table 18.2). -/
def State.replaceMe (s : State) (code : Nat) : Bool :=
  code == 1 || code == 2 || code == 3
    || (code == 4 && (s.rd SVY_BOOT_CAUSE_CODE == 4 || s.rd SVY_BOOT_CAUSE_CODE == 5))

/-- What FAULT_LED does: 0 off, 1 at 1 Hz, 2 at 4 Hz, 3 on, 4 at 0.5 Hz while LOCATE is set (R485). -/
def State.led (s : State) : Nat :=
  if s.bit HLT_CTRL_LOCATE then 4
  else match s.rd HLT_STATUS_HEALTH with
    | 0 => 0 | 1 => 1 | 2 => 1 | 3 => 2 | _ => 3

/-- Send a management message on a binding; on I3C it is announced by an in-band interrupt (R501, R503). -/
def sendMctp (b kind code : Nat) (bs : Bytes) (s : State) : State := (if b = 0 then s.emit .inBand else s).emit (.mctp b kind code bs)

/-- A state sensor of Table 19.3 changed: a PlatformEventMessage to the event receiver, kept until acknowledged (R508). -/
def platformEvent (sensor value : Nat) (s : State) : State :=
  match s.mgmt.receiver with
  | none => s
  | some (b, eid) =>
      let s := sendMctp b 1 sensor (leBytes 2 value ++ leBytes 1 eid) s
      { s with mgmt := { s.mgmt with
          unacked := s.mgmt.unacked.filter (fun x => x.1 != sensor) ++ [(sensor, value, 1)] } }

/-- Replace-me follows the health state: its ball and state sensor (R485). -/
def followReplaceMe (s : State) : State :=
  let now := s.replaceMe (s.rd HLT_STATUS_HEALTH)
  if s.bit HLT_STATUS_REPLACE_ME = now then s
  else platformEvent 2 (if now then 2 else 1) ((s.wr HLT_STATUS_REPLACE_ME (if now then 1 else 0)).emit (.ball 0 0 (if now then 0 else 1)))

/-- Recompute the health state; a change raises HLT_EVENT.STATE, and the LED, the state sensor and replace-me follow (R484,
R485). -/
def updateHealth (s : State) : State :=
  let code := s.healthCode
  if code = s.rd HLT_STATUS_HEALTH then followReplaceMe s
  else
    let s := s.wr HLT_STATUS_HEALTH code
    followReplaceMe (platformEvent 1 (code + 1) (raise HLT_EVENT_STATE (s.emit (.ball 1 0 s.led))))

/-- A fault beyond the single-fault model: IMPAIRED with the first cause since reset (R482). -/
def beyondModel (cause : Nat) (s : State) : State :=
  updateHealth (if s.rd HLT_STATUS_IMPAIRED_CAUSE = 0 then s.wr HLT_STATUS_IMPAIRED_CAUSE cause else s)

/-- A spare was consumed: contracts stay ADMITTED, MARGIN_LOST is set and raised, NO_SPARE follows the inventories
and ADM_GEN increments (R75, R85). -/
def spareConsumed (s : State) : State :=
  let s := s.wr ADM_STATUS_MARGIN_LOST 1
  let s := s.wr ADM_STATUS_NO_SPARE (if s.noSpare then 1 else 0)
  let s := s.wr ADM_GEN_GENERATION (s.rd ADM_GEN_GENERATION + 1)
  updateHealth (raise ADM_EVENT_MARGIN_LOST s)

/-! ## The fault log (R483) -/

/-- A fault of this KIND leaves its unit out of service for good. -/
def permanentKind (kind : Nat) : Bool :=
  kind == 0x01 || kind == 0x02 || kind == 0x05 || kind == 0x06 || kind == 0x0C

/-- Append a fault to the fault log, oldest entry overwritten, and to the boot record when it is permanent (R483).
Its instant opens the window of R74. -/
def logFault (kind unit : Nat) (spare beyond permanent : Bool) (s : State) : State :=
  let r := s.rd HLT_FAULT_CNT_COUNT % 32
  let s := s.setReg (HLT_FAULT r) (BitVec.ofNat 64
    (kind % 256 + (unit % 4096) * 256 + (if spare then 2 ^ 20 else 0) + (if beyond then 2 ^ 21 else 0)))
  let s := s.setReg (HLT_FAULT_T r) s.dshort
  let s := s.count HLT_FAULT_CNT_COUNT 1
  let s := { s with swc := { s.swc with faults := s.ns :: s.swc.faults } }
  let s := if permanent then
      { s with health := { s.health with permanent := s.health.permanent ++ [⟨kind, unit⟩] } } else s
  raise HLT_EVENT_FAULT s

end Sys2Proof.Machine
end

