-- ==== Sys2Proof/Machine/Mailbox.lean ====
section
/-! DEFINITION. Sheets' identity and shares, mailbox slots and device messages, and the mailbox commands
(spec 06: R146-R155, R162). -/

namespace Sys2Proof.Machine

/-! ## Identity, shares and usage -/

/-- Sheets allotted to each endpoint port: 4,096 / E (R147); none while no endpoint port is configured. -/
def State.allotment (s : State) : Nat := 4096 / s.endpoints.length

/-- The endpoint port a sheet is allotted to (R147). -/
def State.sheetPort (s : State) (n : Nat) : Option Nat :=
  if s.allotment = 0 then none else s.endpoints[n / s.allotment]?

/-- The physical function of a sheet. -/
def State.sheetPf (s : State) (n : Nat) : Nat := s.rd (CAD_ID_PF n)

/-- The host port of a sheet; port 48 (none) for a sheet allotted to no port. -/
def State.sheetPortD (s : State) (n : Nat) : Nat := (s.sheetPort n).getD 48

/-- The function of a sheet on its port. -/
def State.sheetFunc (s : State) (n : Nat) : Func := s.func (s.sheetPortD n) (s.sheetPf n)

/-- The 40-byte share record of Table 6.1, as a number. -/
def State.shareRecord (s : State) (n : Nat) : Nat :=
  s.rd (CAD_SHARE_SHARE n 0) + s.rd (CAD_SHARE_SHARE n 1) * 2 ^ 64 + s.rd (CAD_SHARE_SHARE n 2) * 2 ^ 128
    + s.rd (CAD_SHARE_SHARE n 3) * 2 ^ 192 + s.rd (CAD_SHARE_SHARE n 4) * 2 ^ 256

/-- Share m (mask bit of Table 6.1) of a share record: 32 bits each, CONTRACT_RATE 64 bits. -/
def shareOf (rec m : Nat) : Nat := rec / 2 ^ (32 * m) % (if m = 7 then 2 ^ 64 else 2 ^ 32)

/-- A share record with share m replaced. -/
def withShare (rec m v : Nat) : Nat :=
  if m = 7 then rec % 2 ^ 224 + (v % 2 ^ 64) * 2 ^ 224 + rec / 2 ^ 288 * 2 ^ 288
  else rec % 2 ^ (32 * m) + (v % 2 ^ 32) * 2 ^ (32 * m) + rec / 2 ^ (32 * m + 32) * 2 ^ (32 * m + 32)

/-- Write a share record into CAD_SHARE0-4. -/
def State.setShareRecord (s : State) (n rec : Nat) : State :=
  ((((s.wr (CAD_SHARE_SHARE n 0) rec).wr (CAD_SHARE_SHARE n 1) (rec / 2 ^ 64)).wr (CAD_SHARE_SHARE n 2)
    (rec / 2 ^ 128)).wr (CAD_SHARE_SHARE n 3) (rec / 2 ^ 192)).wr (CAD_SHARE_SHARE n 4) (rec / 2 ^ 256)

/-- The limit of share m of a sheet. -/
def State.limit (s : State) (n m : Nat) : Nat := shareOf (s.shareRecord n) m

/-- Setts a packet of L bytes occupies (R21). -/
def setts (len : Nat) : Nat := (len + 255) / 256

/-- Sett reservation S of a contract (R72): Q = b + r x D / 8 bytes (r in b/s, D in ns), rounded up. -/
def reserveQ (p : ContractParams) : Nat := p.burst + (p.rate * p.deadline + 7999999999) / 8000000000

/-- S := ceil(Q / 256) + ceil(Q / Lmin). -/
def reserveS (p : ContractParams) : Nat := (reserveQ p + 255) / 256 + (reserveQ p + p.lmin - 1) / p.lmin

/-- Sum of a measure over the contracts of a sheet that are not FREE. -/
def State.sheetContracts (s : State) (n : Nat) (f : Contract → Nat) : Nat :=
  tblSum (fun _ c => if c.sheet = n then f c else 0) s.contracts

/-- Setts of the packets a sheet sent that the store holds, each counted once (R295, R301). -/
def State.sheetSetts (s : State) (n : Nat) : Nat :=
  tblSum (fun _ r => if r.sheet = some n then r.setts else 0) s.swc.residents

/-- Usage of share m of a sheet (R151). -/
def State.usage (s : State) (n m : Nat) : Nat :=
  match m with
  | 0 => tblCount (fun _ r => r.sheet == n) s.rings
  | 1 => s.sheetSetts n + s.sheetContracts n (fun c => reserveS c.par)
  | 3 => tblCount (fun k a => a.sheet == n && decide (k < 0x40000)) s.sas
  | 4 => tblCount (fun _ c => c.sheet == n) s.conns
  | 5 => tblCount (fun _ c => c.sheet == n) s.ctrls
  | 6 => tblCount (fun _ c => c.sheet == n) s.contracts
  | 7 => s.sheetContracts n (fun c => c.par.rate)
  | _ => 0

/-- The usage record, laid out as the share record (R149, R151). -/
def State.usageRecord (s : State) (n : Nat) : Nat :=
  [0, 1, 3, 4, 5, 6, 7].foldl (fun rec m => withShare rec m (s.usage n m)) 0

/-- Totals of Table 6.2 of a pooled share. -/
def poolTotal (m : Nat) : Nat :=
  match m with
  | 0 => 1048576 | 3 => 262144 | 4 => 1048576 | 5 => 4096 | 6 => 65536 | _ => 0

/-- The pooled shares, by mask bit. -/
def pooledShares : List Nat := [0, 3, 4, 5, 6]

/-- Share m is pooled. -/
def isPooled (m : Nat) : Bool := pooledShares.contains m

/-- A port's pool of a pooled share (R150). -/
def State.pool (s : State) (m : Nat) : Nat := poolTotal m / s.endpoints.length

/-- What a sheet charges its port's pool: its limit, or max(limit, usage) while a shrink is pending (R150). -/
def State.charge (s : State) (n m : Nat) : Nat :=
  if (s.sheet n).pendingMask.getLsbD m then max (s.limit n m) (s.usage n m) else s.limit n m

/-- What the sheets of a port other than one charge its pool. -/
def State.poolCharged (s : State) (port m except : Nat) : Nat :=
  tblSum (fun n _ => if s.sheetPort n = some port ∧ n ≠ except then s.charge n m else 0) s.sheets

/-! ## Slots and device messages -/

/-- Bytes of a slot that the device fills with a message of its own: FLAGS are DEVICE and LOST (R154, R155). -/
def stampMsg (m : Entry) (lost : Bool) (seq : BitVec 16) : Entry :=
  BitVec.ofNat 512 (m.toNat % 2 ^ 8 + (if lost then 3 else 1) * 2 ^ 8 + seq.toNat * 2 ^ 16 + m.toNat / 2 ^ 32 * 2 ^ 32)

/-- Bytes of a slot filled on a BELL: the device writes FLAGS.DEVICE 0 and SEQ, and keeps every other bit (R154). -/
def bellMsg (m : Entry) (seq : BitVec 16) : Entry :=
  BitVec.ofNat 512 (m.toNat % 2 ^ 8 + m.toNat / 2 ^ 9 % 2 ^ 7 * 2 ^ 9 + seq.toNat * 2 ^ 16 + m.toNat / 2 ^ 32 * 2 ^ 32)

/-- Make a slot FULL with a device message (R155). -/
def MailSlot.deliver (sl : MailSlot) (m : Entry) : MailSlot :=
  { sl with state := .full, fills := sl.fills + 1, bytes := stampMsg m sl.lost (sl.fills + 1), lost := false }

/-- Send the reader's vector of a slot: VEC_MGR of function 0 for UP, VEC_TEN of the sheet's function for DOWN. -/
def mailVector (n : Nat) (up : Bool) (s : State) : State :=
  if up then s.sendVector (s.sheetPortD n) 0 (s.rd (CAD_ID_VEC_MGR n))
  else s.sendVector (s.sheetPortD n) (s.sheetPf n) (s.rd (CAD_ID_VEC_TEN n))

/-- A sheet's slot. -/
def Sheet.slot (x : Sheet) (up : Bool) : MailSlot := if up then x.up else x.down

/-- A sheet with a slot replaced. -/
def Sheet.withSlot (x : Sheet) (up : Bool) (sl : MailSlot) : Sheet :=
  if up then { x with up := sl } else { x with down := sl }

/-- Post a device message: deliver it to an EMPTY slot with nothing queued, queue it up to 8 deep, or drop it and
remember LOST (R155). A FREE sheet has no mailbox. -/
def postMsg (n : Nat) (up : Bool) (code : Nat) (body : Body) (s : State) : State :=
  let x := s.sheet n
  if x.state = .free then s
  else
    let sl := x.slot up
    let m : Entry := BitVec.ofNat 512 (code + packBody body)
    if sl.state = .empty ∧ sl.queue = [] then
      mailVector n up (s.setSheet n (x.withSlot up (sl.deliver m)))
    else if sl.queue.length < 8 then
      s.setSheet n (x.withSlot up { sl with queue := sl.queue ++ [m] })
    else s.setSheet n (x.withSlot up { sl with lost := true })

/-- CONTRACT_STATE (Table 6.5) to the DOWN slot of the contract's sheet. -/
def postContractState (c sheet old new cause : Nat) (s : State) : State :=
  postMsg sheet false 1 [(8, 2, c), (10, 1, old), (11, 1, new), (12, 1, cause), (16, 8, s.dshort.toNat)] s

/-- SHEET_STATE (Table 6.5) to both slots. -/
def postSheetState (n old new cause : Nat) (s : State) : State :=
  let body := [(8, 1, old), (9, 1, new), (10, 1, cause), (16, 8, s.dshort.toNat)]
  postMsg n false 2 body (postMsg n true 2 body s)

/-- SHARES (Table 6.5) to both slots: PENDING mask and effective share record. -/
def postShares (n : Nat) (s : State) : State :=
  let body := [(8, 2, (s.sheet n).pendingMask.toNat), (16, 40, s.shareRecord n)]
  postMsg n false 3 body (postMsg n true 3 body s)

/-- CONN_STATE (Table 6.5) to the DOWN slot. -/
def postConnState (n conn old new cause : Nat) (s : State) : State :=
  postMsg n false 4 [(8, 4, conn), (12, 1, old), (13, 1, new), (14, 1, cause), (16, 8, s.dshort.toNat)] s

/-- Clear the pending shrinks of a sheet whose usage has fallen to the limit, and post SHARES when one cleared (R162). -/
def resolveShrinks (n : Nat) (s : State) : State :=
  let x := s.sheet n
  let mask := BitVec.ofNat 8 (ofBits ((List.range 8).map
    (fun m => x.pendingMask.getLsbD m && decide (s.limit n m < s.usage n m))))
  if mask = x.pendingMask then s
  else postShares n (s.setSheet n { x with pendingMask := mask })

/-! ## Sides (R148) -/

/-- The side of a sheet's mailbox that a party acts on: true for the tenant side. On a sheet of function 0 an access
through function 0 acts on whichever side the register belongs to. -/
def actsOn (s : State) (n : Nat) (who : Party) (tenantSide : Bool) : Bool :=
  match who with
  | .host p f =>
      s.sheetPort n == some p &&
        (if f = 0 then (!tenantSide || s.sheetPf n == 0) else (tenantSide && s.sheetPf n == f))
  | .bmc => false
  | _ => !tenantSide

/-- A claim read: true and the slot CLAIMED when it is EMPTY and no device message is queued for it (R153). -/
def claimSlot (n : Nat) (up : Bool) (who : Party) (s : State) : Bool × State :=
  let x := s.sheet n
  let sl := x.slot up
  if x.state ≠ .free ∧ actsOn s n who up ∧ sl.state = .empty ∧ sl.queue = [] then
    (true, s.setSheet n (x.withSlot up { sl with state := .claimed }))
  else (false, s)

/-- A BELL write: a CLAIMED slot becomes FULL, with FLAGS.DEVICE 0 and SEQ written by the device, and the reader's
vector is sent (R153, R154). -/
def bellSlot (n : Nat) (up : Bool) (who : Party) (s : State) : State :=
  let x := s.sheet n
  let sl := x.slot up
  if x.state ≠ .free ∧ actsOn s n who up ∧ sl.state = .claimed then
    mailVector n up (s.setSheet n (x.withSlot up
      { sl with state := .full, fills := sl.fills + 1, bytes := bellMsg sl.bytes (sl.fills + 1) }))
  else s

/-- An ACK write: a FULL slot becomes EMPTY, its bytes kept, and the oldest queued device message fills it
(R153, R155). -/
def ackSlot (n : Nat) (up : Bool) (who : Party) (s : State) : State :=
  let x := s.sheet n
  let sl := x.slot up
  if x.state ≠ .free ∧ actsOn s n who (!up) ∧ sl.state = .full then
    match sl.queue with
    | [] => s.setSheet n (x.withSlot up { sl with state := .empty })
    | m :: rest => mailVector n up (s.setSheet n (x.withSlot up
        (({ sl with state := .empty, queue := rest } : MailSlot).deliver m)))
  else s

/-- A slot-byte write: a whole aligned dword, taken only while the slot is CLAIMED and from its writer's side. -/
def writeSlot (n : Nat) (up : Bool) (who : Party) (off : Nat) (bytes : Bytes) (s : State) : State :=
  let x := s.sheet n
  let sl := x.slot up
  if x.state ≠ .free ∧ actsOn s n who up ∧ sl.state = .claimed then
    s.setSheet n (x.withSlot up { sl with bytes := BitVec.ofNat 512 (ofLe (overwrite (leBytes 64 sl.bytes.toNat) off bytes)) })
  else s

/-- MBX_STATUS of a sheet (Table 6.12); 0 when the sheet is FREE. -/
def State.mbxStatus (s : State) (n : Nat) : Nat :=
  let x := s.sheet n
  if x.state = .free then 0
  else x.up.state.code + x.down.state.code * 4 + x.state.code * 16 + (if x.state = .disabled then 128 else 0)
    + x.up.queue.length * 256 + x.down.queue.length * 4096 + x.pendingMask.toNat * 65536

/-- MBX_CLAIM_TIMEOUT: a slot CLAIMED for 100 us without a BELL returns to EMPTY and its bytes are discarded (R153):
what they read until the next fill is a free value (log entry 3); a device message queued meanwhile fills it. -/
def execMbxClaimTimeout (sheet : Nat) (up : Bool) (s : State) : Host.Outcome State Fault Refusal :=
  let x := s.sheet sheet
  let sl := x.slot up
  if sl.state = .claimed then
    match sl.queue with
    | [] => .next (s.drawnEntry.setSheet sheet (x.withSlot up { sl with state := .empty, bytes := s.drawEntry }))
    | m :: rest => .next (mailVector sheet up (s.setSheet sheet (x.withSlot up
        (({ sl with state := .empty, queue := rest } : MailSlot).deliver m))))
  else .next s

end Sys2Proof.Machine
end

