-- ==== Sys2Proof/Machine/Store.lean ====
section
/-! DEFINITION. The sett store: residents and parts (Table 11.5), VOQs, back-pressure with its floor and PFC, and the
removal of queued packets (R20, R164, R193, R217, R290-R295, R301, R309). -/

namespace Sys2Proof.Machine

/-- VOQ index of inlet i, outlet o and class c (R20). -/
def voqIndex (i o c : Nat) : Nat := (i * 128 + o) * 8 + c
/-- Inlet of a VOQ. -/
def voqInlet (v : Nat) : Nat := v / 1024
/-- Outlet of a VOQ. -/
def voqOutlet (v : Nat) : Nat := v / 8 % 128
/-- Class of a VOQ. -/
def voqClass (v : Nat) : Nat := v % 8

/-- A class is timed (ADM_CTRL.TIMED, R68). -/
def State.timed (s : State) (c : Nat) : Bool := (s.rd ADM_CTRL_TIMED).testBit c

/-- Spoil a count of packets with a reason 0x10-0x1F: the reason's counter (R309). -/
def countSpoil (reason n : Nat) (s : State) : State := s.count (SWC_SPOIL_CNT (reason - 0x10)) n

/-! ## Packets queued (R20, R309) -/

/-- Packets of a table of queues that satisfy a test. -/
def packetsWhere (p : Packet → Bool) (t : Tbl (List Packet)) : List Packet :=
  t.flatMap (fun q => q.2.filter p)

/-- Remove from every queue the packets that satisfy a test; an empty queue is not listed. -/
def dropWhere (p : Packet → Bool) : Tbl (List Packet) → Tbl (List Packet)
  | [] => []
  | (k, q) :: rest =>
      let q' := q.filter (fun x => !p x)
      if q' = [] then dropWhere p rest else (k, q') :: dropWhere p rest

/-- Packets that satisfy a test: queued in VOQs, held by a bucket move, or handed to a host or internal outlet. -/
def State.packets (s : State) (p : Packet → Bool) : List Packet :=
  packetsWhere p s.voqs ++ (s.pipe.held.map (fun h => h.pkt)).filter p ++ packetsWhere p s.swc.handed

/-- Remove them. -/
def dropPackets (p : Packet → Bool) (s : State) : State :=
  { s with
    voqs := dropWhere p s.voqs
    pipe := { s.pipe with held := s.pipe.held.filter (fun h => !p h.pkt) }
    swc := { s.swc with handed := dropWhere p s.swc.handed } }

/-- Mark a packet as held by a cause outside the device. -/
def Packet.external (p : Packet → Bool) (x : Packet) : Packet := if p x then { x with ext := true } else x

/-- Record that a cause outside the device holds the packets that satisfy a test (R76). -/
def markExternal (p : Packet → Bool) (s : State) : State :=
  { s with
    voqs := tblMap (fun _ q => q.map (Packet.external p)) s.voqs
    pipe := { s.pipe with held := s.pipe.held.map (fun h => { h with pkt := Packet.external p h.pkt }) }
    swc := { s.swc with handed := tblMap (fun _ q => q.map (Packet.external p)) s.swc.handed } }

/-! ## Free receive entries (R205) -/

/-- The first entry of a job. -/
def Job.first (j : Job) : Entry := j.entries.headD 0

/-- BUF_LEN of a posted entry. -/
def bufLen (j : Job) : Nat := eN j.first 16 4

/-- Entries that take a packet of a length, from the first of a list on: none when those given do not hold it. -/
def takeBuffers (len : Nat) : List Job → Option (List Job)
  | [] => none
  | j :: rest => if len ≤ bufLen j then some [j] else (takeBuffers (len - bufLen j) rest).map (fun l => j :: l)

/-- The posted entries a list of jobs begins with: jobs stand in index order, so their entries are consecutive. -/
def postedRun : List Job → List Job
  | [] => []
  | j :: rest => if j.phase = .posted then j :: postedRun rest else []

/-- The consecutive free entries, at most 64, that a packet of a length takes: R205 leaves open which of several, and the model
takes the first that hold it (DESIGN CHOICE, log entry 26). -/
def findRun (len : Nat) : List Job → Option (List Job)
  | [] => none
  | j :: rest => match takeBuffers len ((postedRun (j :: rest)).take 64) with
    | some l => some l
    | none => findRun len rest

/-- Posted entries of a ring, in order. -/
def Ring.posted (r : Ring) : List Job := r.jobs.filter (fun j => j.phase == .posted)

/-- A packet is a capture copy on its way to the capture ring's port (R310); a default delivery to a cluster carries its
reason too, but is none. -/
def Packet.isCapture (p : Packet) : Bool := p.spoil != 0 && decide (64 ≤ p.outlet) && decide (p.outlet < 112)

/-- The free entries of a packet's ring do not hold it, and the ring has fewer than the 64 that a packet may take. A
capture never waits (R311). -/
def State.lacksEntries (s : State) (p : Packet) : Bool :=
  match p.ring.bind s.ring? with
  | none => false
  | some r => r.state == .running && !p.isCapture && decide (r.posted.length < 64) && (findRun p.bytes.length r.jobs).isNone

/-! ## Received pause (R219) -/

/-- Number of a port's class. -/
def pauseKey (p c : Nat) : Nat := p * 8 + c

/-- Classes of a port stopped by received pause. -/
def State.pausedClasses (s : State) (p : Nat) : List Nat :=
  (List.range 8).filter (fun c => (tblGet s.net.pause (pauseKey p c)).isSome)

/-- A cause outside the device holds a queued packet now: received pause of its class, or no free entry of its receive ring
(R76). -/
def State.heldOutside (s : State) (p : Packet) : Bool :=
  (decide (p.outlet < 64) && (s.pausedClasses p.outlet).contains p.cls)
    || (decide (64 ≤ p.outlet) && decide (p.outlet < 112) && s.lacksEntries p)

/-! ## Residents (R21, R290, R301) -/

/-- Setts a packet's resident holds. -/
def State.residentSetts (s : State) (id : Nat) : Nat :=
  match tblGet s.swc.residents id with
  | some r => r.setts
  | none => 0

/-- Setts in use of one part. -/
def State.partUsed (s : State) (p : Part) : Nat := tblSum (fun _ r => if r.part = p then r.setts else 0) s.swc.residents

/-- F, the free setts of the shared pool. -/
def State.freeSetts (s : State) : Nat := s.rd SWC_POOL_SHARED - s.partUsed .shared

/-- Descriptors in use: one of each resident packet and one of each copy (R301). -/
def State.descriptors (s : State) : Nat := s.swc.residents.length + (s.packets (fun p => p.copy)).length

/-- Bank groups that take new setts (R287, R289). -/
def State.activeGroups (s : State) : List Nat :=
  (List.range 16).filter (fun g => !s.swc.draining.contains g && !s.swc.outGroups.contains g)

/-- Groups of n setts, in rotation over the active groups from the one after the writer's last (R287). -/
def rotation (active : List Nat) (last : Option Nat) (n : Nat) : List Nat :=
  let start := match last with
    | none => 0
    | some g => (active.filter (fun x => decide (x ≤ g))).length
  (List.range n).filterMap (fun k => active[(start + k) % active.length]?)

/-- Number a new resident, place its setts in the bank groups and store it. The writer of a packet is its inlet, of a cut copy the copy
feed, 128 (DESIGN CHOICE, log entry 23). -/
def addResident (writer : Nat) (r : Resident) (s : State) : Nat × State :=
  let place := rotation s.activeGroups (tblGet s.swc.lastGroup writer) r.setts
  (s.swc.nextId,
   { s with swc := { s.swc with
      residents := tblPut s.swc.residents s.swc.nextId { r with place := place }
      nextId := s.swc.nextId + 1
      lastGroup := match place.getLast? with
        | some g => tblPut s.swc.lastGroup writer g
        | none => s.swc.lastGroup } })

/-- A bank group holds a sett. -/
def State.groupHolds (s : State) (g : Nat) : Bool := s.swc.residents.any (fun r => r.2.place.contains g)

/-- Stop using a resident's setts: the last use frees them (R301). -/
def releaseSetts (id : Nat) (s : State) : State :=
  match tblGet s.swc.residents id with
  | none => s
  | some r =>
    if r.refs ≤ 1 then { s with swc := { s.swc with residents := tblDel s.swc.residents id } }
    else { s with swc := { s.swc with residents := tblPut s.swc.residents id { r with refs := r.refs - 1 } } }

/-! ## The shared pool (Table 11.5) -/

/-- Setts of the store in service (Table 3.7). -/
def State.storeSetts (s : State) : Nat := if s.rd HLT_SPARE_GROUP = 0 then 614400 else 655360

/-- Headroom reserved by the network ports (R220). -/
def State.headroomSetts (s : State) : Nat :=
  ((List.range 64).map (fun p => s.rd (NET_HEAD_STATUS_H p) * s.rd (NET_HEAD_STATUS_PRIOS p))).sum

/-- Setts outside the timed part, the host reserves and the internal credits. -/
def State.untimedSetts (s : State) : Nat :=
  s.storeSetts - s.storeSetts * s.rd ADM_RES_SHARE_SETT / 256
    - 2048 * ((List.range 48).filter s.portPresent).length - 1024 * 11

/-- Size the shared pool: a port entered UP, a station trained, a configuration write or a bank-group fault (R290). -/
def resizePool (s : State) : State := s.wr SWC_POOL_SHARED (s.untimedSetts - s.headroomSetts)

/-! ## Back-pressure (R25, R217, R292-R294) -/

/-- The pool is at the floor (R292). -/
def State.atFloor (s : State) : Bool :=
  decide (s.freeSetts ≤ s.rd SWC_BP_FLOOR_FLOOR) || decide (1048576 < s.descriptors + 128)

/-- SHIFT of a class. -/
def State.bpShift (s : State) (c : Nat) : Nat := s.rd SWC_BP_CFG_SHIFT / 2 ^ (4 * c) % 16

/-- Setts a VOQ holds. -/
def State.voqSetts (s : State) (v : Nat) : Nat := ((tblGetD [] s.voqs v).map (fun p => s.residentSetts p.id)).sum

/-- A VOQ is XOFF after its thresholds are compared again (R292). -/
def State.xoffAgain (s : State) (v : Nat) : Bool :=
  !s.timed (voqClass v) &&
    (decide (s.freeSetts / 2 ^ s.bpShift (voqClass v) ≤ s.voqSetts v)
      || (s.swc.xoff.contains v && decide (s.freeSetts / 2 ^ (s.bpShift (voqClass v) + 1) < s.voqSetts v)))

/-- Switch-core back-pressure of an inlet for a class (R292, R294). -/
def State.pressed (s : State) (i c : Nat) : Bool :=
  if s.timed c then
    s.bit SWC_STATUS_FLOOR && s.swc.residents.any (fun r => r.2.inlet == i && r.2.cls == c && r.2.part == .shared)
  else s.bit SWC_STATUS_FLOOR || s.swc.xoff.any (fun v => voqInlet v == i && voqClass v == c)

/-- Packets an inlet has sent and the store has not acknowledged, those it is to send again among them (R247, R248). -/
def State.unacknowledged (s : State) (i : Nat) : Nat :=
  (s.pipe.flying.filter (fun f => f.inlet == i)).length + (s.pipe.waiting.filter (fun f => f.inlet == i && f.replayed)).length

/-- Back-pressure of a whole inlet under R25: 1,024 packets unacknowledged, 64 waiting for budget tokens, a packet whose bucket has
no bench, or the switch core on the hub not ready (R22, R243, R247, R262). -/
def State.blocked (s : State) (i : Nat) : Bool :=
  let mine := s.pipe.waiting.filter (fun f => f.inlet == i)
  decide (1024 ≤ s.unacknowledged i) || decide (64 ≤ (mine.filter (fun f => f.waited)).length)
    || mine.any (fun f => s.rd (BNC_MAP_BENCH f.bucket) == 0x1F) || (s.island 0xA9).inReset

/-- An inlet that is no network port takes no packet of a class from its source: back-pressure of the whole inlet or of the class
(R25, R293). -/
def State.stopped (s : State) (i c : Nat) : Bool := s.blocked i || s.pressed i c

/-- Priority of a class on a port (NET_PRIO_MAP). -/
def State.prioOf (s : State) (p c : Nat) : Nat := s.rd (NET_PRIO_MAP_PRIO p) / 2 ^ (3 * c) % 8

/-- Priorities in use on a port: those to which some class is mapped (R218). -/
def State.priosInUse (s : State) (p : Nat) : List Nat :=
  (List.range 8).filter (fun q => (List.range 8).any (fun c => s.prioOf p c == q))

/-- Bit mask of a list of bit numbers below 8. -/
def maskOf (l : List Nat) : Nat := ((List.range 8).filter (fun q => l.contains q)).foldl (fun m q => m + 2 ^ q) 0

/-- Priorities a port pauses on its partner (R217, R25). -/
def State.pausedPrios (s : State) (p : Nat) : Nat :=
  maskOf ((s.priosInUse p).filter (fun q =>
    s.blocked p || (List.range 8).any (fun c => s.prioOf p c == q && s.pressed p c)))

/-- A port that sends PFC: UP or PAUSE_FAILED (R217, R222). -/
def State.sendsPfc (s : State) (p : Nat) : Bool :=
  s.rd (NET_PORT_STATUS_STATE p) == 5 || s.rd (NET_PORT_STATUS_STATE p) == 6

/-- Send one PFC frame from NET_SRC_MAC: the enable bit of every priority in use, quanta 0xFFFF for the paused ones (R217). -/
def sendPfc (p : Nat) (s : State) : State :=
  (s.emit (.pfc p (s.rd (NET_SRC_MAC_MAC p)) (s.rd (NET_PORT_STATUS_TX_XOFF p)) (maskOf (s.priosInUse p)))).count (NET_TX_PFC p) 1

/-- Follow the set of paused priorities of a port: one PFC frame on every change. -/
def updatePfc (p : Nat) (s : State) : State :=
  if s.sendsPfc p then
    if s.rd (NET_PORT_STATUS_TX_XOFF p) = s.pausedPrios p then s
    else sendPfc p (s.wr (NET_PORT_STATUS_TX_XOFF p) (s.pausedPrios p))
  else s

/-- Compare every VOQ's thresholds and the floor again, and let the inlets follow (R292, R293). -/
def refreshPressure (s : State) : State :=
  let s := { s with swc := { s.swc with xoff := (tblKeys (fun _ (q : List Packet) => !q.isEmpty) s.voqs).filter s.xoffAgain } }
  let s := if s.atFloor then raise SWC_EVENT_FLOOR (s.wr SWC_STATUS_FLOOR 1) else s.wr SWC_STATUS_FLOOR 0
  (List.range 64).foldl (fun t p => updatePfc p t) s

/-! ## Placing packets (R68, R293, R294) -/

/-- A contract's reservation S in setts (R72). -/
def State.reservation (s : State) (id : Nat) : Nat :=
  match s.contract? id with
  | some c => reserveS c.par
  | none => 0

/-- The part a packet's setts come from: its contract's reservation while it has room, the shared pool while it is not
at the floor (and for a packet of a contract even then), else the headroom, host reserve or internal credit of its
inlet. None: a network packet that finds its headroom empty (R293, R294). -/
def State.choosePart (s : State) (inlet cls n : Nat) (contract : Option Nat) : Option Part :=
  match contract with
  | some c => if s.partUsed (.timed c) + n ≤ s.reservation c then some (.timed c) else some .shared
  | none =>
    if s.bit SWC_STATUS_FLOOR = false then some .shared
    else if inlet < 64 then
      let q := s.prioOf inlet cls
      if s.partUsed (.headroom inlet q) + n ≤ s.rd (NET_HEAD_STATUS_H inlet) then some (.headroom inlet q) else none
    else if inlet < 112 then some (.hostReserve inlet)
    else some (.credit inlet)

/-- A Datum short lies before another (R38). -/
def stampBefore (a b : BitVec 64) : Bool := decide (a ≠ b) && decide ((b - a).toNat < 2 ^ 63)

/-- Insert in start-stamp order, behind equal stamps (R68). -/
def insertByStamp (p : Packet) : List Packet → List Packet
  | [] => [p]
  | q :: rest => if stampBefore p.stamp q.stamp ∧ q.marker = none ∧ q.sent = 0 then p :: q :: rest else q :: insertByStamp p rest

/-- Put a packet into its VOQ: timed VOQs in start-stamp order, the others first in, first out (R20, R68). A packet that a cause
outside the device holds from the start is marked (R76). -/
def pushVoq (p : Packet) (s : State) : State :=
  let p := { p with ext := p.ext || s.heldOutside p }
  let v := voqIndex p.inlet p.outlet p.cls
  let q := tblGetD [] s.voqs v
  { s with voqs := tblPut s.voqs v (if s.timed p.cls then insertByStamp p q else q ++ [p]) }

/-- Replace a queue; an empty one is not listed. -/
def setQueue (t : Tbl (List Packet)) (k : Nat) (q : List Packet) : Tbl (List Packet) :=
  if q = [] then tblDel t k else tblPut t k q

end Sys2Proof.Machine
end

