-- ==== Sys2Proof/Machine/Entries.lean ====
section
/-! DEFINITION. The ring engine's shared operations: starting a fetched entry, completing one, publishing HEAD,
interrupts, and moving a ring to DISABLING (R176-R194). -/

namespace Sys2Proof.Machine

/-! ## Ring fields -/

/-- Entries of a ring. -/
def Ring.size (r : Ring) : Nat := 2 ^ r.sizeLog2

/-- Completions keep index order on a transmit or receive ring (R179). -/
def Ring.inOrder (r : Ring) : Bool := r.kind == 1 || r.kind == 2

/-- RNG_RSTATUS of a ring, and its head record (Table 7.12). -/
def Ring.status (r : Ring) : BitVec 64 :=
  BitVec.ofNat 64 (r.head.toNat + r.localNo % 65536 * 2 ^ 32 + r.state.code * 2 ^ 48
    + (if r.idle then 2 ^ 51 else 0) + r.cause % 8 * 2 ^ 52)

/-- RNG_RSTATUS of a CLOSED ring: all 0 but IDLE (Table 7.12). -/
def closedStatus : BitVec 64 := BitVec.ofNat 64 (2 ^ 51)

/-- R166 does not forbid writes into a sheet's memory, and messages of its rings. -/
def State.sheetInUse (s : State) (n : Nat) : Bool := (s.sheet n).state != .disabled && (s.sheet n).state != .free

/-- A sheet's memory may be written: its function's Bus Master Enable is 1 and R166 does not forbid it. -/
def State.hostWritable (s : State) (n : Nat) : Bool := (s.sheetFunc n).bme && s.sheetInUse n

/-! ## Requests to host memory (R117, R129-R131) -/

/-- Pieces of at most 512 bytes of n bytes from an address on: offset and length. -/
def pieces512 (n : Nat) : List (Nat × Nat) := (List.range ((n + 511) / 512)).map (fun i => (512 * i, min 512 (n - 512 * i)))

/-- A translation of the ATS cache covers an address of a PASID. -/
def AtsEntry.covers (e : AtsEntry) (pasid addr : Nat) : Bool := e.pasid == pasid && (addr / 2 ^ e.sizeLog2 == e.page / 2 ^ (e.sizeLog2 - 12))

/-- A request for a sheet: its PASID unless PASID Enable is 0, Relaxed Ordering only on payload writes of a function that enables
it, Translated when ATS is enabled and the cache covers the address (R129-R131). -/
def State.sheetReq (s : State) (n addr : Nat) (payload : Bool) : HostReq :=
  let f := s.sheetFunc n
  let pasid := s.rd (CAD_ID_PASID n)
  { port := s.sheetPortD n
    pf := s.sheetPf n
    pasid := if f.pasidEn then some pasid else none
    relaxed := payload && f.roEn
    translated := f.atsEn && f.ats.any (fun e => e.covers pasid addr)
    addr := addr }

/-- A posted write of a sheet, in pieces of at most 512 bytes (R117). -/
def postWrite (n addr : Nat) (payload : Bool) (bytes : Bytes) (s : State) : State :=
  (pieces512 bytes.length).foldl
    (fun t x => t.emit (.hostWrite (t.sheetReq n (addr + x.1) payload) ((bytes.drop x.1).take x.2))) s

/-- A payload write into a sheet's memory. -/
def sheetWrite (n addr : Nat) (bytes : Bytes) (s : State) : State := postWrite n addr true bytes s

/-- A write of a completion, a head record or a queue entry: never with Relaxed Ordering (R130). -/
def orderedWrite (n addr : Nat) (bytes : Bytes) (s : State) : State := postWrite n addr false bytes s

/-- Tags in use on a port. -/
def State.portTags (s : State) (p : Nat) : List ReadTag := s.reads.filter (fun t => t.req.port == p)

/-- The lowest tag of a port that is not in use. -/
def State.freeTag (s : State) (p : Nat) : Nat :=
  ((List.range 4096).find? (fun t => !(s.portTags p).any (fun r => r.tag == t))).getD 0

/-- A read of a sheet's memory whose data is an operand of the command that issues it: requests of at most 512 bytes, each with a
tag that is free again when the command ends (R23, R117; log entry 4). -/
def sheetRead (n addr len : Nat) (s : State) : State :=
  (pieces512 len).foldl
    (fun t x => t.emit (.hostRead (t.sheetReq n (addr + x.1) false) (t.freeTag (t.sheetPortD n)) x.2)) s

/-- The indices below a ring's PI are index arithmetic modulo 2^32 (R169). -/
def idxAdd (i n : Nat) : Nat := (i + n) % 2 ^ 32

/-- (a - b) mod 2^32. -/
def idxSub (a b : Nat) : Nat := (a + 2 ^ 32 - b % 2 ^ 32) % 2 ^ 32

/-- The first entry index not completed, once the jobs in front are done (R174). -/
def headIndex (jobs : List Job) (chain : Option (Nat × List Entry)) (fetch : BitVec 32) : BitVec 32 :=
  match jobs with
  | j :: _ => BitVec.ofNat 32 j.idx
  | [] => match chain with
    | some (i, _) => BitVec.ofNat 32 i
    | none => fetch

/-! ## Announcing (R187, R188) -/

/-- Write the head record of a ring, unless it has none or R188 withholds it. -/
def publishHead (r : Ring) (s : State) : State :=
  if r.headAddr ≠ 0 ∧ s.hostWritable r.sheet then orderedWrite r.sheet r.headAddr (leBytes 8 r.status.toNat) s else s

/-- Send a ring's vector, the head record first, and start counting completions again (R187); a DISABLED sheet's rings send no
message (R166). -/
def announce (g : Nat) (s : State) : State :=
  match s.ring? g with
  | none => s
  | some r =>
    let s := publishHead r s
    let s := s.setRing g { r with unannounced := 0, timer := false }
    if s.sheetInUse r.sheet then s.sendVector (s.sheetPortD r.sheet) (s.sheetPf r.sheet) r.vec else s

/-- After n completions were written, one of them with INT when int is true: announce them or let the timer run. -/
def afterWrites (g n : Nat) (int : Bool) (s : State) : State :=
  match s.ring? g with
  | none => s
  | some r =>
    let s' := s.setRing g { r with unannounced := r.unannounced + n, timer := r.timer || r.coalUs != 0 }
    if n = 0 then s
    else if int ∨ max r.coalN 1 ≤ r.unannounced + n then announce g s'
    else s'

/-! ## Writing completions (R177, R179, R183) -/

/-- Address of the slot of an entry index (R169). -/
def Ring.slotAddr (r : Ring) (i : Nat) : Nat := r.base + i % r.size * 64

/-- Bytes 56-63 of the completion of a data movement or a message hold Datum short of its write (Tables 7.10, 13.7). -/
def stampDone (now : BitVec 64) (c : Entry) : Entry :=
  if opcode c = 0x80 ∨ opcode c = 0x81 ∨ opcode c = 0x88 ∨ opcode c = 0x89 ∨ (0x90 ≤ opcode c ∧ opcode c ≤ 0x9F) then
    BitVec.ofNat 512 (c.toNat % 2 ^ 448 + now.toNat * 2 ^ 448)
  else c

/-- Write a whole completion into the slot of an entry: bytes 8-63 and then bytes 0-7, or one write of 64 bytes (R177). -/
def writeEntry (r : Ring) (i : Nat) (c : Entry) (s : State) : State :=
  let bs := leBytes 64 (stampDone s.dshort c).toNat
  if r.oneWrite then orderedWrite r.sheet (r.slotAddr i) bs s
  else orderedWrite r.sheet (r.slotAddr i) (bs.take 8) (orderedWrite r.sheet (r.slotAddr i + 8) (bs.drop 8) s)

/-- Header of the entries of a chain after the first: OWN 0, the chain's STATUS and CHAIN_N (R183). -/
def chainHeaders (r : Ring) (status n : Nat) : Nat → List Entry → State → State
  | _, [], s => s
  | i, e :: rest, s =>
      chainHeaders r status n (idxAdd i 1) rest
        (orderedWrite r.sheet (r.slotAddr i) (leBytes 8 (headerOf e false rest.isEmpty status n)) s)

/-- Completions of the later entries of a received packet, the last one first (R183, R205). -/
def writeLater (r : Ring) : Nat → List Entry → State → State
  | _, [], s => s
  | i, c :: rest, s => writeEntry r i c (writeLater r (idxAdd i 1) rest s)

/-- Write the completion of a job into its entries: the later entries first, then the whole completion into the first
entry. Nothing is written while the sheet's memory may not be written. -/
def writeJob (r : Ring) (j : Job) (c : Entry) (more : List Entry) (s : State) : State :=
  if s.hostWritable r.sheet then
    let s := if more = [] then chainHeaders r (eN c 4 2) (eN c 6 1) (idxAdd j.idx 1) j.entries.tail s
      else writeLater r (idxAdd j.idx 1) more s
    writeEntry r j.idx c s
  else s

/-- The completion of a job: header as Table 7.2 gives it, the fields of its body. -/
def jobCompletion (j : Job) (status : Nat) (body : Body) : Entry :=
  mkCompletion j.first true (decide (j.entries.length ≤ 1)) status j.entries.length body

/-- Complete the malformed entries whose turn to start has come: every entry before them has started (R179, R186). -/
def settleBad : List Job → List Job
  | [] => []
  | j :: rest => match j.phase with
    | .bad st => { j with phase := .ready (jobCompletion j st []) [] } :: settleBad rest
    | .fetched => j :: rest
    | .posted => j :: rest
    | .running => j :: settleBad rest
    | .ready _ _ => j :: settleBad rest
    | .written => j :: settleBad rest

/-- The jobs of an in-order ring whose completions can be written now, and the jobs that remain. -/
def readyPrefix : List Job → List (Job × Entry × List Entry) × List Job
  | [] => ([], [])
  | j :: rest => match j.phase with
    | .ready c more => let (w, l) := readyPrefix rest; ((j, c, more) :: w, l)
    | .written => readyPrefix rest
    | .fetched => ([], j :: rest)
    | .bad _ => ([], j :: rest)
    | .posted => ([], j :: rest)
    | .running => ([], j :: rest)

/-- The jobs of a ring in any order whose completions are ready, and every job with those marked written. -/
def readyAny : List Job → List (Job × Entry × List Entry) × List Job
  | [] => ([], [])
  | j :: rest =>
      let (w, l) := readyAny rest
      match j.phase with
      | .ready c more => ((j, c, more) :: w, { j with phase := .written } :: l)
      | .written => (w, j :: l)
      | .fetched => (w, j :: l)
      | .bad _ => (w, j :: l)
      | .posted => (w, j :: l)
      | .running => (w, j :: l)

/-- Release the flight-table slot of a job whose completion has been written (Table 1.5). -/
def releaseJob (j : Job) (s : State) : State :=
  match j.slot with
  | some k => s.freeSlot k
  | none => s

/-- Drop the jobs in front whose completions are written. -/
def dropWritten : List Job → List Job
  | [] => []
  | j :: rest => if j.phase = .written then dropWritten rest else j :: rest

/-- Write every completion of a ring that may be written now, advance HEAD and announce (R179, R187). -/
def flushRing (g : Nat) (s : State) : State :=
  match s.ring? g with
  | none => s
  | some r =>
    let (w, rest) := if r.inOrder then readyPrefix (settleBad r.jobs) else readyAny (settleBad r.jobs)
    let jobs := dropWritten rest
    let s := w.foldl (fun t x => releaseJob x.1 (writeJob r x.1 x.2.1 x.2.2 t)) s
    let s := s.setRing g { r with jobs := jobs, head := headIndex jobs r.chain r.fetch }
    afterWrites g w.length (w.any (fun x => x.1.entries.any intBit)) s

/-- Start the job at an entry index, with the slot it holds. -/
def runJob (idx : Nat) (slot : Option SlotKind) : List Job → List Job
  | [] => []
  | j :: rest => if j.idx = idx then { j with phase := .running, slot := slot } :: rest else j :: runJob idx slot rest

/-- Mark the job at an entry index with a phase. -/
def markJob (idx : Nat) (p : JobPhase) : List Job → List Job
  | [] => []
  | j :: rest => if j.idx = idx then { j with phase := p } :: rest else j :: markJob idx p rest

/-- The slot that the job at an entry index holds. -/
def slotJob (idx : Nat) (k : Option SlotKind) : List Job → List Job
  | [] => []
  | j :: rest => if j.idx = idx then { j with slot := k } :: rest else j :: slotJob idx k rest

/-- The job at an entry index. -/
def findJob (idx : Nat) : List Job → Option Job
  | [] => none
  | j :: rest => if j.idx = idx then some j else findJob idx rest

/-- A job ends: its completion is ready, and what may be written is, which releases its slot. -/
def endJob (g idx status : Nat) (body : Body) (s : State) : State :=
  match s.ring? g with
  | none => s
  | some r =>
    match findJob idx r.jobs with
    | none => s
    | some j => flushRing g (s.setRing g { r with jobs := markJob idx (.ready (jobCompletion j status body) []) r.jobs })

/-- A flight-table slot held elsewhere for an entry passes to its job, which releases it with the completion (Table 1.5). -/
def passSlot (g idx : Nat) (k : SlotKind) (s : State) : State :=
  match s.ring? g with
  | none => s.freeSlot k
  | some r => if (findJob idx r.jobs).isSome then s.setRing g { r with jobs := slotJob idx (some k) r.jobs } else s.freeSlot k

/-! ## Starting entries (R25, R179, R181) -/

/-- FENCE orders the entries of admin and DMA rings (R181, Table 7.1). -/
def Ring.fences (r : Ring) : Bool := r.kind == 0 || r.kind == 3

/-- The next job a ring may start: the first one fetched and not started. On a ring where FENCE orders, a job with FENCE
waits until every earlier job is written (R181). Behind posted receive entries, which have not started, only another
receive entry is next, to be posted (R179). -/
def nextJob (fences : Bool) : Bool → List Job → Option Job
  | _, [] => none
  | allDone, j :: rest =>
      match j.phase with
      | .fetched => if fenceBit j.first ∧ fences ∧ ¬ allDone then none else some j
      | .bad _ => nextJob fences false rest
      | .posted => (nextJob fences false rest).filter (fun x => opcode x.first == 0x81)
      | .written => nextJob fences allDone rest
      | .running => nextJob fences false rest
      | .ready _ _ => nextJob fences false rest

/-- The job a command of these opcodes would start on a ring: the ring RUNNING, its sheet ACTIVE or DEBUG, and the
ring's next entry carrying the opcode. -/
def State.startable (s : State) (g : Nat) (ops : Nat → Bool) : Option (Ring × Job) :=
  match s.ring? g with
  | none => none
  | some r =>
    if r.state = .running ∧ ((s.sheet r.sheet).state = .active ∨ (s.sheet r.sheet).state = .debug) then
      match nextJob r.fences true r.jobs with
      | none => none
      | some j => if ops (opcode j.first) && kindAccepts r.kind (opcode j.first) then some (r, j) else none
    else none

/-- Start a job: it runs, and holds a slot of the kind when it needs one. With no slot free it does not start and the
ring waits (R25). -/
def beginJob (g : Nat) (ops : Nat → Bool) (slot : Option SlotKind) (s : State) : Option (Ring × Job) × State :=
  match s.startable g ops with
  | none => (none, s)
  | some (r, j) =>
    match slot with
    | none => (some (r, j), s.setRing g { r with jobs := runJob j.idx none r.jobs })
    | some k =>
      if r.slotHeld then
        (some (r, j), s.setRing g { r with jobs := runJob j.idx slot r.jobs, slotHeld := false })
      else if s.flight.room k then
        (some (r, j), (s.takeSlot k).setRing g { r with jobs := runJob j.idx slot r.jobs, slotWait := false })
      else (none, s.setRing g { r with slotWait := true })

/-- Run an entry that ends in the step that starts it: start it with a DMA-job slot, apply its effect, complete it with
the status and fields the effect gives. -/
def runEntry (g : Nat) (ops : Nat → Bool) (f : Ring → Job → State → State × Nat × Body) (s : State) : State :=
  match beginJob g ops (some .dma) s with
  | (none, s) => s
  | (some (r, j), s) =>
    let (s, status, body) := f r j s
    endJob g j.idx status body s

/-- Start an entry whose completion comes later, or refuse it at once: an effect that answers some status completes it. -/
def startEntry (g : Nat) (ops : Nat → Bool) (f : Ring → Job → State → State × Option (Nat × Body)) (s : State) : State :=
  match beginJob g ops (some .dma) s with
  | (none, s) => s
  | (some (r, j), s) =>
    match f r j s with
    | (s, some (status, body)) => endJob g j.idx status body s
    | (s, none) => flushRing g s

/-! ## Leaving RUNNING (R190, R193) -/

/-- Cipher results from a byte of a completion on (Table 12.6): CIPHER_STATUS, MODE, SA, IV in wire order. -/
def cipherBody (byte : Nat) (c : CipherInfo) : Body :=
  [(byte, 1, c.status), (byte + 1, 1, c.mode), (byte + 2, 4, c.sa), (byte + 6, 12, ofLe (beBytes 12 c.iv))]

/-- Complete a TX_PKT entry (Table 7.10): EGRESS, BYTES and cipher results. -/
def endTx (g idx status egress bytes : Nat) (extra : Body) (s : State) : State :=
  endJob g idx status ([(8, 8, egress), (16, 4, bytes)] ++ extra) s

/-- A capture may be made: captures are enabled for the reason, the second's captures are not used up, the capture
ring runs and its VOQ is not XOFF (R310, R311). -/
def State.mayCapture (s : State) (reason inlet : Nat) : Bool :=
  match s.ring? (s.rd SWC_SPOIL_CFG_CAP_RING) with
  | none => false
  | some r =>
    let v := voqIndex inlet (64 + s.sheetPortD r.sheet) (s.rd SWC_SPOIL_CFG_CLASS)
    decide (r.state = .running) && !s.bit SWC_STATUS_FLOOR && !s.swc.xoff.contains v
      && decide ((if s.swc.captures.1 = s.ns / 1000000000 then s.swc.captures.2 else 0) < s.rd SWC_CAP_PPS_RATE)
      && decide (0x10 ≤ reason)

/-- Captures are wanted for a reason (SWC_SPOIL_CFG). -/
def State.wantsCapture (s : State) (reason : Nat) : Bool :=
  s.bit SWC_SPOIL_CFG_EN && (s.rd SWC_SPOIL_CFG_MASK).testBit (reason - 0x10)

/-- Capture a spoiled packet: its first 64 x (SNAP + 1) bytes in one new sett, for CAP_RING in class CLASS; or count
that no capture was made (R310, R311). -/
def capture (reason : Nat) (p : Packet) (s : State) : State :=
  if s.wantsCapture reason = false then s
  else if s.mayCapture reason p.inlet = false then s.count SWC_CAP_SKIP 1
  else
    let g := s.rd SWC_SPOIL_CFG_CAP_RING
    let n := match s.ring? g with
      | some r => r.sheet
      | none => 4096
    let cls := s.rd SWC_SPOIL_CFG_CLASS
    let sec := s.ns / 1000000000
    let made := if s.swc.captures.1 = sec then s.swc.captures.2 else 0
    let (id, s) := addResident 128 ⟨1, .shared, p.inlet, cls, Option.none, 1, []⟩ s
    let s := { s with swc := { s.swc with captures := (sec, made + 1) } }
    pushVoq { p with
      id := id, outlet := 64 + s.sheetPortD n, cls := cls, total := p.bytes.length,
      bytes := p.bytes.take (64 * (s.rd SWC_SPOIL_CFG_SNAP + 1)), contract := none, sheet := none, toSheet := (some n),
      ring := some g, spoil := reason, ptp := none, oneStep := none, tx := none, copy := false, sent := 0, hold := 0 } s

/-- Spoil one packet: its reason is counted, it may be captured, and a TX_PKT that waits for its egress completes with
EGRESS 0 (R204, R309, R310). A capture is discarded instead, and counted in SWC_CAP_SKIP alone (R311). -/
def spoilPacket (reason : Nat) (p : Packet) (s : State) : State :=
  if p.isCapture then s.count SWC_CAP_SKIP 1
  else
    let s := capture reason p (countSpoil reason 1 s)
    match p.tx with
    | some (g, idx) => endTx g idx 0 0 p.bytes.length (cipherBody 26 p.cipher) s
    | none => s

/-- Take the packets that satisfy a test out of the store and spoil them with a reason; copies of them queued elsewhere
keep the shared setts. -/
def spoilWhere (reason : Nat) (p : Packet → Bool) (s : State) : State :=
  let gone := s.packets (fun x => p x && x.marker == none)
  let s := dropPackets (fun x => p x && x.marker == none) s
  let s := gone.foldl (fun t x => releaseSetts x.id t) s
  refreshPressure (gone.foldl (fun t x => spoilPacket reason x t) s)

/-- Spoil the packets queued for a receive ring that leaves RUNNING (R193). -/
def spoilRing (g : Nat) (s : State) : State := spoilWhere 0x17 (fun p => p.ring == some g) s

/-- Kind of the slot that the start of a ring's next entry needs (Table 1.5). -/
def waitKind (r : Ring) : SlotKind := if r.kind = 4 then .msg else .dma

/-- Move a RUNNING ring to DISABLING with a cause: fetching stops, doorbells are dropped, IDLE is 0, and a slot kept for a start
that waited is released (R190). -/
def stopRing (g cause : Nat) (s : State) : State :=
  match s.ring? g with
  | none => s
  | some r =>
    if r.state = .running then
      let s := if r.slotHeld then s.freeSlot (waitKind r) else s
      let s := s.setRing g { r with state := .disabling, cause := cause, idle := false, slotWait := false, slotHeld := false }
      if r.kind = 2 then spoilRing g s else s
    else s

/-- A job was fetched and has not started, malformed ones among them (R186, R190). -/
def Job.unstarted (j : Job) : Bool :=
  match j.phase with
  | .fetched => true
  | .bad _ => true
  | .posted => true
  | .running => false
  | .ready _ _ => false
  | .written => false

/-- The jobs of a ring that were started and whose completions are not written: a quiesce waits for them, and discards the
others and any open chain (R190). -/
def startedJobs (jobs : List Job) : List Job := jobs.filter (fun j => !j.unstarted && j.phase != .written)

/-- HEAD when a quiesce ends: the first entry not started (R190). -/
def quiescedHead (r : Ring) : BitVec 32 :=
  match r.jobs.find? Job.unstarted with
  | some j => BitVec.ofNat 32 j.idx
  | none => match r.chain with
    | some (i, _) => BitVec.ofNat 32 i
    | none => r.fetch

end Sys2Proof.Machine
end

