-- ==== Sys2Proof/Machine/ContractOps.lean ====
section
/-! DEFINITION. Shared operations on contracts and Datum steps: breaking, suspending, withdrawing and freeing
contracts, and the step Datum takes when the last one is gone (R37, R76, R79, R80, R87). -/

namespace Sys2Proof.Machine

/-- Some timed contract holds Datum's phase: a contract that is not FREE (R37). -/
def State.contractHeld (s : State) : Bool := !s.contracts.isEmpty

/-! ## Datum steps (R37) -/

/-- A source of Datum. -/
def State.source (s : State) (n : Nat) : DatumSource := tblGetD DatumSource.fresh s.dtm.sources n

/-- Set a source. -/
def State.setSource (s : State) (n : Nat) (x : DatumSource) : State :=
  { s with dtm := { s.dtm with sources := tblSet DatumSource.fresh s.dtm.sources n x } }

/-- The selected source, if any (DTM_STATUS.SRC, 0b11 none). -/
def State.selected (s : State) : Option Nat := if s.rd DTM_STATUS_SRC = 3 then none else some (s.rd DTM_STATUS_SRC)

/-- 1 us and 1 ms in units of 2^-16 ns. -/
def oneUs : Int := 65536000
/-- 1 ms in units of 2^-16 ns. -/
def oneMs : Int := 65536000000

/-- A holdover oscillator. -/
def State.osc (s : State) (n : Nat) : Oscillator := tblGetD Oscillator.fresh s.dtm.osc n

/-- Set a holdover oscillator. -/
def State.setOsc (s : State) (n : Nat) (x : Oscillator) : State :=
  { s with dtm := { s.dtm with osc := tblSet Oscillator.fresh s.dtm.osc n x } }

/-- The average over 1,000 s is of seconds LOCKED without a break (R43; log entry 13). -/
def breakMeasuring (s : State) : State :=
  { s with dtm := { s.dtm with osc := tblMap (fun _ o => { o with measured := [] }) s.dtm.osc } }

/-- Enter a Datum state of Table 2.2; a change raises DTM_EVENT.STATE and restarts the sample counts (R45). With a source
followed no oscillator is in use (Table 2.6). -/
def setDatumState (code : Nat) (s : State) : State :=
  if s.rd DTM_STATUS_STATE = code then s
  else
    let s := breakMeasuring { s with dtm := { s.dtm with inRange := 0, outRange := 0 } }
    let s := if code = 1 ∨ code = 2 then s.wr DTM_STATUS_HOLD_SEL 3 else s
    raise DTM_EVENT_STATE (s.wr DTM_STATUS_STATE code)

/-- A source is selected and followed: Datum leaves FREERUN and holdover for ACQUIRING (Table 2.3). -/
def acquire (s : State) : State :=
  if s.rd DTM_STATUS_STATE = 1 ∨ s.rd DTM_STATUS_STATE = 2 then s else setDatumState 1 s

/-- LAST_SEEN of a Datum nanosecond: bits [45:30], units of 2^30 ns (R274). -/
def seenOf (ns : Nat) : Nat := ns / 2 ^ 30 % 2 ^ 16

/-- Set LAST_SEEN of every learned entry to now (R274). -/
def restampLearned (s : State) : State :=
  let mark : TEntry → TEntry := fun e => { e with seen := seenOf s.ns }
  let parts := tblMap (fun _ (p : Partition) =>
    (⟨tblMap (fun _ e => mark e) p.slots, p.stash.map (fun x => (x.1, mark x.2))⟩ : Partition)) s.tables.learned
  { s with tables := { s.tables with learned := parts } }

/-- Move Datum by an offset at once: the only jump Datum makes (R36, R37). The first step sets EPOCH_SET; learned
entries take the time after the step (R274). -/
def datumStep (off : Int) (s : State) : State :=
  let s := { s with datum := BitVec.ofInt 80 (s.datum.toNat + off), dtm := { s.dtm with slew := 0, slewAcc := 0 } }
  let s := restampLearned s
  (s.wr DTM_STATUS_EPOCH_SET 1).wr DTM_STATUS_STEP_BLOCKED 0

/-- Act on the offset to the selected source when Datum does not step: slew it away, or leave it and block the step
when it exceeds 1 ms under an admitted contract (R37). STEP_BLOCKED is raised anew by every offset that is blocked: R37 leaves
open whether only the first one raises it (log entry 13). -/
def slewOrBlock (off : Int) (s : State) : State :=
  if off.natAbs ≤ oneMs.natAbs ∨ s.contractHeld = false then
    ({ s with dtm := { s.dtm with slew := off } }).wr DTM_STATUS_STEP_BLOCKED 0
  else
    raise DTM_EVENT_STEP_BLOCKED
      (({ s with dtm := { s.dtm with slew := 0 } }).wr DTM_STATUS_STEP_BLOCKED 1)

/-- The step put off by admitted contracts is taken once the last one is withdrawn, when the source is still selected
and the offset still exceeds 1 us (R37). -/
def deferredStep (s : State) : State :=
  if s.contractHeld = false ∧ s.bit DTM_STATUS_STEP_BLOCKED then
    match s.selected with
    | none => s.wr DTM_STATUS_STEP_BLOCKED 0
    | some n =>
        if oneUs.natAbs < (s.source n).offset.natAbs then acquire (datumStep (s.source n).offset s)
        else s.wr DTM_STATUS_STEP_BLOCKED 0
  else s

/-! ## Link power states (R77) -/

/-- A contract's path uses a host or network port, by inlet and outlet number. -/
def usesPort (o : Nat) (c : Contract) : Bool := c.par.src == o || c.par.dst == o

/-- Some contract that is not FREE uses a host port's link. -/
def State.portPromised (s : State) (p : Nat) : Bool := s.contracts.any (fun c => usesPort (64 + p) c.2)

/-- Deepest power state permitted on a host port's link: 1 L0p, 2 L1, 3 L1.1 and L1.2 (R77, Table 3.19). -/
def State.pmDepth (s : State) (p : Nat) : Nat := if s.portPromised p then s.rd (ADM_OUT_CFG_PM (64 + p)) else 3

/-- R77 permits a power state of a depth. -/
def State.pmPermits (s : State) (p depth : Nat) : Bool := decide (depth ≤ s.pmDepth p)

/-- Depth of a level of L1: L1 itself, or a substate. -/
def l1Depth (level : Nat) : Nat := if level ≤ 1 then 2 else 3

/-- ASPM states that a component below a root port is to allow: bit 0 L1, 1 L1.1, 2 L1.2. -/
def State.aspmAllowed (s : State) (p : Nat) : Nat := match s.pmDepth p with | 0 => 0 | 1 => 0 | 2 => 1 | _ => 7

/-- Write the ASPM control of the component below a root port when what R77 allows there has changed (R77, R112). -/
def settleAspm (p : Nat) (s : State) : State :=
  if s.portIsRoot p ∧ (s.port p).comp ≠ .none ∧ (s.port p).aspm ≠ s.aspmAllowed p then
    (s.setPort p { s.port p with aspm := s.aspmAllowed p }).emit (.config p 0 .aspm (s.aspmAllowed p))
  else s

/-- Bring a link out of a power state that R77 no longer permits, and let the component below a root port follow. -/
def settlePm (p : Nat) (s : State) : State :=
  let pm := s.rd (HP_PORT_STATUS_PM p)
  let s := if (pm = 1 ∧ s.pmPermits p 1 = false) ∨ (pm = 2 ∧ s.pmPermits p (l1Depth (s.port p).l1) = false) then
      s.wr (HP_PORT_STATUS_PM p) 0
    else s
  settleAspm p s

/-- Settle the links of an inlet or outlet number that is a host port. -/
def settleLink (n : Nat) (s : State) : State := if 64 ≤ n ∧ n < 112 then settlePm (n - 64) s else s

/-- Settle the links of a contract's path. -/
def settlePath (p : ContractParams) (s : State) : State := settleLink p.dst (settleLink p.src s)

/-! ## Contracts -/

/-- States that hold a deadline class and count as admitted for shares (R69, R162): ADMITTED, SUSPENDED, BROKEN. -/
def ContractState.holds : ContractState → Bool
  | .admitted => true | .suspended => true | .broken => true | _ => false

/-- Move a contract to BROKEN with the cause its message carries (R76, R80). -/
def breakContract (c cause : Nat) (s : State) : State :=
  match s.contract? c with
  | none => s
  | some x =>
    if x.state = .admitted ∨ x.state = .suspended then
      let s := s.setContract c { x with state := .broken }
      postContractState c x.sheet x.state.code 4 cause (raise ADM_EVENT_BROKEN s)
    else s

/-- Break every contract that satisfies a test. -/
def breakWhere (p : Contract → Bool) (cause : Nat) (s : State) : State :=
  (tblKeys (fun _ c => p c) s.contracts).foldl (fun t c => breakContract c cause t) s

/-- Suspend or restore the contracts of a sheet as it enters or leaves debug mode; deadlines hold again for packets stamped after
the return (R79). -/
def suspendSheet (n : Nat) (on : Bool) (s : State) : State :=
  let from' : ContractState := if on then .admitted else .suspended
  let dest : ContractState := if on then .suspended else .admitted
  (tblKeys (fun _ c => c.sheet == n && c.state == from') s.contracts).foldl
    (fun t k => match t.contract? k with
      | none => t
      | some x => postContractState k n x.state.code dest.code 1
          (raise ADM_EVENT_SUSPEND (t.setContract k { x with
            state := dest
            back := if on then x.back else some t.datum.toNat }))) s

/-- Accept a withdrawal: the contract becomes WITHDRAWING, and its new packets go to FALLBACK (R87). -/
def withdrawContract (c : Nat) (waiter : Option (Nat × Nat)) (cause : Nat) (s : State) : State :=
  match s.contract? c with
  | none => s
  | some x =>
    if x.state.holds then
      postContractState c x.sheet x.state.code 5 cause
        (s.setContract c { x with state := .withdrawing, waiter := waiter, cause := cause, withdrawnAt := s.datum.toNat })
    else s

/-- Withdraw every contract of a sheet (R87, R164). -/
def withdrawSheet (n cause : Nat) (s : State) : State :=
  (tblKeys (fun _ c => c.sheet == n) s.contracts).foldl (fun t c => withdrawContract c none cause t) s

/-- A ring that carried a contract carries none once the contract is FREE (R201). -/
def unbindRings (c : Nat) (s : State) : State :=
  { s with rings := tblMap (fun _ r => if r.contract = some c then { r with contract := none } else r) s.rings }

/-- A contract becomes FREE: its reservations are released, ADM_GEN increments, a pending shrink may resolve, and a
blocked Datum step may be taken; the links of its path may enter the power states it ruled out (R77, R80, R85, R87, R162). -/
def freeContract (c : Nat) (s : State) : State :=
  match s.contract? c with
  | none => s
  | some x =>
    let s := unbindRings c { s with contracts := tblDel s.contracts c }
    let s := settlePath x.par (s.wr ADM_GEN_GENERATION (s.rd ADM_GEN_GENERATION + 1))
    let s := postContractState c x.sheet x.state.code 0 x.cause s
    deferredStep (resolveShrinks x.sheet s)

end Sys2Proof.Machine
end

