-- ==== Sys2Proof/Machine/RegWrite.lean ====
section
/-! DEFINITION. A write to a register by its fields' access codes (R9, R10, Table 0.5) and stored-as rules. -/

namespace Sys2Proof.Machine

/-- The value a field stores for a written one: its register table's "stored as" rules. -/
def storedAs : List (Nat × Nat × Nat) → Nat → Nat
  | [], v => v
  | (lo, hi, x) :: rest, v => if lo ≤ v ∧ v ≤ hi then x else storedAs rest v

/-- A field after a write (Table 0.5): RW and RWS store, W1C clears the bits written 1, RO and WO keep (a WO field
triggers its action elsewhere and reads 0), RWL stores until the owning island seals. -/
def fieldAfter (f : FieldSpec) (sealed : Bool) (old new : Nat) : Nat :=
  match f.acc with
  | .rw => storedAs f.stored new
  | .ro => old
  | .wo => old
  | .w1c => (BitVec.ofNat f.width old &&& ~~~ (BitVec.ofNat f.width new)).toNat
  | .rwl => if sealed then old else storedAs f.stored new
  | .rws => storedAs f.stored new

/-- A register after a write of all its fields. -/
def fieldsAfter (sealed : Bool) (old new : BitVec 64) : List FieldSpec → BitVec 64 → BitVec 64
  | [], acc => acc
  | f :: fs, acc =>
      fieldsAfter sealed old new fs
        (putField acc f.lo f.width (fieldAfter f sealed (getField old f.lo f.width) (getField new f.lo f.width)))

/-- Write a register whole, by its fields' access codes. An address with no register ignores the write. -/
def State.plainWrite (s : State) (a : Nat) (v : BitVec 64) : State :=
  match findReg a with
  | none => s
  | some (r, b) => s.setReg b (fieldsAfter (s.bit SVY_BOOT_STATUS_SEALED) (s.reg b) v r.fields (s.reg b))

end Sys2Proof.Machine
end

