-- ==== Sys2Proof/Machine/Datum.lean ====
section
/-! DEFINITION. Datum: discipline sources, states, holdover, the spine, timing outputs and the passing of time
(spec 02, R35-R60). A timer of the spec that runs out is a command; issuing it is the expiry (notes/assumptions/7). -/

namespace Sys2Proof.Machine

/-- Graticule node numbers the model gives the two islands Table 4.9 names none for (notes/assumptions/8). -/
def datumNode : Nat := 0xA8

/-- The Datum island is released and out of reset, and its firmware runs. What PPS edges, samples and step requests do while the
firmware restarts the spec leaves open: they have no effect (log entry 13). -/
def State.datumUp (s : State) : Bool := (s.island datumNode).released && !(s.island datumNode).inReset && !s.dtm.restarting

/-- A source is qualified (DTM_STATUS.QUAL). -/
def State.qualified (s : State) (n : Nat) : Bool := (s.rd DTM_STATUS_QUAL).testBit n

/-- Set or clear the QUAL bit of a source. -/
def setQual (n : Nat) (on : Bool) (s : State) : State :=
  s.wr DTM_STATUS_QUAL (ofBits ((List.range 3).map (fun k => if k = n then on else s.qualified k)))

/-- The qualified source with the lowest priority value, the lower number on a tie (R39). -/
def State.bestSource (s : State) : Option Nat :=
  ((List.range 3).filter s.qualified).foldl
    (fun best n => match best with
      | none => some n
      | some b => if s.rd (DTM_SRC_CFG_PRIO n) < s.rd (DTM_SRC_CFG_PRIO b) then some n else some b) none

/-- Record the offset to the selected source in DTM_STATUS.OFFSET, in ns, saturating. -/
def showOffset (off : Int) (s : State) : State :=
  s.wr DTM_STATUS_OFFSET (unsigned 20 (max (-524287) (min 524287 (Int.tdiv off 65536))))

/-- Counts of consecutive samples start again. -/
def restartCounts (s : State) : State := { s with dtm := { s.dtm with inRange := 0, outRange := 0 } }

/-- Select another source: SRC and SRC_CHANGE, no step; the offset between the two is slewed away and Datum
acquires, its samples counted anew (R41, R42, Table 2.3). Table 2.3 moves it to ACQUIRING even where R37 leaves an offset above
1 ms uncorrected (log entry 13). -/
def switchSource (n : Nat) (s : State) : State :=
  let s := raise DTM_EVENT_SRC_CHANGE (s.wr DTM_STATUS_SRC n)
  let off := (s.source n).offset
  setDatumState 1 (restartCounts (slewOrBlock off (showOffset off s)))

/-- A holdover oscillator is fitted. -/
def State.oscFitted (s : State) (n : Nat) : Bool := if n = 0 then s.bit DTM_HOLD_CFG_OSC0_EN else s.bit DTM_HOLD_CFG_OSC1_EN

/-- What holdover runs on: an oscillator present with a learned value, 0 before 1, else the system reference, 2 (R44). -/
def State.holdChoice (s : State) : Nat :=
  if s.oscFitted 0 ∧ (s.osc 0).learned.isSome then 0
  else if s.oscFitted 1 ∧ (s.osc 1).learned.isSome then 1
  else 2

/-- No source is qualified: holdover, which without a learned frequency is free run on the system reference (R41, R44, Tables 2.2,
2.3). -/
def enterHoldover (s : State) : State :=
  let s := raise DTM_EVENT_SRC_CHANGE (s.wr DTM_STATUS_SRC 3)
  let s := ({ s with dtm := { s.dtm with slew := 0 } }).wr DTM_STATUS_STEP_BLOCKED 0
  let k := s.holdChoice
  (setDatumState (if k = 2 then 0 else 3) s).wr DTM_STATUS_HOLD_SEL k

/-- The oscillators fitted changed: a holdover in progress chooses again (R44). -/
def holdCfgWrite (v : BitVec 64) (s : State) : State :=
  let s := s.plainWrite DTM_HOLD_CFG v
  if s.rd DTM_STATUS_HOLD_SEL = 3 then s else s.wr DTM_STATUS_HOLD_SEL s.holdChoice

/-- A source is lost: its qualification and its counts end, and when it was selected Datum switches or holds over
(R40, R41). -/
def disqualify (n : Nat) (s : State) : State :=
  let was := s.qualified n
  let s := s.setSource n { s.source n with good := 0, window := [], lastEdge := none }
  let s := { s with dtm := { s.dtm with
    wtr := s.dtm.wtr.filter (· != n)
    justQualified := if s.dtm.justQualified = some n then none else s.dtm.justQualified } }
  if was then
    let s := setQual n false s
    if s.selected = some n then
      match s.bestSource with
      | some b => switchSource b s
      | none => enterHoldover s
    else s
  else s

/-- A source has just qualified. With none selected it is selected and Datum steps to it, slews, or is blocked; of
higher priority than the selected one, its wait to restore starts (R37, R39, R42). The wait starts with the qualification alone:
R42 leaves open what REVERT set, or PRIO lowered, later does (log entry 13). -/
def qualify (n : Nat) (s : State) : State :=
  let off := (s.source n).offset
  let s := setQual n true { s with dtm := { s.dtm with justQualified := some n } }
  match s.selected with
  | some k =>
      if s.bit DTM_CTRL_REVERT ∧ s.rd (DTM_SRC_CFG_PRIO n) < s.rd (DTM_SRC_CFG_PRIO k) then
        { s with dtm := { s.dtm with wtr := s.dtm.wtr.filter (· != n) ++ [n] } }
      else s
  | none =>
      let s := showOffset off (raise DTM_EVENT_SRC_CHANGE (s.wr DTM_STATUS_SRC n))
      if oneUs.natAbs < off.natAbs ∧ s.contractHeld = false then acquire (datumStep off s)
      else
        let s := slewOrBlock off s
        if s.bit DTM_STATUS_STEP_BLOCKED then s else acquire s

/-- A sample of the selected source: the offset is shown and slewed away, and the state follows it (R37, Table 2.3). A blocked
sample leaves the state, and is none of 8 within 10 ns. -/
def trackSample (off : Int) (s : State) : State :=
  let s := slewOrBlock off (showOffset off s)
  if s.bit DTM_STATUS_STEP_BLOCKED then
    { s with dtm := { s.dtm with inRange := 0, outRange := s.dtm.outRange + 1 } }
  else
    let s := acquire s
    if s.rd DTM_STATUS_STATE = 1 then
      let k := if off.natAbs ≤ 655360 then s.dtm.inRange + 1 else 0
      let s := { s with dtm := { s.dtm with inRange := k } }
      if 8 ≤ k then setDatumState 2 s else s
    else
      let k := if 3276800 < off.natAbs then s.dtm.outRange + 1 else 0
      let s := { s with dtm := { s.dtm with outRange := k } }
      if 4 ≤ k then setDatumState 1 s else s

/-- Take the sample or edge of a source that now has a count of good ones: qualify at 16, or track it when selected. -/
def takeSample (n good : Nat) (s : State) : State :=
  let s := { s with dtm := { s.dtm with justQualified := none } }
  if s.qualified n then
    if s.selected = some n then trackSample (s.source n).offset s else s
  else if 16 ≤ good ∧ s.bit (DTM_SRC_CFG_EN n) then qualify n s
  else s

/-- Offset of a PPS edge stamped d: the nearest whole second minus the stamp (notes/assumptions/9). -/
def ppsOffset (d : BitVec 80) : Int :=
  let sec : Nat := 65536000000000
  let r := d.toNat % sec
  if 2 * r < sec then -(r : Int) else ((sec - r : Nat) : Int)

/-- PPS_IN_EDGE: the edge is stamped with Datum. An edge 1 s within 1 us after the previous one is good; another one
starts the count again (R40). The second is measured in Datum's stamps, so a step or a slew between two edges is in it
(log entry 13). -/
def execPpsInEdge (s : State) : Host.Outcome State Fault Refusal :=
  if s.datumUp then
    let x := s.source 0
    let ok : Bool := match x.lastEdge with
      | some p => decide (((s.datum.toNat : Int) - p.toNat - 65536000000000).natAbs ≤ 65536000)
      | none => false
    let good := if ok then x.good + 1 else 1
    let s := s.setSource 0 { x with good := good, lastEdge := some s.datum, offset := ppsOffset s.datum }
    .next (takeSample 0 good s)
  else .next s

/-- Samples of the window agree: the spread of |offset| over 16 consecutive samples is at most 1 us (Table 2.1). -/
def windowGood (w : List Int) : Bool :=
  let m := w.map Int.natAbs
  decide (16 ≤ w.length) && decide (m.foldl max 0 ≤ m.foldl min (m.headD 0) + oneUs.natAbs)

/-- A servo sample written to DTM_SERVO_A (source 1) or DTM_SERVO_B (source 2): one with the previous SEQ is ignored (R43). -/
def servoSample (n : Nat) (value : BitVec 64) (s : State) : State :=
  let seq := BitVec.ofNat 8 (getField value 48 8)
  let x := s.source n
  if s.datumUp ∧ x.lastSeq ≠ some seq then
    let off := signed 48 (getField value 0 48)
    let w := (off :: x.window).take 16
    let s := s.setSource n { x with lastSeq := some seq, offset := off, window := w }
    takeSample n (if windowGood w then 16 else 0) s
  else s

/-- SOURCE_DISQUALIFY: source n missed its edges or samples (R41). -/
def execSourceDisqualify (n : Nat) (s : State) : Host.Outcome State Fault Refusal := .next (disqualify n s)

/-- REF_10M_LOSS: no REF_10M_IN edge for 1 us (R40). -/
def execRef10mLoss (s : State) : Host.Outcome State Fault Refusal :=
  if s.bit (DTM_SRC_CFG_REF_AID 0) then .next (disqualify 0 s) else .next s

/-- WAIT_TO_RESTORE_EXPIRY: a source of higher priority that stayed qualified for WTR_S is selected (R42). -/
def execWaitToRestoreExpiry (n : Nat) (s : State) : Host.Outcome State Fault Refusal :=
  let waited := s.dtm.wtr.contains n
  let s := { s with dtm := { s.dtm with wtr := s.dtm.wtr.filter (· != n) } }
  match s.selected with
  | some k =>
      if waited ∧ s.qualified n ∧ s.bit DTM_CTRL_REVERT ∧ s.rd (DTM_SRC_CFG_PRIO n) < s.rd (DTM_SRC_CFG_PRIO k) then
        .next (switchSource n s)
      else .next s
  | none => .next s

/-- HOLDOVER_LIMIT_EXPIRY: HOLDOVER for longer than LIMIT_S becomes HOLDOVER_LIMIT (R45). -/
def execHoldoverLimitExpiry (s : State) : Host.Outcome State Fault Refusal :=
  if s.rd DTM_STATUS_STATE = 3 then .next (setDatumState 4 s) else .next s

/-- What remains of the offset to the selected source: unslewed, or whole while a step is blocked. -/
def remainingOffset (n : Nat) (s : State) : Int :=
  if s.bit DTM_STATUS_STEP_BLOCKED then (s.source n).offset else s.dtm.slew

/-- The manager's request steps Datum only when the selected source has just qualified, the offset exceeds 1 us and no timed
contract is admitted; otherwise STEP_BLOCKED is raised (R37). -/
def stepRequest (s : State) : State :=
  if s.datumUp then
    match s.selected with
    | none => raise DTM_EVENT_STEP_BLOCKED s
    | some n =>
        if s.dtm.justQualified = some n ∧ oneUs.natAbs < (remainingOffset n s).natAbs ∧ s.contractHeld = false then
          acquire (datumStep (remainingOffset n s) s)
        else raise DTM_EVENT_STEP_BLOCKED s
  else s

/-- One-way spine delay: half the round trip, corrected by the island's fused asymmetry of at most 20 ps (R47). -/
def spineDelay (node roundTripPs : Nat) : Nat :=
  ((roundTripPs / 2 : Nat) + ((Config.fusedSpineAsym node).val : Int) - 20).toNat

/-- An island with its spine delay measured: its replica takes it at once while it stamps nothing, at its release or the end of
its reset (R47, R49). -/
def Island.calibrate (x : Island) (node roundTripPs : Nat) : Island :=
  { x with delayPs := spineDelay node roundTripPs, slewFs := 0 }

/-- An island in service with its spine delay measured again: the change is left to slewing (R47). -/
def Island.remeasure (x : Island) (node roundTripPs : Nat) : Island :=
  let d := spineDelay node roundTripPs
  { x with delayPs := d, slewFs := x.slewFs + 1000 * ((d : Int) - x.delayPs) }

/-- The stretch of a replica's change that 1 ns slews away: at 200 ppm, 200 fs (R47). -/
def Island.slewed (x : Island) : Island :=
  { x with slewFs := if 0 < x.slewFs then max 0 (x.slewFs - 200) else min 0 (x.slewFs + 200) }

/-- SPINE_MEASURE: the delay to an island in service is measured; its replica slews to it, or flywheels while Datum restarts
(R47, R50). -/
def execSpineMeasure (node roundTripPs : Nat) (s : State) : Host.Outcome State Fault Refusal :=
  let x := s.island node
  if x.released ∧ x.inReset = false ∧ s.dtm.restarting = false then .next (s.setIsland node (x.remeasure node roundTripPs))
  else .next s

/-- Datum's datapath state, which a restart discards: the counts of good edges and samples (R15; log entry 13). -/
def forgetSamples (s : State) : State :=
  restartCounts { s with dtm := { s.dtm with
    sources := tblMap (fun _ (x : DatumSource) => { x with good := 0, lastEdge := none, window := [] }) s.dtm.sources
    justQualified := none } }

/-- DATUM_RESTART: the Datum island resets, or with firmware true restarts its firmware. Replicas flywheel; it is a
single fault of KIND 0x0A (R50). -/
def execDatumRestart (firmware : Bool) (s : State) : Host.Outcome State Fault Refusal :=
  if s.dtm.restarting then .next s
  else
    let s := forgetSamples { s with dtm := { s.dtm with restarting := true } }
    let s := if firmware then s else s.setIsland datumNode { s.island datumNode with inReset := true }
    .next (logFault 0x0A 0 false false false s)

/-- SPINE_PATH_FAIL: the replica of an island moves to its second spine path and is recalibrated; a single fault of
KIND 0x09 (R51). -/
def execSpinePathFail (node roundTripPs : Nat) (s : State) : Host.Outcome State Fault Refusal :=
  let x := s.island node
  if x.released ∧ x.path = 1 then
    let s := s.setIsland node { x.remeasure node roundTripPs with path := 2 }
    .next (logFault 0x09 node false false false (raise DTM_EVENT_SPINE s))
  else .next s

/-- Period of a PPS output in ns. -/
def ppsPeriod (rate : Nat) : Nat := 10 ^ (9 - rate)

/-- Pulse width of a PPS output in ns: half the period when WIDTH reaches it (Table 2.12). -/
def ppsWidth (rate widthUs : Nat) : Nat := if ppsPeriod rate ≤ widthUs * 1000 then ppsPeriod rate / 2 else widthUs * 1000

/-- Level a PPS output drives: its active one inside its pulse, the inactive one otherwise and while EN is 0 (R57). -/
def State.ppsLevel (s : State) (n : Nat) : Nat :=
  if (s.dtm.pulsing.contains n && s.bit (DTM_PPS_CFG_EN n)) = s.bit (DTM_PPS_CFG_POL n) then 0 else 1

/-- An output enters or leaves its pulse. -/
def setPulse (n : Nat) (on : Bool) (s : State) : State :=
  let rest := s.dtm.pulsing.filter (· != n)
  let s := { s with dtm := { s.dtm with pulsing := if on then n :: rest else rest } }
  s.emit (.pps n (s.ppsLevel n))

/-- A write to DTM_PPS_CFG: the output drives another level when EN or POL gives it one. -/
def ppsWrite (n : Nat) (v : BitVec 64) (s : State) : State :=
  let was := s.ppsLevel n
  let s := s.plainWrite (DTM_PPS_CFG n) v
  let s := if s.bit (DTM_PPS_CFG_EN n) then s
    else { s with dtm := { s.dtm with pulsing := s.dtm.pulsing.filter (· != n) } }
  if s.ppsLevel n = was then s else s.emit (.pps n (s.ppsLevel n))

/-- Nanoseconds since the last instant k x period + PHASE of a PPS output. -/
def State.ppsSince (s : State) (n : Nat) : Int :=
  ((s.ns : Int) - signed 32 (s.rd (DTM_PPS_PHASE_PHASE n))) % (ppsPeriod (s.rd (DTM_PPS_CFG_RATE n)) : Int)

/-- PPS_OUT_EDGE: within 1 ns of an instant k x period + PHASE an enabled output drives its active edge, and WIDTH later the
other (R57). -/
def execPpsOutEdge (n : Nat) (s : State) : Host.Outcome State Fault Refusal :=
  let period : Int := ppsPeriod (s.rd (DTM_PPS_CFG_RATE n))
  let width : Int := ppsWidth (s.rd (DTM_PPS_CFG_RATE n)) (s.rd (DTM_PPS_CFG_WIDTH n))
  let r := s.ppsSince n
  if s.bit (DTM_PPS_CFG_EN n) = false ∨ 4 ≤ n then .next s
  else if r ≤ 1 ∨ period - 1 ≤ r then .next (setPulse n true s)
  else if s.dtm.pulsing.contains n ∧ width ≤ r + 1 then .next (setPulse n false s)
  else .next s

/-- kHz of FREQ of a SyncE output; 3 is treated as 0 (Table 2.12). -/
def synceKhz (freq : Nat) : Nat := match freq with
  | 1 => 156250 | 2 => 10000 | _ => 25000

/-- What a SyncE output carries: the clock of its lane, divided, unless it is disabled or squelched (R58). -/
def State.synceClock (s : State) (n : Nat) : Option (Nat × Nat) :=
  if s.bit (DTM_SYNCE_CFG_EN n) ∧ s.dtm.squelched.contains n = false then
    some (s.rd (DTM_SYNCE_CFG_LANE n), synceKhz (s.rd (DTM_SYNCE_CFG_FREQ n)))
  else none

/-- Change what a SyncE output depends on: it is shown when it changes. -/
def resynce (n : Nat) (f : State → State) (s : State) : State :=
  let t := f s
  if t.synceClock n = s.synceClock n then t else t.emit (.synce n (t.synceClock n))

/-- Squelch a SyncE output, or let it carry its clock again. -/
def setSquelch (n : Nat) (on : Bool) (s : State) : State :=
  let rest := s.dtm.squelched.filter (· != n)
  resynce n (fun t => { t with dtm := { t.dtm with squelched := if on then n :: rest else rest } }) s

/-- The lane of a SyncE output has no signal or lock: with SQUELCH 1 the output is held low and SYNCE_LOS raised (R58). -/
def loseSynce (n : Nat) (s : State) : State :=
  if n < 2 ∧ s.bit (DTM_SYNCE_CFG_EN n) ∧ s.bit (DTM_SYNCE_CFG_SQUELCH n) then raise DTM_EVENT_SYNCE_LOS (setSquelch n true s)
  else s

/-- A write to DTM_SYNCE_CFG. A squelch lasts while EN, LANE and SQUELCH stand, and until the
lane has lock again: R58 leaves open what ends it (log entry 13). -/
def synceWrite (n : Nat) (v : BitVec 64) (s : State) : State :=
  resynce n (fun t =>
    let u := t.plainWrite (DTM_SYNCE_CFG n) v
    if u.bit (DTM_SYNCE_CFG_EN n) ∧ u.bit (DTM_SYNCE_CFG_SQUELCH n) ∧ u.rd (DTM_SYNCE_CFG_LANE n) = t.rd (DTM_SYNCE_CFG_LANE n) then u
    else { u with dtm := { u.dtm with squelched := u.dtm.squelched.filter (· != n) } }) s

/-- SyncE outputs whose lane is one of a range. -/
def State.synceOf (s : State) (lo n : Nat) : List Nat :=
  (List.range 2).filter (fun k => decide (lo ≤ s.rd (DTM_SYNCE_CFG_LANE k)) && decide (s.rd (DTM_SYNCE_CFG_LANE k) < lo + n))

/-- SYNCE_LOS: the lane of an output loses signal or lock (R58). -/
def execSynceLos (n : Nat) (s : State) : Host.Outcome State Fault Refusal := .next (loseSynce n s)

/-! ## Time passes -/

/-- Units of 2^-16 ns that slewing may add in one nanosecond, and what is carried forward: the rate stays within
SLEW_LIMIT parts per million (R36). -/
def slewStep (limit acc : Nat) (slew : Int) : Int × Nat :=
  if slew = 0 then (0, 0)
  else
    let a := acc + limit * 65536
    let most : Nat := min (a / 1000000) slew.natAbs
    ((if 0 < slew then (most : Int) else -(most : Int)), a % 1000000)

/-- What a nanosecond of an oscillator that runs fast by e parts in 10^12 adds to Datum beyond 65536 units, and what is carried
forward (R43). -/
def holdStep (e : Int) (acc : Nat) : Int × Nat :=
  let a : Int := acc - 65536 * e
  (a / 1000000000000, (a % 1000000000000).toNat)

/-- The learned frequency error of the oscillator in use; 0 for the system reference and outside holdover (R43, R44). -/
def State.holdError (s : State) : Int :=
  if s.rd DTM_STATUS_HOLD_SEL < 2 then (s.osc (s.rd DTM_STATUS_HOLD_SEL)).learned.getD 0 else 0

/-- A second LOCKED ends: a fitted oscillator is measured against Datum (the measured error is a free value), and 1,000 seconds
give a learned value (R43). -/
def measureOsc (n : Nat) (s : State) : State :=
  if s.rd DTM_STATUS_STATE = 2 ∧ s.oscFitted n then
    let l := (signed 32 (s.draw.toNat % 2 ^ 32) :: (s.osc n).measured).take 1000
    s.drawn.setOsc n ⟨l, if l.length = 1000 then some (l.sum / 1000) else (s.osc n).learned⟩
  else s

/-- Datum's counter advances one nanosecond of its reference, corrected by slewing and by the learned error (R35, R36, R43). -/
def countTick (s : State) : State :=
  let (c, acc) := slewStep (s.rd DTM_CTRL_SLEW_LIMIT) s.dtm.slewAcc s.dtm.slew
  let (h, hacc) := holdStep s.holdError s.dtm.holdAcc
  { s with
    datum := s.datum + BitVec.ofInt 80 (65536 + c + h)
    dtm := { s.dtm with slew := s.dtm.slew - c, slewAcc := acc, holdAcc := hacc }
    islands := tblMap (fun _ x => x.slewed) s.islands }

/-- One nanosecond of the reference passes. In power-on reset Datum stands at 0 (R35). -/
def datumTick (s : State) : State :=
  if s.power.inReset then s
  else
    let t := countTick s
    if t.ns / 1000000000 = s.ns / 1000000000 then t else measureOsc 1 (measureOsc 0 t)

end Sys2Proof.Machine
end

