-- ==== Sys2Proof/Machine/Terms.lean ====
section
/-! DEFINITION. The terms admission adds up: port modes and rates (Table 8.1), the fixed part F (Tables 3.2-3.5, 4.2,
5.2, 5.3), capacities and usable shares (R71-R73), in integer ps, b/s and bits (R84). -/

namespace Sys2Proof.Machine

/-- Quotient rounded up. -/
def ceilDiv (a b : Nat) : Nat := (a + b - 1) / b

/-- Picoseconds in a second. -/
def psPerSec : Nat := 1000000000000

/-! ## Network ports (Table 8.1) -/

/-- Lanes of a port mode and rate of each lane in Gb/s; 0 lanes for mode 0 and the reserved modes. -/
def portMode (m : Nat) : Nat × Nat :=
  match m with
  | 1 => (1, 10) | 2 => (1, 25) | 3 => (1, 50) | 4 => (2, 25) | 5 => (1, 100) | 6 => (2, 50) | 7 => (4, 25)
  | 8 => (1, 200) | 9 => (2, 100) | 10 => (4, 50) | 11 => (2, 200) | 12 => (4, 100) | 13 => (8, 50)
  | 14 => (4, 200) | 15 => (8, 100) | 16 => (8, 200) | _ => (0, 0)

/-- A network port is configured: its MODE gives it lanes. -/
def State.netPresent (s : State) (p : Nat) : Bool := decide (p < 64) && (portMode (s.rd (NET_PORT_CFG_MODE p))).1 != 0

/-- Rate of each lane of a network port in Gb/s. -/
def State.netLaneGbps (s : State) (p : Nat) : Nat := (portMode (s.rd (NET_PORT_CFG_MODE p))).2

/-- A term a network port publishes to admission: it holds only while the port is UP. The spec states none for a port in another
state, where it is a free value (R212; DESIGN CHOICE, log entry 14). -/
def State.published (s : State) (p code v : Nat) : Nat :=
  if s.rd (NET_PORT_STATUS_STATE p) = 5 then v else Config.unpublished p code

/-- Data rate of a network port's mode in b/s. -/
def State.netRate (s : State) (p : Nat) : Nat :=
  (portMode (s.rd (NET_PORT_CFG_MODE p))).1 * (portMode (s.rd (NET_PORT_CFG_MODE p))).2 * 1000000000

/-- PHY_RX and PHY_TX of a lane rate in ns (Table 3.4). -/
def phyNs (gbps : Nat) : Nat × Nat :=
  match gbps with
  | 200 => (95, 45) | 100 => (130, 55) | 50 => (160, 60) | 25 => (190, 60) | 10 => (70, 40) | _ => (0, 0)

/-! ## Host and root ports (R111, R114, Table 5.2, Table 5.3) -/

/-- MAX_SPEED in units of 0.5 GT/s. -/
def halfGt (code : Nat) : Nat :=
  match code with
  | 1 => 5 | 2 => 10 | 3 => 16 | 4 => 32 | 5 => 64 | _ => 128

/-- Lanes of L0P_MIN; a width not below the port's disables L0p (Table 5.15). -/
def State.minLanes (s : State) (p : Nat) : Nat := min (s.portWidth p) (2 ^ s.rd (HP_PM_CFG_L0P_MIN p))

/-- W x S of a host port in b/s at the narrowest width ADM_OUT_CFGn.PM permits. -/
def State.hostWS (s : State) (p : Nat) : Nat :=
  (if s.rd (ADM_OUT_CFG_PM (64 + p)) = 0 then s.portWidth p else s.minLanes p)
    * halfGt (s.rd (HP_PORT_CFG_MAX_SPEED p)) * 500000000

/-- LINK_PM of a host port in ps: exit latency of the deepest state PM permits (Table 5.2). -/
def State.linkPm (s : State) (p : Nat) : Nat :=
  let exit := s.rd (HP_PM_EXIT_PARTNER_EXIT_NS p)
  match s.rd (ADM_OUT_CFG_PM (64 + p)) with
  | 2 => max 4000 exit * 1000
  | 3 => max 70000 exit * 1000
  | _ => 0

/-! ## Outlets -/

/-- Host port of an outlet or inlet number 64-111. -/
def hostOf (o : Nat) : Nat := o - 64

/-- A number of Table 1.3 that exists: a configured network port, a present host port, a cluster or a hub engine (R19). -/
def State.outletExists (s : State) (o : Nat) : Bool :=
  if o < 64 then s.netPresent o
  else if o < 112 then s.portPresent (hostOf o)
  else decide (o < 123)

/-- Full capacity C of an outlet in b/s (Table 3.6). A cluster's outlet and the Surveyor island's have none: a free value
(DESIGN CHOICE, log entry 14). -/
def State.capacity (s : State) (o : Nat) : Nat :=
  if o < 64 then s.published o 0x10 (s.netRate o)
  else if o < 112 then s.hostWS (hostOf o) * 7 / 8
  else if o = 120 ∨ o = 121 then 3200000000000
  else Config.unpublished o 0x10

/-- L_blk of an outlet in bits (R70, Table 8.2). -/
def State.lBlk (s : State) (o : Nat) : Nat :=
  if o < 64 then s.published o 8 ((s.rd (NET_PORT_CFG_MAX_FRAME o) + 84) * 8) else 4096

/-- PCIE_CREDIT of a host or root port in ps: 0 when the link partner advertises infinite posted credits (Table 3.3). -/
def State.creditPs (s : State) (o : Nat) : Nat :=
  if (s.port (hostOf o)).infCredit then 0 else s.rd (ADM_OUT_CFG_CREDIT_NS o) * 1000

/-! ## The fixed part F (R66) -/

/-- Stages of a path kind in order, without EDF_OUT (Table 3.2). -/
def stagesOf (kind : Nat) : List Nat :=
  match kind with
  | 0 => [1, 2, 3, 4, 5, 6, 7, 9, 0xA, 0xB, 0xC]
  | 1 => [3, 4, 5, 6, 7, 0xD]
  | 2 => [1, 2, 3, 4, 5, 6, 7, 0xD]
  | 3 => [3, 4, 5, 6, 7, 9, 0xA, 0xB, 0xC]
  | 4 => [3, 0xE, 4, 5, 6, 7, 0xD, 0xF]
  | 5 => [1, 2, 3, 4, 5, 6, 7, 0xE, 9, 0xA, 0xB, 0xC]
  | 6 => [0xE, 3, 4, 5, 6, 7, 9, 0xA, 0xB, 0xC]
  | 7 => [3, 4, 5, 6, 7, 0xE]
  | _ => []

/-- Hop count H of a path kind (Table 4.2). -/
def hopsOf (kind : Nat) : Nat :=
  match kind with
  | 4 => 12 | 5 => 9 | 6 => 9 | 7 => 6 | _ => 8

/-- DRESS term in ps (Table 3.5). -/
def dressPs (dress lmax : Nat) : Nat :=
  match dress with
  | 1 => 24000 | 2 => 40000 | 3 => 40000
  | 4 => 24000 + 8750 * ceilDiv lmax 16
  | _ => 0

/-- A term of Table 3.3 in ps, rounded up. -/
def State.term (s : State) (p : ContractParams) (stage : Nat) : Nat :=
  match stage with
  | 0x01 => s.published p.src 1 ((phyNs (s.netLaneGbps p.src)).1 * 1000)
  | 0x02 => ceilDiv (p.lmax * 8 * psPerSec) (s.published p.src 2 (s.netRate p.src))
  | 0x03 => 1200 * (hopsOf p.kind + 2)
  | 0x04 => 96000
  | 0x05 => dressPs p.dress p.lmax
  | 0x06 => 9600
  | 0x07 => 24000
  | 0x09 => ceilDiv (3 * 8 * 512 * psPerSec) (s.hostWS (hostOf p.dst))
  | 0x0A => 60000
  | 0x0B => s.creditPs p.dst
  | 0x0C => s.linkPm (hostOf p.dst)
  | 0x0D => s.published p.dst 0xD ((phyNs (s.netLaneGbps p.dst)).2 * 1000)
  | 0x0E => 40000
  | 0x0F => p.fabric * 1000
  | _ => 0

/-- F of a contract in ps. -/
def State.fixedPart (s : State) (p : ContractParams) : Nat := ((stagesOf p.kind).map (s.term p)).sum

/-- The stage with the largest term, the first in path order on a tie. -/
def State.largestStage (s : State) (p : ContractParams) : Nat :=
  ((stagesOf p.kind).foldl (fun (best : Nat × Nat) st => if best.2 < s.term p st then (st, s.term p st) else best) (0, 0)).1

/-! ## Resources (R71-R73, Table 3.6) -/

/-- Bench of a bucket, 0x1F none (R243). -/
def State.benchOf (s : State) (bucket : Nat) : Nat := s.rd (BNC_MAP_BENCH bucket)

/-- Sett store bandwidth in b/s that remains after a consumed bank group (Table 3.7). -/
def State.storeC (s : State) : Nat := if s.rd HLT_SPARE_GROUP = 0 then 60000000000000 else 64000000000000

/-- Setts that remain after a consumed bank group. -/
def State.settC (s : State) : Nat := if s.rd HLT_SPARE_GROUP = 0 then 614400 else 655360

/-- Capacity, margin held back, share and demand of one contract for a resource. -/
structure Resource where
  c : Nat
  held : Nat
  share : Nat
  demand : ContractParams → Nat

/-- Packets a contract may send per second: r / (8 x Lmin). R72 states no rounding of it, and the model rounds it up (DESIGN
CHOICE, log entry 14). -/
def packetRate (p : ContractParams) : Nat := ceilDiv p.rate (8 * p.lmin)

/-- A resource by code, for an outlet. -/
def State.resource (s : State) (code o : Nat) : Resource :=
  match code with
  | 0x10 => ⟨s.capacity o, 0, s.rd (ADM_OUT_CFG_SHARE o), fun p => p.rate⟩
  | 0x11 => ⟨1600000000000, 0, s.rd ADM_RES_SHARE_BENCH, fun p => p.rate⟩
  | 0x12 => ⟨2500000000, 0, s.rd ADM_RES_SHARE_BENCH, packetRate⟩
  | 0x13 => ⟨s.storeC, 4000000000000, s.rd ADM_RES_SHARE_STORE, fun p => 2 * p.rate⟩
  | _ => ⟨s.settC, 40960, s.rd ADM_RES_SHARE_SETT, reserveS⟩

/-- U := floor(C x SHARE / 256) - HELD (R71). -/
def Resource.usable (r : Resource) : Int := ((r.c * r.share / 256 : Nat) : Int) - r.held

/-- Bench that carries the contract demand of a bucket: during a move the old one, until the move succeeds (R249). -/
def State.demandBench (s : State) (bucket : Nat) : Nat :=
  match s.pipe.move with
  | some m => if m.bucket = bucket then m.old else s.benchOf bucket
  | none => s.benchOf bucket

/-- Two contracts draw on the same instance of a resource. -/
def State.sameInstance (s : State) (code : Nat) (p q : ContractParams) : Bool :=
  match code with
  | 0x10 => p.dst == q.dst
  | 0x11 => s.demandBench p.bucket == s.demandBench q.bucket
  | 0x12 => s.demandBench p.bucket == s.demandBench q.bucket
  | _ => true

end Sys2Proof.Machine
end

