-- ==== Sys2Proof/Machine/Admission.lean ====
section
/-! DEFINITION. Admission: the check of R84, the admission commands, policing, and checked configuration writes
(spec 03, R61-R90). -/

namespace Sys2Proof.Machine

/-! ## Fit, reach and shares (R62, R83) -/

/-- Parameters of an admission entry (Table 3.11). -/
def entryParams (e : Entry) : ContractParams where
  cls := eBits e 10 0 3
  kind := eBits e 11 0 3
  src := eBits e 12 0 7
  dst := eBits e 13 0 7
  bucket := eBits e 14 0 12
  rate := eN e 16 8
  burst := eN e 24 4
  lmax := eN e 28 2
  lmin := eN e 30 2
  deadline := eN e 32 4
  fabric := eN e 36 4
  dress := eBits e 40 0 3

/-- The parameters lie within Table 3.1. -/
def State.inRanges (s : State) (p : ContractParams) : Bool :=
  (s.rd ADM_CTRL_TIMED).testBit p.cls && decide (p.kind ≤ 7)
    && decide (1000000 ≤ p.rate) && decide (p.rate ≤ 1600000000000)
    && decide (64 ≤ p.lmax) && decide (p.lmax ≤ 9216) && decide (64 ≤ p.lmin) && decide (p.lmin ≤ p.lmax)
    && decide (p.lmax ≤ p.burst) && decide (p.burst ≤ 16777216)
    && decide (1 ≤ p.deadline) && decide (p.deadline ≤ 1000000000)
    && decide (p.fabric ≤ 1000000000) && (p.kind == 4 || p.fabric == 0) && decide (p.dress ≤ 4)

/-- What an end of a path may be (Table 3.2). -/
inductive EndKind where
  | net | host | root | engine
  deriving DecidableEq, Repr

/-- Source and destination kinds of a path kind. -/
def endsOf (kind : Nat) : EndKind × EndKind :=
  match kind with
  | 0 => (.net, .host) | 1 => (.host, .net) | 2 => (.net, .net) | 3 => (.host, .host)
  | 4 => (.host, .net) | 5 => (.net, .host) | 6 => (.engine, .root) | _ => (.root, .engine)

/-- A number names an existing end of a kind (R19). -/
def State.endFits (s : State) (k : EndKind) (n : Nat) : Bool :=
  match k with
  | .net => s.netPresent n
  | .host => decide (64 ≤ n) && decide (n < 112) && s.portIsEndpoint (hostOf n)
  | .root => decide (64 ≤ n) && decide (n < 112) && s.portIsRoot (hostOf n)
  | .engine => n == 121

/-- The narrowest permitted W x S of a host or root port is at least 256 Gb/s (R115). -/
def State.wideEnough (s : State) (n : Nat) : Bool := n < 64 || 112 ≤ n || decide (256000000000 ≤ s.hostWS (hostOf n))

/-- Status of the path fit of a contract against every other one: 0x0104, 0x0105 or none (R83, R115, R340). -/
def State.pathFit (s : State) (p : ContractParams) (others : List Contract) : Option Nat :=
  if ¬ (s.endFits (endsOf p.kind).1 p.src ∧ s.endFits (endsOf p.kind).2 p.dst) then some 0x0104
  else if s.benchOf p.bucket = 0x1F then some 0x0104
  else if ¬ (s.wideEnough p.src ∧ s.wideEnough p.dst) then some 0x0104
  else if (p.kind = 4 ∨ p.kind = 5) ∧ p.dress ≠ 2 then some 0x0105
  else if p.dress = 4 ∧ others.any (fun o => o.par.dress == 4 && o.par.src == p.src && o.par.bucket == p.bucket
      && o.par.cls == p.cls && o.par.lmax != p.lmax) then some 0x0105
  else none

/-- The sheet belongs to its port's manager: physical function 0 (R29). -/
def State.managerSheet (s : State) (n : Nat) : Bool := s.sheetPf n == 0

/-- A sheet's reach for a contract (R83). -/
def State.inReach (s : State) (n : Nat) (p : ContractParams) : Bool :=
  let own := 64 + s.sheetPortD n
  match p.kind with
  | 0 => p.dst == own | 5 => p.dst == own
  | 1 => p.src == own | 4 => p.src == own
  | 3 => p.src == own || p.dst == own
  | _ => s.managerSheet n

/-- A sheet may name a contract: its own, or for a manager one of any sheet on its port (R81). -/
def State.mayName (s : State) (n : Nat) (c : Contract) : Bool :=
  c.sheet == n || (s.managerSheet n && s.sheetPortD c.sheet == s.sheetPortD n)

/-- Contracts that are not FREE, but for one. -/
def State.others (s : State) (except : Option Nat) : List Contract :=
  (s.contracts.filter (fun c => some c.1 != except)).map (fun c => c.2)

/-- The sheet's shares admit the contract: 0x0302, 0x0303 or none. old is the contract a MODIFY replaces. -/
def State.sharesFit (s : State) (n : Nat) (p : ContractParams) (old : Option ContractParams) : Option Nat :=
  let oldRate := match old with | some q => q.rate | none => 0
  let oldS := match old with | some q => reserveS q | none => 0
  let more := match old with | some _ => 0 | none => 1
  if s.limit n 6 < s.usage n 6 + more then some 0x0302
  else if s.limit n 7 < s.usage n 7 - oldRate + p.rate then some 0x0302
  else if s.limit n 1 < s.usage n 1 - oldS + reserveS p then some 0x0303
  else none

/-! ## The EDF test (R69, R70) -/

/-- VOQ of a contract's packets: a contract through the Ralush engine enters the store at inlet 120 (kind 4) or leaves
it at outlet 120 (kind 5). -/
def contractVoq (p : ContractParams) : Nat × Nat × Nat :=
  ((if p.kind = 4 then 120 else p.src), (if p.kind = 5 then 120 else p.dst), p.cls)

/-- D_v in ns: the smallest D of the contracts that share the VOQ, 1 s when none does. -/
def voqDeadline (l : List ContractParams) (v : Nat × Nat × Nat) : Nat :=
  (l.filter (fun q => contractVoq q == v)).foldl (fun m q => min m q.deadline) 1000000000

/-- A test item: local deadline d = D_v - F in ps, burst in bytes, rate in b/s. -/
structure EdfItem where
  d : Int
  burst : Nat
  rate : Nat
  deriving DecidableEq, Repr

/-- D_v of a timed VOQ (R69). -/
def State.voqD (s : State) (v : Nat) : Nat :=
  voqDeadline ((s.contracts.filter (fun c => c.2.state.holds)).map (fun c => c.2.par)) (voqInlet v, voqOutlet v, voqClass v)

/-- Items of an outlet: every other contract that uses it, and the one tested. D_v is over every contract that shares the VOQ, the
ones with another host port behind outlet 120 among them. -/
def State.edfItems (s : State) (p : ContractParams) (others : List Contract) : List EdfItem :=
  let at' := others.filter (fun c => c.par.dst == p.dst)
  let sharing := p :: (others.filter (fun c => c.state.holds)).map (fun c => c.par)
  (p :: at'.map (fun c => c.par)).map
    (fun q => ⟨((voqDeadline sharing (contractVoq q) * 1000 : Nat) : Int) - s.fixedPart q, q.burst, q.rate⟩)

/-- Rate times a time in ps, in bits rounded up. -/
def bitsUp (rate : Nat) (ps : Int) : Int := -(-(rate * ps) / (psPerSec : Int))

/-- Rate times a time in ps, in bits rounded down. -/
def bitsDown (rate : Nat) (ps : Int) : Int := rate * ps / (psPerSec : Int)

/-- Demand of the items at a time, in bits (R70). -/
def edfDemand (lblk : Nat) (items : List EdfItem) (t : Int) : Int :=
  items.foldl (fun acc i => if i.d ≤ t then acc + i.burst * 8 + bitsUp i.rate (t - i.d) else acc) lblk

/-- Demand minus capacity at a time, in bits. -/
def edfGap (cap lblk : Nat) (items : List EdfItem) (t : Int) : Int := edfDemand lblk items t - bitsDown cap t

/-- The largest gap over the local deadlines. -/
def edfWorst (cap lblk : Nat) (items : List EdfItem) : Int :=
  match items.map (fun i => edfGap cap lblk items i.d) with
  | [] => 0
  | g :: gs => gs.foldl max g

/-- Slack in ps: the least (C x t - demand) / C, rounded down. -/
def edfSlack (cap lblk : Nat) (items : List EdfItem) : Int := (-(edfWorst cap lblk items)) * psPerSec / cap

/-! ## The check (R84) -/

/-- What a check answers: status, binding stage and instance, shortfall, F and slack (Table 3.12). -/
structure Verdict where
  status : Nat
  stage : Nat
  inst : Nat
  short : Nat
  fixed : Nat
  slack : Int
  deriving DecidableEq, Repr

/-- An answer without a computed F: FIXED_PS is 0. Table 3.12 does not say what FIXED_PS holds when the check ends before F, or for
WITHDRAW and STAGE_DUMP (DESIGN CHOICE, log entry 14). -/
def Verdict.early (status : Nat) : Verdict := ⟨status, 0, 0, 0, 0, 0⟩

/-- INSTANCE of a stage of Table 3.3 or a resource of Table 3.6 (Table 3.12). -/
def State.stageInstance (s : State) (p : ContractParams) (code : Nat) : Nat :=
  if code = 1 ∨ code = 2 then p.src
  else if (9 ≤ code ∧ code ≤ 0xD) ∨ code = 8 ∨ code = 0x10 then p.dst
  else if code = 0x11 ∨ code = 0x12 then s.demandBench p.bucket
  else if code = 4 ∨ code = 5 then s.benchOf p.bucket
  else 0

/-- Excess of a resource with a contract added, if positive (R71, R72). -/
def State.resourceExcess (s : State) (code : Nat) (p : ContractParams) (others : List Contract) : Int :=
  let r := s.resource code p.dst
  let used := ((others.filter (fun o => s.sameInstance code o.par p)).map (fun o => r.demand o.par)).sum
  ((used + r.demand p : Nat) : Int) - r.usable

/-- F against D, the rate resources in order, and the EDF test (R84). -/
def State.checkTiming (s : State) (p : ContractParams) (others : List Contract) : Verdict :=
  let f := s.fixedPart p
  if p.deadline * 1000 < f then
    let st := s.largestStage p
    ⟨0x0202, st, s.stageInstance p st, f - p.deadline * 1000, f, 0⟩
  else
    match [0x10, 0x11, 0x12, 0x13, 0x14].find? (fun r => decide (0 < s.resourceExcess r p others)) with
    | some r => ⟨0x0201, r, s.stageInstance p r, (s.resourceExcess r p others).toNat, f, 0⟩
    | none =>
      let cap := s.capacity p.dst
      let items := s.edfItems p others
      let g := edfWorst cap (s.lBlk p.dst) items
      let slack := edfSlack cap (s.lBlk p.dst) items
      if 0 < g then ⟨0x0203, 8, p.dst, ceilDiv (g.toNat * psPerSec) cap, f, slack⟩
      else ⟨0, 0, 0, 0, f, slack⟩

/-- The check of a contract of sheet n on a command that sheet issuer sends. old is the contract a MODIFY replaces, with
its number (R84). -/
def State.checkContract (s : State) (issuer n : Nat) (p : ContractParams) (old : Option (Nat × ContractParams)) : Verdict :=
  let others := s.others (old.map (fun o => o.1))
  if s.inRanges p = false then .early 0x0103
  else match s.pathFit p others with
  | some st => .early st
  | none =>
    if s.inReach issuer p = false then .early 0x0401
    else if old.isNone ∧ 65536 ≤ s.contracts.length then .early 0x0301
    else match s.sharesFit n p (old.map (fun o => o.2)) with
    | some st => .early st
    | none => if s.noSpare then .early 0x0204 else s.checkTiming p others

/-! ## Commands (R81-R88) -/

/-- Completion fields of Table 3.12. -/
def admBody (s : State) (id state : Nat) (v : Verdict) (nonconf : Nat) : Body :=
  [(8, 2, id), (10, 1, v.stage), (11, 1, state), (12, 2, v.inst), (16, 8, v.short), (24, 8, v.fixed),
   (32, 4, s.rd ADM_GEN_GENERATION), (40, 8, nonconf), (48, 8, unsigned 64 v.slack)]

/-- ADM_GEN increments (R85). -/
def bumpGen (s : State) : State := s.wr ADM_GEN_GENERATION (s.rd ADM_GEN_GENERATION + 1)

/-- Tokens of a full bucket, in units of 1 bit x 10^9 x 2^16 (R64). -/
def fullTokens (p : ContractParams) : Nat := p.burst * 8 * 65536000000000

/-- State a passing contract takes: SUSPENDED when its sheet is in DEBUG (R79). -/
def State.passedState (s : State) (n : Nat) : ContractState := if (s.sheet n).state = .debug then .suspended else .admitted

/-- A free contract number: the one offered when it is free, else the lowest. -/
def State.freeContractId (s : State) (pick : Nat) : Nat :=
  if pick < 65536 ∧ s.contract? pick = none then pick else tblFree s.contracts 0

/-- ADM_STATUS.READY: admission serves commands; before, they wait (Table 1.4). -/
def admGate (s : State) (f : State → State) : Host.Outcome State Fault Refusal :=
  if s.bit ADM_STATUS_READY then .next (f s) else .next s

/-- ADMIT on a ring: check, and admit to the ring's sheet under a number the device chooses (R84, R85). -/
def execAdmit (ring pick : Nat) (s : State) : Host.Outcome State Fault Refusal :=
  admGate s (runEntry ring (· == 0x10) (fun r j s =>
    let p := entryParams j.first
    let v := s.checkContract r.sheet r.sheet p none
    if v.status = 0 then
      let id := s.freeContractId pick
      let s := bumpGen (s.setContract id ⟨s.passedState r.sheet, r.sheet, p, fullTokens p, s.datum.toNat, 0, none, 0, 0, [], none⟩)
      let s := settlePath p s
      (s, 0, admBody s id (s.passedState r.sheet).code v 0)
    else (s, v.status, admBody s 0xFFFF 0 v 0)))

/-- CHECK: the ADMIT check; nothing changes (R84). -/
def execCheck (ring : Nat) (s : State) : Host.Outcome State Fault Refusal :=
  admGate s (runEntry ring (· == 0x13) (fun r j s =>
    let v := s.checkContract r.sheet r.sheet (entryParams j.first) none
    (s, v.status, admBody s 0xFFFF 0 v 0)))

/-- Refusal of a command that names a contract: 0x0402 outside the issuer's reach, 0x0501 FREE or WITHDRAWING. -/
def State.nameRefusal (s : State) (n id : Nat) : Nat × Contract ⊕ Nat :=
  match s.contract? id with
  | none => .inr 0x0501
  | some c =>
    if s.mayName n c = false then .inr 0x0402
    else if c.state = .withdrawing then .inr 0x0501
    else .inl (id, c)

/-- STATE of a contract number. -/
def State.contractCode (s : State) (id : Nat) : Nat :=
  match s.contract? id with
  | some c => c.state.code
  | none => 0

/-- Packets queued in the VOQ of some parameters keep the deadlines they have (R86). -/
def keepDeadlines (p : ContractParams) (s : State) : State :=
  let v := voqIndex (contractVoq p).1 (contractVoq p).2.1 (contractVoq p).2.2
  { s with voqs := tblMap (fun k q => if k = v then q.map (fun x => { x with edf := some (x.edf.getD (s.voqD v)) }) else q) s.voqs }

/-- A contract with new parameters and a full bucket. Packets stamped until now and still on their way to the store keep the old
parameters (R64, R86). -/
def Contract.modified (c : Contract) (p : ContractParams) (st : ContractState) (s : State) : Contract :=
  { c with
    state := st
    par := p
    tokens := fullTokens p
    refilled := s.datum.toNat
    past := if s.pipe.flying = [] ∧ s.pipe.waiting = [] then []
      else ⟨s.datum.toNat, c.par, c.tokens, c.refilled⟩ :: c.past }

/-- MODIFY: atomic replacement of the parameters of an ADMITTED contract (R86). -/
def execModify (ring : Nat) (s : State) : Host.Outcome State Fault Refusal :=
  admGate s (runEntry ring (· == 0x12) (fun r j s =>
    let id := eN j.first 8 2
    match s.nameRefusal r.sheet id with
    | .inr st => (s, st, admBody s id (s.contractCode id) (.early st) 0)
    | .inl (id, c) =>
      if c.state ≠ .admitted then (s, 0x0106, admBody s id c.state.code (.early 0x0106) 0)
      else
        let p := entryParams j.first
        let v := s.checkContract r.sheet c.sheet p (some (id, c.par))
        if v.status = 0 then
          let st := s.passedState c.sheet
          let s := keepDeadlines p (keepDeadlines c.par s)
          let s := settlePath p (settlePath c.par (bumpGen (s.setContract id (c.modified p st s))))
          (s, 0, admBody s id st.code v 0)
        else (s, v.status, admBody s id c.state.code v 0)))

/-- QUERY: state, F, slack and NONCONF (R81). -/
def execAdmissionQuery (ring : Nat) (s : State) : Host.Outcome State Fault Refusal :=
  admGate s (runEntry ring (· == 0x14) (fun r j s =>
    let id := eN j.first 8 2
    match s.nameRefusal r.sheet id with
    | .inr st => (s, st, admBody s id (s.contractCode id) (.early st) 0)
    | .inl (id, c) =>
      let slack := edfSlack (s.capacity c.par.dst) (s.lBlk c.par.dst) (s.edfItems c.par (s.others (some id)))
      (s, 0, admBody s id c.state.code ⟨0, 0, 0, 0, s.fixedPart c.par, slack⟩ c.nonconf)))

/-- WITHDRAW: the contract becomes WITHDRAWING; the entry completes at the end of its drain (R87). -/
def execWithdraw (ring : Nat) (s : State) : Host.Outcome State Fault Refusal :=
  admGate s (startEntry ring (· == 0x11) (fun r j s =>
    let id := eN j.first 8 2
    match s.nameRefusal r.sheet id with
    | .inr st => (s, some (st, admBody s id (s.contractCode id) (.early st) 0))
    | .inl (id, _) => (withdrawContract id (some (ring, j.idx)) 0 s, none)))

/-! ## The stage dump (R88) -/

/-- One 32-byte stage record. -/
def stageRecord (code inst value held share : Nat) : Bytes :=
  leBytes 32 (packBody [(0, 1, code), (2, 2, inst), (8, 8, value), (16, 8, held), (24, 1, share)])

/-- Records of one code for a list of instances. -/
def stageRecords (code : Nat) (insts : List Nat) (value : Nat → Nat) : Bytes :=
  insts.flatMap (fun i => stageRecord code i (value i) 0 0)

/-- Records of one resource for a list of instances. -/
def State.resourceRecords (s : State) (code : Nat) (insts : List Nat) : Bytes :=
  insts.flatMap (fun i => let r := s.resource code i; stageRecord code i r.c r.held r.share)

/-- Network ports that are UP. -/
def State.netUp (s : State) : List Nat := (List.range 64).filter (fun p => s.rd (NET_PORT_STATUS_STATE p) == 5)

/-- Outlet numbers of present host and root ports. -/
def State.hostOutlets (s : State) : List Nat := ((List.range 48).filter s.portPresent).map (· + 64)

/-- Every outlet that exists (R88). -/
def State.ratedOutlets (s : State) : List Nat := (List.range 123).filter s.outletExists

/-- ACTIVE benches. -/
def State.activeBenches (s : State) : List Nat := (List.range 18).filter (fun k => s.rd (BNC_STATUS_STATE k) == 2)

/-- The stage records of the dump, by code and then instance. -/
def State.dumpStages (s : State) : Bytes :=
  stageRecords 1 s.netUp (fun p => (phyNs (s.netLaneGbps p)).1 * 1000)
    ++ stageRecords 2 s.netUp s.netRate
    ++ stageRecord 3 0 1200 0 0 ++ stageRecord 4 0 96000 0 0 ++ stageRecord 6 0 9600 0 0 ++ stageRecord 7 0 24000 0 0
    ++ stageRecords 9 s.hostOutlets (fun o => s.hostWS (hostOf o))
    ++ stageRecords 0xA s.hostOutlets (fun _ => 60000)
    ++ stageRecords 0xB s.hostOutlets s.creditPs
    ++ stageRecords 0xC s.hostOutlets (fun o => s.linkPm (hostOf o))
    ++ stageRecords 0xD s.netUp (fun p => (phyNs (s.netLaneGbps p)).2 * 1000)
    ++ stageRecord 0xE 0 40000 0 0
    ++ s.resourceRecords 0x10 s.ratedOutlets ++ s.resourceRecords 0x11 s.activeBenches
    ++ s.resourceRecords 0x12 s.activeBenches ++ s.resourceRecords 0x13 [0] ++ s.resourceRecords 0x14 [0]

/-- One 64-byte contract record. -/
def contractRecord (id : Nat) (c : Contract) : Bytes :=
  leBytes 64 (packBody [(0, 2, id), (2, 1, c.state.code), (4, 2, c.sheet), (8, 2, id), (10, 1, c.par.cls),
    (11, 1, c.par.kind), (12, 1, c.par.src), (13, 1, c.par.dst), (14, 2, c.par.bucket), (16, 8, c.par.rate),
    (24, 4, c.par.burst), (28, 2, c.par.lmax), (30, 2, c.par.lmin), (32, 4, c.par.deadline), (36, 4, c.par.fabric),
    (40, 1, c.par.dress)])

/-- The value of ADM_STATUS as it reads: CONTRACTS counts the contracts not FREE. -/
def State.admStatus (s : State) : BitVec 64 := putField (s.reg ADM_STATUS) 4 17 s.contracts.length

/-- The dump of R88. -/
def State.stageDump (s : State) : Bytes :=
  let stages := s.dumpStages
  let contracts := s.contracts.flatMap (fun c => contractRecord c.1 c.2)
  leBytes 64 (packBody [(0, 4, s.rd ADM_GEN_GENERATION), (4, 4, stages.length / 32), (8, 4, s.contracts.length),
    (12, 4, s.admStatus.toNat)]) ++ stages ++ contracts

/-- STAGE_DUMP: the manager's dump of one generation into host memory (R88). -/
def execStageDump (ring : Nat) (s : State) : Host.Outcome State Fault Refusal :=
  admGate s (runEntry ring (· == 0x15) (fun r j s =>
    let dump := s.stageDump
    let len := eN j.first 56 4
    if s.managerSheet r.sheet = false then (s, 0x0403, admBody s 0xFFFF 0 (.early 0x0403) 0)
    else if len < dump.length then
      (s, 0x0304, admBody s 0xFFFF 0 ⟨0x0304, 0, 0, dump.length - len, 0, 0⟩ 0)
    else
      let s := sheetWrite r.sheet (eN j.first 48 8) dump s
      (s, 0, admBody s 0xFFFF 0 (.early 0) 0)))

/-! ## Policing (R63, R64) -/

/-- A token bucket of some parameters refilled to now: never more than b. -/
def pour (p : ContractParams) (tokens refilled now : Nat) : Nat := min (fullTokens p) (tokens + p.rate * (now - refilled))

/-- Tokens of a packet of L bytes. -/
def tokenNeed (len : Nat) : Nat := len * 8 * 65536000000000

/-- A packet of L bytes conforms to parameters whose bucket holds some tokens (R64). -/
def conforms (p : ContractParams) (tokens len : Nat) : Bool :=
  decide (p.lmin ≤ len) && decide (len ≤ p.lmax) && decide (tokenNeed len ≤ tokens)

/-- The replaced parameters that still apply to a packet that started at an instant: those of the earliest MODIFY since (R86). -/
def Contract.past? (c : Contract) (start : Nat) : Option PastTerms :=
  c.past.foldl (fun acc t => if start ≤ t.upTo then some t else acc) none

/-- The parameters that apply to a packet that started at an instant (R86). -/
def Contract.parAt (c : Contract) (start : Nat) : ContractParams :=
  match c.past? start with
  | some t => t.par
  | none => c.par

/-- Police a packet of L bytes that started at an instant: its deadline D when it conforms and its tokens are taken; none when it
is counted NONCONF and goes to FALLBACK (R64). -/
def police (id len start : Nat) (s : State) : Option Nat × State :=
  match s.contract? id with
  | none => (none, s)
  | some c =>
    let now := s.datum.toNat
    match c.past? start with
    | some t =>
      let have' := pour t.par t.tokens t.refilled now
      if conforms t.par have' len then
        (some t.par.deadline, s.setContract id { c with
          past := c.past.map (fun x => if x.upTo = t.upTo then { x with tokens := have' - tokenNeed len, refilled := now } else x) })
      else (none, s.setContract id { c with nonconf := c.nonconf + 1 })
    | none =>
      let have' := pour c.par c.tokens c.refilled now
      if conforms c.par have' len then
        (some c.par.deadline, s.setContract id { c with tokens := have' - tokenNeed len, refilled := now })
      else (none, s.setContract id { c with tokens := have', refilled := now, nonconf := c.nonconf + 1 })

/-- Count a packet as non-conforming whatever its bucket holds. -/
def nonConform (id : Nat) (s : State) : State :=
  match s.contract? id with
  | none => s
  | some c => s.setContract id { c with nonconf := c.nonconf + 1 }

/-! ## Checked configuration writes (R78, R115) -/

/-- The registers R78 and R115 check, and the outlet whose contracts a write affects (none: every contract). -/
def checkedReg (a : Nat) : Option (Option Nat) :=
  if a = ADM_CTRL ∨ a = ADM_RES_SHARE then some none
  else if ADM_OUT_CFG 0 ≤ a ∧ a < ADM_OUT_CFG 128 then some (some ((a - ADM_OUT_CFG 0) / 4))
  else if HP_PM_CFG 0 ≤ a ∧ a < HP_PM_CFG 48 ∧ (a - HP_PM_CFG 0) % 0x10000 = 0 then some (some (64 + (a - HP_PM_CFG 0) / 0x10000))
  else if HP_PM_EXIT 0 ≤ a ∧ a < HP_PM_EXIT 48 ∧ (a - HP_PM_EXIT 0) % 0x10000 = 0 then some (some (64 + (a - HP_PM_EXIT 0) / 0x10000))
  else none

/-- The change of a register from s to t is one R78 or R115 checks: a lower share, a deeper PM, a larger CREDIT_NS,
another TIMED or FALLBACK, a narrower L0P_MIN or a longer HP_PM_EXIT. -/
def needsCheck (a : Nat) (s t : State) : Bool :=
  if a = ADM_CTRL then s.reg a != t.reg a
  else if a = ADM_RES_SHARE then
    decide (t.rd ADM_RES_SHARE_BENCH < s.rd ADM_RES_SHARE_BENCH) || decide (t.rd ADM_RES_SHARE_STORE < s.rd ADM_RES_SHARE_STORE)
      || decide (t.rd ADM_RES_SHARE_SETT < s.rd ADM_RES_SHARE_SETT)
  else if ADM_OUT_CFG 0 ≤ a ∧ a < ADM_OUT_CFG 128 then
    let n := (a - ADM_OUT_CFG 0) / 4
    decide (t.rd (ADM_OUT_CFG_SHARE n) < s.rd (ADM_OUT_CFG_SHARE n)) || decide (s.rd (ADM_OUT_CFG_PM n) < t.rd (ADM_OUT_CFG_PM n))
      || decide (s.rd (ADM_OUT_CFG_CREDIT_NS n) < t.rd (ADM_OUT_CFG_CREDIT_NS n))
  else
    let p := (a - HP_PM_CFG 0) / 0x10000
    decide (t.rd (HP_PM_CFG_L0P_MIN p) < s.rd (HP_PM_CFG_L0P_MIN p))
      || decide (s.rd (HP_PM_EXIT_PARTNER_EXIT_NS p) < t.rd (HP_PM_EXIT_PARTNER_EXIT_NS p))

/-- A contract passes the configuration tests of R78 in a state: ranges and path fit, F, rate resources, EDF. -/
def State.stillFits (s : State) (id : Nat) (p : ContractParams) : Bool :=
  let others := s.others (some id)
  s.inRanges p && (s.pathFit p others).isNone && (s.checkTiming p others).status == 0

/-- The configuration of a state is acceptable for every contract a write affects. -/
def State.configFits (s : State) (outlet : Option Nat) : Bool :=
  !(s.rd ADM_CTRL_TIMED).testBit (s.rd ADM_CTRL_FALLBACK)
    && s.contracts.all (fun c => (match outlet with
        | some o => !usesPort o c.2
        | none => false) || s.stillFits c.1 c.2.par)

/-- PM and CREDIT_NS of ADM_OUT_CFGn are reserved but for host and root ports (Table 3.19): they keep 0. -/
def admMask (addr : Nat) (v : BitVec 64) : BitVec 64 :=
  if ADM_OUT_CFG 0 ≤ addr ∧ addr < ADM_OUT_CFG 128 ∧ ¬ (64 ≤ (addr - ADM_OUT_CFG 0) / 4 ∧ (addr - ADM_OUT_CFG 0) / 4 < 112) then
    v &&& 0xFF
  else v

/-- A write to an outlet's configuration may rule out the power state its link is in (R77). -/
def settleOutlet (outlet : Option Nat) (s : State) : State :=
  match outlet with
  | some o => settleLink o s
  | none => s

/-- A write to ADM_RES_SHARE changes the timed part, and so the shared pool (R290). -/
def sizeShares (addr : Nat) (s : State) : State := if addr = ADM_RES_SHARE then refreshPressure (resizePool s) else s

/-- ADM_CONFIG_WRITE: a write to ADM_CTRL, ADM_RES_SHARE, ADM_OUT_CFGn, HP_PM_CFG or HP_PM_EXIT is applied, or refused
with CFG_REJECT when a contract it affects would no longer pass (R78, R115); so is a BENCH share above 0xB7 (R343). An outlet
that does not exist ignores it. -/
def admConfigWrite (addr : Nat) (value : BitVec 64) (s : State) : State :=
  match checkedReg addr with
  | none => s
  | some outlet =>
    let t := s.plainWrite addr (admMask addr value)
    let absent : Bool := match outlet with
      | some o => !s.outletExists o
      | none => false
    if absent then s
    else if addr = ADM_RES_SHARE ∧ 0xB7 < t.rd ADM_RES_SHARE_BENCH then
      raise ADM_EVENT_CFG_REJECT (s.wr ADM_STATUS_CFG_REJECT 1)
    else if needsCheck addr s t = false then settleOutlet outlet (sizeShares addr (t.wr ADM_STATUS_CFG_REJECT 0))
    else if t.configFits outlet then settleOutlet outlet (sizeShares addr (bumpGen (t.wr ADM_STATUS_CFG_REJECT 0)))
    else raise ADM_EVENT_CFG_REJECT (s.wr ADM_STATUS_CFG_REJECT 1)

/-- ADM_CONFIG_WRITE (R78). -/
def execAdmConfigWrite (addr : Nat) (value : BitVec 64) (s : State) : Host.Outcome State Fault Refusal :=
  .next (admConfigWrite addr value s)

end Sys2Proof.Machine
end

