-- ==== Sys2Proof/Machine/Graticule.lean ====
section
/-! DEFINITION. The graticule: the units at its nodes and the arbiters of its shared targets (spec 04, R98-R101). Transfers and
link failures stand in Links.lean and the watchdog in Watchdog.lean, behind the units they can fail. -/

namespace Sys2Proof.Machine

/-! ## Units by node number (Table 4.9) -/

/-- The path of a contract uses the unit at a node. -/
def State.pathUses (s : State) (node : Nat) (c : Contract) : Bool :=
  if node < 0x40 then usesPort node c
  else if node < 0x70 then usesPort (node - 0x40 + 64) c
  else if node < 0x82 then s.benchOf c.par.bucket == node - 0x70
  else if node = 0xA0 then c.par.kind == 4 || c.par.kind == 5
  else if node = 0xA1 then c.par.kind == 6 || c.par.kind == 7
  else if node = 0xA3 then c.par.dress != 0
  else if node = 0xA9 ∨ (0xB0 ≤ node ∧ node < 0xD0) then true
  else false

/-- Break every contract whose path uses the unit at a node, with cause 2 (R76). -/
def breakNode (node : Nat) (s : State) : State := breakWhere (s.pathUses node) 2 s

/-- The island a requester at a node belongs to: a PCIe transmit requester is of its host port, the feeds of the sett
store are of the hub. -/
def islandOfNode (node : Nat) : Nat :=
  if 0x100 ≤ node then 0x40 + (node - 0x100) / 4
  else if 0xB0 ≤ node then 0xA9
  else node

/-! ## Arbiters (R98-R100, Table 4.3) -/

/-- Requesters of a kind of shared target. -/
def requesters (kind : Nat) : Nat :=
  match kind with
  | 0 => 4 | 1 => 4 | 2 => 3 | 3 => 18 | 4 => 12 | _ => 0

/-- Instances of a kind of shared target. -/
def targets (kind : Nat) : Nat :=
  match kind with
  | 0 => 64 | 1 => 48 | 2 => 144 | 3 => 64 | 4 => 64 | _ => 0

/-- Node of a requester of a target. -/
def requesterNode (kind inst i : Nat) : Nat :=
  match kind with
  | 0 => Config.settFeedNode inst i
  | 1 => 0x100 + inst * 4 + i
  | 2 => 0x70 + inst / 8
  | 3 => 0x70 + i
  | _ => if i < 8 then 0x90 + i else if i = 8 then 0xA3 else if i = 9 then 0xA0 else if i = 10 then 0xA1 else 0xA2

/-- An island runs: it is released and not in reset. -/
def State.islandRuns (s : State) (n : Nat) : Bool := (s.island n).released && !(s.island n).inReset

/-- A requester that may be granted: its request is raised and its island is not in reset, and released from the reset of the
device (R22, R99). -/
def State.mayGrant (s : State) (kind inst raised i : Nat) : Bool :=
  raised.testBit i && s.islandRuns (islandOfNode (requesterNode kind inst i))

/-- The first raised request after the index just served, in cyclic order (R98). -/
def State.nextGrant (s : State) (kind inst raised last : Nat) : Option Nat :=
  let n := requesters kind
  ((List.range n).map (fun k => (last + 1 + k) % n)).find? (s.mayGrant kind inst raised)

/-- Number of an arbiter. -/
def arbKey (kind inst : Nat) : Nat := kind * 4096 + inst

/-- An arbiter that has granted nothing: index 0 comes first. -/
def State.arbiter (s : State) (kind inst : Nat) : Arbiter :=
  tblGetD ⟨requesters kind - 1, none⟩ s.grt.arbiters (arbKey kind inst)

/-- Set an arbiter. -/
def State.setArbiter (s : State) (kind inst : Nat) (x : Arbiter) : State :=
  { s with grt := { s.grt with arbiters := tblPut s.grt.arbiters (arbKey kind inst) x } }

/-- ARBITER_GRANT: at the last beat of the current transfer, or when the target is idle, the next grant is decided.
raised: bit i, the request of index i (R98). -/
def execArbiterGrant (kind inst raised : Nat) (s : State) : Host.Outcome State Fault Refusal :=
  if inst < targets kind then
    match s.nextGrant kind inst raised (s.arbiter kind inst).last with
    | some i => .next ((s.setArbiter kind inst ⟨i, some (i, s.dshort)⟩).emit (.granted kind inst i))
    | none => .next (s.setArbiter kind inst { s.arbiter kind inst with granted := none })
  else .next s

/-- GRT_CNT_CLR: both counters are cleared (R105). -/
def execGrtCntClr (s : State) : Host.Outcome State Fault Refusal :=
  .next ((s.wr GRT_BITE_CNT_COUNT 0).wr GRT_RETRY_CNT_COUNT 0)

/-! ## Islands in reset (R99) -/

/-- An arbiter after the island of its granted requester enters reset. -/
def Arbiter.afterReset (island k : Nat) (a : Arbiter) : Arbiter :=
  match a.granted with
  | some (i, _) => if islandOfNode (requesterNode (k / 4096) (k % 4096) i) = island then { a with granted := none } else a
  | none => a

/-- An island enters reset: targets release the grants of its requesters, and the transfers its senders hold are discarded (R15,
R99). -/
def releaseGrants (island : Nat) (s : State) : State :=
  { s with grt := { s.grt with
      arbiters := tblMap (fun k a => a.afterReset island k) s.grt.arbiters
      sent := s.grt.sent.filter (fun t => islandOfNode t.src != island) } }

end Sys2Proof.Machine
end

