-- ==== Sys2Proof/Machine/Hash.lean ====
section
/-! DEFINITION. The two CRCs of the device, CRC-32C and the CRC-32 of IEEE 802.3 (R242, R258), and the
Internet checksum. -/

namespace Sys2Proof.Machine

/-- One bit of a reflected CRC. -/
def crcBit (poly c : Nat) : Nat := if c % 2 = 1 then (c / 2) ^^^ poly else c / 2

/-- n bits of a reflected CRC. -/
def crcBits (poly : Nat) : Nat → Nat → Nat
  | 0, c => c
  | n + 1, c => crcBits poly n (crcBit poly c)

/-- A string of bytes, from an initial value. -/
def crcBytes (poly : Nat) : Nat → Bytes → Nat
  | c, [] => c
  | c, b :: bs => crcBytes poly (crcBits poly 8 (c ^^^ b.toNat)) bs

/-- CRC-32C: Castagnoli polynomial 0x1EDC6F41 reflected, initial value and final XOR all ones (R242). -/
def crc32c (bs : Bytes) : Nat := crcBytes 0x82F63B78 0xFFFFFFFF bs ^^^ 0xFFFFFFFF

/-- CRC-32: polynomial 0x04C11DB7 reflected, initial value and final XOR all ones (R258). -/
def crc32 (bs : Bytes) : Nat := crcBytes 0xEDB88320 0xFFFFFFFF bs ^^^ 0xFFFFFFFF

/-! ## Internet checksums (R283, R349) -/

/-- Byte at an offset. -/
def byteAt (bs : Bytes) (i : Nat) : Nat := (bs.getD i 0).toNat

/-- Big-endian 16-bit value at an offset. -/
def word16 (bs : Bytes) (i : Nat) : Nat := byteAt bs i * 256 + byteAt bs (i + 1)

/-- One's complement sum of 16-bit words. -/
def onesAdd (a b : Nat) : Nat := if a + b < 65536 then a + b else a + b - 65535

/-- Incremental update of an Internet checksum when one 16-bit word changes. -/
def checksumStep (sum old new : Nat) : Nat := 65535 - onesAdd (onesAdd (65535 - sum) (65535 - old)) new

/-- Internet checksum over words of a string from an offset, the word at skip taken as 0. -/
def headerSum (bs : Bytes) (off : Nat) (skip : Nat) : Nat → Nat
  | 0 => 0
  | n + 1 => onesAdd (if off = skip then 0 else word16 bs off) (headerSum bs (off + 2) skip n)

end Sys2Proof.Machine
end

