-- ==== Sys2Proof/Machine/Parse.lean ====
section
/-! DEFINITION. The selector of an inlet: profile, field vector, symmetric hash, bucket and bench (spec 09, R236-R243). -/

namespace Sys2Proof.Machine

/-- A field of the active profile set: the shadow address + 0x2000 (R241). -/
def activeFld (f : Fld) : Fld := { f with addr := f.addr + 0x2000 }

/-- Group of an inlet (BNC_INLET_GRP). -/
def State.inletGroup (s : State) (i : Nat) : Nat := s.rd (BNC_INLET_GRP_GROUP (i / 8)) / 2 ^ (4 * (i % 8)) % 16

/-- The parse window: the first 256 bytes of a packet. -/
def parseWindow (bs : Bytes) : Bytes := bs.take 256

/-- The 16-bit big-endian value at a byte offset of the window, when both bytes exist. -/
def be16 (bs : Bytes) (off : Nat) : Option Nat :=
  if off + 2 ≤ bs.length then some (ofBe ((bs.drop off).take 2)) else none

/-- A compare of a profile holds: the masked values are equal. -/
def compareHolds (bs : Bytes) (off mask val : Nat) : Bool :=
  match be16 (parseWindow bs) off with
  | none => false
  | some v => (v &&& mask) == (val &&& mask)

/-- Profile p is selected for a packet but for MIN_LEN (R236). -/
def State.profileFits (s : State) (i p : Nat) (bs : Bytes) : Bool :=
  s.bit (activeFld (PROF_SEL_VALID p))
    && (s.bit (activeFld (PROF_SEL_GROUP_ANY p)) || s.rd (activeFld (PROF_SEL_GROUP p)) == s.inletGroup i)
    && (!s.bit (activeFld (PROF_SEL_C0_EN p))
        || compareHolds bs (s.rd (activeFld (PROF_SEL_C0_OFF p))) (s.rd (activeFld (PROF_CMP_C0_MASK p))) (s.rd (activeFld (PROF_CMP_C0_VAL p))))
    && (!s.bit (activeFld (PROF_SEL_C1_EN p))
        || compareHolds bs (s.rd (activeFld (PROF_SEL_C1_OFF p))) (s.rd (activeFld (PROF_CMP_C1_MASK p))) (s.rd (activeFld (PROF_CMP_C1_VAL p))))

/-- The lowest-numbered profile that meets R236, if any (R237). -/
def State.selectProfile (s : State) (i : Nat) (bs : Bytes) : Option Nat :=
  (List.range 64).find? (fun p => s.profileFits i p bs && decide (s.rd (activeFld (PROF_SEL_MIN_LEN p)) ≤ bs.length))

/-! ## Extraction (R239) -/

/-- An extraction record, Table 9.3. -/
structure ExtractRec where
  off : Nat
  bit : Nat
  /-- length in bits -/
  len : Nat
  dst : Nat
  role : Nat
  pair : Nat
  valid : Bool
  deriving DecidableEq, Repr

/-- Unpack the 32 bits of a record. -/
def unpackRec (v : Nat) : ExtractRec :=
  ⟨v % 256, v / 2 ^ 8 % 8, v / 2 ^ 11 % 128 + 1, v / 2 ^ 18 % 64, v / 2 ^ 24 % 4, v / 2 ^ 26 % 4, v.testBit 31⟩

/-- Field-vector bytes a record writes. -/
def ExtractRec.bytes (r : ExtractRec) : Nat := (r.len + 7) / 8

/-- The bits of a field, left-aligned and padded with 0 to whole bytes. Bit 0 of a byte is its most significant. -/
def ExtractRec.field (r : ExtractRec) (win : Bytes) : Bytes :=
  let l := 8 * win.length
  let start := 8 * r.off + r.bit
  let v := ofBe win / 2 ^ (l - start - r.len) % 2 ^ r.len
  beBytes r.bytes (v * 2 ^ (8 * r.bytes - r.len))

/-- The VALID records of an active profile, in record order. -/
def State.activeRecs (s : State) (p : Nat) : List ExtractRec :=
  ((List.range 16).map (fun r => unpackRec (s.reg (PROF_REC p r + 0x2000)).toNat)).filter (fun r => r.valid)

/-- The field vector: bytes no record writes read 0. -/
def fieldVector (recs : List ExtractRec) (win : Bytes) : Bytes :=
  recs.foldl (fun fv r => overwrite fv r.dst (r.field win)) (List.replicate 64 0)

/-! ## The symmetric hash (R242) -/

/-- A record's bytes in the field vector. -/
def ExtractRec.ofVector (r : ExtractRec) (fv : Bytes) : Bytes := (fv.drop r.dst).take r.bytes

/-- Two members of a pair, the smaller as a big-endian number first; equal members keep record order. -/
def orderPair (a b : Bytes) : Bytes := if ofBe b < ofBe a then b ++ a else a ++ b

/-- The members of hash pair n. -/
def pairString (recs : List ExtractRec) (fv : Bytes) (n : Nat) : Bytes :=
  match recs.filter (fun r => r.role == 2 && r.pair == n) with
  | [a, b] => orderPair (a.ofVector fv) (b.ofVector fv)
  | _ => []

/-- The hash string: the pairs, then the plain fields. -/
def hashString (recs : List ExtractRec) (fv : Bytes) : Bytes :=
  (List.range 4).flatMap (pairString recs fv) ++ (recs.filter (fun r => r.role == 1)).flatMap (fun r => r.ofVector fv)

/-- What the selector decides of a packet. -/
structure Selected where
  profile : Option Nat
  fv : Bytes
  hash : Nat
  prog : Nat
  defCls : Nat
  deriving DecidableEq, Repr

/-- Run the selector of inlet i on a packet (R236, R237, R242). A packet that fails parsing hashes its inlet alone. -/
def State.select (s : State) (i : Nat) (bs : Bytes) : Selected :=
  match s.selectProfile i bs with
  | none => ⟨none, List.replicate 64 0, crc32c [BitVec.ofNat 8 i], 0, 0⟩
  | some p =>
    let recs := s.activeRecs p
    let fv := fieldVector recs (parseWindow bs)
    ⟨some p, fv, crc32c (hashString recs fv), s.rd (activeFld (PROF_CTL_CLS_PROG p)), s.rd (activeFld (PROF_CTL_DEF_CLASS p))⟩

/-- Bucket of a hash. -/
def bucketOf (hash : Nat) : Nat := hash % 4096

end Sys2Proof.Machine
end

