-- ==== Sys2Proof/Machine/Inlet.lean ====
section
/-! DEFINITION. From an inlet into a bench: HBM read counts, budgets, sequence numbers and credit (spec 09, R234, R243,
R247; spec 10, R260, R262). -/

namespace Sys2Proof.Machine

/-! ## Programs (R260) -/

/-- HBM reads of one step of a program (R260). -/
def State.stepReads (s : State) (n k : Nat) : Nat :=
  if s.rd (TBL_PROG_KIND n k) ≠ 1 then 0
  else match s.rd (TBL_DESC_TYPE (s.rd (TBL_PROG_TABLE n k))) with
    | 2 => 2
    | 3 => 2 * (s.rd (TBL_DESC_LEN_MAX (s.rd (TBL_PROG_TABLE n k))) + 1)
    | _ => 0

/-- HBM read count h of a program; program 0 has no steps. -/
def State.progH (s : State) (n : Nat) : Nat := if n = 0 then 0 else ((List.range 4).map (s.stepReads n)).sum

/-! ## Into a bench (R234, R243, R247, R262) -/

/-- HBM read count of a packet's program; a packet that failed parsing has none. -/
def State.readsOf (s : State) (f : Flying) : Nat := if f.profile.isNone then 0 else s.progH f.prog

/-- Bench of a bucket; 0x1F none. -/
def State.benchFor (s : State) (f : Flying) : Nat := s.rd (BNC_MAP_BENCH f.bucket)

/-- An inlet may send a packet: its bucket has a bench, and fewer than 1,024 packets are unacknowledged, unless it is one of them
(R247, R248). -/
def State.maySend (s : State) (f : Flying) : Bool :=
  s.benchFor f != 0x1F && (f.replayed || decide (s.unacknowledged f.inlet < 1024))

/-- Budget of a bench refilled to now: 6 tokens every 4 ns, at most 64 (R262). -/
def State.budgetNow (s : State) (k : Nat) : Bucket :=
  let b := tblGetD ⟨64 * 131072, 0⟩ s.pipe.budget k
  let now := s.datum.toNat
  ⟨min (64 * 131072) (b.tokens + 3 * (now - b.refilled)), now⟩

/-- The budget of a packet's bench holds its h tokens. -/
def State.budgetHolds (s : State) (f : Flying) : Bool := decide (s.readsOf f * 131072 ≤ (s.budgetNow (s.benchFor f)).tokens)

/-- Take a packet's h tokens. -/
def takeBudget (f : Flying) (s : State) : State :=
  let b := s.budgetNow (s.benchFor f)
  { s with pipe := { s.pipe with
    budget := tblPut s.pipe.budget (s.benchFor f) { b with tokens := b.tokens - s.readsOf f * 131072 } } }

/-- Send a packet to the bench of its bucket under the inlet's next sequence number. A packet sent again keeps its number, and the
bench that receives it counts it (R248). -/
def sendToBench (f : Flying) (s : State) : State :=
  let i := tblGetD Inlet.fresh s.pipe.inlets f.inlet
  let k := s.benchFor f
  let f := { f with bench := k, epoch := s.rd (BNC_MAP_EPOCH f.bucket) }
  if f.replayed then ({ s with pipe := { s.pipe with flying := s.pipe.flying ++ [f] } }).count (BNC_REPLAYED k) 1
  else { s with pipe := { s.pipe with
    inlets := tblPut s.pipe.inlets f.inlet { i with next := i.next + 1 }
    flying := s.pipe.flying ++ [{ f with seq := i.next }] } }

/-- A packet that its inlet has to send again to the same bucket waits: no later one of the bucket goes before it (R248). -/
def State.behindReplay (s : State) (f : Flying) : Bool :=
  s.pipe.waiting.any (fun x => x.replayed && x.inlet == f.inlet && x.bucket == f.bucket)

/-- After a packet was sent: an inlet that now holds 1,024 unacknowledged ones back-pressures its source (R247). -/
def followLimit (i : Nat) (s : State) : State := if 1024 ≤ s.unacknowledged i then refreshPressure s else s

/-- Hold a packet at its inlet. -/
def holdAtInlet (f : Flying) (s : State) : State := { s with pipe := { s.pipe with waiting := s.pipe.waiting ++ [f] } }

/-- A packet leaves its selector: it is sent at once, or waits for budget tokens behind earlier ones of its inlet, or
for a bench. A packet with h = 0 never waits for the budget (R262). -/
def enterBench (f : Flying) (s : State) : State :=
  let ahead := fun (w : Bool) => s.pipe.waiting.any (fun x => x.inlet == f.inlet && x.waited == w)
  let short : Bool := ahead true || (s.benchFor f != 0x1F && !s.budgetHolds f)
  if s.readsOf f = 0 then
    if s.maySend f ∧ ahead false = false then followLimit f.inlet (sendToBench f s)
    else refreshPressure (holdAtInlet { f with waited := false } s)
  else if s.maySend f ∧ short = false ∧ s.behindReplay f = false then followLimit f.inlet (sendToBench f (takeBudget f s))
  else
    let held := holdAtInlet { f with waited := true } s
    refreshPressure (if short ∧ s.benchFor f ≠ 0x1F then held.count (TBL_BUDGET_WAIT (s.benchFor f)) 1 else held)

/-- Send the packets with h = 0 that wait at their inlets and may go now, in order within each inlet. -/
def pumpInlets (s : State) : State :=
  s.pipe.waiting.foldl (fun t f =>
    let first := t.pipe.waiting.find? (fun x => x.inlet == f.inlet && x.waited == false)
    if f.waited = false ∧ first = some f ∧ t.maySend f then
      sendToBench f { t with pipe := { t.pipe with waiting := t.pipe.waiting.erase f } }
    else t) s

/-- A packet as its inlet's selector leaves it. -/
def State.newFlying (s : State) (inlet : Nat) (bs : Bytes) (stamp : BitVec 64) : Flying :=
  let x := s.select inlet bs
  {
    inlet := inlet, seq := 0, bucket := bucketOf x.hash, bench := 0x1F, gen := s.rd (BNC_PROF_STATUS_GEN 0), epoch := 0,
    bytes := bs, stamp := stamp, hash := x.hash, profile := x.profile, fv := x.fv, prog := x.prog, defCls := x.defCls,
    sheet := none, ringContract := none, txCls := none, job := none, tsReq := false, oneStep := none, conn := none, via := none,
    staging := none, gallery := none, waited := false, replayed := false, owed := [], acted := none }

end Sys2Proof.Machine
end

