-- ==== Sys2Proof/Machine/ConnOps.lean ====
section
/-! DEFINITION. Ralush connections: handles, the packets the engine builds, completions in MSN order, and the ways a
connection ends (spec 13, R349-R356, R361, R369; spec 14, R385-R387; spec 18, R491). -/

namespace Sys2Proof.Machine

/-! ## Handles (R353) -/

/-- A connection that is not FREE. -/
def State.conn? (s : State) (n : Nat) : Option Conn := tblGet s.conns n

/-- Set a connection. -/
def State.setConn (s : State) (n : Nat) (x : Conn) : State := { s with conns := tblPut s.conns n x }

/-- Generation of a connection number. -/
def State.connGen (s : State) (n : Nat) : Nat := tblGetD 0 s.rlt.gens n

/-- Handle of a connection number: number in bits 19:0, generation in 27:20. -/
def State.connHandle (s : State) (n : Nat) : Nat := n % 2 ^ 20 + s.connGen n * 2 ^ 20

/-- The connection a handle names: not FREE, and of the current generation. -/
def State.handled (s : State) (h : Nat) : Option (Nat × Conn) :=
  let n := h % 2 ^ 20
  if h / 2 ^ 20 % 256 = s.connGen n then (s.conn? n).map (fun x => (n, x)) else none

/-- A connection may dress packets under a handle: ARMED, OPEN or CLOSING, of that generation (R352). -/
def State.connUsable (s : State) (n gen : Nat) : Bool :=
  match s.conn? n with
  | some x => gen == s.connGen n && x.state != .error
  | none => false

/-- A path of the connection names a contract (R353). -/
def State.connPinned (s : State) (n : Nat) : Bool :=
  match s.conn? n with
  | some x => x.paths.any (fun p => p.2.contract.isSome)
  | none => false

/-- A path of a connection. -/
def Conn.path (x : Conn) (p : Nat) : TxPath := tblGetD TxPath.none x.paths p

/-- Set a path. -/
def Conn.withPath (x : Conn) (p : Nat) (t : TxPath) : Conn := { x with paths := tblPut x.paths p t }

/-- A path of the peer. -/
def Conn.rxPath (x : Conn) (p : Nat) : RxPath := tblGetD RxPath.none x.rx p

/-- Set a path of the peer. -/
def Conn.withRx (x : Conn) (p : Nat) (t : RxPath) : Conn := { x with rx := tblPut x.rx p t }

/-- An enabled path that is UP. -/
def Conn.pathUp (x : Conn) (p : Nat) : Bool := (x.path p).enabled && (x.path p).up

/-- The path numbers in ascending cyclic order after the one used last (R361). -/
def Conn.turn (x : Conn) : List Nat := (List.range 16).map (fun k => (x.cursor + 1 + k) % 16)

/-- The next path that is UP and enabled; else the next enabled one. -/
def Conn.nextPath (x : Conn) : Nat :=
  match x.turn.find? x.pathUp with
  | some p => p
  | none => (x.turn.find? (fun p => (x.path p).enabled)).getD 0

/-! ## Packets (R349, R350) -/

/-- Packet types, Table 13.1. -/
inductive RltType where
  | data | ack | rereq | nak | poll | probe | probeAck | close
  deriving DecidableEq, Repr

/-- Codes of TYPE. -/
def RltType.code : RltType → Nat
  | .data => 1 | .ack => 2 | .rereq => 3 | .nak => 4 | .poll => 5 | .probe => 6 | .probeAck => 7 | .close => 8

/-- What an engine-built packet carries: type, FIRST/LAST/RETX, path, UDP ports, MSN, OFFSET, TOTAL and body. -/
structure RltPkt where
  type : RltType
  flags : Nat
  path : Nat
  sport : Nat
  dport : Nat
  msn : Nat
  offset : Nat
  total : Nat
  body : Bytes
  deriving DecidableEq, Repr

/-- The Ralush header of a packet, 32 bytes (Table 13.1). -/
def rltHeader (k : RltPkt) (dconn psn sconn : Nat) : Bytes :=
  [BitVec.ofNat 8 (16 + k.type.code), BitVec.ofNat 8 k.flags, BitVec.ofNat 8 k.path, 0]
    ++ beBytes 4 dconn ++ beBytes 4 psn ++ beBytes 4 k.msn ++ beBytes 4 k.offset ++ beBytes 4 k.total ++ beBytes 4 sconn
    ++ [0, 0, 0, 0]

/-- Bytes of UDP and what it carries: header, Ralush header, IV, body and tag. -/
def rltUdpLen (k : RltPkt) : Nat := 8 + 32 + 12 + k.body.length + 16

/-- Traffic class or TOS byte: the connection's DSCP with an ECN codepoint. -/
def tosByte (tclass ecn : Nat) : Nat := tclass / 4 % 64 * 4 + ecn

/-- The IPv4 or IPv6 header of a packet. -/
def ipHeader (x : Conn) (ecn udp : Nat) : Bytes :=
  if x.ipv4 then
    let h := [0x45, BitVec.ofNat 8 (tosByte x.tclass ecn)] ++ beBytes 2 (20 + udp) ++ [0, 0, 0x40, 0, 64, 17, 0, 0]
      ++ leBytes 4 x.localIp ++ leBytes 4 x.peerIp
    overwrite h 10 (beBytes 2 (65535 - headerSum h 0 10 10))
  else
    beBytes 4 (6 * 2 ^ 28 + tosByte x.tclass ecn * 2 ^ 20) ++ beBytes 2 udp ++ [17, 64] ++ leBytes 16 x.localIp ++ leBytes 16 x.peerIp

/-- A frame as the engine builds it: no tag yet, the 12 IV bytes 0. -/
def State.rltFrame (s : State) (x : Conn) (k : RltPkt) (ecn psn sconn : Nat) : Bytes :=
  beBytes 6 (s.rd RLT_MAC_DST_MAC) ++ beBytes 6 (s.rd RLT_MAC_SRC_MAC) ++ beBytes 2 (if x.ipv4 then 0x0800 else 0x86DD)
    ++ ipHeader x ecn (rltUdpLen k)
    ++ beBytes 2 k.sport ++ beBytes 2 k.dport ++ beBytes 2 (rltUdpLen k) ++ [0, 0]
    ++ rltHeader k x.peer psn sconn ++ List.replicate 12 0 ++ k.body

/-- CLASS of a contract. -/
def State.contractClass (s : State) (c : Nat) : Nat :=
  match s.contract? c with
  | some x => x.par.cls
  | none => 0

/-- Send a packet of a connection: it takes the path's next PSN and goes to its bench from inlet 120. own: it leaves under
the path's own port, and so under its contract (R395). -/
def sendRlt (c : Nat) (own : Bool) (k : RltPkt) (s : State) : State :=
  match s.conn? c with
  | none => s
  | some x =>
    let t := x.path k.path
    let ecn := if k.type = .data ∧ s.bit RLT_CC_CFG_ECN_EN then 2 else 0
    let f := s.newFlying 120 (s.rltFrame x k ecn t.psn.toNat (s.connHandle c)) s.dshort
    let f := { f with
      conn := some c
      sheet := some x.sheet
      ringContract := if own then t.contract else none
      txCls := if own then t.contract.map s.contractClass else none }
    let x := x.withPath k.path { t with psn := t.psn + 1, bucket := if own then f.bucket else t.bucket }
    enterBench f (s.setConn c x)

/-- Send a packet without payload on a path of the connection's own. -/
def sendOwn (c : Nat) (type : RltType) (path msn : Nat) (body : Bytes) (s : State) : State :=
  match s.conn? c with
  | none => s
  | some x => sendRlt c true ⟨type, 0, path, (x.path path).sport, x.dport, msn, 0, 0, body⟩ s

/-- Answer a packet received on a path of the peer (R360). -/
def sendAnswer (c : Nat) (type : RltType) (path msn : Nat) (body : Bytes) (s : State) : State :=
  match s.conn? c with
  | none => s
  | some x => sendRlt c false ⟨type, 0, path, s.rd RLT_CFG_UDP_PORT, (x.rxPath path).port, msn, 0, 0, body⟩ s

/-! ## Completions in MSN order (R364, R365, R369) -/

/-- Completion fields of a SEND (Table 13.7); its stamp is taken when it is written (stampDone). -/
def sendBody (handle : Nat) (m : SendMsg) (st : Nat) : Body :=
  [(8, 4, handle), (12, 4, m.msn.toNat), (16, 8, if st = 0 then m.len else 0), (24, 1, m.nak)]

/-- Completion fields of a RECV. -/
def recvBody (handle : Nat) (m : RecvMsg) : Body :=
  [(8, 4, handle), (12, 4, m.msn.toNat), (16, 4, m.total), (20, 2, m.paths), (24, 8, m.first.toNat)]

/-- Complete the sends at the front of a connection that have ended. -/
def flushSends (c : Nat) : Nat → State → State
  | 0, s => s
  | fuel + 1, s =>
    match s.conn? c with
    | none => s
    | some x =>
      match x.sends with
      | [] => s
      | m :: rest =>
        match m.done with
        | none => s
        | some st =>
          let s := s.setConn c { x with sends := rest, queue := x.queue.filter (fun k => k.msn != m.msn) }
          let s := match m.job with
            | some (g, idx) => endJob g idx st (sendBody (s.connHandle c) m st) s
            | none => s
          flushSends c fuel s

/-- End a started message with a status; its queued packets are dropped, and what may complete does. -/
def endSend (c : Nat) (msn : BitVec 32) (st : Nat) (s : State) : State :=
  match s.conn? c with
  | none => s
  | some x =>
    let sends := x.sends.map (fun m => if m.msn = msn ∧ m.done = none then { m with done := some st } else m)
    let s := s.setConn c { x with sends := sends, queue := x.queue.filter (fun k => k.msn != msn) }
    flushSends c sends.length s

/-- Write the completion of a RECV, when it still has an entry; its slot is released with it. -/
def writeRecv (handle : Nat) (m : RecvMsg) (st : Nat) (s : State) : State :=
  match m.job with
  | some (g, idx) =>
      let s := if m.slot then passSlot g idx .msg s else s
      endJob g idx st (recvBody handle m) s
  | none => if m.slot then s.freeSlot .msg else s

/-- A message that was in progress at the fence of a region's revoke has ended (R385). -/
def leaveFence (c msn : Nat) (s : State) : State :=
  let leave : Nat → Region → Region := fun _ r =>
    if r.fenced.contains (c, msn) then { r with fenced := r.fenced.filter (· != (c, msn)), completed := r.completed + 1 }
    else r
  { s with rlt := { s.rlt with regions := tblMap leave s.rlt.regions } }

/-- Complete the receives that have ended, while the next MSN's has; MSN_DONE follows. -/
def flushRecvs (c : Nat) : Nat → State → State
  | 0, s => s
  | fuel + 1, s =>
    match s.conn? c with
    | none => s
    | some x =>
      match x.recvs.find? (fun m => m.msn == x.msnDone) with
      | none => s
      | some m =>
        match m.ended with
        | none => s
        | some st =>
          let s := s.setConn c { x with recvs := x.recvs.filter (fun k => k.msn != m.msn), msnDone := x.msnDone + 1 }
          let s := leaveFence c m.msn.toNat s
          flushRecvs c fuel (writeRecv (s.connHandle c) m st s)

/-- End a message at its receiver with a status. -/
def endRecv (c : Nat) (msn : BitVec 32) (st : Nat) (s : State) : State :=
  match s.conn? c with
  | none => s
  | some x =>
    let recvs := x.recvs.map (fun m => if m.msn = msn ∧ m.ended = none then { m with ended := some st, timer := false } else m)
    flushRecvs c recvs.length (s.setConn c { x with recvs := recvs })

/-! ## Peers (R491) -/

/-- Address of a connection's peer, with bit 128 set for IPv4. -/
def Conn.peerKey (x : Conn) : Nat := (if x.ipv4 then x.peerIp % 2 ^ 32 + 2 ^ 128 else x.peerIp)

/-- Some OPEN connection has this peer. -/
def State.peerOpen (s : State) (key : Nat) : Bool := s.conns.any (fun c => c.2.state == .opened && c.2.peerKey == key)

/-- SERIAL of a peer's survey record. -/
def peerSerial (key : Nat) : Bytes := if 2 ^ 128 ≤ key then leBytes 4 key else leBytes 16 key

/-- A connection to a peer is about to reach OPEN: the peer arrives when no other is OPEN; a full table counts it. -/
def peerArrive (key : Nat) (s : State) : State :=
  if s.peerOpen key then s
  else
    let i := tblFree s.health.peers 0
    if 16384 ≤ i then s.count HLT_PEER_OVF_COUNT 1
    else surveyRec 4 1 i 0 (peerSerial key) 0 { s with health := { s.health with peers := tblPut s.health.peers i key } }

/-- A connection to a peer has left OPEN: the peer leaves with its last one. -/
def peerLeave (key : Nat) (s : State) : State :=
  if s.peerOpen key then s
  else match s.health.peers.find? (fun p => p.2 == key) with
    | none => s
    | some (i, _) => surveyRec 4 2 i 0 (peerSerial key) 0 { s with health := { s.health with peers := tblDel s.health.peers i } }

/-! ## State changes (R354, R355, R356) -/

/-- A volume serves from a connection (R415). -/
def State.connTaken (s : State) (c : Nat) : Bool :=
  s.sto.vols.any (fun v => v.2.remote && v.2.conn == s.connHandle c)

/-- Move a connection to a state, with the peer table and the volumes it serves following. -/
def moveConn (c : Nat) (st : ConnState) (s : State) : State :=
  match s.conn? c with
  | none => s
  | some x =>
    let s := if st = .opened ∧ x.state ≠ .opened then peerArrive x.peerKey s else s
    let s := if x.state = .opened ∧ st ≠ .opened ∧ s.connTaken c then raise STO_EVENT_DOWN s else s
    let s := s.setConn c { x with state := st }
    if x.state = .opened ∧ st ≠ .opened then peerLeave x.peerKey s else s

/-- An ARMED connection opens and tells its sheet. -/
def openConn (c : Nat) (s : State) : State :=
  match s.conn? c with
  | none => s
  | some x =>
    if x.state = .armed then
      let s := moveConn c .opened s
      postConnState x.sheet (s.connHandle c) 1 2 0 s
    else s

/-- Discard the stalled packets of a connection that satisfy a test (R381, R383). -/
def dropStalled (c : Nat) (p : Packet → Bool) (s : State) : State :=
  match s.conn? c with
  | none => s
  | some x =>
    let gone := x.stalled.filter p
    let s := s.setConn c { x with stalled := x.stalled.filter (fun k => !p k) }
    refreshPressure (gone.foldl (fun t k => releaseSetts k.id t) s)

/-- Entries of a ring, fetched and not started, that name a connection. -/
def Ring.waitingFor (r : Ring) (handle : Nat) : List Nat :=
  (r.jobs.filter (fun j => j.phase == .fetched && decide (0x90 ≤ opcode j.first) && eN j.first 8 4 == handle)).map (fun j => j.idx)

/-- Complete the entries of a ring that name a connection and have not started. -/
def refuseWaiting (g handle st : Nat) (s : State) : State :=
  match s.ring? g with
  | none => s
  | some r => (r.waitingFor handle).foldl (fun t i => endJob g i st [(8, 4, handle)] t) s

/-- End every started message of a connection with a status, in MSN order. -/
def endAllSends (c st : Nat) (s : State) : State :=
  match s.conn? c with
  | none => s
  | some x => x.sends.foldl (fun t m => endSend c m.msn st t) s

/-- Complete every receive of a connection that has not ended with a status, in MSN order, and forget them. -/
def endAllRecvs (c st : Nat) (s : State) : State :=
  match s.conn? c with
  | none => s
  | some x =>
    let handle := s.connHandle c
    let rank := fun (m : RecvMsg) => (m.msn - x.msnDone).toNat
    let l := sortBy rank x.recvs
    let s := s.setConn c { x with recvs := [] }
    l.foldl (fun t m => writeRecv handle m (m.ended.getD st) (leaveFence c m.msn.toNat t)) s

/-- An abandoned job counts as fetched and not started (R356). -/
def unstartJob (g idx : Nat) (s : State) : State :=
  match s.ring? g with
  | none => s
  | some r => s.setRing g { r with jobs := slotJob idx none (markJob idx .fetched r.jobs) }

/-- Abandon every message of a connection: nothing is written, its slots are released (R356). -/
def abandonMessages (c : Nat) (s : State) : State :=
  match s.conn? c with
  | none => s
  | some x =>
    let s := s.setConn c { x with sends := [], recvs := [], queue := [] }
    let s := x.sends.foldl (fun t m => match m.job with
      | some (g, idx) => (unstartJob g idx t).freeSlot .msg
      | none => t) s
    x.recvs.foldl (fun t m =>
      let t := leaveFence c m.msn.toNat t
      let t := if m.slot then t.freeSlot .msg else t
      match m.job with
      | some (g, idx) => unstartJob g idx t
      | none => t) s

/-- CLOSE with a cause on the next path (R355). -/
def sendClose (c cause : Nat) (s : State) : State :=
  match s.conn? c with
  | none => s
  | some x => sendOwn c .close x.nextPath 0 [BitVec.ofNat 8 cause] s

/-- No outstanding Page Request waits for a connection's messages any more. -/
def forgetPages (c : Nat) (s : State) : State :=
  let leave : PageReq → PageReq := fun q => { q with msgs := q.msgs.filter (fun m => m.1 != c) }
  { s with rlt := { s.rlt with pages := s.rlt.pages.map leave } }

/-- A connection enters ERROR with a cause (R355). -/
def connError (c cause : Nat) (s : State) : State :=
  match s.conn? c with
  | none => s
  | some x =>
    if x.state = .error then s
    else
      let s := (moveConn c .error s)
      let s := match s.conn? c with
        | some y => s.setConn c { y with cause := cause, queue := [] }
        | none => s
      let s := raise RLT_EVENT_CONN_ERROR (postConnState x.sheet (s.connHandle c) x.state.code 4 cause s)
      let s := forgetPages c (dropStalled c (fun _ => true) s)
      let s := if cause = 1 then abandonMessages c s
        else
          let s := endAllRecvs c 0x0502 (endAllSends c 0x0502 s)
          refuseWaiting x.recvRing (s.connHandle c) 0x0502 (refuseWaiting x.sendRing (s.connHandle c) 0x0502 s)
      if cause = 2 then s else sendClose c cause s

/-- Key-cache entries and key registers of SAs are erased (R338). -/
def eraseKeys (l : List Nat) (s : State) : State :=
  { s with cipher := { s.cipher with
      cache := s.cipher.cache.filter (fun k => !l.contains k)
      keyRegs := s.cipher.keyRegs.filter (fun r => !l.contains r.2.sa) } }

/-- A connection becomes FREE: its generation increments, its SA records and keys go, its CONNS unit returns, and CONN_CLOSE
completes (R353, R355). -/
def freeConn (c : Nat) (s : State) : State :=
  match s.conn? c with
  | none => s
  | some x =>
    let handle := s.connHandle c
    let s := { s with
      conns := tblDel s.conns c
      sas := tblDel (tblDel s.sas (0x40000 + 2 * c)) (0x40001 + 2 * c)
      rlt := { s.rlt with gens := tblSet 0 s.rlt.gens c ((s.connGen c + 1) % 256) } }
    let s := resolveShrinks x.sheet (forgetPages c (eraseKeys [0x40000 + 2 * c, 0x40001 + 2 * c] s))
    x.closers.foldl (fun t w => endJob w.1 w.2 0 [(8, 2, x.sheet), (10, 1, 0), (11, 1, x.cause), (12, 4, handle)] t) s

/-- Connections of a sheet. -/
def State.sheetConns (s : State) (n : Nat) : List Nat := tblKeys (fun _ (x : Conn) => x.sheet == n) s.conns

/-- The connections of a sheet that enters DISABLING end without completions (R356). -/
def endMessages (n : Nat) (s : State) : State := (s.sheetConns n).foldl (fun t c => connError c 1 t) s

/-- Withdraw the bound receives of a connection on a ring that quiesces: those not ended complete with 0x0902 in MSN order
and their MSNs are unbound; those ended complete as they ended (R369). -/
def withdrawRecvs (c g : Nat) (s : State) : State :=
  match s.conn? c with
  | none => s
  | some x =>
    let handle := s.connHandle c
    let mine : RecvMsg → Bool := fun m => match m.job with
      | some (r, _) => r == g
      | none => false
    let rank := fun (m : RecvMsg) => (m.msn - x.msnDone).toNat
    let l := sortBy rank (x.recvs.filter mine)
    let keep := x.recvs.filterMap (fun m =>
      if mine m then (if m.ended.isSome then some { m with job := none, slot := false } else none) else some m)
    let s := s.setConn c { x with recvs := keep }
    let s := l.foldl (fun t m =>
      let t := if m.ended.isNone then leaveFence c m.msn.toNat t else t
      writeRecv handle m (m.ended.getD 0x0902) t) s
    dropStalled c (fun k => l.any (fun m => m.ended.isNone && ofBe ((k.bytes.drop (if x.ipv4 then 54 else 74)).take 4) == m.msn.toNat)) s

/-- Messages of a message ring that enters DISABLING other than with its sheet (R369). -/
def quiesceMessages (g : Nat) (s : State) : State :=
  (tblKeys (fun _ (x : Conn) => x.recvRing == g) s.conns).foldl (fun t c => withdrawRecvs c g t) s

/-- A region returns to FREE and its generation increments (R373). -/
def freeRegion (r : Nat) (s : State) : State :=
  { s with rlt := { s.rlt with
    regions := tblDel s.rlt.regions r
    regGens := tblSet 0 s.rlt.regGens r ((tblGetD 0 s.rlt.regGens r + 1) % 256) } }

end Sys2Proof.Machine
end

