-- ==== Sys2Proof/Machine/StorageOps.lean ====
section
/-! DEFINITION. The storage engine's shared operations: volumes and attachments, completion entries and their interrupts,
deferred errors, the cache, and the ends of commands and controllers (spec 15, R398-R403, R407-R413, R416). -/

namespace Sys2Proof.Machine

/-! ## Accessors -/

/-- A controller that is not FREE. -/
def State.ctrl? (s : State) (n : Nat) : Option Ctrl := tblGet s.ctrls n

/-- Set a controller. -/
def State.setCtrl (s : State) (n : Nat) (x : Ctrl) : State := { s with ctrls := tblPut s.ctrls n x }

/-- A volume. -/
def State.vol? (s : State) (n : Nat) : Option Volume := tblGet s.sto.vols n

/-- Set a volume. -/
def State.setVol (s : State) (n : Nat) (x : Volume) : State := { s with sto := { s.sto with vols := tblPut s.sto.vols n x } }

/-- A presented command. -/
def State.cmd? (s : State) (i : Nat) : Option NvmeCmd := tblGet s.sto.cmds i

/-- Set a presented command. -/
def State.setCmd (s : State) (i : Nat) (x : NvmeCmd) : State := { s with sto := { s.sto with cmds := tblPut s.sto.cmds i x } }

/-- Opcode, CID and NSID of a submission queue entry. -/
def nvOp (e : Entry) : Nat := eN e 0 1
/-- CID. -/
def nvCid (e : Entry) : Nat := eN e 2 2
/-- NSID. -/
def nvNsid (e : Entry) : Nat := eN e 4 4
/-- SLBA. -/
def nvSlba (e : Entry) : Nat := eN e 40 8
/-- Blocks: NLB + 1. -/
def nvBlocks (e : Entry) : Nat := eN e 48 2 + 1

/-- Bytes of a logical block. -/
def Volume.blockSize (v : Volume) : Nat := if v.lba = 0 then 512 else 4096

/-- Number of a block in the cache. -/
def cacheKey (vol block : Nat) : Nat := vol * 2 ^ 48 + block

/-- A volume is DOWN: the same NVMe device is not bound below its root port with the link up, or its connection is not
OPEN (R410). -/
def State.volDown (s : State) (v : Volume) : Bool :=
  if v.remote then
    match s.handled v.conn with
    | some (_, x) => x.state != .opened
    | none => true
  else
    let p := s.port v.rootPort
    !(p.comp == .nvme && s.bit (HP_PORT_STATUS_LINK_UP v.rootPort) && !s.bit (HP_PORT_STATUS_DPC v.rootPort)
      && p.serial == v.serial)

/-- Dirty blocks of a volume. -/
def State.dirtyBlocks (s : State) (vol : Nat) : List Nat :=
  tblKeys (fun k (x : Cached) => k / 2 ^ 48 == vol && x.dirty) s.sto.cache

/-- Controllers and NSIDs to which a volume is attached. -/
def State.attachments (s : State) (vol : Nat) : List (Nat × Nat) :=
  s.ctrls.flatMap (fun c => (tblKeys (fun _ (a : Attach) => a.vol == vol) c.2.attach).map (fun n => (c.1, n)))

/-- Completion fields of Table 15.9. -/
def stoFields (s : State) (sheet : Nat) (ctrl vol : Option Nat) : Body :=
  let c := ctrl.bind s.ctrl?
  let v := vol.bind s.vol?
  let state := match c with | some x => x.state.code | none => 0
  let down := match v with | some x => (if s.volDown x then 8 else 0) | none => 0
  let ps := match c with | some x => x.ps | none => 0
  let pairs := match c with | some x => tblCount (fun q _ => q != 0) x.sqs | none => 0
  let lost := match v with | some x => x.lost.length | none => 0
  let dirty := match vol with | some n => (s.dirtyBlocks n).length | none => 0
  [(8, 2, sheet), (10, 2, ctrl.getD 0xFFFF), (12, 4, vol.getD 0xFFFFFFFF), (16, 1, state + down), (17, 1, ps), (18, 2, pairs),
   (20, 4, lost), (24, 8, dirty), (56, 8, s.dshort.toNat)]

/-! ## Storage queues (R400-R402) -/

/-- A storage queue as it is created: closed, its counts 0. A submission queue (kind 8) keeps in HEAD the entries fetched; a
completion queue (kind 9) keeps in FETCH the entries posted and in HEAD those less SIZE (R401). -/
def storageQueue (sheet loc kind sizeLog2 vec base : Nat) (state : RingState) : Ring where
  sheet := sheet
  localNo := loc
  kind := kind
  sizeLog2 := sizeLog2
  oneWrite := true
  vec := vec
  coalN := 0
  coalUs := 0
  contract := none
  base := base
  headAddr := 0
  state := state
  idle := false
  cause := 0
  head := if kind = 9 then BitVec.ofNat 32 (2 ^ 32 - 2 ^ sizeLog2) else 0
  fetch := 0
  pi := 0
  jobs := []
  chain := none
  unannounced := 0
  timer := false
  reading := 0
  slotWait := false
  slotHeld := false
  waiters := []

/-- A queue made new again, in a state. -/
def resetQueue (g : Nat) (st : RingState) (s : State) : State :=
  match s.ring? g with
  | none => s
  | some r => s.setRing g (storageQueue r.sheet r.localNo r.kind r.sizeLog2 r.vec r.base st)

/-- Global numbers of a controller's queues. -/
def Ctrl.rings (c : Ctrl) : List Nat := c.sqs.map (fun q => q.2.ring) ++ c.cqs.map (fun q => q.2.ring)

/-- Change the state of every queue of a controller. -/
def setQueues (c : Ctrl) (st : RingState) (s : State) : State :=
  c.rings.foldl (fun t g => match t.ring? g with
    | some r => t.setRing g { r with state := st }
    | none => t) s

/-- A local number of a sheet lies in the range that a controller reserves (R400). -/
def State.localReserved (s : State) (n loc : Nat) : Bool :=
  s.ctrls.any (fun c => c.2.sheet == n && decide (c.2.localBase ≤ loc) && decide (loc ≤ c.2.localBase + 2 * c.2.nq + 1))

/-- Value of a feature of a controller (R399): 0 unless set, but Volatile Write Cache, which starts enabled. -/
def Ctrl.feature (c : Ctrl) (fid : Nat) : Nat := tblGetD (if fid = 6 then 1 else 0) c.feats fid

/-- A CQ entry was written: its vector is sent now, or counted under the Interrupt Coalescing feature, which the admin
queue is exempt from (R402). -/
def announceCq (n q : Nat) (s : State) : State :=
  match s.ctrl? n with
  | none => s
  | some c =>
    match tblGet c.cqs q with
    | none => s
    | some k =>
      if k.ien = false then s
      else
        let ic := c.feature 8
        if q = 0 ∨ ic / 256 % 256 = 0 ∨ ic % 256 + 1 ≤ k.unannounced + 1 then
          (s.setCtrl n { c with cqs := tblPut c.cqs q { k with unannounced := 0 } }).sendVector (s.sheetPortD c.sheet) (s.sheetPf c.sheet) k.vec
        else s.setCtrl n { c with cqs := tblPut c.cqs q { k with unannounced := k.unannounced + 1 } }

/-- The 16 bytes of a CQ entry: Dword 0, SQHD, SQID, CID, phase and status (NVMe 2.0; R401). -/
def cqeBytes (dw0 sqhd sqid cid status : Nat) (phase : Bool) : Bytes :=
  leBytes 4 dw0 ++ leBytes 4 0 ++ leBytes 2 sqhd ++ leBytes 2 sqid ++ leBytes 2 cid ++ leBytes 2 (status * 2 + (if phase then 1 else 0))

/-- Write the CQ entry of a command that ends, and count it posted. -/
def postCqe (m : NvmeCmd) (status dw0 : Nat) (s : State) : State :=
  match s.ctrl? m.ctrl with
  | none => s
  | some c =>
    match tblGet c.sqs m.sq with
    | none => s
    | some q =>
      match tblGet c.cqs q.cq, s.ring? q.ring with
      | some k, some sr =>
        (match s.ring? k.ring with
        | none => s
        | some r =>
          let n := r.fetch.toNat
          let phase : Bool := n / 2 ^ r.sizeLog2 % 2 == 0
          let e := cqeBytes dw0 (sr.fetch.toNat % 2 ^ sr.sizeLog2) m.sq (nvCid m.sqe) status phase
          let s := if s.hostWritable c.sheet then orderedWrite c.sheet (r.base + 16 * (n % 2 ^ r.sizeLog2)) e s else s
          announceCq m.ctrl q.cq (s.setRing k.ring { r with fetch := r.fetch + 1, head := r.head + 1 }))
      | _, _ => s

/-! ## Ends of commands (R402, R406, R412, R418) -/

/-- Forget a command: its flight-table slot and range-lock entry are released; what its backend requests bring is
discarded (R402, R406, R416). -/
def dropCmd (i : Nat) (s : State) : State :=
  match s.cmd? i with
  | none => s
  | some m =>
    let orphan : Nat → BackReq → BackReq := fun _ b => if b.cmd = some i then { b with cmd := none } else b
    let s := { s with sto := { s.sto with cmds := tblDel s.sto.cmds i, reqs := tblMap orphan s.sto.reqs } }
    let s := s.freeSlot .sto
    match s.ctrl? m.ctrl with
    | none => s
    | some c =>
      let entering := match c.entering with
        | some (ps, k) => if k = i then none else some (ps, k)
        | none => none
      s.setCtrl m.ctrl { c with aers := c.aers.filter (· != i), entering := entering }

/-- A command has started. -/
def NvmeCmd.begun (m : NvmeCmd) : Bool := m.phase != .fetched

/-- A detached attachment goes once its started commands have completed, and NS_DETACH completes (R418). -/
def detachDone (n nsid : Nat) (s : State) : State :=
  match s.ctrl? n with
  | none => s
  | some c =>
    match tblGet c.attach nsid with
    | none => s
    | some a =>
      match a.waiter with
      | none => s
      | some (g, idx) =>
        if s.sto.cmds.any (fun m => m.2.ctrl == n && m.2.sq != 0 && nvNsid m.2.sqe == nsid && m.2.begun) then s
        else
          let s := s.setCtrl n { c with attach := tblDel c.attach nsid }
          endJob g idx 0 (stoFields s c.sheet (some n) (some a.vol)) s

/-- End a command now: its CQ entry is posted. -/
def finishNow (i : Nat) (m : NvmeCmd) (status dw0 : Nat) (s : State) : State :=
  let s := (dropCmd i (postCqe m status dw0 s)).count STO_CMDS 1
  if m.sq = 0 then s else detachDone m.ctrl (nvNsid m.sqe) s

/-- The CQ entry of a command is held: its controller enters a power state and the command was fetched since, or leaves a
non-operational one (R412). -/
def Ctrl.holds (c : Ctrl) (i : Nat) : Bool :=
  c.leaving || (match c.entering with
    | some (_, k) => decide (k < i)
    | none => false)

/-- DEFERRED of the attachment an I/O command goes to, cleared as it is reported: Status Code Type 7h, Status Code 0x80
(R408). -/
def takeDeferred (m : NvmeCmd) (status : Nat) (s : State) : Nat × State :=
  if m.sq = 0 then (status, s)
  else match s.ctrl? m.ctrl with
  | none => (status, s)
  | some c => match tblGet c.attach (nvNsid m.sqe) with
    | none => (status, s)
    | some a =>
      if a.deferred then
        (0x780, s.setCtrl m.ctrl { c with attach := tblPut c.attach (nvNsid m.sqe) { a with deferred := false } })
      else (status, s)

/-- End a command with a status and Dword 0, or hold its CQ entry (R412). -/
def finishCmd (i status dw0 : Nat) (s : State) : State :=
  match s.cmd? i with
  | none => s
  | some m =>
    let (st, s) := takeDeferred m status s
    match s.ctrl? m.ctrl with
    | none => dropCmd i s
    | some c => if c.holds i then s.setCmd i { m with phase := .held st dw0 } else finishNow i m st dw0 s

/-- Post the CQ entries a controller held, in the order their commands were fetched. -/
def postHeld (n : Nat) (s : State) : State :=
  s.sto.cmds.foldl (fun t m =>
    if m.2.ctrl = n then
      match m.2.phase with
      | .held st dw0 => finishNow m.1 m.2 st dw0 t
      | .fetched => t
      | .started => t
      | .stalled => t
      | .running => t
    else t) s

/-- Blocks of a list that are dirty still. -/
def State.stillDirty (s : State) (l : List Nat) : List Nat :=
  l.filter (fun k => match tblGet s.sto.cache k with
    | some x => x.dirty
    | none => false)

/-- A command is a Flush that waits for dirty blocks. -/
def NvmeCmd.flushing (m : NvmeCmd) : Bool := m.sq != 0 && nvOp m.sqe == 0 && m.phase == .running

/-- Flushes whose blocks are all written back complete (R407). -/
def settleFlushes (s : State) : State :=
  (tblKeys (fun _ (m : NvmeCmd) => m.flushing) s.sto.cmds).foldl (fun t i =>
    match t.cmd? i with
    | none => t
    | some m => if t.stillDirty m.waits = [] then finishCmd i 0 0 t else t) s

/-! ## Lost ranges and deferred errors (R408) -/

/-- The smallest gap between neighbours of a sorted list of ranges. -/
def smallestGap : List (Nat × Nat) → Option Nat
  | a :: b :: rest =>
    let g := b.1 - (a.1 + a.2)
    match smallestGap (b :: rest) with
    | some h => some (min g h)
    | none => some g
  | _ => none

/-- Merge the first two neighbours with a gap into one range that covers both. -/
def mergeGap (g : Nat) : List (Nat × Nat) → List (Nat × Nat)
  | a :: b :: rest => if b.1 - (a.1 + a.2) = g then (a.1, max (a.1 + a.2) (b.1 + b.2) - a.1) :: rest else a :: mergeGap g (b :: rest)
  | l => l

/-- Add a lost range; a 257th merges the two with the smallest gap. -/
def addLost (lo n : Nat) (l : List (Nat × Nat)) : List (Nat × Nat) :=
  let l := sortBy (fun r => r.1) ((lo, n) :: l)
  if l.length ≤ 256 then l
  else match smallestGap l with
    | some g => mergeGap g l
    | none => l

/-- Remove blocks from the lost ranges. -/
def cutLost (lo n : Nat) : List (Nat × Nat) → List (Nat × Nat)
  | [] => []
  | (a, k) :: rest =>
    let left := if a < lo then [(a, min k (lo - a))] else []
    let right := if lo + n < a + k then [(max a (lo + n), a + k - max a (lo + n))] else []
    (if a + k ≤ lo ∨ lo + n ≤ a then [(a, k)] else left ++ right) ++ cutLost lo n rest

/-- Blocks meet a lost range. -/
def meetsLost (lo n : Nat) (l : List (Nat × Nat)) : Bool := l.any (fun r => decide (r.1 < lo + n) && decide (lo < r.1 + r.2))

/-- Dword 0 of an asynchronous event of type Vendor Specific about log page 0xC0. -/
def vendorEvent : Nat := 7 + 0xC0 * 2 ^ 16

/-- One attached controller hears of a deferred error: DEFERRED, an entry of its log page or OVERFLOW, and an asynchronous
event where a request for one is outstanding. -/
def tellDeferred (n nsid lo blocks cause : Nat) (s : State) : State :=
  match s.ctrl? n with
  | none => s
  | some c =>
    let e : LostEntry := ⟨nsid, lo, blocks, cause, s.dshort⟩
    let attach := tblMap (fun k (a : Attach) => if k = nsid then { a with deferred := true } else a) c.attach
    let full : Bool := decide (255 ≤ c.log.length)
    let s := s.setCtrl n { c with
      attach := attach
      log := if full then c.log else c.log ++ [e]
      overflow := c.overflow || full }
    match c.aers with
    | [] => s
    | i :: _ => finishCmd i 0 vendorEvent s

/-- Acknowledged data of some blocks of a volume is lost (R408): the cached copies go. -/
def deferredError (vol lo n cause : Nat) (s : State) : State :=
  match s.vol? vol with
  | none => s
  | some v =>
    let s := s.setVol vol { v with lost := addLost lo n v.lost }
    let gone : Nat × Cached → Bool := fun x => decide (cacheKey vol lo ≤ x.1) && decide (x.1 < cacheKey vol (lo + n))
    let s := { s with sto := { s.sto with cache := s.sto.cache.filter (fun x => !gone x) } }
    let s := (s.attachments vol).foldl (fun t a => tellDeferred a.1 a.2 lo n cause t) s
    settleFlushes (raise STO_EVENT_DEFERRED (s.count STO_DEFERRED_CNT 1))

/-! ## The cache (R407, R409) -/

/-- Bytes of a cached block. -/
def State.cachedSize (s : State) (key : Nat) : Nat :=
  match s.vol? (key / 2 ^ 48) with
  | some v => v.blockSize
  | none => 512

/-- Bytes of cache in use on an expander. -/
def State.cacheUsed (s : State) (p : Nat) : Nat :=
  tblSum (fun k (x : Cached) => if x.homes.contains p then s.cachedSize k else 0) s.sto.cache

/-- Bytes of dirty copies, and bytes of cache. -/
def State.dirtyBytes (s : State) : Nat := tblSum (fun k (x : Cached) => if x.dirty then s.cachedSize k * x.homes.length else 0) s.sto.cache

/-- Bytes of cache on every expander. -/
def State.cacheBytes (s : State) : Nat := tblSum (fun _ n => n) s.sto.room

/-- Follow how much of the cache is dirty: write-through is forced from 90 % on until 80 % (R407). -/
def followDirty (s : State) : State :=
  let d := s.dirtyBytes * 100
  if s.cacheBytes = 0 then s.wr STO_STATUS_WT_FORCED 0
  else if s.bit STO_STATUS_WT_FORCED then (if d ≤ s.cacheBytes * 80 then s.wr STO_STATUS_WT_FORCED 0 else s)
  else if s.cacheBytes * 90 ≤ d then raise STO_EVENT_WT_FORCED (s.wr STO_STATUS_WT_FORCED 1)
  else s

/-- An expander attached: PCT percent of its range, rounded down to 1 GiB, becomes cache (R407). -/
def attachCache (p capacity : Nat) (s : State) : State :=
  let bytes := capacity * s.rd STO_CACHE_CFG_PCT / 100 / 2 ^ 30 * 2 ^ 30
  if bytes = 0 then s else followDirty { s with sto := { s.sto with room := tblPut s.sto.room p bytes } }

/-- An expander with room for a block, other than some. -/
def State.roomFor (s : State) (size : Nat) (except : List Nat) : Option Nat :=
  (s.sto.room.find? (fun r => !except.contains r.1 && decide (s.cacheUsed r.1 + size ≤ r.2))).map (fun r => r.1)

/-- Group rising cache numbers into ranges of one volume: volume, first block, blocks. -/
def cacheRuns : List Nat → List (Nat × Nat × Nat)
  | [] => []
  | k :: rest =>
    match cacheRuns rest with
    | (v, b, n) :: more =>
      if k / 2 ^ 48 = v ∧ k % 2 ^ 48 + 1 = b then (v, k % 2 ^ 48, n + 1) :: more else (k / 2 ^ 48, k % 2 ^ 48, 1) :: (v, b, n) :: more
    | [] => [(k / 2 ^ 48, k % 2 ^ 48, 1)]

/-- A new mirror copy of a dirty block that kept one copy, when there is room (R409). -/
def mirrorAgain (key : Nat) (s : State) : State :=
  match tblGet s.sto.cache key, s.vol? (key / 2 ^ 48) with
  | some x, some v =>
    if x.dirty ∧ v.cache = 2 ∧ x.homes.length = 1 then
      match s.roomFor v.blockSize x.homes with
      | some q => { s with sto := { s.sto with cache := tblPut s.sto.cache key { x with homes := x.homes ++ [q] } } }
      | none => s
    else s
  | _, _ => s

/-- The expander of a root port is removed: the copies it held are gone; dirty blocks that had no other copy are lost with
cause 2, mirrored ones take a new copy elsewhere (R408, R409). -/
def cacheRemoved (p : Nat) (s : State) : State :=
  let alone := tblKeys (fun _ (x : Cached) => x.dirty && x.homes == [p]) s.sto.cache
  let touched := tblKeys (fun _ (x : Cached) => x.homes.contains p && x.homes != [p]) s.sto.cache
  let keep : Nat × Cached → Bool := fun x => x.2.homes != [p]
  let less : Nat → Cached → Cached := fun _ x => { x with homes := x.homes.filter (· != p) }
  let s := { s with sto := { s.sto with cache := tblMap less (s.sto.cache.filter keep), room := tblDel s.sto.room p } }
  let s := (cacheRuns alone).foldl (fun t r => deferredError r.1 r.2.1 r.2.2 2 t) s
  followDirty (touched.foldl (fun t k => mirrorAgain k t) s)

/-- A root port is contained: the volumes behind it are DOWN, and the cache of its expander is gone (R408-R410). -/
def rootPortDown (p : Nat) (s : State) : State :=
  let s := if s.sto.vols.any (fun v => !v.2.remote && v.2.rootPort == p) then raise STO_EVENT_DOWN s else s
  if (tblGet s.sto.room p).isSome then cacheRemoved p s else s

/-! ## Controllers that end (R403, R411, R416) -/

/-- Commands of a controller. -/
def State.ctrlCmds (s : State) (n : Nat) : List Nat := tblKeys (fun _ (m : NvmeCmd) => m.ctrl == n) s.sto.cmds

/-- Every command of a controller is abandoned; data that a Write left in the cache stays (R416). -/
def abandonCmds (n : Nat) (s : State) : State := (s.ctrlCmds n).foldl (fun t i => dropCmd i t) s

/-- Complete the CTRL_SET that waits on a controller. -/
def endSetter (n status : Nat) (s : State) : State :=
  match s.ctrl? n with
  | none => s
  | some c =>
    match c.setter with
    | none => s
    | some (g, idx) =>
      let s := s.setCtrl n { c with setter := none }
      endJob g idx status (stoFields s c.sheet (some n) none) s

/-- A controller enters RESETTING: its queues close and its commands are abandoned; a shutdown that was waiting completes
with 0x0106 (R403, R416). -/
def resetCtrl (n : Nat) (s : State) : State :=
  match s.ctrl? n with
  | none => s
  | some c =>
    let s := abandonCmds n (endSetter n 0x0106 (setQueues c .closed s))
    match s.ctrl? n with
    | none => s
    | some c => s.setCtrl n { c with state := .resetting, aers := [], entering := none, leaving := false }

/-- The controllers of a sheet that enters DISABLING reset (R416). -/
def endStorage (n : Nat) (s : State) : State :=
  (tblKeys (fun _ (c : Ctrl) => c.sheet == n && (c.state == .ready || c.state == .shutting || c.state == .shut)) s.ctrls).foldl
    (fun t k => resetCtrl k t) s

/-- The sheet's messages and storage commands have ended, and its controllers are DISABLED. -/
def unitsDrained (n : Nat) (s : State) : Bool :=
  s.conns.all (fun x => x.2.sheet != n || (x.2.sends == [] && x.2.recvs == []))
    && s.ctrls.all (fun c => c.2.sheet != n || (c.2.state == .disabled && (s.ctrlCmds c.1).isEmpty))

/-- A controller becomes FREE: its queues and attachments are removed. -/
def freeCtrl (n : Nat) (s : State) : State :=
  match s.ctrl? n with
  | none => s
  | some c =>
    let s := abandonCmds n s
    let s := { s with ctrls := tblDel s.ctrls n, rings := s.rings.filter (fun r => !c.rings.contains r.1) }
    resolveShrinks c.sheet s

/-- Remove the sheet's connections, keys, controllers and regions (R163, R379). -/
def removeUnits (n : Nat) (s : State) : State :=
  let s := (s.sheetConns n).foldl (fun t c => freeConn c t) s
  let mine : Nat → SA → Bool := fun k a => a.sheet == n && decide (k < 0x40000)
  let keys := tblKeys mine s.sas
  let s := eraseKeys keys { s with sas := s.sas.filter (fun a => !mine a.1 a.2) }
  let s := (tblKeys (fun _ (c : Ctrl) => c.sheet == n) s.ctrls).foldl (fun t k => freeCtrl k t) s
  (tblKeys (fun _ (g : Region) => g.sheet == n) s.rlt.regions).foldl (fun t r => freeRegion r t) s

/-- A doorbell reached a storage queue: one to an I/O submission queue of a controller in its non-operational power state
makes it leave for its last operational one (R411). -/
def wakeCtrl (g : Nat) (s : State) : State :=
  match s.ctrls.find? (fun c => c.2.sqs.any (fun q => q.1 != 0 && q.2.ring == g)) with
  | none => s
  | some (n, c) => if c.ps = 2 then s.setCtrl n { c with leaving := true } else s

end Sys2Proof.Machine
end

