-- ==== Sys2Proof/Machine/SheetOps.lean ====
section
/-! DEFINITION. Shared operations on sheets: entering DISABLING and DISABLED, and the functions they stand on
(R135, R156, R164-R167). -/

namespace Sys2Proof.Machine

/-- Full BENCH_MBPS bucket: 9,216 bytes (R197). -/
def fullBench : Nat := 9216 * 8 * 65536000000000

/-- Descriptor rings of a sheet, by global number. Storage queues (kinds 8 SQ and 9 CQ of the model) share the numbers
but have no ring KIND (R400). -/
def State.sheetRings (s : State) (n : Nat) : List Nat := tblKeys (fun _ r => r.sheet == n && decide (r.kind ≤ 4)) s.rings

/-- A sheet enters DISABLING with a cause: its rings stop, its contracts are withdrawn, packets queued for its memory
are spoiled, its messages and storage commands end (R164). DEDUCED (log entry 55): a packet queued for a ring of the sheet is
spoiled with the reason of the sheet, 0x1B, and not with that of its ring. -/
def disableSheet (n cause : Nat) (s : State) : State :=
  let x := s.sheet n
  if x.state = .active ∨ x.state = .debug then
    let s := s.setSheet n { x with state := .disabling, cause := cause }
    let s := postSheetState n x.state.code 4 cause s
    let s := spoilWhere 0x1B (fun p => p.toSheet == some n) s
    let s := (s.sheetRings n).foldl (fun t g => stopRing g 1 t) s
    let s := withdrawSheet n 5 s
    endStorage n (endMessages n s)
  else s

/-- A ring holds no flight-table slot for an entry, and its quiesce has ended (R164, R165). -/
def Ring.drained (r : Ring) : Bool :=
  !r.slotHeld && r.state != .disabling && r.jobs.all (fun j => j.phase != .running && (j.slot.isNone || j.phase == .written))

/-- No flight-table slot of the sheet is held: no started entry, message or storage command remains, and the heads of its rings
are published (R164, R165). -/
def State.sheetDrained (s : State) (n : Nat) : Bool :=
  s.rings.all (fun r => r.2.sheet != n || r.2.drained) && unitsDrained n s

/-- Sheets of a function of a port. -/
def State.funcSheets (s : State) (p f : Nat) : List Nat :=
  tblKeys (fun n _ => s.sheetPort n == some p && s.sheetPf n == f) s.sheets

/-- Disable every sheet of a function. -/
def disableFunction (p f cause : Nat) (s : State) : State :=
  (s.funcSheets p f).foldl (fun t n => disableSheet n cause t) s

end Sys2Proof.Machine
end

