-- ==== Sys2Proof/Machine/RingOps.lean ====
section
/-! DEFINITION. Fetching ring entries: issuing reads, tags, taking entries in, chains, fetch faults (R23, R170, R175,
R176, R182-R186, R190, R194). -/

namespace Sys2Proof.Machine

/-! ## Host read tags (R23) -/

/-- A non-posted read is issued: it holds a tag and a flight-table slot. -/
def issueRead (req : HostReq) (len : Nat) (use : ReadUse) (s : State) : State :=
  let t := s.freeTag req.port
  (({ s with reads := s.reads ++ [⟨req, t, use, false⟩] } : State).takeSlot .rd).emit (.hostRead req t len)

/-- A read ends: its tag and slot are released. -/
def endRead (p tag : Nat) (s : State) : State :=
  if s.reads.any (fun r => r.req.port == p && r.tag == tag) then
    ({ s with reads := s.reads.filter (fun r => !(r.req.port == p && r.tag == tag)) } : State).freeSlot .rd
  else s

/-- Entry reads still out for a ring that begins anew, or is gone, no longer concern it. -/
def forgetFetch (g : Nat) (s : State) : State :=
  { s with reads := s.reads.map (fun (t : ReadTag) => if t.use = .fetch g then { t with use := .data } else t) }

/-! ## Fetching (R176, R189) -/

/-- Fetched entries of a ring that have not started, those of an open chain included. -/
def Ring.held (r : Ring) : Nat :=
  (r.jobs.map (fun j => if j.unstarted then j.entries.length else 0)).sum
    + (match r.chain with | some (_, l) => l.length | none => 0)

/-- Entries one read request covers: at most 8, not across a 4,096-byte boundary or the end of the ring, none at or beyond PI, and
no more than 64 held (R169, R176). -/
def Ring.readLength (r : Ring) : Nat :=
  min (min 8 (min (64 - r.fetch.toNat % 64) (r.size - r.fetch.toNat % r.size)))
    (min (idxSub r.pi.toNat r.fetch.toNat) (64 - r.held))

/-- A descriptor ring may fetch: RUNNING, its sheet ACTIVE or DEBUG, entries posted, fewer than 64 held, no read in progress, and no
start waiting for a flight-table slot (R25, R176, R189). -/
def State.mayFetch (s : State) (r : Ring) : Bool :=
  (r.state == .running) && ((s.sheet r.sheet).state == .active || (s.sheet r.sheet).state == .debug)
    && (s.sheetFunc r.sheet).bme && (r.fetch != r.pi) && decide (r.held < 64) && r.reading == 0 && !r.slotWait && decide (r.kind ≤ 4)

/-- Issue the next entry read of a ring when it may fetch and a tag and a slot are free. -/
def issueFetch (g : Nat) (s : State) : State :=
  match s.ring? g with
  | none => s
  | some r =>
    if s.mayFetch r ∧ s.flight.room .rd ∧ (s.portTags (s.sheetPortD r.sheet)).length < 4096 then
      let n := r.readLength
      issueRead (s.sheetReq r.sheet (r.slotAddr r.fetch.toNat) false) (64 * n) (.fetch g) (s.setRing g { r with reading := n })
    else s

/-- A malformed job: a status completes it when its turn comes, and it never starts (R186). -/
def badJob (idx status : Nat) (entries : List Entry) : Job := ⟨idx, entries, .bad status, none⟩

/-- The open chain of a ring completed as malformed, as far as it has been fetched (R184). -/
def Ring.closeChain (r : Ring) : Ring :=
  match r.chain with
  | some (i, l) => { r with jobs := r.jobs ++ [badJob i 0x0110 l], chain := none }
  | none => r

/-- An entry taken alone: any open chain is malformed, the entry is a job. -/
def Ring.single (r : Ring) (i : Nat) (e : Entry) : Ring :=
  let r := r.closeChain
  { r with jobs := r.jobs ++ [Job.fetched i [e]] }

/-- An entry that is malformed by itself. -/
def Ring.reject (r : Ring) (i status : Nat) (e : Entry) : Ring :=
  let r := r.closeChain
  { r with jobs := r.jobs ++ [badJob i status [e]] }

/-- An entry continues the open chain (R182, R184). -/
def Ring.extend (r : Ring) (l : List Entry) (first : Nat) (e : Entry) : Ring :=
  let l := l ++ [e]
  if lastBit e then
    if chainForm (opcode e) then { r with jobs := r.jobs ++ [Job.fetched first l], chain := none }
    else { r with jobs := r.jobs ++ [badJob first 0x0110 l], chain := none }
  else if 64 ≤ l.length then { r with jobs := r.jobs ++ [badJob first 0x0110 l], chain := none }
  else { r with chain := some (first, l) }

/-- Take one fetched entry in (R175, R184). An entry whose opcode is undefined or not accepted on the ring kind stands
alone whatever its FIRST and LAST bits hold, since R170 tests the opcode before anything else. -/
def Ring.acceptEntry (r : Ring) (e : Entry) : Ring :=
  let i := r.fetch.toNat
  let r := { r with fetch := r.fetch + 1 }
  if ownBit e = false then r.reject i 0x0111 e
  else if opcodeDefined (opcode e) = false ∨ kindAccepts r.kind (opcode e) = false then r.single i e
  else if firstBit e then
    if lastBit e then r.single i e else { r.closeChain with chain := some (i, [e]) }
  else match r.chain with
    | some (first, l) =>
        if opcode (l.headD 0) = opcode e then r.extend l first e else r.reject i 0x0110 e
    | none => r.reject i 0x0110 e

/-- Fetched entries arrive, those that the read covered: they are queued in index order, and malformed ones completed (R175). -/
def fetchArrive (g : Nat) (entries : List Entry) (s : State) : State :=
  match s.ring? g with
  | none => s
  | some r =>
    if r.state = .running then
      let r' := (entries.take r.reading).foldl Ring.acceptEntry { r with reading := 0 }
      flushRing g (s.setRing g r')
    else s.setRing g { r with reading := 0 }

/-- An entry read failed, or the ring base has no translation: the ring goes to DISABLING with CAUSE 2 (R194). -/
def fetchFault (g : Nat) (s : State) : State :=
  match s.ring? g with
  | none => s
  | some r =>
    let s := s.setRing g { r with reading := 0 }
    if r.state = .running then raise RNG_EVENT_FETCH_FAULT (quiesceMessages g (stopRing g 2 s)) else s

/-- The tag of the entry read of a ring. -/
def State.fetchTag (s : State) (g : Nat) : Option ReadTag := s.reads.find? (fun r => r.use == .fetch g && !r.quarantined)

/-- Pre-translate an address of a function while ATS is enabled: the port's cache of 4,096 entries keeps the translation, whose size
from 4 KiB to 1 GiB the host chooses and is free here (R131). -/
def atsKeep (p f pasid addr : Nat) (s : State) : State :=
  let fn := s.func p f
  if fn.atsEn ∧ fn.ats.any (fun e => e.covers pasid addr) = false
      ∧ ((List.range 8).map (fun k => (s.func p k).ats.length)).sum < 4096 then
    let k := 12 + s.draw.toNat % 19
    s.drawn.setFunc p f { fn with ats := fn.ats ++ [⟨pasid, addr / 2 ^ k * 2 ^ (k - 12), k⟩] }
  else s

/-- Pre-translate an address of a sheet's memory. -/
def sheetAts (n addr : Nat) (s : State) : State := atsKeep (s.sheetPortD n) (s.sheetPf n) (s.rd (CAD_ID_PASID n)) addr s

/-- FLIGHT_SLOT_WAIT_START: a slot freed goes to a ring that waits; its next entry may start (R25). -/
def execFlightSlotWaitStart (ring : Nat) (s : State) : Host.Outcome State Fault Refusal :=
  match s.ring? ring with
  | none => .next s
  | some r =>
    if r.slotWait ∧ r.state = .running ∧ s.flight.room (waitKind r) then
      .next ((s.takeSlot (waitKind r)).setRing ring { r with slotWait := false, slotHeld := true })
    else .next s

/-- UNDEFINED_OPCODE: the ring's next entry completes with 0x0101 when its opcode has no meaning, with 0x0102 when the
ring kind does not accept it (R170). -/
def execUndefinedOpcode (ring : Nat) (s : State) : Host.Outcome State Fault Refusal :=
  match s.ring? ring with
  | none => .next s
  | some r =>
    match nextJob r.fences true r.jobs with
    | none => .next s
    | some j =>
      if r.state ≠ .running then .next s
      else if opcodeDefined (opcode j.first) = false then .next (endJob ring j.idx 0x0101 [] s)
      else if kindAccepts r.kind (opcode j.first) = false then .next (endJob ring j.idx 0x0102 [] s)
      else .next s

/-- ENTRY_FETCH: with no entries the ring's next read is issued; with entries, they arrive from host memory and are
queued (R176). -/
def execEntryFetch (ring : Nat) (data : Option (List Entry)) (s : State) : Host.Outcome State Fault Refusal :=
  match data with
  | none => .next (issueFetch ring s)
  | some entries =>
    match s.fetchTag ring with
    | none => .next s
    | some t => .next (issueFetch ring (fetchArrive ring entries (endRead t.req.port t.tag s)))

end Sys2Proof.Machine
end

