-- ==== Sys2Proof/Machine/HostPortOps.lean ====
section
/-! DEFINITION. Shared host port operations: functions cleared and reset, link loss, containment, partners attached
(R28, R111, R132, R135-R143, R491-R495). -/

namespace Sys2Proof.Machine

/-! ## Functions (R135, R136) -/

/-- A read that a host issued through a peer window; it is no read of a function of the port it goes out on. -/
def ReadUse.isPeer : ReadUse → Bool
  | .fetch _ => false
  | .peer _ _ _ _ => true
  | .data => false

/-- Quarantine the tags of a function: they stay held until their completion or timeout. What a host reads through a peer window is
not gated (R135). -/
def quarantine (p f : Nat) (s : State) : State :=
  { s with reads := s.reads.map (fun r =>
      if r.req.port = p ∧ r.req.pf = f ∧ r.use.isPeer = false then { r with quarantined := true } else r) }

/-- Bus Master Enable of a function is cleared: no new request, tags quarantined, every sheet disabled (R135). -/
def clearBme (p f cause : Nat) (s : State) : State :=
  let s := s.setFunc p f { s.func p f with bme := false }
  disableFunction p f cause (quarantine p f s)

/-- Vectors of a function back at their reset value. -/
def resetVectors (p f : Nat) (s : State) : State :=
  { s with vectors := s.vectors.filter (fun v => v.1 / 2048 != funcKey p f) }

/-- The data port that a host port holds becomes free (R514). -/
def releaseDp (p : Nat) (s : State) : State :=
  if s.rd SVY_DP_LOCK_OWNER = 1 ∧ s.rd SVY_DP_LOCK_PORT = p then (s.wr SVY_DP_LOCK_OWNER 0).wr SVY_DP_LOCK_PORT 0 else s

/-- A function answers a configuration request: it is present, the boot ROM has released its port, and no FLR of it is in progress;
until then it answers Configuration Request Retry Status (R22, R136). -/
def State.configOpen (s : State) (p f : Nat) : Bool := (s.func p f).present && (s.island (0x40 + p)).released && !(s.func p f).flr

/-- A configuration write of the host: it takes effect, or is answered with Configuration Request Retry Status. -/
def configWrite (p f : Nat) (effect : State → State) (s : State) : State :=
  if s.configOpen p f then effect s else s.emit (.portMessage p 6 f)

/-- FLR handling of a function: R135, then its ATS entries and page requests go, and its configuration space and MSI-X
structures reset; BARs and presence stay as sampled (R136). -/
def flrFunction (p f cause : Nat) (s : State) : State :=
  let s := if f = 0 then releaseDp p s else s
  let s := resetVectors p f (clearBme p f cause s)
  let s := { s with rlt := { s.rlt with pages := s.rlt.pages.filter (fun q => !(q.port == p && q.pf == f)) } }
  s.setFunc p f { s.func p f with
    bme := false, pasidEn := false, roEn := false, fmask := false, atsEn := false, priEn := false, priStopped := false, cplTo := 0,
    ats := [], invalidating := [] }

/-- Functions of a port. -/
def presentFuncs (s : State) (p : Nat) : List Nat := (List.range 8).filter (fun f => (s.func p f).present)

/-! ## Consumables of an attachment (R492, R495) -/

/-- A part attaches at a record: the same serial resumes, another starts afresh. -/
def consArrive (i kind : Nat) (serial : Bytes) (vendor : Nat) (s : State) : State :=
  let c := tblGetD Consumable.fresh s.health.cons i
  let c' : Consumable := if c.valid ∧ c.serial = serial then { c with present := true, lastSeen := s.ns }
    else { Consumable.fresh with valid := true, kind := kind, present := true, firstSeen := s.ns, lastSeen := s.ns, serial := serial, vendor := vendor }
  { s with health := { s.health with cons := tblPut s.health.cons i c' } }

/-- Time for which a part was present, up to an instant (R493). -/
def Consumable.upTo (c : Consumable) (now : Nat) : Consumable :=
  if c.present then { c with onTime := c.onTime + (now - c.lastSeen), lastSeen := now } else c

/-- A part leaves: its record stays with PRESENT 0 and is saved, after a Surveyor restart in progress (R481, R495). -/
def consLeave (i : Nat) (s : State) : State :=
  let c := tblGetD Consumable.fresh s.health.cons i
  if c.valid then
    let cons := tblPut s.health.cons i { c.upTo s.ns with present := false }
    let saved := if s.health.restarting then s.health.consSaved else cons
    { s with health := { s.health with cons := cons, consSaved := saved } }
  else s

/-! ## Links -/

/-- HP_PORT_STATUS of a link that is down. -/
def portDown (p : Nat) (s : State) : State :=
  let s := ((s.wr (HP_PORT_STATUS_LINK_UP p) 0).wr (HP_PORT_STATUS_SPEED p) 0).wr (HP_PORT_STATUS_WIDTH p) 0
  raise (HP_EVENT_LINK p) ((s.wr (HP_PORT_STATUS_FLIT p) 0).wr (HP_PORT_STATUS_PM p) 0)

/-- A link is up. -/
def State.linkUp (s : State) (p : Nat) : Bool := s.bit (HP_PORT_STATUS_LINK_UP p)

/-- A forwarded read is answered with all-ones data (R124). -/
def peerOnes (fromPort pf len : Nat) (s : State) : State := s.emit (.reply (.host fromPort pf) (List.replicate len 0xFF))

/-- Every read out on a port has failed: each tag and slot stays held until a response or the timeout, whose data nothing takes
(R23, R26). -/
def strandReads (p : Nat) (s : State) : State :=
  { s with reads := s.reads.map (fun r => if r.req.port = p then { r with use := .data, quarantined := true } else r) }

/-- Fail the reads out on a port: a ring entry read that failed moves its ring to DISABLING, and forwarded reads are answered with
all-ones data and PEER_FAULT (R124, R139, Table 7.7). -/
def failReads (p : Nat) (s : State) : State :=
  let live := (s.portTags p).filter (fun r => !r.quarantined)
  strandReads p (live.foldl (fun t r => match r.use with
    | .fetch g => fetchFault g t
    | .peer q f _ n => raise (HP_EVENT_PEER_FAULT q) (peerOnes q f n t)
    | .data => t) s)

/-- A host whose link is lost takes no answer to the reads it forwarded. -/
def dropAsker (p : Nat) (s : State) : State :=
  { s with reads := s.reads.map (fun r => match r.use with
      | .peer q _ _ _ => if q = p then { r with use := .data, quarantined := true } else r
      | _ => r) }

/-- The link of an endpoint port is lost other than by a power state: no partner is present, FLR handling of every function, and a
survey record that the partner left (R137, R489, Table 5.7). -/
def endpointLost (p : Nat) (s : State) : State :=
  if s.linkUp p then
    let s := (presentFuncs s p).foldl (fun t f => flrFunction p f 3 t) ((portDown p s).wr (HP_PORT_STATUS_PRESENT p) 0)
    surveyRec 0 2 p 0 [] 0 (dropAsker p (failReads p s))
  else s

/-- The range of an expander that leaves reads as reserved and may be reused (R28). -/
def cxlDetach (p : Nat) (s : State) : State :=
  let x := s.port p
  if x.cxlSize = 0 then s
  else
    let s := s.setPort p { x with cxlBase := 0, cxlSize := 0 }
    { s with
      cxlFree := s.cxlFree ++ [(x.cxlBase, x.cxlSize)]
      mem := s.mem.filter (fun c => !(decide (x.cxlBase ≤ c.1) && decide (c.1 < x.cxlBase + x.cxlSize))) }

/-- Containment of a root port: requests fail, its contracts break with cause 4, its component leaves (R139). -/
def containPort (p : Nat) (s : State) : State :=
  if s.portIsRoot p = false ∨ s.bit (HP_PORT_STATUS_DPC p) then s
  else
    let x := s.port p
    let s := failReads p s
    let s := if s.linkUp p then portDown p s else s
    let s := raise (HP_EVENT_DPC p) ((s.wr (HP_PORT_STATUS_DPC p) 1).wr (HP_PORT_STATUS_CXL p) 0)
    let s := breakWhere (usesPort (64 + p)) 4 s
    let s := rootPortDown p (cxlDetach p s)
    let s := if x.comp = .none then s else consLeave (32 + p) (surveyRec 2 2 p x.classCode x.serial x.vendor s)
    s.setPort p { s.port p with comp := .none, enumerating := false, serial := [], classCode := 0, vendor := 0 }

/-- A link goes down for a cause outside power states: link loss of an endpoint port; of a root port, Surprise Down. -/
def linkLost (p : Nat) (s : State) : State := if s.portIsRoot p then containPort p s else endpointLost p s

end Sys2Proof.Machine
end

