-- ==== Sys2Proof/Machine/NetOps.lean ====
section
/-! DEFINITION. Shared operations on network ports: state moves, withdrawal as an outlet with re-pinning, headroom and
received pause (spec 08, R217-R227; spec 11, R298, R305-R307). -/

namespace Sys2Proof.Machine

/-- STATE of a network port (Table 8.3). -/
def State.netState (s : State) (p : Nat) : Nat := s.rd (NET_PORT_STATUS_STATE p)

/-- A checked write was refused (R211). -/
def netRefuse (p : Nat) (s : State) : State := raise (NET_EVENT_CFG_ERR p) (s.wr (NET_PORT_STATUS_CFG_ERR p) 1)

/-! ## Cages (Table 8.8) -/

/-- Lanes of a cage record: 1, 2, 4 or 8, the first a multiple of them; 0 for an absent cage. -/
def State.cageLanes (s : State) (k : Nat) : Nat :=
  let n := s.rd (NET_CAGE_CFG_LANES k)
  if (n = 1 ∨ n = 2 ∨ n = 4 ∨ n = 8) ∧ s.rd (NET_CAGE_CFG_FIRST_LANE k) % n = 0 then n else 0

/-- A lane lies in the record of a cage. -/
def State.laneInCage (s : State) (k lane : Nat) : Bool :=
  decide (s.rd (NET_CAGE_CFG_FIRST_LANE k) ≤ lane) && decide (lane < s.rd (NET_CAGE_CFG_FIRST_LANE k) + s.cageLanes k)

/-- Two cage records overlap. -/
def State.cagesOverlap (s : State) (j k : Nat) : Bool :=
  (List.range (s.cageLanes j)).any (fun l => s.laneInCage k (s.rd (NET_CAGE_CFG_FIRST_LANE j) + l))

/-- A cage is present: its record is aligned and overlaps no other. -/
def State.cagePresent (s : State) (k : Nat) : Bool :=
  decide (k < 32) && s.cageLanes k != 0 && !(List.range 32).any (fun j => j != k && s.cagesOverlap k j)

/-- A cage record names 1, 2, 4 or 8 lanes that are misaligned or overlap another cage's (Table 8.8). -/
def State.cageUnsound (s : State) (k : Nat) : Bool :=
  [1, 2, 4, 8].contains (s.rd (NET_CAGE_CFG_LANES k)) && !s.cagePresent k

/-- CFG_ERR in the block of port k for each unsound cage record k. -/
def flagCages (s : State) : State :=
  ((List.range 32).filter s.cageUnsound).foldl (fun t k => t.wr (NET_PORT_STATUS_CFG_ERR k) 1) s

/-- The cage of a lane. -/
def State.cageOf (s : State) (lane : Nat) : Option Nat :=
  (List.range 32).find? (fun k => s.cagePresent k && s.laneInCage k lane)

/-- Ports of a cage: configured ports whose first lane lies in it. -/
def State.cagePorts (s : State) (k : Nat) : List Nat :=
  (List.range 64).filter (fun p => s.netPresent p && s.laneInCage k p)

/-- CMIS state of a module that follows its LPMODE signal: ModuleLowPwr while it is asserted, ModulePwrUp once it is released
(R228, Table 8.8; PRESUMED from CMIS 5.2, log entry 19). -/
def lowPowerState (on : Bool) : Nat := if on then 2 else 1

/-- A present module follows its LPMODE signal. -/
def followLowPower (k : Nat) (on : Bool) (s : State) : State :=
  if s.bit (NET_CAGE_STATUS_PRESENT k) then s.wr (NET_CAGE_STATUS_MSTATE k) (lowPowerState on) else s

/-- Hold a module in low power while every port of its cage is OFF or in FAULT, and release it otherwise (R228). -/
def updateLowPower (k : Nat) (s : State) : State :=
  let on := (s.cagePorts k).any (fun p => s.netState p != 0 && s.netState p != 7)
  if on = s.net.powered.contains k then s
  else followLowPower k on { (s.emit (.ball 4 k (if on then 0 else 1))) with
    net := { s.net with powered := if on then k :: s.net.powered else s.net.powered.filter (· != k) } }

/-! ## Headroom (R220, R221) -/

/-- H of a port in setts per priority. -/
def State.headroomH (s : State) (p : Nat) : Nat :=
  let gbps := s.netRate p / 1000000000
  let phy := phyNs (s.netLaneGbps p)
  let t := phy.2 + 10 * s.rd (NET_HEAD_CFG_CABLE_M p) + s.rd (NET_HEAD_CFG_PARTNER_NS p) + phy.1 + 120
  ceilDiv (gbps * t + 16 * (s.rd (NET_PORT_CFG_MAX_FRAME p) + 20)) (8 * 84)

/-- The headroom reserved in a state can be held: the shared pool that remains covers what it holds now. -/
def State.headroomFits (s : State) : Bool := decide (s.headroomSetts + s.partUsed .shared ≤ s.untimedSetts)

/-- Reserve headroom of a port by its settings. -/
def reserveHeadroom (p : Nat) (s : State) : State :=
  (s.wr (NET_HEAD_STATUS_H p) (s.headroomH p)).wr (NET_HEAD_STATUS_PRIOS p) (s.priosInUse p).length

/-- Release the headroom of a port. -/
def releaseHeadroom (p : Nat) (s : State) : State := (s.wr (NET_HEAD_STATUS_H p) 0).wr (NET_HEAD_STATUS_PRIOS p) 0

/-! ## Received pause (R219) -/

/-- Stop or release a class by received pause. A refresh before the previous pause ends leaves no break (R222). -/
def pauseClass (p c quanta : Nat) (s : State) : State :=
  let gbps := s.netRate p / 1000000000
  let now := s.datum.toNat
  let pz := s.net.pause
  if quanta = 0 then
    { s with net := { s.net with pause := tblDel pz (pauseKey p c) } }
  else
    let since := match tblGet pz (pauseKey p c) with
      | some x => if now ≤ x.ends then x.since else now
      | none => now
    { s with net := { s.net with pause := tblPut pz (pauseKey p c) ⟨now + quanta * 512 * 65536 / gbps, since⟩ } }

/-- RX_PAUSED follows the classes stopped. -/
def showPaused (p : Nat) (s : State) : State := s.wr (NET_PORT_STATUS_RX_PAUSED p) (maskOf (s.pausedClasses p))

/-- Clear every received pause of a port. -/
def clearPauses (p : Nat) (s : State) : State :=
  showPaused p { s with net := { s.net with pause := s.net.pause.filter (fun x => x.1 / 8 != p) } }

/-! ## Re-pinning (R306, R307) -/

/-- The outlet and class under which a packet leaves through an alternate. -/
def Packet.repin (a fb : Nat) (timed : Bool) (x : Packet) : Packet :=
  { x with outlet := a, cls := if timed then fb else x.cls, fallback := x.fallback || timed, repinned := x.marker.isNone }

/-- Splice the VOQs of an outlet onto the tails of its alternate's, in VOQ index order. -/
def spliceVoqs (o a : Nat) (s : State) : State :=
  let fb := s.rd ADM_CTRL_FALLBACK
  (s.voqs.filter (fun q => voqOutlet q.1 == o)).foldl
    (fun t q =>
      let c := voqClass q.1
      let moved := q.2.map (Packet.repin a fb (s.timed c))
      let v := voqIndex (voqInlet q.1) a (if s.timed c then fb else c)
      let t := { t with voqs := tblPut (tblDel t.voqs q.1) v (tblGetD [] t.voqs v ++ moved) }
      t.count SWC_REPINNED (moved.filter (fun x => x.marker.isNone)).length) s

/-- Outlets pinned to a port. -/
def State.pinnedTo (s : State) (a : Nat) : List Nat :=
  (List.range 64).filter (fun o => s.bit (SWC_ALT_PINNED o) && s.rd (SWC_ALT_TARGET o) == a)

/-- Re-pin an outlet to its alternate when the alternate is enabled and UP; outlets pinned to it follow (R306, R307).
An outlet already pinned keeps its target. -/
def rePin (o : Nat) (s : State) : State :=
  let a := s.rd (SWC_ALT_ALT o)
  if s.bit (SWC_ALT_EN o) ∧ s.netState a = 5 ∧ s.bit (SWC_ALT_PINNED o) = false then
    let pinned := s.pinnedTo o
    let s := spliceVoqs o a s
    let s := { s with swc := { s.swc with unpinHeld := s.swc.unpinHeld.filter (fun v => voqOutlet v != o) } }
    let s := ((s.wr (SWC_ALT_PINNED o) 1).wr (SWC_ALT_TARGET o) a).wr (SWC_ALT_UNPINNING o) 0
    let s := pinned.foldl (fun t x => t.wr (SWC_ALT_TARGET x) a) s
    refreshPressure (raise SWC_EVENT_PIN s)
  else s

/-! ## State moves (Table 8.4) -/

/-- A state whose CAUSE the register keeps: FAULT, TRAINING, PAUSE_FAILED or NO_MODULE. -/
def causeKept (st : Nat) : Bool := st == 1 || st == 3 || st == 6 || st == 7

/-- Spoil what is queued for a port that is OFF, in FAULT or in NO_MODULE with no alternate enabled, the frame of its MAC among it
(R298). -/
def spoilDead (p : Nat) (s : State) : State :=
  if (s.netState p = 0 ∨ s.netState p = 7 ∨ s.netState p = 1) ∧ s.bit (SWC_ALT_EN p) = false then
    let frames := tblGetD [] s.swc.mac p
    let s := spoilWhere 0x1C (fun x => x.outlet == p) { s with swc := { s.swc with mac := tblDel s.swc.mac p } }
    frames.foldl (fun t x => spoilPacket 0x1C x t) s
  else s

/-- PTP sources fed by a port whose link goes down disqualify (Table 2.1). -/
def servoDown (p : Nat) (s : State) : State :=
  [1, 2].foldl (fun t n => if t.rd (DTM_SRC_CFG_PORT n) = p then disqualify n t else t) s

/-- A state in which the lanes of a port have lock: CALIBRATING, UP or PAUSE_FAILED (Table 8.3). -/
def lanesLocked (st : Nat) : Bool := st == 4 || st == 5 || st == 6

/-- SyncE outputs follow the lock of the lanes of a port: squelched when it is lost, carrying their clock again when it is back
(R58). -/
def syncePort (p was st : Nat) (s : State) : State :=
  let l := s.synceOf p (portMode (s.rd (NET_PORT_CFG_MODE p))).1
  if lanesLocked was ∧ lanesLocked st = false then l.foldl (fun t n => loseSynce n t) s
  else if lanesLocked was = false ∧ lanesLocked st then l.foldl (fun t n => setSquelch n false t) s
  else s

/-- Leaving UP or PAUSE_FAILED for a state that is neither: pauses end, headroom is released, PFC stops, and the link is
down (R219, R220). -/
def leaveService (p : Nat) (s : State) : State :=
  servoDown p (resizePool (releaseHeadroom p ((clearPauses p s).wr (NET_PORT_STATUS_TX_XOFF p) 0)))

/-- Withdraw a port as an outlet and break its contracts (R222, R226). -/
def withdrawOutlet (p : Nat) (s : State) : State := breakWhere (usesPort p) 3 (rePin p s)

/-- Failed accesses of a cage's module manager are counted while a port of the cage is in MODULE_INIT (R228). -/
def forgetFails (k : Nat) (s : State) : State :=
  if (s.cagePorts k).any (fun p => s.netState p == 2) then s
  else { s with net := { s.net with busFails := tblDel s.net.busFails k } }

/-- Move a port to a state of Table 8.3 with the CAUSE of Table 8.4. -/
def moveNet (p st cause : Nat) (s : State) : State :=
  let was := s.netState p
  let s := s.wr (NET_PORT_STATUS_STATE p) st
  let s := if causeKept st then s.wr (NET_PORT_STATUS_CAUSE p) cause else s
  let s := if (was = 5 ∨ was = 6) ∧ ¬ (st = 5 ∨ st = 6) then leaveService p s else s
  let s := if was = 5 ∨ (was = 6 ∧ st ≠ 5) then withdrawOutlet p s else s
  let s := syncePort p was st s
  let s := raise (NET_EVENT_STATE p) s
  let s := match s.cageOf p with
    | some k => forgetFails k (updateLowPower k s)
    | none => s
  refreshPressure (spoilDead p s)

/-- A module failed to come up: the port goes to FAULT and survey reports it (Table 8.4, Table 18.4). -/
def initFailed (p cause : Nat) (s : State) : State :=
  let s := moveNet p 7 cause s
  let k := (s.cageOf p).getD 0
  let c := tblGetD Consumable.fresh s.health.cons k
  surveyRec 3 7 k cause c.serial c.vendor s

end Sys2Proof.Machine
end

