-- ==== Sys2Proof/Machine/NetPort.lean ====
section
/-! DEFINITION. Commands of the network ports: configuration writes, states, flow control (spec 08, R211-R227). -/

namespace Sys2Proof.Machine

/-! ## Checked configuration writes (R211, R221, R225) -/

/-- A lane of another port's range is lane n. -/
def State.laneTaken (s : State) (n except : Nat) : Bool :=
  (List.range 64).any (fun q => q != except && q ≤ n && decide (n < q + (portMode (s.rd (NET_PORT_CFG_MODE q))).1))

/-- A MODE value may be given to a port: defined, aligned, its lanes free and inside one cage; 0 always may (R211). -/
def State.modeFits (s : State) (p m : Nat) : Bool :=
  let k := (portMode m).1
  m == 0 ||
    (k != 0 && p % k == 0 && (List.range k).all (fun j => !s.laneTaken (p + j) p)
      && (match s.cageOf p with
          | some c => (List.range k).all (fun j => s.laneInCage c (p + j))
          | none => false))

/-- A contract that is not FREE names a port as SRC or DST. -/
def State.portNamed (s : State) (p : Nat) : Bool := s.contracts.any (fun c => usesPort p c.2)

/-- Start an OFF port whose ENABLE is 1 and whose MODE is not 0 (Table 8.4). -/
def startPort (p : Nat) (s : State) : State :=
  if s.netState p = 0 ∧ s.bit (NET_PORT_CFG_ENABLE p) ∧ s.netPresent p then
    match s.cageOf p with
    | none => moveNet p 1 0 s
    | some k => moveNet p (if s.bit (NET_CAGE_STATUS_PRESENT k) then 2 else 1) 0 s
  else s

/-- A port's headroom in a state may replace what it reserves now (R221). -/
def State.headroomChange (s : State) (p : Nat) : Bool :=
  let reserved := s.rd (NET_HEAD_STATUS_PRIOS p) != 0
  !reserved || (reserveHeadroom p s).headroomFits || decide (s.headroomH p * (s.priosInUse p).length
    ≤ s.rd (NET_HEAD_STATUS_H p) * s.rd (NET_HEAD_STATUS_PRIOS p))

/-- Apply a recomputed headroom to a port that reserves some. -/
def applyHeadroom (p : Nat) (s : State) : State :=
  if s.rd (NET_HEAD_STATUS_PRIOS p) = 0 then s else refreshPressure (resizePool (reserveHeadroom p s))

/-- The contracts that use a port pass the admission re-check of R78. -/
def State.portRecheck (s : State) (p : Nat) : Bool :=
  s.contracts.all (fun c => !usesPort p c.2 || s.stillFits c.1 c.2.par)

/-- ADM_GEN increments when a write has increased MAX_FRAME and the contracts of the port passed their re-check, as for any
write applied under R78 (R85, R221). -/
def grownFrame (p : Nat) (s t : State) : State :=
  if s.rd (NET_PORT_CFG_MAX_FRAME p) < t.rd (NET_PORT_CFG_MAX_FRAME p) then bumpGen (t.wr ADM_STATUS_CFG_REJECT 0) else t

/-- A MAX_FRAME increase that fails the re-check is refused here and, as R78 says of the re-check, in ADM_STATUS and
ADM_EVENT (DEDUCED, notes/assumptions/56.md). -/
def refuseFrame (p : Nat) (s : State) : State :=
  netRefuse p (raise ADM_EVENT_CFG_REJECT (s.wr ADM_STATUS_CFG_REJECT 1))

/-- PRBS pattern and signalling rate that an OFF port transmits: TEST 6-7 and TEST_RATE 7 are treated as 0 (R213, Table 8.5). -/
def State.prbsOf (s : State) (p : Nat) : Nat × Nat :=
  let t := s.rd (NET_PORT_CFG_TEST p)
  let r := s.rd (NET_PORT_CFG_TEST_RATE p)
  if s.netState p ≠ 0 ∨ t = 0 ∨ 5 < t then (0, 0) else (t, if r = 7 then 0 else r)

/-- The lanes of a port transmit another pattern than in an earlier state, or none. -/
def followPrbs (p : Nat) (was s : State) : State :=
  if s.prbsOf p = was.prbsOf p then s else s.emit (.prbs p (s.prbsOf p).1 (s.prbsOf p).2)

/-- MODE after a write to NET_PORT_CFG: it is applied only while the port is OFF and no other port holds its lane (R211). -/
def State.cfgMode (s : State) (p : Nat) (v : BitVec 64) : Nat :=
  if s.netState p = 0 ∧ s.laneTaken p p = false then getField v 0 5 else s.rd (NET_PORT_CFG_MODE p)

/-- NET_PORT_CFG as a write leaves it. -/
def State.cfgWritten (s : State) (p : Nat) (v : BitVec 64) : State :=
  (s.plainWrite (NET_PORT_CFG p) v).wr (NET_PORT_CFG_MODE p) (s.cfgMode p v)

/-- A write to NET_PORT_CFG: all of it is applied, or it is refused and nothing changes. MODE is applied only while the
port is OFF and no other port holds its lane; ENABLE := 0 needs every contract that names the port withdrawn; MAX_FRAME
recomputes the headroom, and its increase re-checks the contracts (R211, R221, R225, R232). -/
def netCfgWrite (p : Nat) (v : BitVec 64) (s : State) : State :=
  let off := s.netState p = 0
  let t := s.cfgWritten p v
  let modeBad := s.cfgMode p v != s.rd (NET_PORT_CFG_MODE p) && !s.modeFits p (s.cfgMode p v)
  let disableBad := s.bit (NET_PORT_CFG_ENABLE p) && !t.bit (NET_PORT_CFG_ENABLE p) && s.portNamed p
  let headBad := !decide off && !t.headroomChange p
  let checkBad := decide (s.rd (NET_PORT_CFG_MAX_FRAME p) < t.rd (NET_PORT_CFG_MAX_FRAME p)) && !t.portRecheck p
  if modeBad ∨ disableBad ∨ headBad then netRefuse p s
  else if checkBad then refuseFrame p s
  else
    let t := applyHeadroom p (grownFrame p s (t.wr (NET_PORT_STATUS_CFG_ERR p) 0))
    followPrbs p s (if t.bit (NET_PORT_CFG_ENABLE p) then startPort p t else if off then t else moveNet p 0 0 t)

/-- NET_MODE_WRITE: MODE of a port is written (R211). -/
def execNetModeWrite (port mode : Nat) (s : State) : Host.Outcome State Fault Refusal :=
  .next (netCfgWrite port (putField (s.reg (NET_PORT_CFG port)) 0 5 mode) s)

/-- NET_PORT_ENABLE: ENABLE := 1 (R224). -/
def execNetPortEnable (port : Nat) (s : State) : Host.Outcome State Fault Refusal :=
  .next (netCfgWrite port (putField (s.reg (NET_PORT_CFG port)) 5 1 1) s)

/-- NET_PORT_DISABLE: ENABLE := 0, refused while a contract names the port (R225). -/
def execNetPortDisable (port : Nat) (s : State) : Host.Outcome State Fault Refusal :=
  .next (netCfgWrite port (putField (s.reg (NET_PORT_CFG port)) 5 1 0) s)

/-- A write to NET_HEAD_CFG or NET_PRIO_MAP: applied, or refused when a larger reservation cannot be made (R221). -/
def netHeadWrite (a p : Nat) (v : BitVec 64) (s : State) : State :=
  let t := s.plainWrite a v
  if s.netState p ≠ 0 ∧ t.headroomChange p = false then netRefuse p s
  else refreshPressure (applyHeadroom p (t.wr (NET_PORT_STATUS_CFG_ERR p) 0))


/-- NET_HEADROOM_CONFIG_WRITE: a write to MAX_FRAME, NET_HEAD_CFG or NET_PRIO_MAP (R221). -/
def execNetHeadroomConfigWrite (port reg value : Nat) (s : State) : Host.Outcome State Fault Refusal :=
  match reg with
  | 0 => .next (netCfgWrite port (putField (s.reg (NET_PORT_CFG port)) 6 14 value) s)
  | 1 => .next (netHeadWrite (NET_HEAD_CFG port) port (BitVec.ofNat 64 value) s)
  | _ => .next (netHeadWrite (NET_PRIO_MAP port) port (BitVec.ofNat 64 value) s)

/-- A write to NET_PFC_CFG: a class that leaves RX_PFC_EN is no longer stopped by received pause (R219). -/
def netPfcWrite (p : Nat) (v : BitVec 64) (s : State) : State :=
  let s := s.plainWrite (NET_PFC_CFG p) v
  let gone : Nat × RxPause → Bool := fun x => x.1 / 8 == p && !(s.rd (NET_PFC_CFG_RX_PFC_EN p)).testBit (x.1 % 8)
  showPaused p { s with net := { s.net with pause := s.net.pause.filter (fun x => !gone x) } }

/-- NET_PRBS_TEST: an OFF port with a pattern selected counts the errors of its receive check (R213). -/
def execNetPrbsTest (port test rate errors : Nat) (s : State) : Host.Outcome State Fault Refusal :=
  let s := netCfgWrite port (putField (putField (s.reg (NET_PORT_CFG port)) 20 3 test) 23 3 rate) s
  if (s.prbsOf port).1 ≠ 0 then .next (s.count (NET_TEST_ERR_COUNT port) errors)
  else .next s

/-- Counters of Table 8.9 and NET_TEST_ERR. -/
def netCounters (p : Nat) : List Fld :=
  [NET_RX_FRAMES p, NET_RX_BYTES p, NET_RX_FCS_ERR p, NET_RX_RUNT p, NET_RX_OVERSIZE p, NET_RX_NOT_UP p,
   NET_RX_HEADROOM_DROP p, NET_RX_PFC p, NET_TX_FRAMES p, NET_TX_BYTES p, NET_TX_OVERSIZE p, NET_TX_PFC p,
   NET_FEC_CORR_CW p, NET_FEC_UNCORR_CW p, NET_RX_CTRL_OTHER p, NET_TEST_ERR_COUNT p]

/-- Clear a port's counters. -/
def clearNetCounters (p : Nat) (s : State) : State := (netCounters p).foldl (fun t f => t.wr f 0) s

/-- NET_CNT_CLR (R232). -/
def execNetCntClr (port : Nat) (s : State) : Host.Outcome State Fault Refusal := .next (clearNetCounters port s)

/-! ## States (R223, R224, R226, R227) -/

/-- RETRAIN: a port that is neither OFF nor in NO_MODULE goes to MODULE_INIT (R227). -/
def netRetrain (p : Nat) (s : State) : State :=
  if s.netState p = 0 ∨ s.netState p = 1 then s
  else
    let s := match s.cageOf p with
      | some k => { s with net := { s.net with ready := s.net.ready.filter (· != p), busFails := tblDel s.net.busFails k } }
      | none => s
    moveNet p 2 0 s

/-- NET_RETRAIN (R227). -/
def execNetRetrain (port : Nat) (s : State) : Host.Outcome State Fault Refusal := .next (netRetrain port s)

/-- RESTORE: a PAUSE_FAILED port with no class stopped by received pause returns to UP; otherwise the write is ignored
with CFG_ERR (R223). -/
def netRestore (p : Nat) (s : State) : State :=
  if s.netState p = 6 ∧ s.pausedClasses p = [] then
    moveNet p 5 0 (s.wr (NET_PORT_STATUS_CFG_ERR p) 0)
  else netRefuse p s

/-- NET_RESTORE (R223). -/
def execNetRestore (port : Nat) (s : State) : Host.Outcome State Fault Refusal := .next (netRestore port s)

/-- The reference clocks of a port's lanes are present: NET_REFCLK m clocks lanes 8m to 8m + 7 (R532). -/
def State.lanesClocked (s : State) (p : Nat) : Bool :=
  (List.range (portMode (s.rd (NET_PORT_CFG_MODE p))).1).all (fun j => !s.power.netClkLost.contains ((p + j) / 8))

/-- LINK_LOCK_ACQUIRED: lock on every lane for 1 ms moves TRAINING to CALIBRATING (Table 8.4). -/
def execLinkLockAcquired (port : Nat) (s : State) : Host.Outcome State Fault Refusal :=
  .next (if s.netState port = 3 ∧ s.lanesClocked port then moveNet port 4 0 s else s)

/-- CALIBRATION_DONE: headroom is reserved and the port enters UP, or goes to FAULT with CAUSE 5 (R221). -/
def execCalibrationDone (port : Nat) (s : State) : Host.Outcome State Fault Refusal :=
  if s.netState port = 4 then
    let t := reserveHeadroom port s
    if t.headroomFits then .next (moveNet port 5 0 (resizePool t)) else .next (moveNet port 7 5 s)
  else .next s

/-- LINK_LOSS_OF_LOCK: loss of lock, a fault sequence or uncorrectable codewords for 200 ns take CALIBRATING, UP and
PAUSE_FAILED to TRAINING with CAUSE 7; the codewords are counted (R226). -/
def execLinkLossOfLock (port uncorrectable : Nat) (s : State) : Host.Outcome State Fault Refusal :=
  let s := s.count (NET_FEC_UNCORR_CW port) uncorrectable
  .next (if s.netState port = 4 ∨ s.netState port = 5 ∨ s.netState port = 6 then moveNet port 3 7 s else s)

/-! ## Flow control (R216-R219, R222) -/

/-- Packets bound to a port in a class that received pause stops are held by a cause outside the device (R76). -/
def markPaused (p c : Nat) (s : State) : State := markExternal (fun x => x.outlet == p && x.cls == c) s

/-- Act on one priority's quanta of a PFC frame: classes in RX_PFC_EN mapped to it stop or resume (R219). -/
def pausePrio (p prio quanta : Nat) (s : State) : State :=
  ((List.range 8).filter (fun c => (s.rd (NET_PFC_CFG_RX_PFC_EN p)).testBit c && s.prioOf p c == prio)).foldl
    (fun t c => let t := pauseClass p c quanta t; if quanta = 0 then t else markPaused p c t) s

/-- A MAC control frame is consumed: PFC with its enable vector and quanta, PAUSE with one quanta when RX_PAUSE_EN is 1,
anything else discarded and counted (R216, R219). In CALIBRATING it is discarded and counted (R224). -/
def macControl (p op enables : Nat) (quanta : List Nat) (s : State) : State :=
  if s.netState p = 4 then s.count (NET_RX_NOT_UP p) 1
  else if s.sendsPfc p = false ∨ (s.island p).inReset then s
  else if op = 0x0101 then
    let s := s.count (NET_RX_PFC p) 1
    showPaused p ((List.range 8).foldl
      (fun t q => if enables.testBit q then pausePrio p q (quanta.getD q 0) t else t) s)
  else if op = 0x0001 then
    let s := s.count (NET_RX_PFC p) 1
    if s.bit (NET_PFC_CFG_RX_PAUSE_EN p) then
      showPaused p (((List.range 8).filter (fun c => (s.rd (NET_PFC_CFG_RX_PFC_EN p)).testBit c)).foldl
        (fun t c => let t := pauseClass p c (quanta.getD 0 0) t
                    if quanta.getD 0 0 = 0 then t else markPaused p c t) s)
    else s
  else s.count (NET_RX_CTRL_OTHER p) 1

/-- PFC_FRAME_RECEIVE: a MAC control frame of an opcode, with its enable vector and quanta (R216, R219). -/
def execPfcFrameReceive (port op enables : Nat) (quanta : List Nat) (s : State) : Host.Outcome State Fault Refusal :=
  .next (macControl port op enables quanta s)

/-- RX_PAUSE_EXPIRY: a received pause ends after its quanta and the class resumes (R219). -/
def execRxPauseExpiry (port cls : Nat) (s : State) : Host.Outcome State Fault Refusal :=
  .next (showPaused port { s with net := { s.net with pause := tblDel s.net.pause (pauseKey port cls) } })

/-- PFC_REFRESH: while a priority stays paused the PFC frame is sent again (R217). -/
def execPfcRefresh (port : Nat) (s : State) : Host.Outcome State Fault Refusal :=
  .next (if s.sendsPfc port ∧ s.rd (NET_PORT_STATUS_TX_XOFF port) ≠ 0 then sendPfc port s else s)

/-- PAUSE_LIMIT_EXPIRY: a class in RX_PFC_EN was held for PAUSE_LIMIT_US without a break: UP becomes PAUSE_FAILED with
CAUSE 6 (R222). -/
def execPauseLimitExpiry (port : Nat) (s : State) : Host.Outcome State Fault Refusal :=
  if s.netState port = 5 ∧ (s.pausedClasses port).any (fun c => (s.rd (NET_PFC_CFG_RX_PFC_EN port)).testBit c) then
    .next (raise (NET_EVENT_PAUSE_FAIL port) (moveNet port 6 6 s))
  else .next s

end Sys2Proof.Machine
end

