-- ==== Sys2Proof/Machine/Module.lean ====
section
/-! DEFINITION. Commands of the module manager: cages and optical modules (spec 08, R228-R231). -/

namespace Sys2Proof.Machine

/-- Ports of a cage in one of the states of a list. -/
def State.cagePortsIn (s : State) (k : Nat) (states : List Nat) : List Nat :=
  (s.cagePorts k).filter (fun p => states.contains (s.netState p))

/-- MODULE_PRESENCE_DEBOUNCED: presence asserted for 50 ms. Its bus mode, serial and vendor are what the module
manager reads; survey and the consumables record follow, and waiting ports enter MODULE_INIT (R228, R229). -/
def execModulePresenceDebounced (cage : Nat) (i3c : Bool) (serial : Bytes) (vendor : Nat) (s : State) :
    Host.Outcome State Fault Refusal :=
  if s.cagePresent cage = false ∨ s.bit (NET_CAGE_STATUS_PRESENT cage) then .next s
  else
    let s := (s.wr (NET_CAGE_STATUS_PRESENT cage) 1).wr (NET_CAGE_STATUS_I3C cage) (if i3c then 1 else 0)
    let s := (s.wr (NET_CAGE_STATUS_MSTATE cage) (lowPowerState (s.net.powered.contains cage))).emit (.ball 5 cage 1)
    let s := consArrive cage 1 serial vendor { s with net := { s.net with busFails := tblDel s.net.busFails cage } }
    let s := raise (NET_CAGE_EVENT_PRESENCE cage) (surveyRec 3 1 cage 0 serial vendor s)
    .next ((s.cagePortsIn cage [1, 7]).foldl (fun t p => moveNet p 2 0 t) s)

/-- MODULE_READY: the module reached ModuleReady. power is its power class in 0.25 W; matching lists the ports for
which it advertises an application. A port with none, or above MAX_POWER, goes to FAULT (R228, Table 8.4). -/
def execModuleReady (cage power : Nat) (matching : List Nat) (s : State) : Host.Outcome State Fault Refusal :=
  if s.bit (NET_CAGE_STATUS_PRESENT cage) = false then .next s
  else
    let s := s.wr (NET_CAGE_STATUS_MSTATE cage) 3
    let s := { s with net := { s.net with busFails := tblDel s.net.busFails cage } }
    .next ((s.cagePortsIn cage [2]).foldl
      (fun t p =>
        if t.rd (NET_CAGE_CFG_MAX_POWER cage) < power then initFailed p 2 t
        else if matching.contains p then
          { t with net := { t.net with ready := if t.net.ready.contains p then t.net.ready else p :: t.net.ready } }
        else initFailed p 1 t) s)

/-- An access of a cage's module manager succeeded: the count of failures starts again (R228). -/
def accessWorked (port : Nat) (s : State) : State :=
  match s.cageOf port with
  | some k => { s with net := { s.net with busFails := tblDel s.net.busFails k } }
  | none => s

/-- DATA_PATH_ACTIVATED: the data path of a port's lanes is active and the port enters TRAINING (R228). -/
def execDataPathActivated (port : Nat) (s : State) : Host.Outcome State Fault Refusal :=
  if s.netState port = 2 ∧ s.net.ready.contains port then
    .next (moveNet port 3 0 (accessWorked port { s with net := { s.net with ready := s.net.ready.filter (· != port) } }))
  else .next s

/-- MODULE_INIT_TIMEOUT: ModuleReady or DataPathActivated was not reached in time (R228). -/
def execModuleInitTimeout (port : Nat) (s : State) : Host.Outcome State Fault Refusal :=
  .next (if s.netState port = 2 then initFailed port 3 s else s)

/-- MGMT_BUS_ACCESS_FAIL: an access of the module manager failed during MODULE_INIT. It is repeated at once; the third
failure in a row takes the cage's ports in MODULE_INIT to FAULT with CAUSE 4 (R228). -/
def execMgmtBusAccessFail (cage : Nat) (s : State) : Host.Outcome State Fault Refusal :=
  if s.cagePortsIn cage [2] = [] then .next s
  else
    let n := tblGetD 0 s.net.busFails cage + 1
    if n < 3 then .next { s with net := { s.net with busFails := tblPut s.net.busFails cage n } }
    else
      .next ((s.cagePortsIn cage [2]).foldl (fun t p => initFailed p 4 t)
        { s with net := { s.net with busFails := tblDel s.net.busFails cage } })

/-- MODULE_REMOVE: presence deasserted; every port of the cage that is neither OFF nor in NO_MODULE goes to NO_MODULE
with CAUSE 8 (R229). -/
def execModuleRemove (cage : Nat) (s : State) : Host.Outcome State Fault Refusal :=
  if s.bit (NET_CAGE_STATUS_PRESENT cage) = false then .next s
  else
    let c := tblGetD Consumable.fresh s.health.cons cage
    let s := (s.wr (NET_CAGE_STATUS_PRESENT cage) 0).wr (NET_CAGE_STATUS_MSTATE cage) 0
    let s := s.wr (NET_CAGE_STATUS_I3C cage) 0
    let s := (s.cagePortsIn cage [2, 3, 4, 5, 6, 7]).foldl (fun t p => moveNet p 1 8 t) s
    let s := { s with net := { s.net with ready := s.net.ready.filter (fun p => !s.laneInCage cage p) } }
    .next (raise (NET_CAGE_EVENT_PRESENCE cage) (consLeave cage (surveyRec 3 2 cage 0 c.serial c.vendor s)))

/-- MODULE_INTERRUPT: the module manager reads and clears the module's latched flags, records them and sets ALARM; MSTATE shows the
module state it reads (R230, Table 8.8). -/
def execModuleInterrupt (cage : Nat) (report : ModuleReport) (s : State) : Host.Outcome State Fault Refusal :=
  if s.bit (NET_CAGE_STATUS_PRESENT cage) then
    let c := tblGetD Consumable.fresh s.health.cons cage
    let s := { s with health := { s.health with cons := tblPut s.health.cons cage { c with flags := report.flags } } }
    .next (raise (NET_CAGE_EVENT_ALARM cage) (s.wr (NET_CAGE_STATUS_MSTATE cage) report.mstate))
  else .next s

/-- A write to NET_CAGE_ACC: GO starts the access unless one runs; writes to the lower page and to page 10h are refused
with ACC_ERR (R231). -/
def cageAccWrite (k v : Nat) (s : State) : State :=
  let a : CageAccess := ⟨v % 256, v / 2 ^ 8 % 256, v / 2 ^ 16 % 256, v / 2 ^ 24 % 4 + 1, v.testBit 26⟩
  if s.bit (NET_CAGE_STATUS_ACC_BUSY k) ∨ v.testBit 27 = false then s
  else if a.isWrite ∧ (a.offset < 128 ∨ a.page = 0x10) then s.wr (NET_CAGE_STATUS_ACC_ERR k) 1
  else
    let s := s.wr (NET_CAGE_STATUS_ACC_BUSY k) 1
    let s := { s with net := { s.net with access := tblPut s.net.access k a } }
    s.emit (.cage k (v % 2 ^ 27) (if a.isWrite then s.rd (NET_CAGE_DATA_DATA k) % 2 ^ (8 * a.len) else 0))

/-- CAGE_ACCESS: a write to NET_CAGE_ACC of a cage (R231). -/
def execCageAccess (cage value : Nat) (s : State) : Host.Outcome State Fault Refusal := .next (cageAccWrite cage value s)

/-- CAGE_ACCESS_DONE: the access in progress completes, with the bytes read, or its bus transaction failed and
NET_CAGE_DATA is undefined: a free value (R231). -/
def execCageAccessDone (cage : Nat) (ok : Bool) (data : Nat) (s : State) : Host.Outcome State Fault Refusal :=
  match tblGet s.net.access cage with
  | none => .next s
  | some a =>
    let s := { s with net := { s.net with access := tblDel s.net.access cage } }
    let s := s.wr (NET_CAGE_STATUS_ACC_BUSY cage) 0
    let s := if ok then
        let s := s.wr (NET_CAGE_STATUS_ACC_ERR cage) 0
        if a.isWrite then s else s.wr (NET_CAGE_DATA_DATA cage) (data % 2 ^ (8 * a.len))
      else
        ((s.wr (NET_CAGE_STATUS_ACC_ERR cage) 1).wr (NET_CAGE_DATA_DATA cage) s.draw.toNat).drawn
    .next (raise (NET_CAGE_EVENT_ACC_DONE cage) s)

end Sys2Proof.Machine
end

