-- ==== Sys2Proof/Machine/Cuckoo.lean ====
section
/-! DEFINITION. The cuckoo partitions of the forwarding tables: candidate buckets, placement, relocation paths and the
stash (spec 10, R256-R258, R264-R266). -/

namespace Sys2Proof.Machine

/-- Slots per bucket and number of buckets of a partition (Table 10.1). -/
structure Shape where
  slots : Nat
  buckets : Nat
  deriving DecidableEq, Repr

/-- A wide entry: a key of 25 to 48 bytes (R257). -/
def TEntry.wide (e : TEntry) : Bool := decide (24 < e.key.length)

/-- Entries an entry counts as. -/
def TEntry.weight (e : TEntry) : Nat := if e.wide then 2 else 1

/-- The string hashed for an entry (R258). -/
def TEntry.keyString (e : TEntry) : Bytes := BitVec.ofNat 8 e.table :: e.key

/-- The two candidate buckets of an entry (R258). -/
def Shape.candidates (sh : Shape) (e : TEntry) : Nat × Nat :=
  let b1 := crc32c e.keyString * sh.buckets / 2 ^ 32
  let b2 := crc32 e.keyString * sh.buckets / 2 ^ 32
  (b1, if b2 = b1 then b1 ^^^ 1 else b2)

/-- The other candidate bucket of an entry. -/
def Shape.other (sh : Shape) (e : TEntry) (b : Nat) : Nat :=
  let c := sh.candidates e
  if c.1 = b then c.2 else c.1

/-- A slot holds an entry, or the second half of a wide one. -/
def Partition.taken (p : Partition) (k : Nat) : Bool :=
  (tblGet p.slots k).isSome
    || (k % 2 == 1 && (match tblGet p.slots (k - 1) with
        | some e => e.wide
        | none => false))

/-- The lower-numbered free slot, or slot pair, of a bucket. -/
def Partition.room (p : Partition) (sh : Shape) (b : Nat) (wide : Bool) : Option Nat :=
  if sh.buckets ≤ b then none
  else ((List.range sh.slots).map (fun j => b * sh.slots + j)).find?
    (fun k => if wide then k % 2 == 0 && !p.taken k && !p.taken (k + 1) else !p.taken k)

/-- Put an entry into a slot; a wide one into the pair that holds it. -/
def Partition.put (p : Partition) (k : Nat) (e : TEntry) : Partition :=
  { p with slots := tblPut p.slots (if e.wide then k / 2 * 2 else k) e }

/-- Take the entry out of a slot. -/
def Partition.take (p : Partition) (k : Nat) : Partition := { p with slots := tblDel p.slots k }

/-! ## Relocation paths (R264) -/

/-- A chain under construction: slots whose occupants move, first to last; the bucket reached; buckets it may not
enter; and the width that the place vacated next must take. -/
structure Chain where
  moves : List Nat
  bucket : Nat
  closed : List Nat
  wide : Bool
  deriving DecidableEq, Repr

/-- After the occupant of a slot left, an entry of a width fits in its place. -/
def Partition.fitsPlace (p : Partition) (k : Nat) (wide : Bool) : Bool :=
  let q := p.take k
  if wide then !q.taken (k / 2 * 2) && !q.taken (k / 2 * 2 + 1) else true

/-- The chains one move longer, in ascending slot order of the bucket reached. -/
def Partition.extend (p : Partition) (sh : Shape) (c : Chain) : List Chain :=
  ((List.range sh.slots).map (fun j => c.bucket * sh.slots + j)).filterMap (fun k =>
    match tblGet p.slots k with
    | none => none
    | some e =>
      let ob := sh.other e c.bucket
      if c.closed.contains ob ∨ p.fitsPlace k c.wide = false then none
      else some ⟨c.moves ++ [k], ob, ob :: c.closed, e.wide⟩)

/-- The first chain, breadth first and of at most n moves, whose last bucket has room. -/
def Partition.search (p : Partition) (sh : Shape) : Nat → List Chain → Option Chain
  | 0, _ => none
  | n + 1, cs =>
      let next := cs.flatMap (p.extend sh)
      match next.find? (fun c => (p.room sh c.bucket c.wide).isSome) with
      | some c => some c
      | none => p.search sh n next

/-- The relocation path for an entry, if one of up to four moves exists. -/
def Partition.path (p : Partition) (sh : Shape) (e : TEntry) : Option Chain :=
  let (b1, b2) := sh.candidates e
  p.search sh 4 [⟨[], b1, [b1, b2], e.wide⟩, ⟨[], b2, [b1, b2], e.wide⟩]

/-- Carry out a path from its far end: each occupant into the place just vacated (R265). -/
def Partition.carry (p : Partition) : List Nat → Nat → Partition
  | [], _ => p
  | k :: rest, place =>
      match tblGet p.slots k with
      | none => p.carry rest place
      | some e => ((p.take k).put place e).carry rest k

/-! ## Insertion, deletion and the stash (R264, R266) -/

/-- Where an insertion ended. -/
inductive Placed where
  | slot (index moves : Nat)
  | stash (slot : Nat)
  | failed
  deriving DecidableEq, Repr

/-- The direct place of an entry: room in b1, otherwise in b2. -/
def Partition.direct (p : Partition) (sh : Shape) (e : TEntry) : Option Nat :=
  match p.room sh (sh.candidates e).1 e.wide with
  | some k => some k
  | none => p.room sh (sh.candidates e).2 e.wide

/-- Move stash entries into room that became free, earliest stashed first, by direct placement alone. -/
def Partition.unstash (p : Partition) (sh : Shape) : Partition :=
  p.stash.foldl (fun q x =>
    match q.direct sh x.2 with
    | some k => { q.put k x.2 with stash := q.stash.filter (fun y => y.1 != x.1) }
    | none => q) p

/-- Insert an entry (R264). A partition of no slots takes none, in its stash either: its entry limit is its slots (Table 10.1). -/
def Partition.insert (p : Partition) (sh : Shape) (e : TEntry) : Placed × Partition :=
  if sh.buckets = 0 then (.failed, p) else
  match p.direct sh e with
  | some k => (.slot k 0, p.put k e)
  | none =>
    match p.path sh e with
    | some c =>
      match c.moves, p.room sh c.bucket c.wide with
      | k :: _, some place => (.slot (if e.wide then k / 2 * 2 else k) c.moves.length,
          ((p.carry c.moves.reverse place).put k e).unstash sh)
      | _, _ => (.failed, p)
    | none =>
      match (List.range 8).find? (fun j => !p.stash.any (fun x => x.1 == j)) with
      | some j => (.stash j, { p with stash := p.stash ++ [(j, e)] })
      | none => (.failed, p)

/-- An entry holds a key of a table. -/
def TEntry.matches (e : TEntry) (t : Nat) (key : Bytes) : Bool := e.table == t && e.key == key

/-- The entry of a key: in a slot or in the stash. -/
def Partition.lookup (p : Partition) (t : Nat) (key : Bytes) : Option TEntry :=
  match p.slots.find? (fun x => x.2.matches t key) with
  | some x => some x.2
  | none => (p.stash.find? (fun x => x.2.matches t key)).map (fun x => x.2)

/-- Where the entry of a key lies. -/
def Partition.placeOf (p : Partition) (t : Nat) (key : Bytes) : Placed :=
  match p.slots.find? (fun x => x.2.matches t key) with
  | some x => .slot x.1 0
  | none => match p.stash.find? (fun x => x.2.matches t key) with
    | some x => .stash x.1
    | none => .failed

/-- Change the entry of a key. -/
def Partition.update (p : Partition) (t : Nat) (key : Bytes) (f : TEntry → TEntry) : Partition where
  slots := tblMap (fun _ e => if e.matches t key then f e else e) p.slots
  stash := p.stash.map (fun x => if x.2.matches t key then (x.1, f x.2) else x)

/-- Remove the entries that satisfy a test, and let stash entries move into the room. -/
def Partition.remove (p : Partition) (sh : Shape) (f : TEntry → Bool) : Partition :=
  ({ slots := p.slots.filter (fun x => !f x.2), stash := p.stash.filter (fun x => !f x.2) } : Partition).unstash sh

/-- Every entry a partition holds. -/
def Partition.entries (p : Partition) : List TEntry := p.slots.map (fun x => x.2) ++ p.stash.map (fun x => x.2)

/-- Slots in use, stash included, wide entries counting 2. -/
def Partition.used (p : Partition) : Nat := (p.entries.map TEntry.weight).sum

end Sys2Proof.Machine
end

