-- ==== Sys2Proof/Machine/Tables.lean ====
section
/-! DEFINITION. The forwarding tables: the table engine's commands, the checked table registers, learning and aging
(spec 10, R256-R277). -/

namespace Sys2Proof.Machine

/-! ## Partitions (Table 10.1) -/

/-- Learned slots per bench by TBL_LEARN_CFG.SLOTS. -/
def learnSlots (code : Nat) : Nat :=
  match code with
  | 0 => 0 | 1 => 32768 | 2 => 65536 | _ => 131072

/-- Shape of the on-die configured partition. -/
def State.dieShape (s : State) : Shape := ⟨4, (262144 - learnSlots (s.rd TBL_LEARN_CFG_SLOTS)) / 4⟩
/-- Shape of a learned partition. -/
def State.learnShape (s : State) : Shape := ⟨4, learnSlots (s.rd TBL_LEARN_CFG_SLOTS) / 4⟩
/-- Shape of the HBM tier. -/
def hbmShape : Shape := ⟨2, 1073741824⟩

/-- Learned partition of a bench. -/
def State.learned (s : State) (k : Nat) : Partition := tblGetD Partition.empty s.tables.learned k
/-- Set the learned partition of a bench. -/
def State.setLearned (s : State) (k : Nat) (p : Partition) : State :=
  { s with tables := { s.tables with learned := tblSet Partition.empty s.tables.learned k p } }

/-- The configured partition of a table by its TYPE: true for the HBM tier. -/
def State.partition (s : State) (hbm : Bool) : Partition := if hbm then s.tables.hbm else s.tables.die
/-- Set a configured partition; a stash of 6 or more entries is reported (R266). -/
def State.setPartition (s : State) (hbm : Bool) (p : Partition) : State :=
  let s := if hbm then { s with tables := { s.tables with hbm := p } } else { s with tables := { s.tables with die := p } }
  if 6 ≤ p.stash.length then raise TBL_EVENT_STASH s else s
/-- Shape of a configured partition. -/
def State.shape (s : State) (hbm : Bool) : Shape := if hbm then hbmShape else s.dieShape

/-- Key length of a table in bytes: KEY_LEN, or the address length of an LPM table. -/
def State.keyLen (s : State) (t : Nat) : Nat :=
  match s.rd (TBL_DESC_TYPE t) with
  | 0 => 0
  | 3 => if s.bit (TBL_DESC_FAMILY t) then 16 else 4
  | _ => s.rd (TBL_DESC_KEY_LEN t)

/-- Prefixes held by all LPM tables: those in the HBM tier and the short ones (R270). -/
def State.prefixes (s : State) : Nat :=
  (s.tables.hbm.entries.filter (fun e => s.rd (TBL_DESC_TYPE e.table) == 3)).length + s.tables.shorts.length

/-- ENTRIES of a table (Table 10.7). -/
def State.tableEntries (s : State) (t : Nat) : Nat :=
  let mine := fun (p : Partition) => ((p.entries.filter (fun e => e.table == t)).map TEntry.weight).sum
  mine s.tables.die + mine s.tables.hbm + (s.tables.shorts.filter (fun x => x.table == t)).length

/-! ## Longest-prefix match (R267, R268) -/

/-- An address with every bit beyond n cleared. -/
def clearBeyond (n : Nat) (addr : Bytes) : Bytes :=
  let w := 8 * addr.length
  beBytes addr.length (ofBe addr / 2 ^ (w - n) * 2 ^ (w - n))

/-- Key of a prefix longer than 16 in the HBM tier. -/
def prefixKey (plen : Nat) (addr : Bytes) : Bytes := BitVec.ofNat 8 plen :: clearBeyond plen addr

/-- Slice of an address: its top 16 bits. -/
def sliceOf (addr : Bytes) : Nat := ofBe (addr.take 2)

/-- Distinct lengths above 16 present in a slice of a table, as the length filter lists them: descending. -/
def State.sliceLengths (s : State) (t slice : Nat) : List Nat :=
  let keys := (s.tables.hbm.entries.filter (fun e => e.table == t && sliceOf e.key.tail == slice)).map (fun e => (e.key.headD 0).toNat)
  (List.range 129).reverse.filter (fun n => keys.contains n)

/-- The longest short prefix that covers an address: SHORT_LEN and SHORT_RESULT of its slice. -/
def State.shortMatch (s : State) (t : Nat) (addr : Bytes) : Option ShortPrefix :=
  (s.tables.shorts.filter (fun x => x.table == t && clearBeyond x.plen addr == x.addr)).foldl
    (fun best x => match best with
      | some b => if b.plen < x.plen then some x else some b
      | none => some x) none

/-- LPM lookup: the result and length of the longest match (R268). -/
def State.lpmLookup (s : State) (t : Nat) (addr : Bytes) : Option (Nat × Nat) :=
  match (s.sliceLengths t (sliceOf addr)).findSome?
      (fun n => (s.tables.hbm.lookup t (prefixKey n addr)).map (fun e => (e.result, n))) with
  | some x => some x
  | none => (s.shortMatch t addr).map (fun x => (x.result, x.plen))

/-! ## Table commands (R275, R276) -/

/-- Operands of a table command entry (Table 10.3). -/
def tblTable (e : Entry) : Nat := eBits e 8 0 6
/-- PLEN. -/
def tblPlen (e : Entry) : Nat := eN e 9 1
/-- RESULT. -/
def tblResult (e : Entry) : Nat := eN e 12 4
/-- The first n bytes of KEY. -/
def tblKey (e : Entry) (n : Nat) : Bytes := leBytes n (eN e 16 48)

/-- Completion fields of Table 10.4. -/
structure TblReply where
  flags : Nat
  moves : Nat
  mplen : Nat
  result : Nat
  location : Nat
  deriving DecidableEq, Repr

/-- A reply with nothing to report. -/
def TblReply.none : TblReply := ⟨0, 0, 0, 0, 0⟩

/-- Body of a table completion; COUNT is the table's entries after the command. -/
def tblBody (s : State) (t : Nat) (r : TblReply) : Body :=
  [(8, 1, t), (9, 1, r.flags), (10, 1, r.moves), (11, 1, r.mplen), (12, 4, r.result), (16, 4, r.location),
   (20, 4, s.tableEntries t)]

/-- Reply of an insertion: MOVES and LOCATION. -/
def placedReply (sh : Shape) : Placed → TblReply
  | .slot k m => ⟨0, m, 0, 0, k / sh.slots + k % sh.slots * 2 ^ 30⟩
  | .stash j => ⟨4, 0, 0, 0, j⟩
  | .failed => .none

/-- Reply of a command that finds the entry of a key: flags, its result, and its LOCATION (Table 10.4). -/
def foundReply (s : State) (hbm : Bool) (t : Nat) (key : Bytes) (flags result : Nat) : TblReply :=
  let r := placedReply (s.shape hbm) ((s.partition hbm).placeOf t key)
  { r with flags := r.flags + flags, result := result }

/-- Run a table command of an opcode that serves tables of given types: issuer, table and field tests first. -/
def tblCommand (ring op : Nat) (types : List Nat) (fieldsOk : State → Entry → Bool)
    (f : Nat → Entry → State → State × Nat × TblReply) (s : State) : State :=
  runEntry ring (· == op) (fun r j s =>
    let e := j.first
    let t := tblTable e
    if s.managerSheet r.sheet = false then (s, 0x0401, tblBody s t .none)
    else if types.contains (s.rd (TBL_DESC_TYPE t)) = false then (s, 0x0104, tblBody s t .none)
    else if fieldsOk s e = false then (s, 0x0103, tblBody s t .none)
    else
      let (s, status, reply) := f t e s
      (s, status, tblBody s t reply)) s

/-- A table lies in the HBM tier. -/
def State.inHbm (s : State) (t : Nat) : Bool := s.rd (TBL_DESC_TYPE t) != 1

/-- Entry limit of a configured partition. -/
def State.entryLimit (s : State) (hbm : Bool) : Nat := if hbm then 1073741824 else s.dieShape.slots * s.dieShape.buckets

/-- A bench's island is in reset and comes back: its copy of the on-die tables can not be written (R16, R273). -/
def State.benchHeld (s : State) (k : Nat) : Bool :=
  (s.island (0x70 + k)).released && (s.island (0x70 + k)).inReset && s.rd (BNC_STATUS_STATE k) != 3

/-- The table command next on a ring writes on die, and a bench that it reaches is in reset: the command is held (R273). -/
def State.tableHeld (s : State) (ring op : Nat) : Bool :=
  match s.startable ring (· == op) with
  | none => false
  | some (_, j) =>
    let reached := if op = 0x27 then (List.range 18).filter (fun k => (eBits j.first 12 0 18).testBit k) else List.range 18
    s.rd (TBL_DESC_TYPE (tblTable j.first)) != 2 && reached.any s.benchHeld

/-- Insert an entry into a configured partition: 0x0301, 0x0302, or placed. -/
def insertEntry (hbm : Bool) (e : TEntry) (s : State) : State × Nat × TblReply :=
  let p := s.partition hbm
  if s.entryLimit hbm < p.used + e.weight then (s, 0x0301, .none)
  else match p.insert (s.shape hbm) e with
    | (.failed, _) => (s, 0x0302, .none)
    | (placed, q) => (s.setPartition hbm q, 0, placedReply (s.shape hbm) placed)

/-- TBL_INSERT: KEY with RESULT into an exact-match table. hbmFault: an HBM fault interrupts the update (R264). -/
def execTblInsert (ring : Nat) (hbmFault : Bool) (s : State) : Host.Outcome State Fault Refusal :=
  if s.tableHeld ring 0x20 then .next s else
  .next (tblCommand ring 0x20 [1, 2] (fun _ _ => true) (fun t e s =>
    let key := tblKey e (s.keyLen t)
    if (s.partition (s.inHbm t)).lookup t key ≠ none then (s, 0x0108, .none)
    else if hbmFault ∧ s.inHbm t then (s, 0x0601, .none)
    else insertEntry (s.inHbm t) ⟨t, key, tblResult e, 0, 0⟩ s) s)

/-- TBL_UPDATE: the RESULT of an existing KEY, with one write (R275). -/
def execTblUpdate (ring : Nat) (hbmFault : Bool) (s : State) : Host.Outcome State Fault Refusal :=
  if s.tableHeld ring 0x21 then .next s else
  .next (tblCommand ring 0x21 [1, 2] (fun _ _ => true) (fun t e s =>
    let key := tblKey e (s.keyLen t)
    let p := s.partition (s.inHbm t)
    match p.lookup t key with
    | none => (s, 0x0501, .none)
    | some old =>
      if hbmFault ∧ s.inHbm t then (s, 0x0601, .none)
      else (s.setPartition (s.inHbm t) (p.update t key (fun x => { x with result := tblResult e })), 0,
        foundReply s (s.inHbm t) t key 0 old.result)) s)

/-- TBL_DELETE: KEY is removed and stash entries may move into the room (R266, R275). -/
def execTblDelete (ring : Nat) (hbmFault : Bool) (s : State) : Host.Outcome State Fault Refusal :=
  if s.tableHeld ring 0x22 then .next s else
  .next (tblCommand ring 0x22 [1, 2] (fun _ _ => true) (fun t e s =>
    let key := tblKey e (s.keyLen t)
    let hbm := s.inHbm t
    if (s.partition hbm).lookup t key = none then (s, 0x0501, .none)
    else if hbmFault ∧ hbm then (s, 0x0601, .none)
    else (s.setPartition hbm ((s.partition hbm).remove (s.shape hbm) (fun x => x.matches t key)), 0, .none)) s)

/-- TBL_LOOKUP: the configured entry for KEY (R275). -/
def execTblLookup (ring : Nat) (s : State) : Host.Outcome State Fault Refusal :=
  .next (tblCommand ring 0x23 [1, 2] (fun _ _ => true) (fun t e s =>
    let key := tblKey e (s.keyLen t)
    match (s.partition (s.inHbm t)).lookup t key with
    | none => (s, 0, .none)
    | some x => (s, 0, foundReply s (s.inHbm t) t key 1 x.result)) s)

/-- PLEN lies within the family of a table. -/
def plenOk (s : State) (e : Entry) : Bool := decide (tblPlen e ≤ 8 * s.keyLen (tblTable e))

/-- LPM_ADD: adds prefix KEY/PLEN, or replaces its result (R269, R270). An HBM fault interrupts only what is written there: prefixes
longer than 16. -/
def execLpmAdd (ring : Nat) (hbmFault : Bool) (s : State) : Host.Outcome State Fault Refusal :=
  if s.tableHeld ring 0x24 then .next s else
  .next (tblCommand ring 0x24 [3] plenOk (fun t e s =>
    let n := tblPlen e
    let addr := clearBeyond n (tblKey e (s.keyLen t))
    let replaced := fun (old : Nat) => { TblReply.none with flags := 2, result := old }
    if n ≤ 16 then
      match s.tables.shorts.find? (fun x => x.table == t && x.plen == n && x.addr == addr) with
      | some old =>
        let shorts := s.tables.shorts.map (fun x =>
          if x.table == t && x.plen == n && x.addr == addr then { x with result := tblResult e } else x)
        ({ s with tables := { s.tables with shorts := shorts } }, 0, replaced old.result)
      | none =>
        if 8388608 ≤ s.prefixes then (s, 0x0301, .none)
        else ({ s with tables := { s.tables with shorts := s.tables.shorts ++ [⟨t, n, addr, tblResult e⟩] } }, 0, .none)
    else
      let key := prefixKey n addr
      match s.tables.hbm.lookup t key with
      | some old =>
        if hbmFault then (s, 0x0601, .none)
        else (s.setPartition true (s.tables.hbm.update t key (fun x => { x with result := tblResult e })), 0,
          foundReply s true t key 2 old.result)
      | none =>
        let lens := s.sliceLengths t (sliceOf addr)
        if 8388608 ≤ s.prefixes then (s, 0x0301, .none)
        else if lens.contains n = false ∧ s.rd (TBL_DESC_LEN_MAX t) + 1 < lens.length + 1 then (s, 0x0303, .none)
        else if hbmFault then (s, 0x0601, .none)
        else insertEntry true ⟨t, key, tblResult e, 0, 0⟩ s) s)

/-- LPM_DEL: removes prefix KEY/PLEN (R269). -/
def execLpmDel (ring : Nat) (hbmFault : Bool) (s : State) : Host.Outcome State Fault Refusal :=
  if s.tableHeld ring 0x25 then .next s else
  .next (tblCommand ring 0x25 [3] plenOk (fun t e s =>
    let n := tblPlen e
    let addr := clearBeyond n (tblKey e (s.keyLen t))
    let here := fun (x : ShortPrefix) => x.table == t && x.plen == n && x.addr == addr
    if n ≤ 16 then
      if s.tables.shorts.any here = false then (s, 0x0501, .none)
      else ({ s with tables := { s.tables with shorts := s.tables.shorts.filter (fun x => !here x) } }, 0, .none)
    else
      let key := prefixKey n addr
      if s.tables.hbm.lookup t key = none then (s, 0x0501, .none)
      else if hbmFault then (s, 0x0601, .none)
      else (s.setPartition true (s.tables.hbm.remove hbmShape (fun x => x.matches t key)), 0, .none)) s)

/-- LPM_LOOKUP: the longest match for address KEY; PLEN is ignored (R275). -/
def execLpmLookup (ring : Nat) (s : State) : Host.Outcome State Fault Refusal :=
  .next (tblCommand ring 0x26 [3] (fun _ _ => true) (fun t e s =>
    match s.lpmLookup t (tblKey e (s.keyLen t)) with
    | none => (s, 0, .none)
    | some (res, n) => (s, 0, { TblReply.none with flags := 1, mplen := n, result := res })) s)

/-- Learned entries of a partition that a flush removes. -/
def flushes (t : Nat) (inlet : Option Nat) (e : TEntry) : Bool :=
  e.table == t && (match inlet with
    | some i => e.inlet == i
    | none => true)

/-- Flush one bench: its learned entries and queued insertions; entries removed are counted. -/
def flushBench (t : Nat) (inlet : Option Nat) (k : Nat) (x : Nat × State) : Nat × State :=
  let (n, s) := x
  let p := s.learned k
  let gone := (p.entries.filter (flushes t inlet)).length
  let keep := fun (q : LearnReq) => !(q.table == t && (match inlet with
    | some i => q.inlet == i
    | none => true))
  let queue := (tblGetD [] s.tables.queue k).filter keep
  let s := s.setLearned k (p.remove s.learnShape (flushes t inlet))
  (n + gone, { s with tables := { s.tables with queue := tblSet [] s.tables.queue k queue } })

/-- LEARN_FLUSH: learned entries of TABLE in the benches of BENCH_MASK, of one inlet when INLET_EN is 1 (R275). COUNT is what
it removed, so 0 when it is refused (Table 10.4). -/
def execLearnFlush (ring : Nat) (s : State) : Host.Outcome State Fault Refusal :=
  if s.tableHeld ring 0x27 then .next s else
  .next (runEntry ring (· == 0x27) (fun r j s =>
    let e := j.first
    let t := tblTable e
    let mask := eBits e 12 0 18
    if s.managerSheet r.sheet = false then (s, 0x0401, [(8, 1, t)])
    else if s.rd (TBL_DESC_TYPE t) = 0 ∨ s.bit (TBL_DESC_LEARN t) = false then (s, 0x0104, [(8, 1, t)])
    else if mask = 0 then (s, 0x0103, [(8, 1, t)])
    else
      let inlet := if eBits e 16 7 1 = 1 then some (eBits e 16 0 7) else none
      let (n, s) := ((List.range 18).filter (fun k => mask.testBit k)).foldl (fun x k => flushBench t inlet k x) (0, s)
      (s, 0, [(8, 1, t), (20, 4, n)])) s)

/-! ## Checked table registers (R260, Table 10.6, Table 10.9) -/

/-- A write is refused with CFG_ERR. -/
def tblRefuse (s : State) : State := raise TBL_EVENT_CFG_ERR s

/-- A write to step k of program n (R260): refused when h would exceed 8, the key would run beyond the field vector, or
a learn step names a table with LEARN 0. Program 0 is fixed. KIND 3 is held and acts as none, and a step of kind none has no key
(DESIGN CHOICE, log entry 22). -/
def progWrite (n k : Nat) (v : BitVec 64) (s : State) : State :=
  if n = 0 then s
  else
    let t := s.plainWrite (TBL_PROG n k) v
    let table := t.rd (TBL_PROG_TABLE n k)
    let kind := t.rd (TBL_PROG_KIND n k)
    if 8 < t.progH n ∨ ((kind = 1 ∨ kind = 2) ∧ 64 < t.rd (TBL_PROG_KOFF n k) + t.keyLen table)
        ∨ (kind = 2 ∧ t.bit (TBL_DESC_LEARN table) = false) then tblRefuse s
    else t

/-- TBL_PROG_WRITE (R260). -/
def execTblProgWrite (prog stepNo : Nat) (value : BitVec 64) (s : State) : Host.Outcome State Fault Refusal :=
  .next (progWrite prog stepNo value s)

/-- LPM tables but for one. -/
def State.lpmTables (s : State) (except : Nat) : Nat :=
  ((List.range 64).filter (fun t => t != except && s.rd (TBL_DESC_TYPE t) == 3)).length

/-- A write to TBL_DESCt (Table 10.6): with entries in the table only LEARN_RESULT is writable. -/
def descWrite (t : Nat) (v : BitVec 64) (s : State) : State :=
  if s.tableEntries t ≠ 0 then s.wr (TBL_DESC_LEARN_RESULT t) (getField v 32 32)
  else
    let type := getField v 0 2
    let len := getField v 2 6
    let exact := type = 1 ∨ type = 2
    if (exact ∧ (len = 0 ∨ 48 < len)) ∨ (type = 3 ∧ 4 ≤ s.lpmTables t) ∨ (getField v 11 1 = 1 ∧ type ≠ 1) then tblRefuse s
    else
      let s := ((s.wr (TBL_DESC_TYPE t) type).wr (TBL_DESC_KEY_LEN t) len).wr (TBL_DESC_FAMILY t) (getField v 8 1)
      ((s.wr (TBL_DESC_LEN_MAX t) (getField v 9 2)).wr (TBL_DESC_LEARN t) (getField v 11 1)).wr
        (TBL_DESC_LEARN_RESULT t) (getField v 32 32)

/-- TBL_DESC_WRITE (R277). -/
def execTblDescWrite (table : Nat) (value : BitVec 64) (s : State) : Host.Outcome State Fault Refusal :=
  .next (descWrite table value s)

/-- A write to TBL_LEARN_CFG: SLOTS changes only while the configured partition is empty, and then empties every learned
partition; else the write is refused whole (Table 10.9). -/
def learnCfgWrite (v : BitVec 64) (s : State) : State :=
  let slots := getField v 0 2
  if slots = s.rd TBL_LEARN_CFG_SLOTS then s.wr TBL_LEARN_CFG_AGE_LIMIT (getField v 2 15)
  else if s.tables.die.used ≠ 0 then tblRefuse s
  else
    let s := (s.wr TBL_LEARN_CFG_SLOTS slots).wr TBL_LEARN_CFG_AGE_LIMIT (getField v 2 15)
    { s with tables := { s.tables with learned := [] } }

/-- TBL_LEARN_CFG_WRITE (R277). -/
def execTblLearnCfgWrite (value : BitVec 64) (s : State) : Host.Outcome State Fault Refusal := .next (learnCfgWrite value s)

/-! ## Learning (R271-R274) -/

/-- Result of a learned entry: LEARN_RESULT with bits [6:0] replaced by the inlet. -/
def State.learnResult (s : State) (t inlet : Nat) : Nat := s.rd (TBL_DESC_LEARN_RESULT t) / 128 * 128 + inlet % 128

/-- Refresh a learned entry: LAST_SEEN, and the inlet when it differs, which counts LEARN_MOVE (R271). -/
def refreshLearned (k t : Nat) (key : Bytes) (inlet : Nat) (stamp : BitVec 64) (s : State) : State :=
  match (s.learned k).lookup t key with
  | none => s
  | some e =>
    let s' := s.setLearned k ((s.learned k).update t key (fun x =>
      { x with seen := seenOf (stamp.toNat / 65536), inlet := inlet, result := s.learnResult t inlet }))
    if e.inlet = inlet then
      s.setLearned k ((s.learned k).update t key (fun x => { x with seen := seenOf (stamp.toNat / 65536) }))
    else s'.count (TBL_LEARN_MOVE k) 1

/-- A learn step of bench k on a packet's source key (R271, R272). -/
def learnStep (k t : Nat) (key : Bytes) (inlet : Nat) (stamp : BitVec 64) (s : State) : State :=
  if (s.tables.die.lookup t key).isSome then s
  else if ((s.learned k).lookup t key).isSome then refreshLearned k t key inlet stamp s
  else
    let q := tblGetD [] s.tables.queue k
    if 64 ≤ q.length then s.count (TBL_LEARN_SKIP k) 1
    else { s with tables := { s.tables with queue := tblPut s.tables.queue k (q ++ [⟨t, key, inlet, stamp⟩]) } }

/-- An insertion would exceed the entry limit of a bench's learned partition, its slots (Table 10.1). It is dropped and counted as one
that finds the partition full (R272; DEDUCED, log entry 57). -/
def State.learnFull (s : State) (k : Nat) (e : TEntry) : Bool :=
  decide (learnSlots (s.rd TBL_LEARN_CFG_SLOTS) < (s.learned k).used + e.weight)

/-- LEARN_INSERT: bench k makes its oldest queued insertion (R272). -/
def execLearnInsert (bench : Nat) (s : State) : Host.Outcome State Fault Refusal :=
  match tblGetD [] s.tables.queue bench with
  | [] => .next s
  | r :: rest =>
    let s := { s with tables := { s.tables with queue := tblSet [] s.tables.queue bench rest } }
    if ((s.learned bench).lookup r.table r.key).isSome then .next (refreshLearned bench r.table r.key r.inlet r.stamp s)
    else if s.learnFull bench ⟨r.table, r.key, 0, 0, r.inlet⟩ then
      .next (raise TBL_EVENT_LEARN_FULL (s.count (TBL_LEARN_FULL_CNT bench) 1))
    else
      match (s.learned bench).insert s.learnShape
          ⟨r.table, r.key, s.learnResult r.table r.inlet, seenOf (r.stamp.toNat / 65536), r.inlet⟩ with
      | (.failed, _) => .next (raise TBL_EVENT_LEARN_FULL (s.count (TBL_LEARN_FULL_CNT bench) 1))
      | (_, q) =>
        let s := (s.setLearned bench q).count (TBL_LEARNED bench) 1
        .next (if 6 ≤ q.stash.length then raise TBL_EVENT_STASH s else s)

/-- A learned entry is older than AGE_LIMIT (R274). -/
def State.aged (s : State) (e : TEntry) : Bool :=
  s.rd TBL_LEARN_CFG_AGE_LIMIT != 0
    && decide (s.rd TBL_LEARN_CFG_AGE_LIMIT < (seenOf s.ns + 2 ^ 16 - e.seen % 2 ^ 16) % 2 ^ 16)

/-- LEARN_AGE: the sweep of bench k removes the entries older than AGE_LIMIT (R274). -/
def execLearnAge (bench : Nat) (s : State) : Host.Outcome State Fault Refusal :=
  let p := s.learned bench
  let n := (p.entries.filter s.aged).length
  if n = 0 then .next s
  else .next ((s.setLearned bench (p.remove s.learnShape s.aged)).count (TBL_AGED bench) n)

end Sys2Proof.Machine
end

