-- ==== Sys2Proof/Machine/Crypto.lean ====
section
/-! DEFINITION. The compositions of the shipped microcode over raw AES blocks: CTR, GCM, XTS and CMAC (R335, R339; the
NIST and IEEE documents it names, notes/assumptions/20). Blocks are 16 bytes, the first on the wire most significant. -/

namespace Sys2Proof.Machine

/-- A block of up to 16 bytes, padded with zeros behind. -/
def blockOf (bs : Bytes) : BitVec 128 := BitVec.ofNat 128 (ofBe (bs.take 16 ++ List.replicate (16 - bs.length) 0))

/-- The 16 bytes of a block. -/
def blockBytes (b : BitVec 128) : Bytes := beBytes 16 b.toNat

/-- Cut a string into blocks of n bytes, the last one as long as it is. Fuel: the string's length. -/
def chunk (n : Nat) : Nat → Bytes → List Bytes
  | 0, _ => []
  | fuel + 1, bs => if bs = [] then [] else bs.take n :: chunk n fuel (bs.drop n)

/-- The 16-byte blocks of a string. -/
def blocks (bs : Bytes) : List Bytes := chunk 16 bs.length bs

/-- XOR a string with a key stream, as far as both go. -/
def xorBytes : Bytes → Bytes → Bytes
  | a :: as, b :: bs => (a ^^^ b) :: xorBytes as bs
  | _, _ => []

/-- Counter block IV followed by a 32-bit counter (R332). -/
def ctrBlock (iv i : Nat) : BitVec 128 := BitVec.ofNat 128 (iv * 2 ^ 32 + i % 2 ^ 32)

/-- CTR over a list of blocks from a counter on; CTR mode starts at 1, GCM data at 2. -/
def ctrBlocks (klen : Bool) (key : BitVec 256) (iv : Nat) : Nat → List Bytes → Bytes
  | _, [] => []
  | i, b :: bs => xorBytes b (blockBytes (Config.aesEnc klen key (ctrBlock iv i))) ++ ctrBlocks klen key iv (i + 1) bs

/-- Product of GCM's field GF(2^128): n bits of the first factor remain, the most significant first. -/
def gfMul (x : BitVec 128) : Nat → BitVec 128 → BitVec 128 → BitVec 128
  | 0, _, z => z
  | n + 1, v, z =>
      gfMul x n (if v.getLsbD 0 then (v >>> 1) ^^^ 0xE1000000000000000000000000000000#128 else v >>> 1)
        (if x.getLsbD n then z ^^^ v else z)

/-- GHASH over blocks. -/
def ghash (h : BitVec 128) (bs : List Bytes) : BitVec 128 :=
  bs.foldl (fun y b => gfMul (y ^^^ blockOf b) 128 h 0) 0

/-- The GCM tag of additional data and ciphertext (J0 = IV followed by 1). -/
def gcmTag (klen : Bool) (key : BitVec 256) (iv : Nat) (aad ct : Bytes) : Bytes :=
  let h := Config.aesEnc klen key 0
  let lens := beBytes 8 (8 * aad.length) ++ beBytes 8 (8 * ct.length)
  blockBytes (ghash h (blocks aad ++ blocks ct ++ [lens]) ^^^ Config.aesEnc klen key (ctrBlock iv 1))

/-- Multiply an XTS tweak by x: bytes little-endian. -/
def xtsNext (t : Nat) : Nat := if 2 ^ 127 ≤ t then (2 * t) % 2 ^ 128 ^^^ 0x87 else 2 * t

/-- One XTS data unit, tweak value t little-endian. -/
def xtsBlocks (enc klen : Bool) (key : BitVec 256) : Nat → List Bytes → Bytes
  | _, [] => []
  | t, b :: bs =>
      let tw := leBytes 16 t
      let x := blockOf (xorBytes b tw)
      let y := if enc then Config.aesEnc klen key x else Config.aesDec klen key x
      xorBytes (blockBytes y) tw ++ xtsBlocks enc klen key (xtsNext t) bs

/-- XTS over data units numbered from j on (R335). -/
def xtsUnits (enc klen : Bool) (k1 k2 : BitVec 256) : Nat → List Bytes → Bytes
  | _, [] => []
  | j, u :: us =>
      let t := ofLe (blockBytes (Config.aesEnc klen k2 (blockOf (leBytes 16 j))))
      xtsBlocks enc klen k1 t (blocks u) ++ xtsUnits enc klen k1 k2 (j + 1) us

/-- Double in CMAC's field. -/
def cmacDouble (b : BitVec 128) : BitVec 128 := if b.getLsbD 127 then (b <<< 1) ^^^ 0x87#128 else b <<< 1

/-- The chained part of CMAC: the last block is masked with a subkey, and padded when it is not whole. -/
def cmacChain (klen : Bool) (key k1 k2 : BitVec 256) : BitVec 128 → List Bytes → BitVec 128
  | y, [] => Config.aesEnc klen key (y ^^^ blockOf [0x80] ^^^ k2.setWidth 128)
  | y, [b] =>
      if b.length = 16 then Config.aesEnc klen key (y ^^^ blockOf b ^^^ k1.setWidth 128)
      else Config.aesEnc klen key (y ^^^ blockOf (b ++ [0x80]) ^^^ k2.setWidth 128)
  | y, b :: c :: bs => cmacChain klen key k1 k2 (Config.aesEnc klen key (y ^^^ blockOf b)) (c :: bs)

/-- CMAC of a message. -/
def cmac (klen : Bool) (key : BitVec 256) (msg : Bytes) : Bytes :=
  let k1 := cmacDouble (Config.aesEnc klen key 0)
  blockBytes (cmacChain klen key (k1.setWidth 256) ((cmacDouble k1).setWidth 256) 0 (blocks msg))

end Sys2Proof.Machine
end

