-- ==== Sys2Proof/Machine/Act.lean ====
section
/-! DEFINITION. The classify and act stages: what a packet's program and action record make of it (spec 10, R259,
R263; spec 11, R278-R285, R304). -/

namespace Sys2Proof.Machine

/-! ## Classification results and action records (Tables 11.1, 11.2) -/

/-- OUTLET of a result. -/
def resOutlet (r : Nat) : Nat := r % 128
/-- USE_DEF. -/
def resUseDef (r : Nat) : Bool := r.testBit 7
/-- CLASS. -/
def resClass (r : Nat) : Nat := r / 2 ^ 8 % 8
/-- ACTION. -/
def resAction (r : Nat) : Nat := r / 2 ^ 16 % 4096
/-- MIRROR. -/
def resMirror (r : Nat) : Nat := r / 2 ^ 28 % 16

/-- Action 0, and every record at device reset (R280). -/
def actionReset : BitVec 256 := BitVec.ofNat 256 (0xFFFFF * 2 ^ 32 + 0xFFFF * 2 ^ 64 + 0xFFFFF * 2 ^ 80)

/-- An action record. -/
def State.action (s : State) (n : Nat) : BitVec 256 := if n = 0 then actionReset else tblGetD actionReset s.tables.actions n

/-- w bits of an action record from bit b of a byte on. -/
def aBits (a : BitVec 256) (byte b w : Nat) : Nat := a.toNat / 2 ^ (8 * byte + b) % 2 ^ w

/-- DISP. -/
def actDisp (a : BitVec 256) : Nat := aBits a 0 0 2
/-- TARGET. -/
def actTarget (a : BitVec 256) : Nat := aBits a 2 0 12
/-- RING; 0xF_FFFF none. -/
def actRing (a : BitVec 256) : Nat := aBits a 4 0 20
/-- CONTRACT_ID; 0xFFFF none. -/
def actContract (a : BitVec 256) : Nat := aBits a 8 0 16
/-- SA; 0xF_FFFF none. -/
def actSa (a : BitVec 256) : Nat := aBits a 10 0 20
/-- L3_OFF. -/
def actL3 (a : BitVec 256) : Nat := aBits a 13 0 8
/-- L4_OFF. -/
def actL4 (a : BitVec 256) : Nat := aBits a 14 0 8
/-- PTP_OFF. -/
def actPtp (a : BitVec 256) : Nat := aBits a 15 0 8

/-! ## Edits (R282, R283) -/

/-- Result of an edit: the packet, or the spoil reason that ends it. -/
inductive Edited where
  | ok (bytes : Bytes)
  | spoil (reason : Nat)
  deriving DecidableEq, Repr

/-- Remove bytes. -/
def popBytes (off len : Nat) (bs : Bytes) : Edited :=
  if len = 0 then .ok bs
  else if bs.length < off + len then .spoil 0x14 else .ok (bs.take off ++ bs.drop (off + len))

/-- Insert template bytes before byte OFF. -/
def pushBytes (off len : Nat) (tmpl : BitVec 1024) (bs : Bytes) : Edited :=
  if len = 0 then .ok bs
  else if bs.length < off then .spoil 0x14 else .ok (bs.take off ++ leBytes len tmpl.toNat ++ bs.drop off)

/-- Rewrite RWn of a record: copy field-vector bytes over the packet. -/
def rewriteBytes (a : BitVec 256) (byte : Nat) (fv bs : Bytes) : Edited :=
  let off := aBits a byte 0 8
  let src := aBits a byte 8 6
  let len := aBits a byte 14 5 + 1
  if aBits a byte 19 1 = 0 then .ok bs
  else if bs.length < off + len then .spoil 0x14 else .ok (overwrite bs off ((fv.drop src).take len))

/-- IP version at L3_OFF: the upper nibble. -/
def ipVersion (bs : Bytes) (l3 : Nat) : Nat := byteAt bs l3 / 16

/-- TTL_DEC (R283). -/
def ttlDec (l3 : Nat) (bs : Bytes) : Edited :=
  if bs.length ≤ l3 then .spoil 0x14
  else match ipVersion bs l3 with
    | 4 =>
      if bs.length < l3 + 12 then .spoil 0x14
      else if byteAt bs (l3 + 8) ≤ 1 then .spoil 0x15
      else
        let old := word16 bs (l3 + 8)
        let bs' := overwrite bs (l3 + 8) [BitVec.ofNat 8 (byteAt bs (l3 + 8) - 1)]
        .ok (overwrite bs' (l3 + 10) (beBytes 2 (checksumStep (word16 bs (l3 + 10)) old (old - 256))))
    | 6 =>
      if bs.length < l3 + 8 then .spoil 0x14
      else if byteAt bs (l3 + 7) ≤ 1 then .spoil 0x15
      else .ok (overwrite bs (l3 + 7) [BitVec.ofNat 8 (byteAt bs (l3 + 7) - 1)])
    | _ => .ok bs

/-- FIX_L3 (R283). -/
def fixL3 (l3 : Nat) (bs : Bytes) : Edited :=
  if bs.length ≤ l3 then .spoil 0x14
  else match ipVersion bs l3 with
    | 4 =>
      let words := byteAt bs l3 % 16 * 2
      if bs.length < l3 + max 12 (2 * words) then .spoil 0x14
      else
        let bs := overwrite bs (l3 + 2) (beBytes 2 (bs.length - l3))
        .ok (overwrite bs (l3 + 10) (beBytes 2 (65535 - headerSum bs l3 (l3 + 10) words)))
    | 6 => if bs.length < l3 + 40 then .spoil 0x14 else .ok (overwrite bs (l3 + 4) (beBytes 2 (bs.length - l3 - 40)))
    | _ => .ok bs

/-- FIX_L4 (R283). -/
def fixL4 (l4 : Nat) (bs : Bytes) : Edited :=
  if bs.length < l4 + 8 then .spoil 0x14 else .ok (overwrite bs (l4 + 4) (beBytes 2 (bs.length - l4) ++ [0, 0]))

/-- Go on with an edit unless the packet is spoiled. -/
def Edited.next (e : Edited) (f : Bytes → Edited) : Edited :=
  match e with
  | .ok bs => f bs
  | .spoil r => .spoil r

/-- Apply an edit when a flag of the record is set. -/
def whenFlag (a : BitVec 256) (bit : Nat) (f : Bytes → Edited) (bs : Bytes) : Edited :=
  if aBits a 1 bit 1 = 1 then f bs else .ok bs

/-- Length limits of an edited packet (R282). -/
def lengthOk (bs : Bytes) : Edited := if bs.length < 14 ∨ 9344 < bs.length then .spoil 0x14 else .ok bs

/-- All edits of a record, in the order of R282. -/
def State.edit (s : State) (a : BitVec 256) (fv bs : Bytes) : Edited :=
  ((((((((popBytes (aBits a 16 0 8) (aBits a 17 0 8) bs).next
    (pushBytes (aBits a 20 0 8) (aBits a 21 0 8) (tblGetD 0 s.tables.templates (aBits a 22 0 11)))).next
    (rewriteBytes a 24 fv)).next (rewriteBytes a 28 fv)).next
    (whenFlag a 0 (ttlDec (actL3 a)))).next (whenFlag a 2 (fixL3 (actL3 a)))).next (whenFlag a 3 (fixL4 (actL4 a)))).next lengthOk)

/-! ## Classification (R259, R271) -/

/-- Key of a step of a program. -/
def State.stepKey (s : State) (prog k : Nat) (fv : Bytes) : Bytes :=
  (fv.drop (s.rd (TBL_PROG_KOFF prog k))).take (s.keyLen (s.rd (TBL_PROG_TABLE prog k)))

/-- A lookup step of a program in bench b: the configured entry wins over a learned one. -/
def State.stepLookup (s : State) (b prog k : Nat) (fv : Bytes) : Option Nat :=
  let t := s.rd (TBL_PROG_TABLE prog k)
  let key := s.stepKey prog k fv
  match s.rd (TBL_DESC_TYPE t) with
  | 0 => none
  | 3 => (s.lpmLookup t key).map (fun x => x.1)
  | ty =>
    match (s.partition (ty != 1)).lookup t key with
    | some e => some e.result
    | none => if s.bit (TBL_DESC_LEARN t) then ((s.learned b).lookup t key).map (fun e => e.result) else none

/-- Steps of a program with a KIND; program 0 has none. -/
def State.stepsOf (s : State) (prog kind : Nat) : List Nat :=
  if prog = 0 then [] else (List.range 4).filter (fun k => s.rd (TBL_PROG_KIND prog k) == kind)

/-- The classification result: of the lowest-numbered lookup step that hits (R259). -/
def State.classify (s : State) (b prog : Nat) (fv : Bytes) : Option Nat :=
  (s.stepsOf prog 1).findSome? (fun k => s.stepLookup b prog k fv)

/-- HBM bucket reads a packet issues: two per exact lookup and per length probed. -/
def State.readsIssued (s : State) (prog : Nat) (fv : Bytes) : Nat :=
  ((s.stepsOf prog 1).map (fun k =>
    let t := s.rd (TBL_PROG_TABLE prog k)
    match s.rd (TBL_DESC_TYPE t) with
    | 2 => 2
    | 3 => 2 * (s.sliceLengths t (sliceOf (s.stepKey prog k fv))).length
    | _ => 0)).sum

/-- Run the learn steps of a packet that name a learning table (R271). -/
def learnSteps (f : Flying) (s : State) : State :=
  (s.stepsOf f.prog 2).foldl (fun t k =>
    let n := t.rd (TBL_PROG_TABLE f.prog k)
    if t.rd (TBL_DESC_TYPE n) = 1 ∧ t.bit (TBL_DESC_LEARN n) then learnStep f.bench n (t.stepKey f.prog k f.fv) f.inlet f.stamp t
    else t) s

/-! ## Contract and class (R63, R64, R279, R284) -/

/-- A packet meets R63 and R284 for a contract but for its token bucket: under the parameters that applied when it started, and,
once a withdrawal is accepted, when it started before (R86, R87). -/
def State.belongs (s : State) (f : Flying) (id cls disp outlet : Nat) : Bool :=
  match s.contract? id with
  | none => false
  | some c =>
    let p := c.parAt (s.startOf f.stamp)
    (c.state.holds || (c.state == .withdrawing && decide (s.startOf f.stamp ≤ c.withdrawnAt)))
      && p.cls == cls && p.bucket == f.bucket && disp == 0 && s.progH f.prog == 0
      && (outlet == p.dst || (p.kind == 5 && outlet == 120) || (p.kind == 7 && outlet == 121))

/-- What policing gives a packet: its contract and deadline D when it conforms, its class, and whether FALLBACK serves it. -/
structure Policed where
  contract : Option Nat
  due : Nat
  cls : Nat
  fallback : Bool
  deriving DecidableEq, Repr

/-- Police a packet that names a contract, or serve a timed packet without one in FALLBACK (R63, R64, R284). -/
def policePacket (f : Flying) (named : Option Nat) (cls disp outlet : Nat) (s : State) : Policed × State :=
  let fb := s.rd ADM_CTRL_FALLBACK
  match named with
  | none => if s.timed cls then (⟨none, 0, fb, true⟩, s) else (⟨none, 0, cls, false⟩, s)
  | some id =>
    if s.belongs f id cls disp outlet then
      match police id f.bytes.length (s.startOf f.stamp) s with
      | (some d, s) => (⟨some id, d, cls, false⟩, s)
      | (none, s) => (⟨none, 0, fb, true⟩, s)
    else (⟨none, 0, fb, true⟩, nonConform id s)

/-! ## Destinations (R278, R280, R300, R304) -/

/-- Member m of a path set; 0x7F none. -/
def State.member (s : State) (set m : Nat) : Nat := tblGetD 0x7F s.tables.members (set * 256 + m)

/-- Outlets of a multicast group. -/
def State.groupOutlets (s : State) (g : Nat) : List Nat :=
  (List.range 128).filter (fun o => (tblGetD 0 s.tables.groups g).getLsbD o)

/-- Destination of a packet under a record: its outlets, or a spoil reason. -/
def State.destination (s : State) (a : BitVec 256) (f : Flying) (result : Nat) : List Nat ⊕ Nat :=
  match actDisp a with
  | 0 => if s.outletExists (resOutlet result) then .inl [resOutlet result] else .inr 0x1E
  | 1 =>
    let m := s.member (actTarget a) (f.hash / 2 ^ 12 % 256)
    if m = 0x7F then .inr 0x1D else if s.outletExists m then .inl [m] else .inr 0x1E
  | 2 =>
    let l := (s.groupOutlets (actTarget a)).filter (· != f.inlet)
    if l = [] then .inr 0x1D else .inl l
  | _ => .inr 0x13

/-! ## Contours (R246) -/

/-- Refill a contour's bucket to now; depth BURST. -/
def State.contourBucket (s : State) (k c : Nat) : Bucket :=
  let b := tblGetD ⟨0, 0⟩ s.pipe.contour (k * 16 + c)
  let now := s.datum.toNat
  ⟨min (s.rd (BNC_CONTOUR_BURST c) * 65536000000000) (b.tokens + s.rd (BNC_CONTOUR_RATE c) * (now - b.refilled)), now⟩

/-- Contour c fills at its old rate, in every bench, until its register is written. -/
def settleContour (c : Nat) (s : State) : State :=
  (List.range 18).foldl (fun (t : State) k =>
    { t with pipe := { t.pipe with contour := tblPut t.pipe.contour (k * 16 + c) (t.contourBucket k c) } }) s

/-- Take a token of contour c in bench k, when it holds one. -/
def contourPass (k c : Nat) (s : State) : Bool × State :=
  let b := s.contourBucket k c
  if 65536000000000 ≤ b.tokens then
    (true, { s with pipe := { s.pipe with contour := tblPut s.pipe.contour (k * 16 + c) { b with tokens := b.tokens - 65536000000000 } } })
  else (false, { s with pipe := { s.pipe with contour := tblPut s.pipe.contour (k * 16 + c) b } })

/-! ## The act stage -/

/-- A version under which nothing was prepared. -/
def lostVersion : Nat := 2 ^ 32

/-- An SA's number in the model's table and its version, as key preparation binds them; lostVersion when nothing can be prepared
(R327, R338). -/
def State.versionOf (s : State) (n : Nat) : Nat × Nat :=
  match tblGet s.sas n with
  | some x => (n, if x.state = .retiring then lostVersion else x.key.version)
  | none => (n, lostVersion)

/-- The SA of a record for a packet. A connection SA is the TX record of the connection that built the packet, or the RX
record of DCONN (R352). -/
def State.saOf (s : State) (a : BitVec 256) (f : Flying) (bs : Bytes) : Option (Nat × Nat) :=
  let number := fun (n : Nat) => some (s.versionOf n)
  if actSa a = 0xFFFFF then none
  else if actSa a = 0xFFFFE then
    match f.conn with
    | some c => number (0x40000 + 2 * c)
    | none =>
      let d := word16 bs (actL4 a + 12) * 65536 + word16 bs (actL4 a + 14)
      if s.connUsable (d % 2 ^ 20) (d / 2 ^ 20 % 256) then number (0x40000 + 2 * (d % 2 ^ 20) + 1) else some (0x40000 + 2 * (d % 2 ^ 20) + 1, lostVersion)
  else number (actSa a)

/-- A packet the act stage or a default action spoils: its reason, and what a capture of it shows of the classification
(R286, R310). -/
structure Turned where
  reason : Nat
  result : Nat
  action : Nat
  isDefault : Bool
  deriving DecidableEq, Repr

/-- The default action of an inlet (R244, R245). reason is 0x10 or 0x11. -/
def defaultAct (f : Flying) (reason : Nat) (s : State) : (Acted ⊕ Turned) × State :=
  let s := s.count (BNC_DEFAULT_CNT f.bench) 1
  let outlet := s.rd (BNC_DEFAULT_OUTLET f.inlet)
  let go := fun (s : State) (spoil : Nat) =>
    let (p, s) := policePacket f f.ringContract (f.txCls.getD (s.rd (BNC_DEFAULT_CLASS f.inlet))) 0 outlet s
    ((.inl ⟨f.bytes, [outlet], false, p.cls, p.contract, p.due, p.fallback, 0xFFFFF, 0, 0, true, spoil, none, 0, none, 0xFFFFF, .waiting⟩ :
      Acted ⊕ Turned), s)
  match s.rd (BNC_DEFAULT_ACTION f.inlet) with
  | 1 => if s.outletExists outlet then go s 0 else (.inr ⟨0x1E, 0, 0, true⟩, s)
  | 2 =>
    let (ok, s) := contourPass f.bench (s.rd (BNC_DEFAULT_CONTOUR f.inlet)) s
    if ok then go s reason else (.inr ⟨0x12, 0, 0, true⟩, s.count (BNC_CONTOUR_SPOIL f.bench) 1)
  | _ => (.inr ⟨reason, 0, 0, true⟩, s)

/-- The default action forwards the packet: learn steps run for it (R271). -/
def State.defaultForwards (s : State) (i : Nat) : Bool :=
  s.rd (BNC_DEFAULT_ACTION i) == 1 || s.rd (BNC_DEFAULT_ACTION i) == 2

/-- Act on a classified packet under its action record (R278-R285). -/
def resultAct (f : Flying) (result : Nat) (s : State) : (Acted ⊕ Turned) × State :=
  let a := s.action (resAction result)
  match s.destination a f result with
  | .inr r => (.inr ⟨r, result, resAction result, false⟩, s)
  | .inl outlets =>
    match s.edit a f.fv f.bytes with
    | .spoil r => (.inr ⟨r, result, resAction result, false⟩, s)
    | .ok bs =>
      let cls := f.txCls.getD (if resUseDef result then f.defCls else resClass result)
      let named := if f.txCls.isSome then f.ringContract
        else if actContract a = 0xFFFF then none else some (actContract a)
      let (p, s) := policePacket f named cls (actDisp a) (outlets.headD 128) s
      let ptp := if aBits a 1 1 1 = 1 ∧ f.inlet < 64 then some (actPtp a) else none
      let mirror := resMirror result
      let mirrored := decide (mirror ≠ 0) && s.bit (SWC_MIR_EN mirror)
      let s := if mirrored ∧ named.isSome then s.count SWC_MIR_TIMED 1 else s
      (.inl ⟨bs, outlets, actDisp a == 2, p.cls, p.contract, p.due, p.fallback, actRing a, result, resAction result, false, 0,
        ptp, if mirrored ∧ named = none then mirror else 0, s.saOf a f bs, actSa a, .waiting⟩, s)

/-- A block between the storage engine and a backend device: it goes to its root port, or to the engine's outlet 121, under its
volume's SA, class and contract, and no table or record applies (R414, R417). -/
def storageAct (f : Flying) (o sa : Nat) (s : State) : (Acted ⊕ Turned) × State :=
  let (p, s) := policePacket f f.ringContract (f.txCls.getD 0) 0 o s
  (.inl ⟨f.bytes, [o], false, p.cls, p.contract, p.due, p.fallback, 0xFFFFF, 0, 0, false, 0, none, 0,
    if sa = 0xFFFFF then none else some (s.versionOf sa), sa, .waiting⟩, s)

/-- Act on a packet that classification gave a result or none (R244, R259). -/
def classifyAct (f : Flying) (s : State) : (Acted ⊕ Turned) × State :=
  match f.profile with
  | none => defaultAct f 0x10 (s.count (BNC_PARSE_FAIL f.bench) 1)
  | some _ =>
    let s := (s.count (BNC_PARSED f.bench) 1).count (TBL_HBM_READS f.bench) (s.readsIssued f.prog f.fv)
    match s.classify f.bench f.prog f.fv with
    | none => defaultAct f 0x11 (if s.defaultForwards f.inlet then learnSteps f s else s)
    | some r => resultAct f r (learnSteps f s)

/-- Classify a packet and act on it: what is enqueued, or the spoil reason (R237, R244, R259). -/
def actStage (f : Flying) (s : State) : (Acted ⊕ Turned) × State :=
  match f.via with
  | some (o, sa) => storageAct f o sa s
  | none => classifyAct f s

end Sys2Proof.Machine
end

