-- ==== Sys2Proof/Machine/Dress.lean ====
section
/-! DEFINITION. The dress stage: hardware IVs, the cipher modes, failed authentication and blanking (spec 12, R326-R342,
R352). -/

namespace Sys2Proof.Machine

/-! ## SA parameters (Table 12.9, bytes 16-19) -/

/-- MODE. -/
def parMode (p : BitVec 32) : Nat := p.toNat % 8
/-- DIR: true unprotect. -/
def parOpen (p : BitVec 32) : Bool := p.getLsbD 3
/-- KLEN: true AES-256. -/
def parKlen (p : BitVec 32) : Bool := p.getLsbD 4
/-- TAG in bytes. -/
def parTag (p : BitVec 32) : Nat :=
  if parMode p = 2 ∨ parMode p = 4 then (match p.toNat / 2 ^ 5 % 4 with | 0 => 16 | 1 => 12 | _ => 8) else 0
/-- DU_SIZE. -/
def parUnit (p : BitVec 32) : Nat := if p.getLsbD 7 then 4096 else 512
/-- AAD_OFF. -/
def parAad (p : BitVec 32) : Nat := p.toNat / 2 ^ 8 % 256
/-- ENC_OFF. -/
def parEnc (p : BitVec 32) : Nat := p.toNat / 2 ^ 16 % 256
/-- IV_OFF; 0xFF none. -/
def parIv (p : BitVec 32) : Nat := p.toNat / 2 ^ 24 % 256

/-- Parameters of a connection SA at an L4_OFF (R352): MODE 2, AES-256, TAG 16. -/
def connPar (rx : Bool) (l4 : Nat) : BitVec 32 :=
  BitVec.ofNat 32 (2 + (if rx then 8 else 0) + 16 + (l4 + 8) % 256 * 2 ^ 8 + (l4 + 52) % 256 * 2 ^ 16 + (l4 + 40) % 256 * 2 ^ 24)

/-- What the dress stage works with: SA number, parameters, key, bench. -/
structure DressJob where
  sa : Nat
  par : BitVec 32
  key : SaKey
  bench : Nat
  deriving DecidableEq, Repr

/-! ## Hardware IVs (R332-R334) -/

/-- The 96-bit IV of Table 12.3. -/
def ivOf (salt bench ctr : Nat) : Nat := salt % 2 ^ 24 * 2 ^ 72 + bench % 2 ^ 8 * 2 ^ 64 + ctr % 2 ^ 64

/-- End of the lease after a bench looks whether fewer than 1,024 values remain (R333). -/
def leaseEnd (next lease : Nat) : Nat := if lease < next + 1024 then lease + 4096 else lease

/-- Place of a bench's counter under a version of an SA in its tables (R333): a re-key starts every counter at 0, and a
packet prepared before it goes on with the counters of its version, so that no (key, IV) pair is used twice. -/
def counterKey (version bench : Nat) : Nat := version * 32 + bench

/-- SA field that names an SA: a connection SA keeps one name. -/
def saField (n : Nat) : Nat := if 0x40000 ≤ n then 0xFFFFE else n

/-- The counter of an SA reached 2^63 on a bench: it is EXHAUSTED, and an OPEN connection whose TX SA it is enters
ERROR with cause 6 (R334, R354). -/
def exhaustSa (n : Nat) (s : State) : State :=
  let s := raise CPH_EVENT_SA_EXHAUSTED (s.wr CPH_SA_LAST_SA (saField n))
  let c := (n - 0x40000) / 2
  let isOpen : Bool := match s.conn? c with
    | some x => x.state == .opened
    | none => false
  if 0x40000 ≤ n ∧ n % 2 = 0 ∧ isOpen then connError c 6 s else s

/-- Issue the next counter value of a version of an SA on a bench; its counter reaching 2^62 warns and 2^63 exhausts it
(R333, R334). -/
def issueCounter (n version bench : Nat) (s : State) : Nat × State :=
  match tblGet s.sas n with
  | none => (0, s)
  | some x =>
    let k := counterKey version bench
    let c := tblGetD 0 x.next k
    let x' := { x with
      next := tblPut x.next k (c + 1)
      lease := tblPut x.lease k (leaseEnd c (tblGetD 0 x.lease k))
      state := if 2 ^ 63 ≤ c + 1 then SaState.exhausted else x.state }
    let s := { s with sas := tblPut s.sas n x' }
    if c + 1 = 2 ^ 62 then (c, raise CPH_EVENT_SA_WARN (s.wr CPH_SA_LAST_SA (saField n)))
    else if c + 1 = 2 ^ 63 then (c, exhaustSa n s)
    else (c, s)

/-! ## Regions -/

/-- Zero a string from an offset on. -/
def zeroFrom (off : Nat) (bs : Bytes) : Bytes := bs.take off ++ List.replicate (bs.length - off) 0

/-- The region from ENC_OFF on. -/
def regionOf (p : BitVec 32) (bs : Bytes) : Bytes := bs.drop (parEnc p)

/-- The additional data: AAD_OFF to ENC_OFF - 1. -/
def aadOf (p : BitVec 32) (bs : Bytes) : Bytes := (bs.drop (parAad p)).take (parEnc p - parAad p)

/-- Replace the region from ENC_OFF on. -/
def withRegion (p : BitVec 32) (bs region : Bytes) : Bytes := bs.take (parEnc p) ++ region

/-- The 12-byte IV at IV_OFF. -/
def ivAt (p : BitVec 32) (bs : Bytes) : Nat := ofBe ((bs.drop (parIv p)).take 12)

/-- Write the IV at IV_OFF, when there is one. -/
def putIv (p : BitVec 32) (bs : Bytes) (iv : Nat) : Bytes := if parIv p = 0xFF then bs else overwrite bs (parIv p) (beBytes 12 iv)

/-- Engine blocks of a packet (Table 12.5); the tag that an unprotect packet brings is no part of its region (DEDUCED, log entry 60). -/
def engineBlocks (p : BitVec 32) (len : Nat) : Nat :=
  let e := len - (if parMode p = 4 then parAad p else parEnc p) - (if parOpen p then parTag p else 0)
  match parMode p with
  | 1 => (e + 15) / 16
  | 2 => (e + 15) / 16 + 1
  | 3 => (e * 1 + 15) / 16 + (e + parUnit p - 1) / parUnit p
  | 4 => (e + 15) / 16
  | _ => 0

/-- Byte MODE of the cipher results (Table 12.6). -/
def modeByte (p : BitVec 32) : Nat := parMode p + (if parOpen p then 8 else 0)

/-! ## Modes (R339, R341) -/

/-- What dressing gives: the packet, CIPHER_STATUS and the IV field. -/
structure Dressed where
  bytes : Bytes
  status : Nat
  iv : Nat
  deriving DecidableEq, Repr

/-- Protect under CTR or GCM with an IV. -/
def protect (j : DressJob) (bs : Bytes) (iv : Nat) : Dressed :=
  let bs := putIv j.par bs iv
  let k := j.key.key1
  if parMode j.par = 1 then
    ⟨withRegion j.par bs (ctrBlocks (parKlen j.par) k iv 1 (blocks (regionOf j.par bs))), 1, iv⟩
  else
    let ct := ctrBlocks (parKlen j.par) k iv 2 (blocks (regionOf j.par bs))
    ⟨withRegion j.par bs ct ++ gcmTag (parKlen j.par) k iv (aadOf j.par bs) ct, 1, iv⟩

/-- Open CTR or GCM: the tag, when there is one, is checked and removed; a packet that fails is zeroed (R341). -/
def openPacket (j : DressJob) (bs : Bytes) : Dressed :=
  let iv := ivAt j.par bs
  let k := j.key.key1
  if parMode j.par = 1 then
    ⟨withRegion j.par bs (ctrBlocks (parKlen j.par) k iv 1 (blocks (regionOf j.par bs))), 2, iv⟩
  else
    let body := bs.take (bs.length - 16)
    let ct := regionOf j.par body
    if parEnc j.par + 16 ≤ bs.length ∧ bs.drop (bs.length - 16) = gcmTag (parKlen j.par) k iv (aadOf j.par body) ct then
      ⟨withRegion j.par body (ctrBlocks (parKlen j.par) k iv 2 (blocks ct)), 2, iv⟩
    else ⟨zeroFrom (parEnc j.par) body, 3, iv⟩

/-- XTS in either direction (R335). The IV field reports the first data unit number in its bytes 0-7. -/
def xtsPacket (j : DressJob) (bs : Bytes) : Dressed :=
  let du := (bs.drop (parIv j.par)).take 8
  let region := regionOf j.par bs
  let iv := ofBe (du ++ List.replicate (12 - du.length) 0)
  if region.length % 16 ≠ 0 then ⟨zeroFrom (parEnc j.par) bs, 6, iv⟩
  else
    let units := chunk (parUnit j.par) region.length region
    ⟨withRegion j.par bs (xtsUnits (!parOpen j.par) (parKlen j.par) j.key.key1 j.key.key2 (ofLe du) units),
      if parOpen j.par then 2 else 1, iv⟩

/-- CMAC: generate and append, or verify and remove (R341). -/
def cmacPacket (j : DressJob) (bs : Bytes) : Dressed :=
  let n := parTag j.par
  let tag := fun (b : Bytes) => (cmac (parKlen j.par) j.key.key1 (b.drop (parAad j.par))).take n
  if parOpen j.par then
    let body := bs.take (bs.length - n)
    if n ≤ bs.length ∧ bs.drop (bs.length - n) = tag body then ⟨body, 2, 0⟩
    else ⟨zeroFrom (parEnc j.par) body, 3, 0⟩
  else ⟨bs ++ tag bs, 1, 0⟩

/-- Dress a packet with its key at hand. -/
def dressWith (j : DressJob) (bs : Bytes) (s : State) : Dressed × State :=
  match parMode j.par with
  | 3 => (xtsPacket j bs, s)
  | 4 => (cmacPacket j bs, s)
  | m =>
    if m = 1 ∨ m = 2 then
      if parOpen j.par then (openPacket j bs, s)
      else
        let (c, s) := issueCounter j.sa j.key.version j.bench s
        (protect j bs (ivOf j.key.salt j.bench c), s)
    else
      (⟨Config.microcode m j.key.key1 j.key.key2 j.par bs, if parOpen j.par then 2 else 1, 0⟩, s)

/-! ## Blanking (R330) -/

/-- Blank a packet: zeros from ENC_OFF on, and 0xFF over the 12 IV bytes of a protect packet; XTS and CMAC have no IV (R332). -/
def blank (p : BitVec 32) (bs : Bytes) : Bytes :=
  let bs := zeroFrom (parEnc p) bs
  if parOpen p ∨ parIv p = 0xFF ∨ parMode p = 3 ∨ parMode p = 4 then bs else overwrite bs (parIv p) (List.replicate 12 0xFF)

/-- Blank with a CIPHER_STATUS and count it. -/
def blankPacket (p : BitVec 32) (name status : Nat) (bs : Bytes) (s : State) : (Bytes × CipherInfo) × State :=
  ((blank p bs, ⟨status, modeByte p, name, 0⟩), s.count CPH_BLANKED 1)

/-- Move an SA to the front of the key cache's order of use. -/
def touchKey (n : Nat) (s : State) : State :=
  { s with cipher := { s.cipher with cache := n :: s.cipher.cache.filter (· != n) } }

/-- Parameters of an SA for a packet: as installed, or a connection SA's by L4_OFF. -/
def State.parOf (s : State) (n : Nat) (a : Acted) (x : SA) : BitVec 32 :=
  if 0x40000 ≤ n then connPar (n % 2 == 1) (actL4 (s.action a.action)) else x.par

/-- Material of the version a packet was prepared with (R327). -/
def SA.material (x : SA) (v : Nat) : Option SaKey :=
  if x.key.version = v then some x.key else x.older.find? (fun k => k.version == v)

/-- Parameters with which a packet whose SA is gone is blanked: a connection SA's, or none known. -/
def State.lostPar (s : State) (f : Flying) (a : Acted) : BitVec 32 :=
  if a.saName = 0xFFFFE then connPar f.conn.isNone (actL4 (s.action a.action)) else 0

/-! ## Key registers (R318, R319, R327) -/

/-- Number of a key register of a bench. -/
def keyRegKey (k e : Nat) : Nat := k * 1024 + e

/-- A packet in a bench was prepared with a key register for a version of an SA, which stays bound to it (R327). -/
def State.regBound (s : State) (k n v : Nat) : Bool :=
  s.pipe.flying.any (fun f => f.bench == k && (match f.acted with
    | some a => a.key == .loaded && a.sa == some (n, v)
    | none => false))

/-- A key register of a bench is free: not loaded, or bound to no packet. -/
def State.regFree (s : State) (k e : Nat) : Bool :=
  match tblGet s.cipher.keyRegs (keyRegKey k e) with
  | none => true
  | some r => !s.regBound k r.sa r.version

/-- Entries that may serve a packet: 0-511 only one of a timed class (R318). -/
def entriesFor (timed : Bool) : List Nat := if timed then List.range 1024 else (List.range 512).map (· + 512)

/-- An entry among some that holds a key of a version of an SA. -/
def State.regOf (s : State) (k n v half : Nat) (l : List Nat) : Option Nat :=
  l.find? (fun e => match tblGet s.cipher.keyRegs (keyRegKey k e) with
    | some r => r.sa == n && r.version == v && r.half == half
    | none => false)

/-- Load a key into a register of a bench, in two shares whose XOR is the key (R319). -/
def loadReg (k e n v half : Nat) (key : BitVec 256) (s : State) : State :=
  let (mask, s) := drawBytes 4 s
  let share := BitVec.ofNat 256 (ofLe mask)
  { s with cipher := { s.cipher with keyRegs := tblPut s.cipher.keyRegs (keyRegKey k e) ⟨n, v, half, share, key ^^^ share⟩ } }

/-- Load the keys of a set, each into the lowest free entry that may serve the packet, unless an entry holds it. None: there is no
free entry. The choice of the entry is the model's (DESIGN CHOICE, log entry 27). -/
def loadRegs (k n v : Nat) (timed : Bool) : List (Nat × BitVec 256) → State → Option State
  | [], s => some s
  | (half, key) :: rest, s =>
    if (s.regOf k n v half (entriesFor timed)).isSome then loadRegs k n v timed rest s
    else match (entriesFor timed).find? (fun e => s.regFree k e && (match tblGet s.cipher.keyRegs (keyRegKey k e) with
        | some r => !(r.sa == n && r.version == v)
        | none => true)) with
      | none => none
      | some e => loadRegs k n v timed rest (loadReg k e n v half key s)

/-- Prepare the key of a packet: its key set is loaded, two entries for XTS (R318, R326). None: no entry is free and the packet
waits, but for one of a timed class, which never does. -/
def prepareKey (f : Flying) (a : Acted) (s : State) : Option State :=
  match a.sa with
  | none => some s
  | some (n, v) =>
    match tblGet s.sas n with
    | none => some s
    | some x =>
      match x.material v with
      | none => some s
      | some key =>
        let keys := if parMode (s.parOf n a x) = 3 then [(0, key.key1), (1, key.key2)] else [(0, key.key1)]
        match loadRegs f.bench n v (s.timed a.cls) keys s with
        | some t => some t
        | none => if s.timed a.cls then some s else none

/-- A mask generator of a bench's engine. -/
def State.gen (s : State) (k e : Nat) : MaskGen := tblGetD ⟨0, 0⟩ s.cipher.gens (k * 8 + e)

/-- Blocks of a packet that engine e of its bench masks: they are spread evenly (DESIGN CHOICE, log entry 27). -/
def engineShare (n e : Nat) : Nat := (n + 7 - e) / 8

/-- With the DRBG stopped, an engine of the bench has too few blocks left of its seed for a packet of n blocks (R319, R321). -/
def State.masksEnd (s : State) (k n : Nat) : Bool :=
  s.cipher.sources == [] && (List.range 8).any (fun e => decide (4096 < (s.gen k e).used + engineShare n e))

/-- One generate request of the DRBG; the 2^20th reseeds it (R321). -/
def generate (s : State) : State :=
  if s.cipher.generated + 1 < 2 ^ 20 then { s with cipher := { s.cipher with generated := s.cipher.generated + 1 } }
  else { s with cipher := { s.cipher with generated := 0, reseededAt := s.ns } }

/-- A mask generator takes a new seed of the DRBG, which is one generate request; from a stopped DRBG it gets none and masks no block. -/
def reseedGen (k e : Nat) (s : State) : State :=
  if s.cipher.sources = [] then { s with cipher := { s.cipher with gens := tblPut s.cipher.gens (k * 8 + e) ⟨0, 4096⟩ } }
  else
    let t := generate s.drawn
    { t with cipher := { t.cipher with gens := tblPut t.cipher.gens (k * 8 + e) ⟨s.draw, 0⟩ } }

/-- Every mask generator of a bench takes a new seed: at once after a reset of its island (R319). -/
def reseedBench (k : Nat) (s : State) : State := (List.range 8).foldl (fun t e => reseedGen k e t) s

/-- An engine masks blocks: after 4,096 blocks under a seed its mask generator takes a new one (R319). -/
def maskBlocks (k n e : Nat) (s : State) : State :=
  let g := s.gen k e
  let m := g.used + engineShare n e
  if m < 4096 ∨ s.cipher.sources = [] then { s with cipher := { s.cipher with gens := tblPut s.cipher.gens (k * 8 + e) { g with used := m } } }
  else
    let s := reseedGen k e s
    { s with cipher := { s.cipher with gens := tblPut s.cipher.gens (k * 8 + e) { s.gen k e with used := m % 4096 } } }

/-- The engines of a bench process the blocks of a packet. -/
def useMasks (k n : Nat) (s : State) : State := (List.range 8).foldl (fun t e => maskBlocks k n e t) s

/-- A bench's key registers and masks are lost: its island is held in reset (R15). -/
def forgetKeys (k : Nat) (s : State) : State :=
  { s with cipher := { s.cipher with
      keyRegs := s.cipher.keyRegs.filter (fun x => x.1 / 1024 != k)
      gens := s.cipher.gens.filter (fun x => x.1 / 8 != k) } }

/-- The dress stage for a packet whose key preparation ended; ok false: the key is unavailable because of a fault. -/
def dressStage (f : Flying) (a : Acted) (ok : Bool) (s : State) : (Bytes × CipherInfo) × State :=
  match a.sa with
  | none => ((a.bytes, CipherInfo.none), s)
  | some (n, v) =>
    match tblGet s.sas n with
    | none => blankPacket (s.lostPar f a) a.saName 5 a.bytes s
    | some x =>
      let par := s.parOf n a x
      match x.material v with
      | none => blankPacket par a.saName 5 a.bytes s
      | some k =>
        let n' := engineBlocks par a.bytes.length
        if ok = false ∨ s.masksEnd f.bench n' then blankPacket par a.saName 5 a.bytes s
        else if x.state = .exhausted ∧ parOpen par = false then blankPacket par a.saName 4 a.bytes s
        else
          let (d, s) := dressWith ⟨n, par, k, f.bench⟩ a.bytes (touchKey n s)
          let used := if d.status = 6 then 0 else n'
          let s := useMasks f.bench used (s.count CPH_BLOCKS used)
          let s := if d.status = 3 then s.count CPH_AUTH_FAIL 1 else if d.status = 6 then s.count CPH_LEN_ERR 1 else s
          ((d.bytes, ⟨d.status, modeByte par, a.saName, d.iv⟩), s)

/-! ## The key cache (R324, R326) -/

/-- An SA is pinned: an action record that names a contract names it, or it is the connection SA of a connection one of
whose paths names a contract. -/
def State.pinned (s : State) (n : Nat) : Bool :=
  if 0x40000 ≤ n then s.connPinned ((n - 0x40000) / 2)
  else s.tables.actions.any (fun x => actSa x.2 == n && actContract x.2 != 0xFFFF)

/-- A packet's key is at hand: no SA, nothing to prepare, pinned, or cached. -/
def State.keyReady (s : State) (a : Acted) : Bool :=
  match a.sa with
  | none => true
  | some (n, v) => match tblGet s.sas n with
    | none => true
    | some x => (x.material v).isNone || s.pinned n || s.cipher.cache.contains n

/-- Entries of the key cache: SAs whose material it took in, and the pinned ones, which it holds always (R324). -/
def State.kcEntries (s : State) : List Nat :=
  s.cipher.cache ++ tblKeys (fun n (_ : SA) => s.pinned n && !s.cipher.cache.contains n) s.sas

/-- Drop the entry used least recently that is not pinned; the list is newest first. -/
def evictOne (pinned : Nat → Bool) (cache : List Nat) : List Nat :=
  match (cache.reverse).find? (fun n => !pinned n) with
  | some n => cache.filter (· != n)
  | none => cache

/-- Load an SA into the key cache of 131,072 entries, evicting when it is full (R324). -/
def loadKey (n : Nat) (s : State) : State :=
  let cache := s.cipher.cache.filter (· != n)
  let full : Bool := decide (131072 ≤ (s.kcEntries.filter (· != n)).length)
  let cache := if full then evictOne s.pinned cache else cache
  { s with cipher := { s.cipher with cache := n :: cache } }

end Sys2Proof.Machine
end

