-- ==== Sys2Proof/Machine/Gallery.lean ====
section
/-! DEFINITION. Threads' event latches, cairn request lines and gallery slots: what inlets, outlets and instructions share
(spec 16, R429, R434, R435, R443, R444). -/

namespace Sys2Proof.Machine

/-! ## Threads (R12, R429) -/

/-- A thread's architectural state. -/
def State.thread (s : State) (t : Nat) : Thread := tblGetD Thread.fresh s.pnl.threads t

/-- Set it. -/
def State.setThread (s : State) (t : Nat) (x : Thread) : State :=
  { s with pnl := { s.pnl with threads := tblSet Thread.fresh s.pnl.threads t x } }

/-- PNL_THR_STAT.STATE of a thread 0-255. -/
def State.threadState (s : State) (t : Nat) : Nat := s.rd (PNL_THR_STAT_STATE (t / 32) (t % 32))

/-- Set it. -/
def State.setThreadState (s : State) (t st : Nat) : State := s.wr (PNL_THR_STAT_STATE (t / 32) (t % 32)) st

/-- A pending, enabled source that is not in service for a local thread of a cluster, the highest number (R444). -/
def State.cairnSource (s : State) (k t : Nat) : Option Nat :=
  (((s.cairns.filter (fun c => c.1 / 1024 == k && c.2.pend && !c.2.inserv)).map (fun c => c.1 % 1024)).filter (fun n =>
    n != 0 && s.bit (CRN_SRC_EN k n) && (s.rd (CRN_SRC_TARGET k n)).testBit t)).getLast?

/-- The event latch of a thread: CAIRN is the level of its request line (Table 16.4). -/
def State.latch (s : State) (t : Nat) : Nat :=
  s.rd (PNL_THR_STAT_LATCH (t / 32) (t % 32)) / 2 * 2 + (if (s.cairnSource (t / 32) (t % 32)).isSome then 1 else 0)

/-- Set a latch bit of a thread; one that is set already merges (R429). -/
def setLatch (t bit : Nat) (s : State) : State :=
  let f := PNL_THR_STAT_LATCH (t / 32) (t % 32)
  s.wr f (s.rd f ||| 2 ^ bit)

/-- Clear latch bits of a thread, but for CAIRN. -/
def clearLatch (t bits : Nat) (s : State) : State :=
  let f := PNL_THR_STAT_LATCH (t / 32) (t % 32)
  s.wr f ((BitVec.ofNat 7 (s.rd f) &&& ~~~ (BitVec.ofNat 7 (bits / 2 * 2))).toNat)

/-! ## Gallery slots (R434, R435) -/

/-- Number of a slot: (cluster x 64 + gallery) x 256 + slot. -/
def slotKey (k g i : Nat) : Nat := (k * 64 + g) * 256 + i

/-- Slots of a gallery. -/
def State.galSlots (s : State) (k g : Nat) : Nat := 2 ^ s.rd (PNL_GAL_SLOTS_LOG2 k g)

/-- Bytes of a slot. -/
def State.slotSize (s : State) (k g : Nat) : Nat := 64 * 2 ^ s.rd (PNL_GAL_SIZE_LOG2 k g)

/-- Internal address of a cluster's memory (Table 16.1). -/
def clusterMem (k : Nat) : Nat := 0xF080000 + 0x100000 * k

/-- Internal address of a slot. -/
def State.slotAddr (s : State) (k g i : Nat) : Nat := clusterMem k + 64 * s.rd (PNL_GAL_BASE k g) + i * s.slotSize k g

/-- An enabled gallery of a kind. -/
def State.galIs (s : State) (k g kind : Nat) : Bool := s.bit (PNL_GAL_EN k g) && s.rd (PNL_GAL_KIND k g) == kind

/-- The lowest FREE slot of a gallery. -/
def State.freeSlotOf (s : State) (k g : Nat) : Option Nat :=
  (List.range (s.galSlots k g)).find? (fun i => (tblGet s.pnl.slots (slotKey k g i)).isNone)

/-- FREE slots of a gallery. -/
def State.freeSlots (s : State) (k g : Nat) : Nat :=
  ((List.range (s.galSlots k g)).filter (fun i => (tblGet s.pnl.slots (slotKey k g i)).isNone)).length

/-- Set a latch bit of the threads of a cluster that watch a gallery (R429). -/
def galEvent (k g bit : Nat) (s : State) : State :=
  ((List.range 32).filter (fun t => (s.rd (PNL_THR_WATCH_WATCH k t)).testBit g)).foldl (fun u t => setLatch (32 * k + t) bit u) s

/-- A slot becomes SEALED: it takes its place in the seal order, its counting register and cairn source see it, and GAL_DATA
is set (R434, R443). -/
def sealSlot (k g i : Nat) (s : State) : State :=
  let n := tblGetD 0 s.pnl.seals (k * 64 + g)
  let s := { s with pnl := { s.pnl with
    slots := tblPut s.pnl.slots (slotKey k g i) (.sealed n)
    seals := tblPut s.pnl.seals (k * 64 + g) (n + 1) } }
  galEvent k g 1 (cairnEventIn k (g + 1) (s.wr (CRN_CNT_COUNT k (g + 1)) (s.rd (CRN_CNT_COUNT k (g + 1)) + 1)))

/-- A slot becomes FREE, and GAL_SPACE is set. -/
def freeSlotKey (key : Nat) (s : State) : State :=
  galEvent (key / 16384) (key / 256 % 64) 2 { s with pnl := { s.pnl with slots := tblDel s.pnl.slots key } }

/-- Place of a slot in the seal order. -/
def sealOrder : SlotUse → Option Nat
  | .sealed n => some n
  | .reserved _ => none
  | .taken _ => none

/-- The slot of a gallery sealed earliest. -/
def State.oldestSealed (s : State) (k g : Nat) : Option Nat :=
  let l := s.pnl.slots.filterMap (fun x => if x.1 / 256 = k * 64 + g then (sealOrder x.2).map (fun n => (n, x.1 % 256)) else none)
  (sortBy (fun x => x.1) l).head?.map (fun x => x.2)

/-- The enabled delivery gallery of a cluster for a class. -/
def State.deliveryGallery (s : State) (k c : Nat) : Option Nat :=
  (List.range 64).find? (fun g => s.galIs k g 2 && s.rd (PNL_GAL_CLASS k g) == c)

/-- An outlet of a cluster serves a class: its delivery gallery has more FREE slots than packets of the class wait at the
outlet (R437). -/
def State.clusterTakes (s : State) (k c : Nat) : Bool :=
  match s.deliveryGallery k c with
  | none => false
  | some g => decide (((tblGetD [] s.swc.handed (112 + k)).filter (fun p => p.cls == c)).length < s.freeSlots k g)

end Sys2Proof.Machine
end

