-- ==== Sys2Proof/Machine/Commit.lean ====
section
/-! DEFINITION. From a bench into the sett store: routes, copies, commits and acknowledgements (spec 09, R247-R254;
spec 11, R285, R293, R298-R306). -/

namespace Sys2Proof.Machine

/-! ## Routes (R285, R298, R300, R306) -/

/-- A resolved destination: outlet and class after re-pinning, receive ring and its sheet. -/
structure Route where
  outlet : Nat
  cls : Nat
  ring : Option Nat
  toSheet : Option Nat
  repinned : Bool
  deriving DecidableEq, Repr

/-- The receive ring a record names, when it is one of a sheet on the port; else the port's default ring (R285). -/
def State.rxRing (s : State) (port named : Nat) : Option Nat :=
  let own : Bool := match s.ring? named with
    | some r => r.kind == 2 && s.sheetPort r.sheet == some port
    | none => false
  if named ≠ 0xFFFFF ∧ own then some named
  else if s.bit (SWC_RXDEF_EN port) then some (s.rd (SWC_RXDEF_RING port)) else none

/-- A network port that serves nothing, with no alternate enabled: packets bound to it are spoiled (R298). -/
def State.deadPort (s : State) (o : Nat) : Bool :=
  (s.netState o == 0 || s.netState o == 1 || s.netState o == 7) && !s.bit (SWC_ALT_EN o)

/-- Route a packet of a class to an outlet, or name its spoil reason. What is bound to a pinned outlet is bound to its target (R306,
R307). -/
def State.route (s : State) (named outlet cls : Nat) : Route ⊕ Nat :=
  if s.outletExists outlet = false then .inr 0x1E
  else if outlet < 64 then
    if s.bit (SWC_ALT_PINNED outlet) then
      if s.deadPort (s.rd (SWC_ALT_TARGET outlet)) then .inr 0x1C
      else .inl ⟨s.rd (SWC_ALT_TARGET outlet), if s.timed cls then s.rd ADM_CTRL_FALLBACK else cls, none, none, true⟩
    else if s.deadPort outlet then .inr 0x1C
    else .inl ⟨outlet, cls, none, none, false⟩
  else if outlet < 112 ∧ s.portIsEndpoint (hostOf outlet) then
    if s.linkUp (hostOf outlet) = false then .inr 0x1B
    else match s.rxRing (hostOf outlet) named with
      | none => .inr 0x16
      | some g =>
        match s.ring? g with
        | some r => if r.state = .running then .inl ⟨outlet, cls, some g, some r.sheet, false⟩ else .inr 0x17
        | none => .inr 0x17
  else .inl ⟨outlet, cls, none, none, false⟩

/-! ## Commit (R247, R250, R292-R294, R300-R302, R309) -/

/-- The packet a bench hands to the store, before its destination is known. -/
def basePacket (f : Flying) (a : Acted) (bs : Bytes) (ci : CipherInfo) : Packet :=
  {
    id := 0, inlet := f.inlet, outlet := 0, cls := a.cls, bytes := bs, stamp := f.stamp, contract := a.contract,
    sheet := f.sheet, toSheet := none, ring := none, hash := f.hash, result := a.result, action := a.action,
    isDefault := a.isDefault, spoil := a.spoil, total := bs.length, fallback := a.fallback, repinned := false, cipher := ci,
    ptp := none, oneStep := f.oneStep, tx := none, copy := false, due := a.due, edf := none, sent := 0, hold := 0, ext := false,
    staging := f.staging, marker := none }

/-- A packet along a route. -/
def Packet.along (p : Packet) (r : Route) : Packet :=
  { p with
    outlet := r.outlet, cls := r.cls, ring := r.ring, toSheet := r.toSheet, repinned := r.repinned,
    fallback := p.fallback || r.cls != p.cls }

/-- A committed packet of a moving bucket's new epoch is held until its inlet's marker has passed (R250). -/
def State.heldByMove (s : State) (f : Flying) : Bool :=
  match s.pipe.move with
  | none => false
  | some m => m.bucket == f.bucket && f.epoch != m.oldEpoch && m.markers.contains f.inlet

/-- A sequence number of an inlet precedes another (R247). -/
def seqBefore (a b : BitVec 16) : Bool := decide (a ≠ b) && decide ((b - a).toNat < 2 ^ 15)

/-- Insert a held packet before the first of its inlet and bucket with a later sequence number: they are released in sequence order
(R250). -/
def insertHeld (h : HeldPacket) : List HeldPacket → List HeldPacket
  | [] => [h]
  | x :: rest =>
    if x.pkt.inlet = h.pkt.inlet ∧ bucketOf x.pkt.hash = bucketOf h.pkt.hash ∧ seqBefore h.seq x.seq then h :: x :: rest
    else x :: insertHeld h rest

/-- Queue a committed packet, or hold it under its sequence number for a bucket move. -/
def queuePacket (hold : Option (BitVec 16)) (p : Packet) (s : State) : State :=
  match hold with
  | some n => { s with pipe := { s.pipe with held := insertHeld ⟨s.ns, n, p⟩ s.pipe.held } }
  | none => pushVoq p s

/-- Bytes of a truncated mirror copy (Table 11.12). -/
def truncBytes (code : Nat) : Nat := match code with | 1 => 64 | 2 => 128 | _ => 256

/-- Make the mirror copy of a packet to its session's outlet: whole on the shared setts, or truncated in one new sett
(R302). -/
def mirrorCopy (a : Acted) (id : Nat) (p : Packet) (hold : Option (BitVec 16)) (s : State) : State :=
  if a.mirror = 0 then s
  else match s.route 0xFFFFF (s.rd (SWC_MIR_OUTLET a.mirror)) a.cls with
  | .inr r => spoilPacket r { p with tx := none } (s.count SWC_COPIES 1)
  | .inl r =>
    let s := s.count SWC_COPIES 1
    let p := { p.along r with copy := true, tx := none, oneStep := none }
    if s.rd (SWC_MIR_TRUNC a.mirror) = 0 then
      let s := match tblGet s.swc.residents id with
        | some x => { s with swc := { s.swc with residents := tblPut s.swc.residents id { x with refs := x.refs + 1 } } }
        | none => s
      queuePacket hold { p with id := id } s
    else
      let (id', s) := addResident 128 ⟨1, .shared, p.inlet, r.cls, none, 1, []⟩ s
      queuePacket hold { p with id := id', bytes := p.bytes.take (truncBytes (s.rd (SWC_MIR_TRUNC a.mirror))) } s

/-- Spoil a packet in its bench or at its commit, once for each reason. -/
def spoilInBench (p : Packet) (reasons : List Nat) (s : State) : State :=
  reasons.foldl (fun t r => spoilPacket r { p with tx := none } t) s

/-- Good routes of a list of outlets. -/
def goodRoutes : List (Route ⊕ Nat) → List Route
  | [] => []
  | .inl r :: rest => r :: goodRoutes rest
  | .inr _ :: rest => goodRoutes rest

/-- Spoil reasons of a list of outlets. -/
def badRoutes : List (Route ⊕ Nat) → List Nat
  | [] => []
  | .inl _ :: rest => badRoutes rest
  | .inr r :: rest => r :: badRoutes rest

/-- PTP_TC marks a packet from a network inlet to a network outlet (R283). -/
def ptpOf (a : Acted) (o : Nat) : Option Nat := if o < 64 then a.ptp else none

/-- Commit a dressed packet to its VOQs. A copy to the spoil queue counts as made (R300, R302). True when a TX_PKT with TS_REQ now waits for its egress (R204). -/
def commitPacket (f : Flying) (a : Acted) (bs : Bytes) (ci : CipherInfo) (s : State) : Bool × State :=
  let routes := a.outlets.map (fun o => s.route (if a.multicast then 0xFFFFF else a.ring) o a.cls)
  let good := goodRoutes routes
  let p := basePacket f a bs ci
  let s := if a.multicast then s.count SWC_COPIES routes.length else s
  let s := spoilInBench p (badRoutes routes) s
  match good with
  | [] => (false, s)
  | first :: _ =>
    match s.choosePart f.inlet first.cls (setts bs.length) a.contract with
    | none => (false, spoilInBench p [0x1A] (s.count (NET_RX_HEADROOM_DROP f.inlet) 1))
    | some part =>
      let (id, s) := addResident f.inlet ⟨setts bs.length, part, f.inlet, first.cls, f.sheet, good.length, []⟩ s
      let hold := if s.heldByMove f then some f.seq else none
      let waits := f.tsReq && good.any (fun r => decide (r.outlet < 64))
      let at' := good.findIdx (fun r => decide (r.outlet < 64))
      let s := (good.zipIdx).foldl (fun t x =>
        queuePacket hold { p.along x.1 with
          id := id
          copy := a.multicast
          ptp := ptpOf a x.1.outlet
          oneStep := if x.1.outlet < 64 then f.oneStep else none
          tx := if waits ∧ x.2 = at' then f.job else none } t) s
      (waits, mirrorCopy a id p hold s)

/-! ## Acknowledgement (R247, R248, R254) -/

/-- The store acknowledges a packet: its inlet forgets it, the number joins the last 1,024 committed, and a gallery slot
that it came from becomes FREE (R434). -/
def acknowledge (f : Flying) (s : State) : State :=
  let s := match f.gallery with
    | some key => freeSlotKey key s
    | none => s
  let i := tblGetD Inlet.fresh s.pipe.inlets f.inlet
  { s with pipe := { s.pipe with
    flying := s.pipe.flying.erase f
    inlets := tblPut s.pipe.inlets f.inlet { i with committed := (f.seq :: i.committed).take 1024 } } }

/-- Failed benches whose last replayed packet was committed become FAILED, wherever the packets were replayed to (R253, R254). -/
def replaysDone (s : State) : State :=
  s.pipe.replays.foldl (fun t k =>
    if t.pipe.flying.any (fun f => f.owed.contains k) || t.pipe.waiting.any (fun f => f.owed.contains k) then t
    else
      let t := { t with pipe := { t.pipe with replays := t.pipe.replays.filter (· != k) } }
      raise (BNC_EVENT_STATE k) (t.wr (BNC_STATUS_STATE k) 3)) s

/-- Complete the TX_PKT job of a packet that reached the store and does not wait for its egress (R204). -/
def completeTx (f : Flying) (waits : Bool) (ci : CipherInfo) (s : State) : State :=
  match f.job with
  | some (g, idx) => if waits then s else endTx g idx 0 0 f.bytes.length (cipherBody 26 ci) s
  | none => s

/-- The end of a packet's bench: acknowledged, back-pressure compared again, waiting packets sent. -/
def leaveBench (f : Flying) (waits : Bool) (ci : CipherInfo) (s : State) : State :=
  refreshPressure (pumpInlets (replaysDone (completeTx f waits ci (acknowledge f s))))

/-- Dress and enqueue a packet that the act stage passed and whose key is at hand or lost. -/
def finishPacket (f : Flying) (a : Acted) (ok : Bool) (s : State) : State :=
  let ((bs, ci), s) := dressStage f a ok s
  let (waits, s) := commitPacket f a bs ci s
  leaveBench f waits ci s

/-- Order key of a packet: its class and dress mode, with the inlet and bucket it carries (R235). -/
def State.orderKey (s : State) (f : Flying) : Nat × Nat :=
  let key := fun (a : Acted) => (a.cls, match a.sa with
    | some (n, _) => (match tblGet s.sas n with
        | some x => parMode (s.parOf n a x)
        | none => 0)
    | none => 0)
  match f.acted with
  | some a => key a
  | none => match (actStage f s).1 with
    | .inl a => key a
    | .inr _ => (8, 0)

/-- An earlier packet of the same order key is still in the bench of a packet (R235). -/
def State.orderWaits (s : State) (f : Flying) (earlier : List Flying) : Bool :=
  (earlier.filter (fun e => e.bench == f.bench && e.inlet == f.inlet && e.bucket == f.bucket)).any
    (fun e => s.orderKey e == s.orderKey f)

/-- A bench that serves: ACTIVE, and not a failed one whose packets are still being replayed (R254). -/
def State.benchServes (s : State) (k : Nat) : Bool := s.rd (BNC_STATUS_STATE k) == 2 && !s.pipe.replays.contains k

/-- A bench works on packets: it serves and its island is not in reset (R103). -/
def State.benchRuns (s : State) (k : Nat) : Bool := s.benchServes k && !(s.island (0x70 + k)).inReset

end Sys2Proof.Machine
end

