-- ==== Sys2Proof/Machine/BenchOps.lean ====
section
/-! DEFINITION. Shared operations on benches: the bench map, activation, replay, the spare swap and bucket moves
(spec 09, R243, R248-R254). -/

namespace Sys2Proof.Machine

/-- Graticule node, and island, of a bench (Table 4.9). -/
def benchNode (k : Nat) : Nat := 0x70 + k

/-- Default bench of a bucket (R243). -/
def defaultBench (b : Nat) : Nat := if b % 16 ≤ 7 then b % 16 else b % 16 + 1

/-- Buckets mapped to a bench: only a register away from its reset value names one. -/
def State.bucketsOf (s : State) (k : Nat) : List Nat :=
  (tblKeys (fun a v => decide (BNC_MAP 0 ≤ a) && decide (a < BNC_MAP 4096) && getField v 0 5 == k) s.regs).map
    (fun a => (a - BNC_MAP 0) / 4)

/-- Map a bucket to a bench. -/
def mapBucket (k b : Nat) (s : State) : State := s.wr (BNC_MAP_BENCH b) k

/-- Map a bucket to a bench under its next epoch. -/
def remapBucket (k b : Nat) (s : State) : State := (mapBucket k b s).wr (BNC_MAP_EPOCH b) (s.rd (BNC_MAP_EPOCH b) + 1)

/-- Set the state of a bench; a change is reported. -/
def setBench (k st : Nat) (s : State) : State :=
  if s.rd (BNC_STATUS_STATE k) = st then s else raise (BNC_EVENT_STATE k) (s.wr (BNC_STATUS_STATE k) st)

/-- Fill a bench's HBM read budget: it is full when the bench becomes ACTIVE (R262). -/
def fillBudget (k : Nat) (s : State) : State :=
  { s with pipe := { s.pipe with budget := tblPut s.pipe.budget k ⟨64 * 131072, s.datum.toNat⟩ } }

/-- A bench becomes ACTIVE at boot: the buckets whose default bench it is are mapped to it (R243). -/
def activateBench (k : Nat) (s : State) : State :=
  let s := fillBudget k (setBench k 2 s)
  pumpInlets (((List.range 4096).filter (fun b => defaultBench b == k)).foldl (fun t b => mapBucket k b t) s)

/-- Counter values leased to a bench and not issued are never issued (R333). -/
def loseLeases (k : Nat) (s : State) : State :=
  let lost : Nat → SA → SA := fun _ x => { x with next := x.lease.foldl (fun t l => if l.1 % 32 = k then tblPut t l.1 l.2 else t) x.next }
  { s with sas := tblMap lost s.sas }

/-- Empty a bench's learned partition (R273). -/
def forgetLearned (k : Nat) (s : State) : State :=
  { s with tables := { s.tables with learned := tblDel s.tables.learned k, queue := tblDel s.tables.queue k } }

/-- A packet sent again to the bench of its bucket, for a failed bench that owes its commit. During a move of its bucket it keeps
its epoch (R253). It keeps its stamp and number, and the bench that receives it does all of its work again, policing among it: a
contract's token bucket is then asked for its bytes a second time. R248 leaves that open (DESIGN CHOICE, log entry 21). -/
def State.again (s : State) (owed : List Nat) (f : Flying) : Flying :=
  let moving := match s.pipe.move with
    | some m => m.bucket == f.bucket
    | none => false
  { f with
    bench := s.benchFor f
    epoch := if moving then f.epoch else s.rd (BNC_MAP_EPOCH f.bucket)
    replayed := true
    owed := f.owed ++ owed
    acted := none }

/-- Inlets replay the unacknowledged packets of a bench to the bench that now serves their bucket, in order; packets of
a bucket with no bench wait at their inlet, ahead of later ones, and are sent again once it has one (R248). -/
def replayBench (k : Nat) (owed : List Nat) (s : State) : State :=
  let gone := s.pipe.flying.filter (fun f => f.bench == k)
  let sent := (gone.filter (fun f => s.benchFor f != 0x1F))
  let flying := s.pipe.flying.filterMap (fun f =>
    if f.bench = k then (if s.benchFor f = 0x1F then none else some (s.again owed f)) else some f)
  let back := (gone.filter (fun f => s.benchFor f == 0x1F)).map (fun f => { s.again owed f with waited := false })
  let s := { s with pipe := { s.pipe with flying := flying, waiting := back ++ s.pipe.waiting } }
  sent.foldl (fun t f => t.count (BNC_REPLAYED (t.benchFor f)) 1) s

/-! ## Bucket moves (R249-R253) -/

/-- A held packet of an inlet and bucket. -/
def heldOf (inlet : Option Nat) (bucket : Nat) (p : Packet) : Bool :=
  bucketOf p.hash == bucket && (match inlet with
    | some i => p.inlet == i
    | none => true)

/-- A released packet of an outlet that was re-pinned while it was held goes to the alternate (R306). -/
def State.pinTo (s : State) (p : Packet) : Packet :=
  if p.outlet < 64 ∧ s.bit (SWC_ALT_PINNED p.outlet) then
    p.repin (s.rd (SWC_ALT_TARGET p.outlet)) (s.rd ADM_CTRL_FALLBACK) (s.timed p.cls)
  else p

/-- Release held packets into their VOQs, each with the time it was held (R250, R251). -/
def releaseHeld (inlet : Option Nat) (bucket : Nat) (s : State) : State :=
  let go := s.pipe.held.filter (fun h => heldOf inlet bucket h.pkt)
  let s := { s with pipe := { s.pipe with held := s.pipe.held.filter (fun h => !heldOf inlet bucket h.pkt) } }
  go.foldl (fun t h => pushVoq { t.pinTo h.pkt with hold := t.ns - h.since } t) s

/-- A move ends with a status: MOVING and BUSY clear and MOVE_DONE is raised; contract demand moves with the bucket, so ADM_GEN
increments (R85, R249, R250). -/
def endMove (status : Nat) (s : State) : State :=
  match s.pipe.move with
  | none => s
  | some m =>
    let s := releaseHeld none m.bucket { s with pipe := { s.pipe with move := none } }
    let s := ((s.wr (BNC_MAP_MOVING m.bucket) 0).wr BNC_MOVE_STATUS_STATUS status).wr BNC_MOVE_STATUS_BUSY 0
    refreshPressure (raise (BNC_EVENT_MOVE_DONE 0) (bumpGen s))

/-! ## The spare swap (R254) -/

/-- The SPARE bench on a die, or the other spare. -/
def State.spareFor (s : State) (k : Nat) : Option Nat :=
  let spares := (List.range 18).filter (fun j => s.rd (BNC_STATUS_STATE j) == 1)
  match spares.find? (fun j => s.rd (BNC_STATUS_DIE j) == s.rd (BNC_STATUS_DIE k)) with
  | some j => some j
  | none => spares.head?

/-- Hold a bench's island in reset: its learned entries, leases, key registers and masks are gone (R15, R273, R333). -/
def holdBench (k : Nat) (s : State) : State :=
  forgetKeys k (forgetLearned k (loseLeases k (releaseGrants (benchNode k)
    (s.setIsland (benchNode k) { s.island (benchNode k) with inReset := true }))))

/-- One spare bench is consumed (R75). -/
def consumeBench (s : State) : State := spareConsumed (s.wr HLT_SPARE_BENCH (s.rd HLT_SPARE_BENCH - 1))

/-- The move in progress ends with 0x0601 when its target bench failed (R253). -/
def failMoveTo (k : Nat) (s : State) : State :=
  match s.pipe.move with
  | some m => if m.new = k then endMove 0x0601 s else s
  | none => s

/-- Contracts whose bucket lies on a bench. -/
def State.onBench (s : State) (k : Nat) (c : Contract) : Bool := s.benchOf c.par.bucket == k

/-- A bench fault (R254): the bench is held in reset and swapped to a spare, which takes its buckets; its
unacknowledged packets are replayed, and it is FAILED once the last is committed. With no spare its contracts break and its
buckets have no bench under the epoch they had: step 3 increments it for a bucket that is mapped to a spare (R76). A bench
that is being swapped already fails no second time. -/
def benchFault (k : Nat) (s : State) : State :=
  if s.rd (BNC_STATUS_STATE k) = 1 then
    logFault 0x05 (benchNode k) true false true (consumeBench (setBench k 3 (holdBench k s)))
  else if s.benchServes k = false then s
  else
    let buckets := s.bucketsOf k
    let s := holdBench k s
    match s.spareFor k with
    | some sp =>
      let s := consumeBench ((setBench sp 2 s).wr (BNC_STATUS_REPLACES sp) k)
      let s := buckets.foldl (fun t b => remapBucket sp b t) (fillBudget sp s)
      let s := replayBench k [k] (failMoveTo k s)
      let s := replaysDone { s with pipe := { s.pipe with replays := s.pipe.replays ++ [k] } }
      refreshPressure (logFault 0x05 (benchNode k) true false true s)
    | none =>
      let s := breakWhere (s.onBench k) 2 s
      let s := buckets.foldl (fun t b => mapBucket 0x1F b t) s
      let s := setBench k 3 (replayBench k [] (failMoveTo k s))
      refreshPressure (beyondModel 3 (logFault 0x05 (benchNode k) false true true s))

/-- A bench's island resets: its packets are replayed to it (R103, R248). -/
def benchReset (k : Nat) (s : State) : State := refreshPressure (replayBench k [] (holdBench k s))

end Sys2Proof.Machine
end

