-- ==== Sys2Proof/Machine/Bench.lean ====
section
/-! DEFINITION. Commands of the network inlet and the benches (spec 08, R214-R216; spec 09, R236-R254). -/

namespace Sys2Proof.Machine

/-! ## A received frame (R214-R216, R218, R224) -/

/-- A signed correction in ps as 2^-16 ns units, rounded down. -/
def psUnits (bits ps : Nat) : Int := signed bits ps * 65536 / 1000

/-- The network ingress stamp: Datum short now with RX_PS added (Table 2.4). -/
def State.ingressStamp (s : State) (p : Nat) : BitVec 64 :=
  BitVec.ofInt 64 ((s.dshort.toNat : Int) + psUnits 16 (s.rd (DTM_PORT_CORR_RX_PS p)))

/-- A MAC control frame: destination 01-80-C2-00-00-01 and EtherType 0x8808 (R216). -/
def isMacControl (bs : Bytes) : Bool := ofBe (bs.take 6) == 0x0180C2000001 && word16 bs 12 == 0x8808

/-- A MAC control frame's opcode, enable vector and quanta. -/
def controlFrame (p : Nat) (bs : Bytes) (s : State) : State :=
  let op := word16 bs 14
  if op = 0x0101 then macControl p op (word16 bs 16) ((List.range 8).map (fun q => word16 bs (18 + 2 * q))) s
  else macControl p op 0 [word16 bs 16] s

/-- NETWORK_FRAME_RECEIVE: a frame, from destination address to FCS, and whether its FCS is good (R214-R216, R224). A port whose
island is in reset receives nothing and takes no stamp (R49). check: its FCS, and the FEC codewords of each kind received
since the frame before it (Table 8.9). -/
def execNetworkFrameReceive (port : Nat) (frame : Bytes) (check : FrameCheck) (s : State) :
    Host.Outcome State Fault Refusal :=
  let s := if lanesLocked (s.netState port) ∧ (s.island port).inReset = false then
      (s.count (NET_FEC_CORR_CW port) check.corrected).count (NET_FEC_UNCORR_CW port) check.uncorrectable
    else s
  if (s.island port).inReset then .next s
  else if s.netState port = 4 then .next (s.count (NET_RX_NOT_UP port) 1)
  else if s.sendsPfc port = false then .next s
  else if frame.length < 64 then .next (s.count (NET_RX_RUNT port) 1)
  else if check.ok = false then .next (s.count (NET_RX_FCS_ERR port) 1)
  else if s.rd (NET_PORT_CFG_MAX_FRAME port) < frame.length then .next (s.count (NET_RX_OVERSIZE port) 1)
  else if isMacControl frame then .next (controlFrame port frame s)
  else
    let s := (s.count (NET_RX_FRAMES port) 1).count (NET_RX_BYTES port) frame.length
    .next (enterBench (s.newFlying port (frame.take (frame.length - 4)) (s.ingressStamp port)) s)

/-- BUDGET_TOKEN_RELEASE: the oldest packet of an inlet that waits for budget is sent once its bench's budget holds h
tokens (R262). -/
def execBudgetTokenRelease (inlet : Nat) (s : State) : Host.Outcome State Fault Refusal :=
  match s.pipe.waiting.find? (fun f => f.inlet == inlet && f.waited) with
  | none => .next s
  | some f =>
    if s.maySend f ∧ s.budgetHolds f ∧ s.behindReplay f = false then
      let s := { s with pipe := { s.pipe with waiting := s.pipe.waiting.erase f } }
      .next (refreshPressure (sendToBench f (takeBudget f s)))
    else .next s

/-- A packet the act stage or its default action spoils. -/
def spoilActed (f : Flying) (x : Turned) (s : State) : State :=
  let p := basePacket f
    ⟨f.bytes, [], false, f.txCls.getD f.defCls, none, 0, false, 0xFFFFF, x.result, x.action, x.isDefault, 0, none, 0, none, 0xFFFFF,
      .waiting⟩
    f.bytes CipherInfo.none
  leaveBench f false CipherInfo.none (spoilPacket x.reason p s)

/-- A packet waits in dress, with what the act stage decided and how far its key is (R326). -/
def awaitKey (f : Flying) (a : Acted) (s : State) : State :=
  { s with pipe := { s.pipe with flying := s.pipe.flying.map (fun x => if x = f then { f with acted := some a } else x) } }

/-- A packet whose key is at hand, or lost, leaves dress unless an earlier packet of its order key is still in its bench, which it
waits for with its key register bound (R235, R326, R327). -/
def passDress (f : Flying) (a : Acted) (ok waits : Bool) (s : State) : State :=
  let a := { a with key := if ok then .loaded else .lost }
  if waits then awaitKey f a s else finishPacket f a ok s

/-- Prepare a packet's key: it is loaded into the key registers of its bench, or the packet waits in dress for its key or for a
free register (R318, R326). -/
def dressPacket (f : Flying) (a : Acted) (waits : Bool) (s : State) : State :=
  if s.keyReady a then
    match prepareKey f a s with
    | some t => passDress f a true waits t
    | none => awaitKey f { a with key := .waiting } s
  else awaitKey f { a with key := .waiting } s

/-- BENCH_ENQUEUE: the packet at a place of the benches' list, oldest first, completes its bench and is committed, unless
an earlier packet of its order key is still there (R235, R247). A packet whose key must be loaded waits for it. -/
def execBenchEnqueue (place : Nat) (s : State) : Host.Outcome State Fault Refusal :=
  match s.pipe.flying[place]? with
  | none => .next s
  | some f =>
    if s.benchRuns f.bench = false ∨ s.orderWaits f (s.pipe.flying.take place) then .next s
    else match f.acted with
    | some a => match a.key with
      | .waiting => .next (dressPacket f a false s)
      | .loaded => .next (finishPacket f a true s)
      | .lost => .next (finishPacket f a false s)
    | none =>
      if (tblGetD Inlet.fresh s.pipe.inlets f.inlet).committed.contains f.seq ∧ f.replayed then
        .next (leaveBench f true CipherInfo.none s)
      else
        match actStage f s with
        | (.inr x, s) => .next (spoilActed f x s)
        | (.inl a, s) => .next (dressPacket f a false (if s.keyReady a then s else s.count CPH_KEY_MISS 1))

/-- The key cache takes in the SA of a packet (R324). -/
def loadSa (a : Acted) (s : State) : State :=
  match a.sa with
  | some (n, _) => loadKey n s
  | none => s

/-- KEY_LOAD_DONE: the key of a packet waiting in dress is loaded, or unavailable because of a fault, and the packet
proceeds (R326, R330). -/
def execKeyLoadDone (place : Nat) (ok : Bool) (s : State) : Host.Outcome State Fault Refusal :=
  match s.pipe.flying[place]? with
  | none => .next s
  | some f =>
    match f.acted with
    | none => .next s
    | some a =>
      let waits := s.orderWaits f (s.pipe.flying.take place)
      if a.key ≠ .waiting ∨ s.benchRuns f.bench = false then .next s
      else if ok then .next (dressPacket f a waits (loadSa a s))
      else .next (passDress f a false waits s)

/-! ## Profiles (R240) -/

/-- The 16 extraction records of a shadow profile. -/
def State.shadowRecs (s : State) (p : Nat) : List ExtractRec := (List.range 16).map (fun r => unpackRec (s.reg (PROF_REC p r)).toNat)

/-- Two records write a common field-vector byte. -/
def recsOverlap (a b : ExtractRec) : Bool := decide (a.dst < b.dst + b.bytes) && decide (b.dst < a.dst + a.bytes)

/-- Record r fails a check that names it: alone, or against the lower-numbered VALID records before it (R240). -/
def recFails (minLen : Nat) (before : List ExtractRec) (r : ExtractRec) (after : List ExtractRec) : Bool :=
  let mate := fun (x : ExtractRec) => x.valid && x.role == 2 && x.pair == r.pair
  r.valid &&
    (decide (8 * minLen < 8 * r.off + r.bit + r.len) || decide (64 < r.dst + r.bytes) || r.role == 3
      || before.any (fun x => x.valid && recsOverlap x r)
      || (r.role == 2 &&
          (match before.filter mate with
           | [] => !after.any mate
           | [x] => x.len != r.len
           | _ => true)))

/-- The lowest-numbered record that fails. -/
def firstBadRec (minLen : Nat) : List ExtractRec → List ExtractRec → Option Nat
  | _, [] => none
  | before, r :: rest => if recFails minLen before r rest then some before.length else firstBadRec minLen (before ++ [r]) rest

/-- ERR_REC of a shadow profile that fails its check (R240). -/
def State.profileError (s : State) (p : Nat) : Option Nat :=
  let m := s.rd (PROF_SEL_MIN_LEN p)
  let beyond := fun (en off : Fld) => s.bit en && decide (m < s.rd off + 2)
  if s.bit (PROF_SEL_VALID p) = false then none
  else if m = 0 ∨ 256 < m then some 16
  else match firstBadRec m [] (s.shadowRecs p) with
  | some r => some r
  | none => if beyond (PROF_SEL_C0_EN p) (PROF_SEL_C0_OFF p) || beyond (PROF_SEL_C1_EN p) (PROF_SEL_C1_OFF p) then some 16 else none

/-- The lowest-numbered failing profile, with its ERR_REC. -/
def State.firstBadProfile (s : State) : Option (Nat × Nat) :=
  (List.range 64).findSome? (fun p => (s.profileError p).map (fun r => (p, r)))

/-- Registers of a shadow profile. -/
def profileRegs (p : Nat) : List Nat := [PROF_SEL p, PROF_CMP p, PROF_CTL p] ++ (List.range 16).map (PROF_REC p)

/-- The shadow set becomes active. -/
def activateProfiles (s : State) : State :=
  ((List.range 64).flatMap profileRegs).foldl (fun t a => t.setReg (a + 0x2000) (t.reg a)) s

/-- COMMIT of the shadow profiles (R240). A commit that passes clears ERR (Table 9.9); ERR_PROF and ERR_REC keep what they named. -/
def profCommit (s : State) : State :=
  if s.bit (BNC_PROF_STATUS_RETIRING 0) then raise (BNC_EVENT_PROF_REJECT 0) s
  else match s.firstBadProfile with
  | some (p, r) =>
    let s := (s.wr (BNC_PROF_STATUS_ERR 0) 1).wr (BNC_PROF_STATUS_ERR_PROF 0) p
    raise (BNC_EVENT_PROF_REJECT 0) (s.wr (BNC_PROF_STATUS_ERR_REC 0) r)
  | none =>
    let s := activateProfiles s
    let s := (s.wr (BNC_PROF_STATUS_GEN 0) (s.rd (BNC_PROF_STATUS_GEN 0) + 1)).wr (BNC_PROF_STATUS_RETIRING 0) 1
    s.wr (BNC_PROF_STATUS_ERR 0) 0

/-- BNC_PROF_COMMIT (R240). -/
def execBncProfCommit (s : State) : Host.Outcome State Fault Refusal := .next (profCommit s)

/-- PROF_RETIRE_DONE: every packet of the old generation was enqueued (R240). -/
def execProfRetireDone (s : State) : Host.Outcome State Fault Refusal :=
  let old := fun (f : Flying) => f.gen != s.rd (BNC_PROF_STATUS_GEN 0)
  if s.bit (BNC_PROF_STATUS_RETIRING 0) ∧ s.pipe.flying.any old = false ∧ s.pipe.waiting.any old = false then
    .next (raise (BNC_EVENT_PROF_DONE 0) (s.wr (BNC_PROF_STATUS_RETIRING 0) 0))
  else .next s

/-- A write to a shadow profile register is ignored with PROF_REJECT while a generation retires (R240). -/
def shadowWrite (a : Nat) (v : BitVec 64) (s : State) : State :=
  if s.bit (BNC_PROF_STATUS_RETIRING 0) then raise (BNC_EVENT_PROF_REJECT 0) s else s.plainWrite a v

/-- A write to BNC_DEFAULTi: ACTION 1 needs an existing outlet and ACTION 2 a cluster (R245). -/
def defaultWrite (i : Nat) (v : BitVec 64) (s : State) : State :=
  let action := getField v 0 2
  let outlet := getField v 2 7
  if (action = 1 ∧ s.outletExists outlet = false) ∨ (action = 2 ∧ ¬ (112 ≤ outlet ∧ outlet ≤ 119)) then
    raise (BNC_EVENT_CFG_ERR 0) s
  else s.plainWrite (BNC_DEFAULT i) v

/-- BNC_DEFAULT_WRITE (R245). -/
def execBncDefaultWrite (inlet : Nat) (value : BitVec 64) (s : State) : Host.Outcome State Fault Refusal :=
  .next (defaultWrite inlet value s)

/-! ## Bucket moves (R249, R250) -/

/-- With a bucket's contracts added, resource 0x11 or 0x12 of a bench exceeds U (R71, R72). -/
def State.moveOverloads (s : State) (bucket dest : Nat) : Bool :=
  [0x11, 0x12].any (fun code =>
    let r := s.resource code 0
    let used := ((s.others none).filter (fun c => s.demandBench c.par.bucket == dest || c.par.bucket == bucket)).map (fun c => r.demand c.par)
    decide (r.usable < ((used.sum : Nat) : Int)))

/-- Status of a move request, in the order of Table 9.5; 0 lets it start. -/
def State.moveStatus (s : State) (bucket dest : Nat) (force : Bool) : Nat :=
  if 4095 < bucket ∨ 17 < dest then 0x0103
  else if s.benchServes dest = false ∨ s.benchOf bucket = dest then 0x0106
  else if s.moveOverloads bucket dest then 0x0201
  else if force = false ∧ (s.others none).any (fun c => c.par.bucket == bucket) then 0x0206
  else 0

/-- A request to move a bucket (R249). -/
def bucketMove (bucket dest : Nat) (force : Bool) (s : State) : State :=
  if s.bit BNC_MOVE_STATUS_BUSY then s
  else
    let st := s.moveStatus bucket dest force
    if st ≠ 0 then raise (BNC_EVENT_MOVE_DONE 0) (s.wr BNC_MOVE_STATUS_STATUS st)
    else
      let old := s.benchOf bucket
      let epoch := s.rd (BNC_MAP_EPOCH bucket)
      let s := (remapBucket dest bucket s).wr (BNC_MAP_MOVING bucket) 1
      let s := { s with pipe := { s.pipe with
        move := some ⟨bucket, old, dest, epoch, (List.range 123).filter s.outletExists⟩ } }
      pumpInlets (s.wr BNC_MOVE_STATUS_BUSY 1)

/-- BUCKET_MOVE: a write to BNC_MOVE with GO (R249). -/
def execBucketMove (bucket dest : Nat) (force : Bool) (s : State) : Host.Outcome State Fault Refusal :=
  .next (bucketMove bucket dest force s)

/-- DRAIN_MARKER_PASS: the marker of an inlet passes the sett store behind its old-epoch packets; its held packets are
released, and the move completes with the last marker (R250). Once the old bench has failed the marker passes the new one (R253). -/
def execDrainMarkerPass (inlet : Nat) (s : State) : Host.Outcome State Fault Refusal :=
  match s.pipe.move with
  | none => .next s
  | some m =>
    let behind := s.pipe.flying.any (fun f => f.inlet == inlet && f.bucket == m.bucket && f.epoch == m.oldEpoch)
    if behind ∨ m.markers.contains inlet = false then .next s
    else
      let rest := m.markers.filter (· != inlet)
      let s := s.count (BNC_MARKERS (if s.benchServes m.old then m.old else m.new)) 1
      let s := releaseHeld (some inlet) m.bucket { s with pipe := { s.pipe with move := some { m with markers := rest } } }
      .next (if rest = [] then endMove 0 s else refreshPressure s)

/-- BENCH_FAULT (R254). -/
def execBenchFault (bench : Nat) (s : State) : Host.Outcome State Fault Refusal := .next (benchFault bench s)

end Sys2Proof.Machine
end

