-- ==== Sys2Proof/Machine/HostPort.lean ====
section
/-! DEFINITION. Host ports: links, power states, functions, ATS, tags, containment and root ports
(spec 05, R110-R145; R531). -/

namespace Sys2Proof.Machine

/-! ## Links -/

/-- A link may train: the port is present and nothing holds it down. -/
def State.mayTrain (s : State) (p : Nat) : Bool :=
  s.portPresent p && !s.bit (HP_PORT_CFG_LINK_DIS p) && !(s.port p).perst && !(s.port p).clkLost
    && !s.bit (HP_PORT_STATUS_DPC p) && (s.island (0x40 + p)).released

/-- Sample the functions of an endpoint port as HP_PF_CFGf enables them (R118); in minimal mode all but function 0 are absent
(R462). -/
def sampleFunc (p f : Nat) (s : State) : State :=
  if s.bit (HP_PF_CFG_EN p f) ∧ (f = 0 ∨ s.rd SVY_BOOT_STATUS_STATE ≠ 4) then
    s.setFunc p f { s.func p f with
      present := true, bar0Log2 := s.rd (HP_PF_CFG_BAR0_LOG2 p f), bar2Log2 := s.rd (HP_PF_CFG_BAR2_LOG2 p f)
      msixN := s.rd (HP_PF_CFG_MSIX_N p f) }
  else disableFunction p f 5 (s.setFunc p f Func.absent)

/-- Sample all eight functions of an endpoint port (R118). -/
def sampleFuncs (p : Nat) (s : State) : State := (List.range 8).foldl (fun t f => sampleFunc p f t) s

/-- HP_PORT_STATUS of a link that is up; infCredit: the partner advertises infinite posted credits (Table 5.7). -/
def showLink (p speed lanes : Nat) (flit infCredit : Bool) (s : State) : State :=
  let s := ((s.wr (HP_PORT_STATUS_LINK_UP p) 1).wr (HP_PORT_STATUS_SPEED p) speed).wr (HP_PORT_STATUS_WIDTH p) lanes
  let s := (s.wr (HP_PORT_STATUS_FLIT p) (if flit then 1 else 0)).wr (HP_PORT_STATUS_PRESENT p) 1
  (s.wr (HP_PORT_STATUS_PM p) 0).setPort p { s.port p with infCredit := infCredit, l1 := 0 }

/-- A port whose link is below its configured width or speed, or without FLIT mode, is DEGRADED and its contracts break with cause 3
(R111). -/
def judgeLink (p speed lanes : Nat) (flit : Bool) (s : State) : State :=
  if lanes < s.portWidth p ∨ speed < s.rd (HP_PORT_CFG_MAX_SPEED p) ∨ flit = false then
    breakWhere (usesPort (64 + p)) 3 (raise (HP_EVENT_DEGRADED p) (s.wr (HP_PORT_STATUS_DEGRADED p) 1))
  else s.wr (HP_PORT_STATUS_DEGRADED p) 0

/-- HOST_LINK_UP: a link trains, for the first time or again, at a speed code, a number of lanes and with or without
FLIT mode, which 64 GT/s always uses. An endpoint port samples its functions and reports ARRIVED, or RETRAINED when its speed or width
changed (R110, R111, R118, Table 18.4). -/
def execHostLinkUp (port speed lanes : Nat) (partner : LinkPartner) (s : State) : Host.Outcome State Fault Refusal :=
  if s.mayTrain port = false ∨ speed = 0 ∨ lanes = 0 then .next s
  else
    let was := s.linkUp port
    let shape := (s.rd (HP_PORT_STATUS_SPEED port), s.rd (HP_PORT_STATUS_WIDTH port))
    let sp := min speed (s.rd (HP_PORT_CFG_MAX_SPEED port))
    let w := min lanes (s.portWidth port)
    let flit := partner.flit || sp == 6
    let s := showLink port sp w flit partner.infCredit s
    let s := refreshPressure (resizePool (if was then s else raise (HP_EVENT_LINK port) s))
    let s := if s.portIsRoot port then (if was then s else s.setPort port { s.port port with enumerating := true })
      else
        let s := sampleFuncs port s
        if was then (if shape = (sp, w) then s else surveyRec 0 3 port (sp + w * 16) [] 0 s)
        else surveyRec 0 1 port (sp + w * 16) [] 0 s
    .next (judgeLink port sp w flit s)

/-- HOST_LINK_DOWN: an endpoint port's link is lost other than by a power state (R137). -/
def execHostLinkDown (port : Nat) (s : State) : Host.Outcome State Fault Refusal :=
  if s.portIsEndpoint port then .next (endpointLost port s) else .next s

/-- HP_RETRAIN: an endpoint port whose link is up samples its functions as the link trains again; no link is lost. What
the training arrives at, the next HOST_LINK_UP or HOST_LINK_DOWN says (R118, Table 5.6). -/
def execHpRetrain (port : Nat) (s : State) : Host.Outcome State Fault Refusal :=
  if s.portIsEndpoint port ∧ s.linkUp port then .next (sampleFuncs port s) else .next s

/-- HP_LINK_DISABLE: LINK_DIS holds the link down while set, and PCIE_PERST_N of a root port low (R145, R531). -/
def execHpLinkDisable (port : Nat) (on : Bool) (s : State) : Host.Outcome State Fault Refusal :=
  if s.portPresent port = false then .next s
  else
    let s := s.wr (HP_PORT_CFG_LINK_DIS port) (if on then 1 else 0)
    let s := if s.portIsRoot port then s.emit (.ball 3 port (if on then 0 else 1)) else s
    if on then
      if s.portIsRoot port then (if s.linkUp port then .next (failReads port (portDown port s)) else .next s)
      else .next (endpointLost port s)
    else .next s

/-- HP_OBS_CLR (Table 5.6). -/
def execHpObsClr (port : Nat) (s : State) : Host.Outcome State Fault Refusal :=
  .next (s.wr (HP_CREDIT_OBS_MAX_NS port) 0)

/-- PERST_ASSERT: the fundamental reset of an endpoint port takes its link down (R531). -/
def execPerstAssert (port : Nat) (s : State) : Host.Outcome State Fault Refusal :=
  if s.portIsEndpoint port then
    .next (endpointLost port (s.setPort port { s.port port with perst := true }))
  else .next s

/-- PERST_DEASSERT: the port may train after at least 1 ms (R531). -/
def execPerstDeassert (port : Nat) (s : State) : Host.Outcome State Fault Refusal :=
  .next (s.setPort port { s.port port with perst := false })

/-! ## Power states (R77, R112, R113) -/

/-- Something waits in the store for an outlet. -/
def State.outletQueued (s : State) (o : Nat) : Bool := s.voqs.any (fun q => (q.1 / 8 % 128 == o) && !q.2.isEmpty)

/-- L0P_ENTER: the width falls to L0P_MIN, when L0p is negotiated and that is narrower than the port (R112). -/
def execL0pEnter (port : Nat) (s : State) : Host.Outcome State Fault Refusal :=
  if s.linkUp port ∧ s.bit (HP_PORT_STATUS_FLIT port) ∧ s.rd (HP_PORT_STATUS_PM port) = 0
      ∧ s.minLanes port < s.portWidth port ∧ s.pmPermits port 1 then
    .next (s.wr (HP_PORT_STATUS_PM port) 1)
  else .next s

/-- L0P_EXIT: the full width returns (R112). -/
def execL0pExit (port : Nat) (s : State) : Host.Outcome State Fault Refusal :=
  if s.rd (HP_PORT_STATUS_PM port) = 1 then .next (s.wr (HP_PORT_STATUS_PM port) 0) else .next s

/-- A level of L1 is enabled: by the host in an endpoint port's control bits (an operand), or by the device in the component below a
root port (R112). -/
def State.l1Enabled (s : State) (p level : Nat) (byHost : Bool) : Bool :=
  if s.portIsRoot p then (s.port p).aspm.testBit (level - 1) else byHost

/-- L1_ENTER at a level (1 L1, 2 L1.1, 3 L1.2): transmit queues empty, no read outstanding, the level enabled and permitted (R77,
R112). -/
def execL1Enter (port level : Nat) (enabled : Bool) (s : State) : Host.Outcome State Fault Refusal :=
  if s.linkUp port ∧ 1 ≤ level ∧ level ≤ 3 ∧ s.l1Enabled port level enabled ∧ s.rd (HP_PORT_STATUS_PM port) ≠ 2
      ∧ (s.portTags port).isEmpty ∧ s.outletQueued (64 + port) = false
      ∧ s.pmPermits port (l1Depth level) then
    .next (((s.wr (HP_PORT_STATUS_PM port) 2).setPort port { s.port port with l1 := level }).emit (.portMessage port 1 level))
  else .next s

/-- L1_EXIT: traffic needs the link (R113). -/
def execL1Exit (port : Nat) (s : State) : Host.Outcome State Fault Refusal :=
  if s.rd (HP_PORT_STATUS_PM port) = 2 then .next (s.wr (HP_PORT_STATUS_PM port) 0) else .next s

/-- CREDIT_WAIT_EXCEEDED: a posted-credit wait is recorded, and beyond CREDIT_NS raises CREDIT; the packets that waited
count as held from outside (R76, R116). -/
def execCreditWaitExceeded (port waitNs : Nat) (s : State) : Host.Outcome State Fault Refusal :=
  let s := s.wr (HP_CREDIT_OBS_MAX_NS port) (max (s.rd (HP_CREDIT_OBS_MAX_NS port)) (min waitNs (2 ^ 20 - 1)))
  if s.rd (ADM_OUT_CFG_CREDIT_NS (64 + port)) < waitNs then
    .next (markExternal (fun p => p.outlet == 64 + port) (raise (HP_EVENT_CREDIT port) s))
  else .next s

/-! ## Functions (R119, R135, R136) -/

/-- A vector that may be sent: pending and masked by nothing. -/
def State.vecReady (s : State) (p f v : Nat) : Bool :=
  (s.vec p f v).pend && !(s.vec p f v).mask && (s.func p f).bme && !(s.func p f).fmask

/-- Send a pending vector and clear its pending bit. -/
def sendPending (p f v : Nat) (s : State) : State :=
  if s.vecReady p f v then (s.setVec p f v { s.vec p f v with pend := false }).emit (.msix p f v) else s

/-- Vectors of a function that are away from their reset value, ascending. -/
def State.funcVectors (s : State) (p f : Nat) : List Nat :=
  (tblKeys (fun k _ => k / 2048 == funcKey p f) s.vectors).map (fun k => k % 2048)

/-- Send every pending vector of a function that nothing masks, in ascending number (R135). -/
def sendAllPending (p f : Nat) (s : State) : State :=
  (s.funcVectors p f).foldl (fun t v => sendPending p f v t) s

/-- MSIX_UNMASK (R119). -/
def execMsixUnmask (port pf vec : Nat) (s : State) : Host.Outcome State Fault Refusal :=
  if (s.func port pf).present ∧ vec ≤ (s.func port pf).msixN then
    .next (sendPending port pf vec (s.setVec port pf vec { s.vec port pf vec with mask := false }))
  else .next s

/-- BME_CLEAR (R135): sheets are disabled with cause 1. -/
def execBmeClear (port pf : Nat) (s : State) : Host.Outcome State Fault Refusal :=
  .next (configWrite port pf (fun t => if (t.func port pf).bme then clearBme port pf 1 t else t) s)

/-- BME_SET: the host's configuration writes also carry PASID Enable, Enable Relaxed Ordering, the Function Mask and the completion
timeout of Device Control 2 as they leave them (notes/assumptions/10); pending vectors are sent (R134, R135). -/
def execBmeSet (port pf : Nat) (pasidEn funcMask : Bool) (control : DeviceControl) (s : State) : Host.Outcome State Fault Refusal :=
  .next (configWrite port pf (fun t => sendAllPending port pf (t.setFunc port pf { t.func port pf with
    bme := true, pasidEn := (t.func port pf).pasidEn || pasidEn, roEn := control.roEn, fmask := funcMask, cplTo := control.cplTo % 16 })) s)

/-- FLR (R136): sheets are disabled with cause 2; configuration requests are answered Retry until it completes. -/
def execFlr (port pf : Nat) (s : State) : Host.Outcome State Fault Refusal :=
  .next (configWrite port pf (fun t =>
    let u := flrFunction port pf 2 t
    surveyRec 1 4 (port * 8 + pf) 0 [] 0 (u.setFunc port pf { u.func port pf with flr := true })) s)

/-- FLR_COMPLETE (R136). -/
def execFlrComplete (port pf : Nat) (s : State) : Host.Outcome State Fault Refusal :=
  if (s.func port pf).flr then .next (s.setFunc port pf { s.func port pf with flr := false }) else .next s

/-- PASID_ENABLE_CLEAR: ACTIVE and DEBUG sheets of the function with a nonzero PASID are disabled with cause 4
(R156). -/
def execPasidEnableClear (port pf : Nat) (s : State) : Host.Outcome State Fault Refusal :=
  .next (configWrite port pf (fun t =>
    (t.funcSheets port pf).foldl (fun u n => if u.rd (CAD_ID_PASID n) = 0 then u else disableSheet n 4 u)
      (t.setFunc port pf { t.func port pf with pasidEn := false })) s)

/-! ## ATS and page requests (R131-R133) -/

/-- Two ranges of one PASID meet. -/
def atsOverlap (e : AtsEntry) (pasid page sizeLog2 : Nat) : Bool :=
  e.pasid == pasid && decide (e.page < page + 2 ^ (sizeLog2 - 12)) && decide (page < e.page + 2 ^ (e.sizeLog2 - 12))

/-- ATS_INVALIDATION_REQUEST: use of the matching entries stops at once (R132). -/
def execAtsInvalidationRequest (port pf pasid page sizeLog2 : Nat) (s : State) : Host.Outcome State Fault Refusal :=
  let f := s.func port pf
  if f.present then
    .next (s.setFunc port pf { f with
      ats := f.ats.filter (fun e => !atsOverlap e pasid page sizeLog2)
      invalidating := f.invalidating ++ [(pasid, page, sizeLog2)] })
  else .next s

/-- A read of a function is out under a translation of a range that is being invalidated (R132). -/
def State.readUnder (s : State) (p f pasid page sizeLog2 : Nat) : Bool :=
  (s.portTags p).any (fun r => r.req.pf == f && r.req.translated && r.req.pasid.getD 0 == pasid
    && decide (page ≤ r.req.addr / 4096) && decide (r.req.addr / 4096 < page + 2 ^ (sizeLog2 - 12)))

/-- ATS_INVALIDATION_COMPLETE: once no read translated by the entries is out, the completion is sent; posted writes have been
transmitted when the command that makes them ends (R132). -/
def execAtsInvalidationComplete (port pf : Nat) (s : State) : Host.Outcome State Fault Refusal :=
  match (s.func port pf).invalidating with
  | [] => .next s
  | (pasid, page, size) :: rest =>
      if s.readUnder port pf pasid page size then .next s
      else .next ((s.setFunc port pf { s.func port pf with invalidating := rest }).emit (.portMessage port 2 page))

/-- ATS_PRI_ENABLE_CHANGE: enabling PRI again lifts the stop after a Response Failure (R133). -/
def execAtsPriEnableChange (port pf : Nat) (ats pri : Bool) (s : State) : Host.Outcome State Fault Refusal :=
  .next (configWrite port pf (fun t =>
    let f := t.func port pf
    t.setFunc port pf { f with
      atsEn := ats, priEn := pri, ats := if ats then f.ats else [], priStopped := f.priStopped && !(pri && !f.priEn) }) s)

/-! ## Completions of the device's own reads (R23, R134, R135) -/

/-- A read of a tag. -/
def State.readTag (s : State) (p tag : Nat) : Option ReadTag := s.reads.find? (fun r => r.req.port == p && r.tag == tag)

/-- HOST_READ_COMPLETION: the final completion of a tag, good or not. Data of a quarantined tag is dropped and
counted; entries are queued, or a failed entry read faults its ring; a forwarded read is answered (R23, R124, R135). -/
def execHostReadCompletion (port tag : Nat) (ok : Bool) (entries : List Entry) (bytes : Bytes) (s : State) :
    Host.Outcome State Fault Refusal :=
  match s.readTag port tag with
  | none => .next s
  | some r =>
    let s := endRead port tag s
    if r.quarantined then .next (raise (HP_EVENT_LATE_CPL port) (s.count (HP_LATE_CPL_CNT_COUNT port) 1))
    else match r.use with
      | .fetch g => if ok then .next (issueFetch g (fetchArrive g entries s)) else .next (fetchFault g s)
      | .peer q f _ n => .next (if ok then s.emit (.reply (.host q f) (bytes.take n)) else peerOnes q f n s)
      | .data => .next s

/-- COMPLETION_TIMEOUT: a tag with no completion by the timeout ends (R134). -/
def execCompletionTimeout (port tag : Nat) (s : State) : Host.Outcome State Fault Refusal :=
  match s.readTag port tag with
  | none => .next s
  | some r =>
    let s := endRead port tag s
    if r.quarantined then .next s
    else match r.use with
      | .fetch g => .next (fetchFault g s)
      | .peer q f _ n => .next (peerOnes q f n s)
      | .data => .next s

/-! ## Root ports (R28, R139-R143) -/

/-- DPC_TRIGGER (R139). -/
def execDpcTrigger (port : Nat) (s : State) : Host.Outcome State Fault Refusal := .next (containPort port s)

/-- DPC_RELEASE: the link has been down for 100 ms (R139). -/
def execDpcRelease (port : Nat) (s : State) : Host.Outcome State Fault Refusal :=
  .next (s.wr (HP_PORT_STATUS_DPC port) 0)

/-- CXL is negotiated on a root port: the partner's alternate protocol, in FLIT mode, at width x4, x8 or x16 (R143). -/
def State.cxlLink (s : State) (p : Nat) : Bool :=
  s.bit (HP_PORT_STATUS_FLIT p) && [4, 8, 16].contains (s.rd (HP_PORT_STATUS_WIDTH p))

/-- What a function below a root port is bound to: an NVMe device, an expander where CXL was negotiated, or nothing (R141). -/
def boundAs (cxl : Bool) (f : FoundFunc) : Component :=
  if f.classCode = 0x010802 then .nvme else if cxl ∧ f.cxlDevice then .cxl else .other

/-- The component that functions make: the first one bound decides, and a function of the other kind is left out (log entry 16). -/
def foundComponent (cxl : Bool) (l : List FoundFunc) : Component :=
  match l.find? (fun f => boundAs cxl f != .other) with
  | some f => boundAs cxl f
  | none => if l = [] then .none else .other

/-- Configure one function below a root port: Max Payload Size the smaller of the two ends, tags, BARs from the port's private
address space (their addresses are free), AER reporting; memory decoding, Bus Master Enable and MSI-X only for a function that is
bound (R140, R141). -/
def configureFunc (port mps tagBits i : Nat) (bound : Bool) (msix : Bool) (s : State) : State :=
  let on := if bound then 1 else 0
  let s := s.emit (.config port i .maxPayload (min 512 mps))
  let s := if 10 ≤ tagBits then s.emit (.config port i .tagBits (if 14 ≤ tagBits then 14 else 10)) else s
  let s := s.drawn.emit (.config port i .bar s.draw.toNat)
  let s := (s.emit (.config port i .memoryDecode on)).emit (.config port i .busMaster on)
  let s := if bound ∧ msix then s.emit (.config port i .msix 1) else s
  s.emit (.config port i .aer 1)

/-- Configure the functions found, from a number on, and report those that are not bound as unsupported (R140, R141). -/
def configureFuncs (port : Nat) (cxl : Bool) (comp : Component) (mps tagBits vendor : Nat) (serial : Bytes) :
    Nat → List FoundFunc → State → State
  | _, [], s => s
  | i, f :: rest, s =>
    let bound : Bool := boundAs cxl f == comp && comp != .other
    let s := configureFunc port mps tagBits i bound (comp == .nvme) s
    let s := if bound then s else surveyRec 2 5 port f.classCode serial vendor s
    configureFuncs port cxl comp mps tagBits vendor serial (i + 1) rest s

/-- ROOT_PORT_ENUMERATE: 100 ms after link-up the functions of the component below are configured and bound: an NVMe device to the
storage engine, a CXL type 3 expander for CXL_ATTACH; any other function is left disabled and reported (R140, R141, R143). The
partner gives whether it took part in CXL negotiation, and the payload and tag sizes it supports. -/
def execRootPortEnumerate (port : Nat) (partner : RootPartner) (funcs : List FoundFunc) (vendor : Nat) (serial : Bytes)
    (s : State) : Host.Outcome State Fault Refusal :=
  let x := s.port port
  if s.portIsRoot port ∧ s.linkUp port ∧ x.enumerating then
    let cxl := partner.cxl && s.cxlLink port
    let comp := foundComponent cxl funcs
    let cls := match funcs.find? (fun f => boundAs cxl f == comp) with
      | some f => f.classCode
      | none => 0
    let s := s.setPort port { x with comp := comp, enumerating := false, serial := serial, classCode := cls, vendor := vendor, aspm := 0 }
    let s := settleAspm port (configureFuncs port cxl comp partner.mps partner.tagBits vendor serial 0 funcs s)
    if comp = .nvme then .next (consArrive (32 + port) 2 serial vendor (surveyRec 2 1 port 0x010802 serial vendor s))
    else .next s
  else .next s

/-- ROOT_PRESENCE_CHANGE: PRESENCE is raised; a removal is surprise removal (R142). -/
def execRootPresenceChange (port : Nat) (present : Bool) (s : State) : Host.Outcome State Fault Refusal :=
  if s.portIsRoot port then
    let s := raise (HP_EVENT_PRESENCE port) (s.wr (HP_PORT_STATUS_PRESENT port) (if present then 1 else 0))
    if present then .next s
    else if (s.port port).comp ≠ .none ∨ s.linkUp port then .next (containPort port s) else .next s
  else .next s

/-- Attached CXL memory in bytes. -/
def State.cxlAttached (s : State) : Nat := tblSum (fun _ x => x.cxlSize) s.ports

/-- 1 GiB. -/
def gib : Nat := 2 ^ 30

/-- Where an expander of a capacity goes: a range freed by an expander of the same or a larger capacity, else the next address
aligned to 1 GiB; none beyond the aperture (R28). R28 leaves open which of several such ranges is reused and what becomes of the
rest of a larger one: the one freed first is, and its rest is not used again (DESIGN CHOICE, log entry 16). -/
def State.cxlPlace (s : State) (capacity : Nat) : Option (Nat × List (Nat × Nat) × Nat) :=
  match s.cxlFree.find? (fun r => decide (capacity ≤ r.2)) with
  | some r => some (r.1, s.cxlFree.filter (· != r), s.cxlNext)
  | none =>
    if s.cxlNext + capacity ≤ 0x820000000000 then some (s.cxlNext, s.cxlFree, s.cxlNext + (capacity + gib - 1) / gib * gib)
    else none

/-- Program an expander: CXL.io and CXL.mem enabled and not CXL.cache, HDM decoder 0 with one range, and its commit (R143). -/
def programHdm (port base capacity : Nat) (s : State) : State :=
  let s := s.emit (.config port 0 .cxlProtocols 6)
  ((s.emit (.config port 0 .hdmBase base)).emit (.config port 0 .hdmSize capacity)).emit (.config port 0 .hdmCommit 1)

/-- CXL_ATTACH: after Memory_Active the expander's range is placed, programmed and added to the aperture, or left out and reported
above 2 TiB or where the aperture has no range for it (R28, R143). -/
def execCxlAttach (port capacity classCode vendor : Nat) (s : State) : Host.Outcome State Fault Refusal :=
  let x := s.port port
  if x.comp = .cxl ∧ x.cxlSize = 0 ∧ s.linkUp port ∧ s.cxlLink port ∧ 0 < capacity then
    match (if s.cxlAttached + capacity ≤ 2 ^ 41 then s.cxlPlace capacity else none) with
    | some (base, free, nxt) =>
      let s := programHdm port base capacity { s with cxlFree := free, cxlNext := nxt }
      let s := s.setPort port { x with cxlBase := base, cxlSize := capacity }
      let s := attachCache port capacity (s.wr (HP_PORT_STATUS_CXL port) 1)
      .next (consArrive (32 + port) 3 x.serial vendor (surveyRec 2 1 port classCode x.serial vendor s))
    | none => .next (surveyRec 2 6 port classCode x.serial vendor s)
  else .next s

/-- AER_ERROR_MESSAGE: 0 correctable, counted; 1 non-fatal, to the storage engine; 2 fatal, containment (R139, R140). -/
def execAerErrorMessage (port severity : Nat) (s : State) : Host.Outcome State Fault Refusal :=
  if s.portIsRoot port then
    match severity with
    | 0 => .next (s.setPort port { s.port port with aerCorr := (s.port port).aerCorr + 1 })
    | 1 => .next (s.emit (.portMessage port 4 1))
    | _ => .next (containPort port s)
  else .next s

end Sys2Proof.Machine
end

