-- ==== Sys2Proof/Machine/Window.lean ====
section
/-! DEFINITION. Window tables: the shadow and active banks, the commit check, and translation of host requests
(spec 05, R121-R128). -/

namespace Sys2Proof.Machine

/-- A window entry, Table 5.4. -/
structure Win where
  valid : Bool
  bar : Nat
  sizeLog2 : Nat
  kind : Nat
  wrDis : Bool
  offset : Nat
  target : Nat
  peerPort : Nat
  pasidEn : Bool
  pasid : Nat
  deriving DecidableEq, Repr

/-- Address of a word of an entry of the shadow bank; the active bank lies 0x2000 higher (R121). -/
def winAddr (p f n w : Nat) : Nat := 0x4002000 + p * 0x10000 + f * 0x400 + n * 0x20 + w * 8

/-- An entry of a bank: the shadow bank, or the active one. A window of KIND 0 counts as not valid. -/
def State.window (s : State) (active : Bool) (p f n : Nat) : Win :=
  let b := if active then 0x2000 else 0
  let w0 := s.reg (winAddr p f n 0 + b)
  let w2 := s.reg (winAddr p f n 2 + b)
  { valid := w0.getLsbD 0 && getField w0 8 3 != 0
    bar := getField w0 1 1
    sizeLog2 := getField w0 2 6
    kind := getField w0 8 3
    wrDis := w0.getLsbD 11
    offset := getField w0 12 28 * 4096
    target := (s.reg (winAddr p f n 1 + b)).toNat
    peerPort := getField w2 0 6
    pasidEn := w2.getLsbD 6
    pasid := getField w2 7 20 }

/-- Size of a BAR of a function, 0 for none: as sampled, or as configured for a function that is absent. -/
def State.barSize (s : State) (p f bar : Nat) : Nat :=
  let fn := s.func p f
  let l := if bar = 0 then (if fn.present then fn.bar0Log2 else s.rd (HP_PF_CFG_BAR0_LOG2 p f))
    else (if fn.present then fn.bar2Log2 else s.rd (HP_PF_CFG_BAR2_LOG2 p f))
  if l = 0 then 0 else 2 ^ l

/-- Bytes of a BAR a window may cover: BAR0 without its MSI-X region (R119). -/
def State.barRoom (s : State) (p f bar : Nat) : Nat := if bar = 0 then s.barSize p f 0 - 65536 else s.barSize p f 1

/-- The target range of a kind holds the window (Table 1.6). -/
def targetInRange (kind target size : Nat) : Bool :=
  match kind with
  | 1 => decide (target + size ≤ 0x20000000)
  | 2 => decide (0x20000000 ≤ target) && decide (target + size ≤ 0x21000000)
  | 4 => decide (0x400000000000 ≤ target) && decide (target + size ≤ 0x403000000000)
  | 5 => decide (0x800000000000 ≤ target) && decide (target + size ≤ 0x820000000000)
  | _ => true

/-- A valid entry passes the checks of R125 that concern it alone. -/
def State.winFits (s : State) (p f : Nat) (w : Win) : Bool :=
  let size := 2 ^ w.sizeLog2
  decide (12 ≤ w.sizeLog2) && decide (w.sizeLog2 ≤ 40) && w.kind != 7
    && (w.offset % size == 0) && (w.kind == 3 || w.target % size == 0)
    && decide (w.offset + size ≤ s.barRoom p f w.bar)
    && targetInRange w.kind w.target size
    && (w.kind != 6 || (s.portPresent w.peerPort && w.peerPort != p))

/-- Two windows of one BAR overlap. -/
def winOverlap (a b : Win) : Bool :=
  a.valid && b.valid && a.bar == b.bar && decide (a.offset < b.offset + 2 ^ b.sizeLog2)
    && decide (b.offset < a.offset + 2 ^ a.sizeLog2)

/-- An entry of the shadow bank fails the commit check: on its own account, or because it overlaps another valid window of its BAR
(R125). -/
def State.winFails (s : State) (p f n : Nat) : Bool :=
  let w := s.window false p f n
  w.valid && (!s.winFits p f w || (List.range 32).any (fun k => k != n && winOverlap w (s.window false p f k)))

/-- The first failing entry of the shadow bank of a port, as function x 32 + window. -/
def State.firstBadWin (s : State) (p : Nat) : Option Nat :=
  (List.range 256).find? (fun k => s.winFails p (k / 32) (k % 32))

/-- Copy a bank of a port: to the active bank, or back. -/
def copyBank (p : Nat) (toActive : Bool) (s : State) : State :=
  (List.range 1024).foldl (fun t k =>
    let a := 0x4002000 + p * 0x10000 + k * 8
    if toActive then t.setReg (a + 0x2000) (t.reg a) else t.setReg a (t.reg (a + 0x2000))) s

/-- HP_WIN_COMMIT: ignored with WIN_REJECT while RETIRING; a bank that fails its check changes nothing; a bank that
passes becomes active, GEN increments and RETIRING is set (R125, R128). -/
def execHpWinCommit (port : Nat) (s : State) : Host.Outcome State Fault Refusal :=
  if s.portPresent port = false then .next s
  else if s.bit (HP_WIN_STATUS_RETIRING port) then .next (raise (HP_EVENT_WIN_REJECT port) s)
  else match s.firstBadWin port with
    | some k =>
        let s := (s.wr (HP_WIN_STATUS_ERR port) 1).wr (HP_WIN_STATUS_ERR_PF port) (k / 32)
        .next (raise (HP_EVENT_WIN_REJECT port) (s.wr (HP_WIN_STATUS_ERR_IDX port) (k % 32)))
    | none =>
        let s := copyBank port true s
        let s := (s.wr (HP_WIN_STATUS_ERR port) 0).wr (HP_WIN_STATUS_GEN port) (s.rd (HP_WIN_STATUS_GEN port) + 1)
        .next (s.wr (HP_WIN_STATUS_RETIRING port) 1)

/-- A request of an older generation of a port's windows is not retired: a read forwarded and not answered, or an access held for an
island in reset (R16, R127). -/
def State.oldRequests (s : State) (p : Nat) : Bool :=
  let gen := s.rd (HP_WIN_STATUS_GEN p)
  s.reads.any (fun r => match r.use with
    | .peer q _ g _ => q == p && g != gen
    | _ => false)
    || s.islands.any (fun x => x.2.held.any (fun h => match h.who with
      | .host q _ => q == p && h.gen != gen
      | _ => false))

/-- WIN_RETIRE_DONE: every TLP of the old generation has retired (R127). -/
def execWinRetireDone (port : Nat) (s : State) : Host.Outcome State Fault Refusal :=
  if s.bit (HP_WIN_STATUS_RETIRING port) ∧ s.oldRequests port = false then
    .next (raise (HP_EVENT_WIN_DONE port) (copyBank port false (s.wr (HP_WIN_STATUS_RETIRING port) 0)))
  else .next s

/-- The active window that the first byte of a request at an offset of a BAR falls in (R122). -/
def State.windowAt (s : State) (p f bar off : Nat) : Option Win :=
  match (List.range 32).find? (fun k =>
      let w := s.window true p f k
      w.valid && w.bar == bar && decide (w.offset ≤ off) && decide (off < w.offset + 2 ^ w.sizeLog2)) with
  | some k => some (s.window true p f k)
  | none => none

/-- The active window a request of n bytes at an offset of a BAR falls in whole (R122). -/
def State.translate (s : State) (p f bar off n : Nat) : Option Win :=
  match s.windowAt p f bar off with
  | some w => if off + n ≤ w.offset + 2 ^ w.sizeLog2 then some w else none
  | none => none

/-- The address an offset of a BAR in a window is translated to (R122); a data port window's TARGET is ignored. -/
def Win.address (w : Win) (off : Nat) : Nat := (if w.kind = 3 then 0x1000 else w.target) + (off - w.offset)

/-- Reserved bits of a shadow word are not stored (Table 5.4, R10). -/
def winWordMask (w : Nat) (v : BitVec 64) : BitVec 64 :=
  match w with
  | 0 => v &&& 0xFFFFFFFFFF
  | 1 => v
  | 2 => v &&& 0x7FFFFFF
  | _ => 0

/-- A write to a shadow word: ignored with WIN_REJECT while RETIRING (R128). -/
def writeShadow (p k : Nat) (v : BitVec 64) (s : State) : State :=
  if s.bit (HP_WIN_STATUS_RETIRING p) then raise (HP_EVENT_WIN_REJECT p) s
  else s.setReg (0x4002000 + p * 0x10000 + k * 8) (winWordMask (k % 4) v)

end Sys2Proof.Machine
end

