-- ==== Sys2Proof/Machine/ConfigSpace.lean ====
section
/-! DEFINITION. What configuration requests of a host read from a function of an endpoint port: the legend DVSEC, and what the
capabilities advertise (spec 05, R110, R113, R117, R118, R131, R134, R138, R144; R22, R136). The table of commands has no row for
a configuration read, so these are functions of the state (notes/assumptions/16). -/

namespace Sys2Proof.Machine

/-- What a configuration read is answered: a value, Configuration Request Retry Status, or, where no function is, Unsupported
Request. -/
inductive ConfigAnswer (α : Type) where
  | value (x : α)
  | retry
  | absent
  deriving DecidableEq, Repr

/-- The answer to a configuration read whose value is given (R22, R136). -/
def State.configRead {α : Type} (s : State) (p f : Nat) (x : α) : ConfigAnswer α :=
  if s.configOpen p f then .value x else if (s.func p f).present then .retry else .absent

/-- A dword of the legend at an offset from 0x400 (Table 5.5). -/
def State.legendWord (s : State) (p f off : Nat) : Nat :=
  let state := s.rd SVY_BOOT_STATUS_STATE
  match off with
  | 0x00 => 0x0023 + 0x1 * 2 ^ 16
  | 0x04 => Config.vendorId.toNat + 0x030 * 2 ^ 20
  | 0x08 => 0x0001
  | 0x0C => 0x1280 + 1 * 2 ^ 16 + 1 * 2 ^ 20
  | 0x10 => state % 16 + (if s.boot.cfgDefault then 2 ^ 4 else 0)
      + (if state = 4 then s.rd SVY_BOOT_CAUSE_CODE * 2 ^ 8 else 0)
  | 0x14 => s.rd HLT_STATUS_REPLACE_ME + s.rd HLT_STATUS_HEALTH * 2
  | 0x18 => Config.fusedSerial.toNat % 2 ^ 32
  | 0x1C => Config.fusedSerial.toNat / 2 ^ 32
  | 0x20 => p % 64 + f % 8 * 2 ^ 6
  | 0x24 => (s.reg SVY_BOOT_CAUSE).toNat % 2 ^ 32
  | _ => 0

/-- A read of the legend, at extended configuration offset 0x400 of every function (R144). -/
def State.legendRead (s : State) (p f off : Nat) : ConfigAnswer Nat := s.configRead p f (s.legendWord p f off)

/-- A BAR of a function: its size, and whether it is 64-bit and prefetchable. -/
structure Bar where
  bytes : Nat
  wide : Bool
  prefetchable : Bool
  deriving DecidableEq, Repr

/-- What the capabilities of a function say. -/
structure Capabilities where
  /-- Max Payload Size supported, in bytes (R117) -/
  maxPayload : Nat
  /-- Link Capabilities: L0s support, and the L1 exit latency encoding (R110, R113) -/
  l0s : Bool
  l1Exit : Nat
  /-- BAR0/1, BAR2/3 and BAR4/5 (R118) -/
  bar0 : Bar
  bar2 : Option Bar
  bar4 : Option Bar
  /-- MSI-X vectors (R119) -/
  vectors : Nat
  /-- Smallest Translation Unit as a power of 2, and the Invalidate Queue Depth field (R131) -/
  stuLog2 : Nat
  invalidateDepth : Nat
  /-- completion timeout ranges A to D supported, Completion Timeout Disable support, and the value selected (R134) -/
  cplRanges : List Bool
  cplDisable : Bool
  cplSelected : Nat
  deriving DecidableEq, Repr

/-- The capabilities of a function of an endpoint port. -/
def State.capabilities (s : State) (p f : Nat) : Capabilities where
  maxPayload := 512
  l0s := false
  l1Exit := 2
  bar0 := ⟨s.barSize p f 0, true, false⟩
  bar2 := if s.barSize p f 1 = 0 then none else some ⟨s.barSize p f 1, true, true⟩
  bar4 := none
  vectors := (s.func p f).msixN + 1
  stuLog2 := 12
  invalidateDepth := 0
  cplRanges := [true, false, false, false]
  cplDisable := false
  cplSelected := (s.func p f).cplTo

/-- A read of the capabilities of a function. -/
def State.capabilityRead (s : State) (p f : Nat) : ConfigAnswer Capabilities := s.configRead p f (s.capabilities p f)

/-- Completion timeout in ms of a function's own requests: the default encoding selects CPL_TO_MS; Range A of the PCI Express
specification holds 50-100 us (0001) and 1-10 ms (0010), whose value within the range is free (R134). -/
def State.cplTimeout (s : State) (p f : Nat) : Nat :=
  if (s.func p f).cplTo = 0 then s.rd (HP_PORT_CFG_CPL_TO_MS p) else Config.cplRange (s.func p f).cplTo

end Sys2Proof.Machine
end

