-- ==== Sys2Proof/Machine/Sheet.lean ====
section
/-! DEFINITION. Sheets: commands, shares, creation and destruction (spec 06, R156-R167). -/

namespace Sys2Proof.Machine

/-! ## Field tests (R543, Table 6.1) -/

/-- Mask bits of a value that satisfy a test, lowest first. -/
def maskBits (mask : Nat) : List Nat := (List.range 8).filter (fun m => mask.testBit m)

/-- A share value lies in its range. -/
def State.shareInRange (s : State) (m v : Nat) : Bool :=
  match m with
  | 0 => decide (1 ≤ v) && decide (v ≤ s.pool 0)
  | 1 => decide (v ≤ 655360)
  | 2 => decide (v ≤ 12800000)
  | 7 => decide (v ≤ 12800000000000)
  | m => decide (v ≤ s.pool m)

/-- Sum of a measure over the admitted contracts of a sheet: ADMITTED, SUSPENDED or BROKEN (R162). -/
def State.admittedSum (s : State) (n : Nat) (f : Contract → Nat) : Nat :=
  tblSum (fun _ c => if c.sheet = n ∧ c.state.holds then f c else 0) s.contracts

/-- A share value falls below what the sheet's admitted contracts hold (R162). -/
def State.breaksAdmitted (s : State) (n m v : Nat) : Bool :=
  match m with
  | 1 => decide (v < s.admittedSum n (fun c => reserveS c.par))
  | 2 => v != 0 && decide (v * 1000000 < s.admittedSum n (fun c => if c.par.src = 64 + s.sheetPortD n then c.par.rate else 0))
  | 6 => decide (v < s.admittedSum n (fun _ => 1))
  | 7 => decide (v < s.admittedSum n (fun c => c.par.rate))
  | _ => false

/-- A pooled share value does not fit the port's pool: others' charges and max(limit, usage) exceed it (R150). -/
def State.overPool (s : State) (n m v : Nat) : Bool :=
  isPooled m && decide (s.pool m < s.poolCharged (s.sheetPortD n) m n + max v (s.usage n m))

/-- Replace the shares a mask selects. -/
def mergeShares (old new mask : Nat) : Nat := (maskBits mask).foldl (fun rec m => withShare rec m (shareOf new m)) old

/-- PENDING bits: pooled shares whose usage exceeds the limit (R162). -/
def State.pendingBits (s : State) (n : Nat) : BitVec 8 :=
  BitVec.ofNat 8 (ofBits ((List.range 8).map (fun m => isPooled m && decide (s.limit n m < s.usage n m))))

/-! ## Commands (Tables 6.9-6.11) -/

/-- Completion fields of Table 6.10. -/
def sheetBody (s : State) (n field rec : Nat) : Body :=
  [(8, 2, n), (10, 1, (s.sheet n).state.code), (11, 1, field), (13, 1, (s.sheet n).pendingMask.toNat), (16, 40, rec)]

/-- The effective share record of a sheet; a FREE sheet has none, and 0 stands for it (DESIGN CHOICE, log entry 17). -/
def State.effectiveRecord (s : State) (n : Nat) : Nat := if (s.sheet n).state = .free then 0 else s.shareRecord n

/-- Completion fields of a command that tests 1-3 of R543 refuse: Table 6.10 makes no exception for them. -/
def sheetRefused (s : State) (n : Nat) : Body := sheetBody s n 0xFF (s.effectiveRecord n)

/-- Tests 1-3 of R543 for a command that an admin ring of a sheet sends: issuer, allotment, FREE. -/
def State.sheetRefusal (s : State) (issuer n allotStatus : Nat) (own : Bool) : Option Nat :=
  if s.managerSheet issuer = false then (if own ∧ n = issuer then none else some 0x0401)
  else if s.sheetPort n ≠ some (s.sheetPortD issuer) then some allotStatus
  else if (s.sheet n).state = .free then some 0x0501
  else none

/-- ENABLE of a sheet past tests 1-3: state, function, PASID and Bus Master Enable (R157). The status, and the state
after. -/
def enableSheet (n : Nat) (s : State) : Nat × State :=
  let x := s.sheet n
  let f := s.sheetFunc n
  if x.state ≠ .disabled ∨ x.destroying then (0x0106, s)
  else if f.present = false then (0x0104, s)
  else if f.bme = false ∨ (s.rd (CAD_ID_PASID n) ≠ 0 ∧ f.pasidEn = false) then (0x0107, s)
  else
    let s := s.setSheet n { x with state := .active }
    let s := postSheetState n 1 2 0 s
    (0, (s.sheetRings n).foldl (fun t g => issueFetch g t) s)

/-- SHEET_ENABLE (R157). -/
def execSheetEnable (ring : Nat) (s : State) : Host.Outcome State Fault Refusal :=
  .next (runEntry ring (· == 0x09) (fun r j s =>
    let n := eN j.first 8 2
    match s.sheetRefusal r.sheet n 0x0104 false with
    | some st => (s, st, sheetRefused s n)
    | none => let (st, s) := enableSheet n s; (s, st, sheetBody s n 0xFF (s.shareRecord n))) s)

/-- SHEET_DISABLE: completes at once on a DISABLED sheet, else when the sheet is DISABLED (R161, R164). -/
def execSheetDisable (ring : Nat) (s : State) : Host.Outcome State Fault Refusal :=
  .next (startEntry ring (· == 0x0A) (fun r j s =>
    let n := eN j.first 8 2
    match s.sheetRefusal r.sheet n 0x0401 false with
    | some st => (s, some (st, sheetRefused s n))
    | none =>
      let x := s.sheet n
      if n = r.sheet ∨ x.destroying then (s, some (0x0106, sheetBody s n 0xFF (s.shareRecord n)))
      else if x.state = .disabled then (s, some (0, sheetBody s n 0xFF (s.shareRecord n)))
      else
        let s := disableSheet n 0 s
        (s.setSheet n { s.sheet n with waiters := (s.sheet n).waiters ++ [(ring, j.idx)] }, none)) s)

/-- SHEET_DISABLE_DONE: the sheet's slots are released and its writes have left the port: it is DISABLED, and the
DISABLE commands that wait complete (R165). -/
def execSheetDisableDone (sheet : Nat) (s : State) : Host.Outcome State Fault Refusal :=
  let x := s.sheet sheet
  if x.state = .disabling ∧ s.sheetDrained sheet then
    let s := s.setSheet sheet { x with state := .disabled, waiters := [] }
    let s := resolveShrinks sheet (postSheetState sheet 4 1 x.cause s)
    .next (x.waiters.foldl (fun t w => endJob w.1 w.2 0 (sheetBody t sheet 0xFF (t.shareRecord sheet)) t) s)
  else .next s

/-- SHEET_DEBUG: ON 1 enters debug mode, ON 0 leaves it (R79, R161). -/
def execSheetDebug (ring : Nat) (s : State) : Host.Outcome State Fault Refusal :=
  .next (runEntry ring (· == 0x0B) (fun r j s =>
    let n := eN j.first 8 2
    let on : Bool := eBits j.first 12 0 1 == 1
    match s.sheetRefusal r.sheet n 0x0401 false with
    | some st => (s, st, sheetRefused s n)
    | none =>
      let x := s.sheet n
      let st := if x.state = .active ∧ on then 1 else if x.state = .debug ∧ on = false then 2
        else if (x.state = .debug ∧ on) ∨ (x.state = .active ∧ on = false) then 3 else 0
      match st with
      | 1 =>
        let s := suspendSheet n true (postSheetState n 2 3 0 (s.setSheet n { x with state := .debug }))
        (s, 0, sheetBody s n 0xFF (s.shareRecord n))
      | 2 =>
        let s := suspendSheet n false (postSheetState n 3 2 0 (s.setSheet n { x with state := .active }))
        (s, 0, sheetBody s n 0xFF (s.shareRecord n))
      | 3 => (s, 0, sheetBody s n 0xFF (s.shareRecord n))
      | _ => (s, 0x0106, sheetBody s n 0xFF (s.shareRecord n))) s)

/-- What remains of each pool of a port, in share-record layout (Table 6.10). -/
def State.poolRecord (s : State) (p : Nat) : Nat :=
  pooledShares.foldl (fun rec m => withShare rec m (s.pool m - s.poolCharged p m 4096)) 0

/-- SHEET_QUERY: state, usage and PENDING of a sheet, or with SHEET 0xFFFF the pools of the manager's port (R158). -/
def execSheetQuery (ring : Nat) (s : State) : Host.Outcome State Fault Refusal :=
  .next (runEntry ring (· == 0x0C) (fun r j s =>
    let n := eN j.first 8 2
    if n = 0xFFFF ∧ s.managerSheet r.sheet then
      (s, 0, [(8, 2, n), (11, 1, 0xFF), (16, 40, s.poolRecord (s.sheetPortD r.sheet))])
    else match s.sheetRefusal r.sheet n 0x0401 true with
      | some st => (s, st, sheetBody s n 0xFF (if (s.sheet n).state = .free then 0 else s.usageRecord n))
      | none => (s, 0, sheetBody s n 0xFF (s.usageRecord n))) s)

/-- RESHAPE past tests 1-4: fields, admitted contracts, pools. Status and FIELD of the first failing test, or none. -/
def State.reshapeRefusal (s : State) (n mask rec : Nat) : Option (Nat × Nat) :=
  match (maskBits mask).find? (fun m => !s.shareInRange m (shareOf rec m)) with
  | some m => some (0x0103, m)
  | none =>
    if 256 ≤ mask then some (0x0103, 0xFF)
    else match (maskBits mask).find? (fun m => s.breaksAdmitted n m (shareOf rec m)) with
      | some m => some (0x0205, m)
      | none => match (maskBits mask).find? (fun m => s.overPool n m (shareOf rec m) && decide (s.limit n m < shareOf rec m)) with
        | some m => some (0x0302, m)
        | none => none

/-- RESHAPE: grows, shrinks and caps take effect as a whole, or nothing changes (R162). -/
def execReshape (ring : Nat) (s : State) : Host.Outcome State Fault Refusal :=
  .next (runEntry ring (· == 0x08) (fun r j s =>
    let n := eN j.first 8 2
    let mask := eN j.first 10 2
    let rec' := eN j.first 16 40
    match s.sheetRefusal r.sheet n 0x0401 false with
    | some st => (s, st, sheetRefused s n)
    | none =>
      if (s.sheet n).destroying then (s, 0x0106, sheetBody s n 0xFF (s.shareRecord n))
      else match s.reshapeRefusal n mask rec' with
        | some (st, field) => (s, st, sheetBody s n field (s.shareRecord n))
        | none =>
          let s := s.setShareRecord n (mergeShares (s.shareRecord n) rec' mask)
          let x := { s.sheet n with pendingMask := s.pendingBits n }
          let x := if mask.testBit 2 then { x with tokens := fullBench, refilled := s.datum.toNat } else x
          let s := postShares n (s.setSheet n x)
          (s, 0, sheetBody s n 0xFF (s.shareRecord n))) s)

/-! ## CAD_OP (R163) -/

/-- Write CAD_OP_STATUS. -/
def opStatus (n status field : Nat) (s : State) : State :=
  (s.wr (CAD_OP_STATUS_STATUS n) status).wr (CAD_OP_STATUS_FIELD n) field

/-- Some other sheet that is not FREE holds the triple of sheet n (R146). -/
def State.tripleHeld (s : State) (n : Nat) : Bool :=
  s.sheets.any (fun x => x.1 != n && s.sheetPort x.1 == s.sheetPort n && s.sheetPf x.1 == s.sheetPf n
    && s.rd (CAD_ID_PASID x.1) == s.rd (CAD_ID_PASID n))

/-- MSIX_N of a function: as sampled, or as configured for a function that is absent. -/
def State.topVector (s : State) (p f : Nat) : Nat :=
  if (s.func p f).present then (s.func p f).msixN else s.rd (HP_PF_CFG_MSIX_N p f)

/-- The checks of CREATE, in the order of R543: status and FIELD of the first that fails. -/
def State.createRefusal (s : State) (n : Nat) : Option (Nat × Nat) :=
  let rec' := s.shareRecord n
  let f := s.sheetFunc n
  if s.sheetPort n = none then some (0x0104, 0xFF)
  else if (s.sheet n).state ≠ .free then some (0x0106, 0xFF)
  else match (maskBits 0xFF).find? (fun m => !s.shareInRange m (shareOf rec' m)) with
    | some m => some (0x0103, m)
    | none =>
      if s.topVector (s.sheetPortD n) (s.sheetPf n) < s.rd (CAD_ID_VEC_TEN n)
          ∨ s.topVector (s.sheetPortD n) 0 < s.rd (CAD_ID_VEC_MGR n) then some (0x0103, 0xFF)
      else if f.present = false then some (0x0104, 0xFF)
      else if s.tripleHeld n then some (0x0108, 0xFF)
      else match pooledShares.find? (fun m => s.overPool n m (shareOf rec' m)) with
        | some m => some (0x0302, m)
        | none => none

/-- CAD_SHARE0-4 of a sheet. -/
def State.shareWords (s : State) (n : Nat) : List Word := (List.range 5).map (fun m => s.reg (CAD_SHARE n m))

/-- CAD_SHARE0-4 of a sheet hold the record that was written before CREATE, and not the effective limits of a sheet that is gone
(Table 6.6). DEDUCED (log entry 55). -/
def restoreShares (n : Nat) (s : State) : State :=
  (s.sheet n).record.zipIdx.foldl (fun t x => t.setReg (CAD_SHARE n x.2) x.1) s

/-- CAD_OP CREATE on the page of sheet n. -/
def createSheet (n : Nat) (s : State) : State :=
  if s.bit (CAD_OP_STATUS_BUSY n) then s
  else match s.createRefusal n with
    | some (st, field) => opStatus n st field s
    | none => opStatus n 0 0xFF (s.setSheet n { Sheet.free with
        state := .disabled, tokens := fullBench, refilled := s.datum.toNat, record := s.shareWords n })

/-- CAD_OP_CREATE: a FREE sheet becomes DISABLED with EMPTY slots (R163). -/
def execCadOpCreate (sheet : Nat) (s : State) : Host.Outcome State Fault Refusal := .next (createSheet sheet s)

/-- CAD_OP ENABLE on the page of sheet n. -/
def cadEnable (n : Nat) (s : State) : State :=
  if s.bit (CAD_OP_STATUS_BUSY n) then s
  else if s.sheetPort n = none then opStatus n 0x0104 0xFF s
  else if (s.sheet n).state = .free then opStatus n 0x0501 0xFF s
  else let (st, s) := enableSheet n s; opStatus n st 0xFF s

/-- CAD_OP_ENABLE: as the ENABLE command (R163). -/
def execCadOpEnable (sheet : Nat) (s : State) : Host.Outcome State Fault Refusal := .next (cadEnable sheet s)

/-- CAD_OP DESTROY on the page of sheet n. -/
def cadDestroy (n : Nat) (s : State) : State :=
  let x := s.sheet n
  if s.bit (CAD_OP_STATUS_BUSY n) then s
  else if s.sheetPort n = none then opStatus n 0x0401 0xFF s
  else if x.state = .free then opStatus n 0x0501 0xFF s
  else if x.state ≠ .disabled then opStatus n 0x0106 0xFF s
  else (s.setSheet n { x with destroying := true }).wr (CAD_OP_STATUS_BUSY n) 1

/-- CAD_OP_DESTROY: a DISABLED sheet starts to go (R163). -/
def execCadOpDestroy (sheet : Nat) (s : State) : Host.Outcome State Fault Refusal := .next (cadDestroy sheet s)

/-- SHEET_DESTROY_DONE: its connections are closed and its rings, keys, controllers and regions removed; queued device
messages are discarded; the sheet is FREE and BUSY clears (R163). -/
def execSheetDestroyDone (sheet : Nat) (s : State) : Host.Outcome State Fault Refusal :=
  if (s.sheet sheet).destroying then
    let s := removeUnits sheet s
    let gone := tblKeys (fun _ (r : Ring) => r.sheet == sheet) s.rings
    let s := gone.foldl (fun t g => forgetFetch g t) { s with rings := s.rings.filter (fun r => r.2.sheet != sheet) }
    let s := (restoreShares sheet s).setSheet sheet Sheet.free
    .next ((opStatus sheet 0 0xFF s).wr (CAD_OP_STATUS_BUSY sheet) 0)
  else .next s

end Sys2Proof.Machine
end

