-- ==== Sys2Proof/Machine/Ring.lean ====
section
/-! DEFINITION. Descriptor rings: doorbells, ring commands, quiesce, admin ring set-up (spec 07, R173-R174, R187-R194,
R200-R202, R209). -/

namespace Sys2Proof.Machine

/-- The open ring of a sheet with a local number, with its global number. -/
def State.findRing (s : State) (n loc : Nat) : Option (Nat × Ring) :=
  s.rings.find? (fun r => r.2.sheet == n && r.2.localNo == loc)

/-- The open descriptor ring of a sheet with a local number: a storage queue is none (R400). -/
def State.descRing (s : State) (n loc : Nat) : Option (Nat × Ring) :=
  match s.findRing n loc with
  | some (g, r) => if r.kind ≤ 4 then some (g, r) else none
  | none => none

/-! ## Doorbells (R173, R174) -/

/-- A doorbell write that is dropped. -/
def dropDoorbell (s : State) : State := raise RNG_EVENT_DB_BAD (s.count RNG_DB_DROP_COUNT 1)

/-- A producer index is acceptable: within SIZE of HEAD, and ahead of PI. -/
def Ring.piAccepted (r : Ring) (pi : Nat) : Bool :=
  r.state == .running && decide (idxSub pi r.head.toNat ≤ r.size)
    && decide (1 ≤ idxSub pi r.pi.toNat) && decide (idxSub pi r.pi.toNat < 2 ^ 31)

/-- A DB_PRODUCE write to an open ring or storage queue: PI as it stands has no effect whatever the ring's state (R174); one to an I/O submission queue wakes its controller (R411). -/
def ringDoorbell (g : Nat) (r : Ring) (pi : Nat) (s : State) : State :=
  if pi = r.pi.toNat then s
  else if r.piAccepted pi then wakeCtrl g (issueFetch g (s.setRing g { r with pi := BitVec.ofNat 32 pi }))
  else dropDoorbell s

/-! ## Ring commands (R200-R202) -/

/-- The sheet a ring command names: 0xFFFF is the ring's own. -/
def namedSheet (own : Nat) (e : Entry) : Nat := if eN e 8 2 = 0xFFFF then own else eN e 8 2

/-- A ring command reaches a sheet: its own, or for the manager one on its port that is not FREE. -/
def State.ringReach (s : State) (own n : Nat) : Bool :=
  n == own || (s.managerSheet own && s.sheetPort n == some (s.sheetPortD own) && (s.sheet n).state != .free)

/-- RNG_RSTATUS of a global number (Table 7.12). -/
def State.rstatus (s : State) (g : Nat) : BitVec 64 :=
  match s.ring? g with
  | some r => r.status
  | none => closedStatus

/-- Completion fields of Table 7.9. -/
def ringBody (s : State) (n loc g : Nat) (base headAddr : Nat) : Body :=
  let st := s.rstatus g
  [(8, 2, n), (10, 2, loc), (12, 1, getField st 48 3), (20, 4, g), (32, 8, base), (40, 8, headAddr), (48, 8, st.toNat)]

/-- Completion fields when the command names no ring that is open: SHEET, LOCAL, and RNG_RSTATUS of a CLOSED ring, whose IDLE reads 1
(R191). R200 gives GLOBAL, BASE and HEAD_ADDR no value there, and they are 0 (DESIGN CHOICE, log entry 18). -/
def noRingBody (n loc : Nat) : Body := [(8, 2, n), (10, 2, loc), (48, 8, closedStatus.toNat)]

/-- Completion fields for a local number: those of the ring that is open under it, if one is. -/
def localRingBody (s : State) (n loc : Nat) : Body :=
  match s.descRing n loc with
  | some (g, x) => ringBody s n loc g x.base x.headAddr
  | none => noRingBody n loc

/-- CONTRACT_ID of a transmit ring: none, or refused with 0x0402 or 0x0501 (R201). -/
def State.ringContract (s : State) (n id : Nat) : Option Nat ⊕ Nat :=
  if id = 0xFFFF then .inl none
  else match s.contract? id with
    | none => .inr 0x0501
    | some c => if c.sheet ≠ n then .inr 0x0402 else if c.state = .withdrawing then .inr 0x0501 else .inl (some id)

/-- A free global number: the one offered when it is free, else the lowest. -/
def State.freeGlobal (s : State) (pick : Nat) : Nat :=
  if pick < 1048576 ∧ s.ring? pick = none then pick else tblFree s.rings 0

/-- A ring just opened: RUNNING, HEAD and FETCH at START. -/
def openedRing (n loc kind sizeLog2 : Nat) (oneWrite : Bool) (vec coalN coalUs : Nat) (contract : Option Nat)
    (base headAddr start pi : Nat) : Ring where
  sheet := n
  localNo := loc
  kind := kind
  sizeLog2 := sizeLog2
  oneWrite := oneWrite
  vec := vec
  coalN := coalN
  coalUs := coalUs
  contract := contract
  base := base
  headAddr := headAddr
  state := .running
  idle := false
  cause := 0
  head := BitVec.ofNat 32 start
  fetch := BitVec.ofNat 32 start
  pi := BitVec.ofNat 32 pi
  jobs := []
  chain := none
  unannounced := 0
  timer := false
  reading := 0
  slotWait := false
  slotHeld := false
  waiters := []

/-- Put an opened ring in place: its base is pre-translated and its first read is issued. -/
def placeRing (g : Nat) (r : Ring) (s : State) : State :=
  issueFetch g ((sheetAts r.sheet r.base s).setRing g r)

/-- RING_OPEN's fields lie in their ranges (Table 7.11). -/
def openFieldsOk (s : State) (n : Nat) (e : Entry) : Bool :=
  let kind := eBits e 12 0 3
  let sizeLog2 := eBits e 13 0 5
  decide (1 ≤ kind) && decide (kind ≤ 4) && decide (4 ≤ sizeLog2) && decide (sizeLog2 ≤ 16)
    && decide (eBits e 14 0 11 ≤ (s.sheetFunc n).msixN)
    && (eN e 32 8 % 4096 == 0) && (eN e 40 8 % 8 == 0)
    && decide (idxSub (eN e 24 4) (eN e 20 4) ≤ 2 ^ sizeLog2)

/-- RING_OPEN: the tests of R200 in order, then a RUNNING ring under a global number the device chooses. -/
def execRingOpen (ring pick : Nat) (s : State) : Host.Outcome State Fault Refusal :=
  .next (runEntry ring (· == 0x01) (fun r j s =>
    let e := j.first
    let n := namedSheet r.sheet e
    let loc := eN e 10 2
    let kind := eBits e 12 0 3
    if s.ringReach r.sheet n = false then (s, 0x0401, noRingBody n loc)
    else if loc = 0 ∨ (s.findRing n loc).isSome ∨ s.localReserved n loc then (s, 0x0108, localRingBody s n loc)
    else if openFieldsOk s n e = false then (s, 0x0103, noRingBody n loc)
    else match (if kind = 1 then s.ringContract n (eN e 18 2) else .inl none) with
      | .inr st => (s, st, noRingBody n loc)
      | .inl c =>
        if s.limit n 0 ≤ s.usage n 0 then (s, 0x0301, noRingBody n loc)
        else
          let g := s.freeGlobal pick
          let s := placeRing g (openedRing n loc kind (eBits e 13 0 5) (eBits e 13 5 1 == 1) (eBits e 14 0 11) (eN e 16 1)
            (eN e 17 1) c (eN e 32 8) (eN e 40 8) (eN e 20 4) (eN e 24 4)) s
          (s, 0, ringBody s n loc g (eN e 32 8) (eN e 40 8))) s)

/-- The ring a command names: refused with 0x0401 or 0x0501, or its global number. -/
def State.namedRing (s : State) (own : Nat) (e : Entry) : (Nat × Ring) ⊕ (Nat × Body) :=
  let n := namedSheet own e
  let loc := eN e 10 2
  if s.ringReach own n = false then .inr (0x0401, noRingBody n loc)
  else match s.descRing n loc with
    | none => .inr (0x0501, noRingBody n loc)
    | some x => .inl x

/-- Completion fields for an open ring. -/
def openRingBody (s : State) (g : Nat) (r : Ring) : Body := ringBody s r.sheet r.localNo g r.base r.headAddr

/-- A DISABLED ring returns to RUNNING from START; reads still out for it no longer concern it (R192). -/
def restartRing (g : Nat) (r : Ring) (start pi : Nat) (s : State) : State :=
  issueFetch g ((forgetFetch g s).setRing g { r with
    state := .running, cause := 0, idle := false, head := BitVec.ofNat 32 start, fetch := BitVec.ofNat 32 start,
    pi := BitVec.ofNat 32 pi, jobs := [], chain := none, reading := 0, slotWait := false, unannounced := 0, timer := false })

/-- RING_ENABLE (R192). -/
def execRingEnable (ring : Nat) (s : State) : Host.Outcome State Fault Refusal :=
  .next (runEntry ring (· == 0x02) (fun r j s =>
    match s.namedRing r.sheet j.first with
    | .inr (st, b) => (s, st, b)
    | .inl (g, x) =>
      if x.state ≠ .disabled then (s, 0x0106, openRingBody s g x)
      else
        let s := restartRing g x (eN j.first 20 4) (eN j.first 24 4) s
        (s, 0, openRingBody s g x)) s)

/-- RING_DISABLE: the ring quiesces; the entry completes when it is IDLE (R190, R202). -/
def execRingDisable (ring : Nat) (s : State) : Host.Outcome State Fault Refusal :=
  .next (startEntry ring (· == 0x03) (fun r j s =>
    match s.namedRing r.sheet j.first with
    | .inr (st, b) => (s, some (st, b))
    | .inl (g, x) =>
      if g = ring ∨ x.localNo = 0 ∨ x.state = .disabled then (s, some (0x0106, openRingBody s g x))
      else
        let s := if x.state = .running then quiesceMessages g (stopRing g 0 s) else s
        match s.ring? g with
        | none => (s, none)
        | some x => (s.setRing g { x with waiters := x.waiters ++ [(ring, j.idx)] }, none)) s)

/-- Complete the RING_DISABLE entries that wait for a ring to be IDLE. -/
def endWaiters (g : Nat) (s : State) : State :=
  match s.ring? g with
  | none => s
  | some r =>
    let s := s.setRing g { r with waiters := [] }
    r.waiters.foldl (fun t w => endJob w.1 w.2 0 (openRingBody t g r) t) s

/-- No flight-table slot started from a ring is still held: no entry read is out for it, and its jobs have released theirs (R191). -/
def State.ringQuiet (s : State) (g : Nat) (r : Ring) : Bool :=
  s.reads.all (fun t => t.use != .fetch g) && r.jobs.all (fun j => j.slot.isNone || j.phase == .written)

/-- RING_QUIESCE_END: every started entry has completed; fetched ones are discarded with nothing written, HEAD is the
first entry not started, the ring is DISABLED, publishes HEAD and sends its vector. writesLeft: every write of the ring
has already left the port, so IDLE is 1 at once unless a slot is still held (R190, R191). -/
def execRingQuiesceEnd (ring : Nat) (writesLeft : Bool) (s : State) : Host.Outcome State Fault Refusal :=
  let s := flushRing ring s
  match s.ring? ring with
  | none => .next s
  | some r =>
    if r.state = .disabling ∧ startedJobs r.jobs = [] then
      let head := quiescedHead r
      let idle := writesLeft && s.ringQuiet ring r
      let s := s.setRing ring { r with state := .disabled, head := head, fetch := head, jobs := [], chain := none, idle := idle }
      let s := announce ring s
      if idle then .next (endWaiters ring s) else .next s
    else .next s

/-- RING_IDLE: the slots and writes of a DISABLED ring have drained: IDLE is 1 and a waiting RING_DISABLE completes
(R191). -/
def execRingIdle (ring : Nat) (s : State) : Host.Outcome State Fault Refusal :=
  match s.ring? ring with
  | none => .next s
  | some r =>
    if r.state = .disabled ∧ r.idle = false ∧ s.ringQuiet ring r then .next (endWaiters ring (s.setRing ring { r with idle := true }))
    else .next s

/-- A ring closes: one ring returns to the pool, and a pending shrink may resolve. -/
def closeRing (g : Nat) (r : Ring) (s : State) : State :=
  resolveShrinks r.sheet { s with rings := tblDel s.rings g }

/-- RING_CLOSE: a DISABLED, IDLE ring (Table 7.8). -/
def execRingClose (ring : Nat) (s : State) : Host.Outcome State Fault Refusal :=
  .next (runEntry ring (· == 0x04) (fun r j s =>
    match s.namedRing r.sheet j.first with
    | .inr (st, b) => (s, st, b)
    | .inl (g, x) =>
      if x.state = .disabled ∧ x.idle then
        let s := closeRing g x s
        (s, 0, openRingBody s g x)
      else (s, 0x0106, openRingBody s g x)) s)

/-- RING_QUERY (Table 7.8). -/
def execRingQuery (ring : Nat) (s : State) : Host.Outcome State Fault Refusal :=
  .next (runEntry ring (· == 0x05) (fun r j s =>
    match s.namedRing r.sheet j.first with
    | .inr (st, b) => (s, st, b)
    | .inl (g, x) => (s, 0, openRingBody s g x)) s)

/-- RING_TUNE: VEC, COAL_N, COAL_US and, on a transmit ring, CONTRACT_ID (R201). -/
def execRingTune (ring : Nat) (s : State) : Host.Outcome State Fault Refusal :=
  .next (runEntry ring (· == 0x06) (fun r j s =>
    let e := j.first
    match s.namedRing r.sheet e with
    | .inr (st, b) => (s, st, b)
    | .inl (g, x) =>
      if (s.sheetFunc x.sheet).msixN < eBits e 14 0 11 then (s, 0x0103, openRingBody s g x)
      else match (if x.kind = 1 then s.ringContract x.sheet (eN e 18 2) else .inl none) with
        | .inr st => (s, st, openRingBody s g x)
        | .inl c =>
          let s := s.setRing g { x with vec := eBits e 14 0 11, coalN := eN e 16 1, coalUs := eN e 17 1, contract := c }
          (s, 0, openRingBody s g x)) s)

/-- RING_NOP: no effect but its completion (R200). -/
def execRingNop (ring : Nat) (s : State) : Host.Outcome State Fault Refusal :=
  .next (runEntry ring (· == 0x00) (fun _ _ s => (s, 0, [])) s)

/-- COAL_TIMER_EXPIRY: COAL_US after the first completion not announced (R187). -/
def execCoalTimerExpiry (ring : Nat) (s : State) : Host.Outcome State Fault Refusal :=
  match s.ring? ring with
  | none => .next s
  | some r => if r.timer ∧ 0 < r.unannounced then .next (announce ring s) else .next s

/-- RNG_DB_DROP_CLEAR: a write of any value clears the count (Table 7.14). -/
def execRngDbDropClear (s : State) : Host.Outcome State Fault Refusal := .next (s.wr RNG_DB_DROP_COUNT 0)

/-! ## Admin ring set-up (R209) -/

/-- Report an OP of RNG_ADMIN_CTRL. -/
def adminStatus (n st : Nat) (s : State) : State := s.wr (RNG_ADMIN_STATUS_STATUS n) st

/-- RNG_ADMIN_CTRL OPEN: ring 0 of a sheet, KIND 0. -/
def adminOpen (n pick : Nat) (oneWrite : Bool) (s : State) : State :=
  if (s.sheet n).state = .free then adminStatus n 0x0501 s
  else if (s.findRing n 0).isSome then adminStatus n 0x0108 s
  else if (s.sheetFunc n).msixN < s.rd (RNG_ADMIN_CFG_VEC n) then adminStatus n 0x0103 s
  else if s.limit n 0 ≤ s.usage n 0 then adminStatus n 0x0301 s
  else
    let start := s.rd (RNG_ADMIN_START_START n)
    adminStatus n 0 (placeRing (s.freeGlobal pick)
      (openedRing n 0 0 (s.rd (RNG_ADMIN_CFG_SIZE_LOG2 n)) oneWrite (s.rd (RNG_ADMIN_CFG_VEC n)) (s.rd (RNG_ADMIN_CFG_COAL_N n))
        (s.rd (RNG_ADMIN_CFG_COAL_US n)) none (s.rd (RNG_ADMIN_BASE_BASE n) * 4096) (s.rd (RNG_ADMIN_HEAD_HEAD_ADDR n) * 8)
        start start) s)

/-- ADMIN_RING_OPEN (R209). -/
def execAdminRingOpen (sheet pick : Nat) (oneWrite : Bool) (s : State) : Host.Outcome State Fault Refusal :=
  .next (adminOpen sheet pick oneWrite s)

/-- RNG_ADMIN_CTRL ENABLE: ring 0 from START, fetching nothing until a doorbell. -/
def adminEnable (n : Nat) (s : State) : State :=
  if (s.sheet n).state = .free then adminStatus n 0x0501 s
  else match s.descRing n 0 with
    | none => adminStatus n 0x0501 s
    | some (g, r) =>
      let start := s.rd (RNG_ADMIN_START_START n)
      if r.state = .disabled then adminStatus n 0 (restartRing g r start start s) else adminStatus n 0x0106 s

/-- ADMIN_RING_ENABLE (R209). -/
def execAdminRingEnable (sheet : Nat) (s : State) : Host.Outcome State Fault Refusal := .next (adminEnable sheet s)

/-- RNG_ADMIN_CTRL CLOSE. -/
def adminClose (n : Nat) (s : State) : State :=
  if (s.sheet n).state = .free then adminStatus n 0x0501 s
  else match s.descRing n 0 with
    | none => adminStatus n 0x0501 s
    | some (g, r) =>
      if r.state = .disabled ∧ r.idle then adminStatus n 0 (closeRing g r s) else adminStatus n 0x0106 s

/-- ADMIN_RING_CLOSE (R209). -/
def execAdminRingClose (sheet : Nat) (s : State) : Host.Outcome State Fault Refusal := .next (adminClose sheet s)

end Sys2Proof.Machine
end

