-- ==== Sys2Proof/Machine/DataMove.lean ====
section
/-! DEFINITION. Memory operations COPY and FILL (spec 07, R203, R206). What host memory answers is an operand. -/

namespace Sys2Proof.Machine

/-- Completion fields of COPY and FILL: BYTES_DONE; the stamp is that of the completion's write. -/
def moveBody (done : Nat) : Body := [(8, 4, done)]

/-- COPY moves LEN bytes from SRC; the data read is what host memory answers (R203, R206). -/
def copyEntry (result : MemResult) (r : Ring) (j : Job) (s : State) : State × Nat × Body :=
  let len := eN j.first 24 4
  let dst := eN j.first 16 8
  if len = 0 ∨ 16777216 < len then (s, 0x0103, moveBody 0)
  else
    let s := sheetRead r.sheet (eN j.first 8 8) len s
    match result with
    | .ok data => (sheetWrite r.sheet dst (data.take len) s, 0, moveBody len)
    | .bad => (s, 0x0601, moveBody 0)
    | .noPermission => (s, 0x0602, moveBody 0)
    | .timeout => (s, 0x0701, moveBody 0)
    | .partly n data => (sheetWrite r.sheet dst (data.take (min n len)) s, 0x0701, moveBody (min n len))

/-- COPY: it starts once a slot is free for its reads (R25). -/
def execCopy (ring : Nat) (result : MemResult) (s : State) : Host.Outcome State Fault Refusal :=
  if s.flight.room .rd then .next (runEntry ring (· == 0x88) (copyEntry result) s) else .next s

/-- The bytes of a pattern over a length. -/
def patternBytes (pat len : Nat) : Bytes := (List.replicate (len / 8) (leBytes 8 pat)).flatten

/-- FILL writes a 64-bit pattern over LEN bytes (R203). It reads nothing, so a result says what translating DST gives: permission, or
none, or a completion timeout (R207). -/
def fillEntry (result : MemResult) (r : Ring) (j : Job) (s : State) : State × Nat × Body :=
  let len := eN j.first 24 4
  let dst := eN j.first 8 8
  let fill := patternBytes (eN j.first 16 8) len
  if dst % 8 ≠ 0 ∨ len % 8 ≠ 0 ∨ len < 8 ∨ 16777216 < len then (s, 0x0103, moveBody 0)
  else match result with
    | .ok _ => (sheetWrite r.sheet dst fill s, 0, moveBody len)
    | .bad => (s, 0x0602, moveBody 0)
    | .noPermission => (s, 0x0602, moveBody 0)
    | .timeout => (s, 0x0701, moveBody 0)
    | .partly n _ => (sheetWrite r.sheet dst (fill.take (min n len)) s, 0x0701, moveBody (min n len))

/-- FILL (R203, R206). -/
def execFill (ring : Nat) (result : MemResult) (s : State) : Host.Outcome State Fault Refusal :=
  .next (runEntry ring (· == 0x89) (fillEntry result) s)

end Sys2Proof.Machine
end

