-- ==== Sys2Proof/Machine/Outlet.lean ====
section
/-! DEFINITION. Outlet service: the scheduler's choice, units, frames leaving network ports with their timestamps, and
placement into receive rings (spec 02, R55; spec 03, R65, R68, R69, R74, R76; spec 07, R205; spec 11, R296-R298). -/

namespace Sys2Proof.Machine

/-! ## Late deliveries (R65, R74, R76) -/

/-- A packet that starts at t_s with deadline D meets the window of a fault (R74). -/
def inWindow (ts d tf : Nat) : Bool := decide (ts < tf + 2000) && decide (tf < ts + d)

/-- Deadline of a packet in ns: the D it conformed to, the time a bucket move held it, and 2 us when a fault meets it (R65, R74,
R251). -/
def State.dueOf (s : State) (p : Packet) : Nat :=
  let d := p.due + p.hold
  if s.swc.faults.any (inWindow (s.startOf p.stamp / 65536) d) then d + 2000 else d

/-- Count a delivery that is late for its ADMITTED contract; after debug mode only of a packet stamped since (R79). beyond: ns still
to come after this instant (FABRIC_NS). -/
def countLate (p : Packet) (beyond : Nat) (s : State) : State :=
  match p.contract with
  | none => s
  | some id => match s.contract? id with
    | none => s
    | some c =>
      let since' : Bool := match c.back with
        | some b => decide (b < s.startOf p.stamp)
        | none => true
      if c.state = .admitted ∧ since' ∧ (s.dueOf p - beyond) * 65536 < s.since p.stamp then
        let s := s.count ADM_MISS_CNT_COUNT 1
        let s := if p.ext then s.count ADM_MISS_EXT_CNT_COUNT 1 else s
        raise ADM_EVENT_MISS s
      else s

/-! ## Withdrawal (R87) -/

/-- A packet in a bench, or at its inlet, is one of a contract. -/
def State.actsFor (s : State) (id : Nat) (f : Flying) : Bool :=
  match f.acted with
  | some a => a.contract == some id
  | none => match (actStage f s).1 with
    | .inl a => a.contract == some id
    | .inr _ => false

/-- A packet of a contract that has not been delivered. -/
def State.stillQueued (s : State) (id : Nat) : Bool :=
  !(s.packets (fun p => p.contract == some id)).isEmpty
    || s.swc.mac.any (fun q => q.2.any (fun p => p.contract == some id))
    || s.pipe.flying.any (s.actsFor id) || s.pipe.waiting.any (s.actsFor id)

/-- The drain of a withdrawn contract has ended: every packet stamped before has been delivered, or D + 2 us have passed. -/
def State.drainEnded (s : State) (id : Nat) (c : Contract) : Bool :=
  decide (c.withdrawnAt + (c.par.deadline + 2000) * 65536 ≤ s.datum.toNat) || !s.stillQueued id

/-- Setts of a contract's reservation count against the shared pool from now on. -/
def unreserve (c : Nat) (s : State) : State :=
  { s with swc := { s.swc with residents := tblMap (fun _ r => if r.part = .timed c then { r with part := .shared } else r) s.swc.residents } }

/-- A packet of a contract becomes one of class FALLBACK. -/
def Packet.demote (c fb : Nat) (p : Packet) : Packet :=
  if p.contract = some c then { p with cls := fb, contract := none, fallback := true } else p

/-- What the act stage decided for a packet of a contract becomes class FALLBACK. -/
def Acted.demote (c fb : Nat) (a : Acted) : Acted :=
  if a.contract = some c then { a with cls := fb, contract := none, fallback := true } else a

/-- A contract's packets on their way are served in class FALLBACK: those in a VOQ behind what waits there, those a move holds, those
in dress, and those already handed over (R87). -/
def fallbackQueued (c : Nat) (s : State) : State :=
  let fb := s.rd ADM_CTRL_FALLBACK
  let gone := packetsWhere (fun p => p.contract == some c) s.voqs
  let s := unreserve c { s with
    voqs := dropWhere (fun p => p.contract == some c) s.voqs
    pipe := { s.pipe with
      held := s.pipe.held.map (fun h => { h with pkt := h.pkt.demote c fb })
      flying := s.pipe.flying.map (fun f => { f with acted := f.acted.map (Acted.demote c fb) }) }
    swc := { s.swc with
      handed := tblMap (fun _ q => q.map (Packet.demote c fb)) s.swc.handed
      mac := tblMap (fun _ q => q.map (Packet.demote c fb)) s.swc.mac } }
  refreshPressure (gone.foldl (fun t p => pushVoq (p.demote c fb) t) s)

/-- WITHDRAW_DRAIN_END: packets still queued move to FALLBACK, reservations are released, the contract is FREE and its
WITHDRAW completes (R87). -/
def execWithdrawDrainEnd (contract : Nat) (s : State) : Host.Outcome State Fault Refusal :=
  match s.contract? contract with
  | none => .next s
  | some c =>
    if c.state = .withdrawing ∧ s.drainEnded contract c then
      let s := freeContract contract (fallbackQueued contract s)
      match c.waiter with
      | some (g, idx) => .next (endJob g idx 0 (admBody s contract 0 (.early 0) 0) s)
      | none => .next s
    else .next s

/-! ## Receive entries (R205) -/

/-- The oldest packet handed to a ring's port for the ring. -/
def State.handedFor (s : State) (g : Nat) (r : Ring) : Option Packet :=
  (tblGetD [] s.swc.handed (64 + s.sheetPortD r.sheet)).find? (fun p => p.ring == some g)

/-- A packet stays in its VOQ for a receive entry: its ring's free entries do not hold it, or an earlier packet of the ring
is still to be placed (R205). -/
def State.awaitsEntry (s : State) (p : Packet) : Bool :=
  s.lacksEntries p ||
    (match p.ring with
     | none => false
     | some g => match s.ring? g with
       | none => false
       | some r => (s.handedFor g r).isSome)

/-! ## The scheduler (R68, R69, R296) -/

/-- A VOQ whose head may be served, with that head. -/
structure Head where
  voq : Nat
  pkt : Packet
  deriving DecidableEq, Repr

/-- Heads of an outlet that may be served: no marker at the head, not held by an unpin, and at a network outlet its
class not stopped by received pause, at a cluster's outlet its class accepted, and at an endpoint's outlet a receive entry
free for it: a packet without one waits in its VOQ, and R205 does not say that the outlet's other VOQs wait behind it, so they are
served (R205, R219, R308, R437; DESIGN CHOICE, log entry 26). -/
def State.heads (s : State) (o : Nat) : List Head :=
  s.voqs.filterMap (fun q =>
    match q.2 with
    | [] => none
    | p :: _ =>
      if voqOutlet q.1 ≠ o ∨ p.marker.isSome ∨ s.swc.unpinHeld.contains q.1
          ∨ (o < 64 ∧ (s.pausedClasses o).contains (voqClass q.1))
          ∨ (112 ≤ o ∧ o ≤ 119 ∧ s.clusterTakes (o - 112) (voqClass q.1) = false)
          ∨ (64 ≤ o ∧ o < 112 ∧ s.awaitsEntry p) then none
      else some ⟨q.1, p⟩)

/-- Time left to the EDF deadline of a head, in 2^-16 ns; negative once it is past. A packet queued before a MODIFY keeps its own
(R86). -/
def State.slackOf (s : State) (h : Head) : Int :=
  ((h.pkt.edf.getD (s.voqD h.voq) + h.pkt.hold) * 65536 : Nat) - (s.since h.pkt.stamp : Int)

/-- The head with the earliest deadline, the lower VOQ index on a tie; heads come in rising index. -/
def State.earliest (s : State) : List Head → Option Head
  | [] => none
  | h :: rest => match s.earliest rest with
    | none => some h
    | some b => if s.slackOf b < s.slackOf h then some b else some h

/-- The head of the next inlet after the one served last, in cyclic order. -/
def nextInlet (last : Option Nat) (l : List Head) : Option Head :=
  match last with
  | none => l.head?
  | some i => match l.find? (fun h => decide (i < voqInlet h.voq)) with
    | some h => some h
    | none => l.head?

/-- Bytes of the next unit of a head at an outlet (R297). -/
def unitBytes (o : Nat) (p : Packet) : Nat := if o < 64 then p.bytes.length else min 512 (p.bytes.length - p.sent)

/-- Weight of a class at an outlet. -/
def State.weight (s : State) (o c : Nat) : Nat := s.rd (SWC_OUT_WGT_WGT o) / 2 ^ (8 * c) % 256

/-- Heads of a class. -/
def ofClass (c : Nat) (l : List Head) : List Head := l.filter (fun h => voqClass h.voq == c)

/-- Serve a class: its next inlet. -/
def serveClass (sc : Sched) (c : Nat) (l : List Head) : Option (Head × Sched) :=
  (nextInlet (tblGet sc.last c) (ofClass c l)).map
    (fun h => (h, { sc with last := tblPut sc.last c (voqInlet h.voq) }))

/-- Deficit round robin over the untimed classes with a weight: a class is credited once a visit, serves while its deficit
covers its next unit, and an empty class keeps none. Each visit of a class takes one turn. -/
def roundRobin (wgt : Nat → Nat) (o : Nat) (l : List Head) : Nat → Sched → Option (Head × Sched)
  | 0, _ => none
  | turns + 1, sc =>
      let c := sc.visiting
      let on : Sched := { sc with visiting := (c + 1) % 8, credited := false }
      match nextInlet (tblGet sc.last c) (ofClass c l) with
      | none => roundRobin wgt o l turns { on with deficit := tblDel sc.deficit c }
      | some h =>
        let d := tblGetD 0 sc.deficit c + (if sc.credited then 0 else wgt c * 1024)
        if unitBytes o h.pkt ≤ d then
          some (h, { sc with
            deficit := tblPut sc.deficit c (d - unitBytes o h.pkt)
            credited := true
            last := tblPut sc.last c (voqInlet h.voq) })
        else roundRobin wgt o l turns { on with deficit := tblPut sc.deficit c d }

/-- The scheduler's choice at an outlet (R296): earliest deadline first over the timed heads; then the untimed classes of
weight 0, higher class first; then deficit round robin. -/
def State.chooseUnit (s : State) (o : Nat) : Option (Head × Sched) :=
  let l := s.heads o
  let sc := tblGetD Sched.fresh s.swc.scheds o
  match s.earliest (l.filter (fun h => s.timed (voqClass h.voq))) with
  | some h => some (h, sc)
  | none =>
    let strict := [7, 6, 5, 4, 3, 2, 1, 0].find? (fun c => !s.timed c && s.weight o c == 0 && !(ofClass c l).isEmpty)
    match strict with
    | some c => serveClass sc c l
    | none => roundRobin (s.weight o) o (l.filter (fun h => s.weight o (voqClass h.voq) != 0)) 128 sc

/-- Island of the unit at an outlet (Table 1.3, Table 4.9). -/
def outletNode (o : Nat) : Nat := if o < 112 then o else if o < 120 then 0x90 + (o - 112) else 0xA0 + (o - 120)

/-- An outlet serves: a network port that is UP and not pinned away and whose MAC holds no frame, a host or root port with its link
up, or an internal outlet (R298); neither its island nor the hub's is in reset. -/
def State.outletServes (s : State) (o : Nat) : Bool :=
  !(s.island (outletNode o)).inReset && !(s.island 0xA9).inReset &&
    (if o < 64 then s.netState o == 5 && !s.bit (SWC_ALT_PINNED o) && (tblGetD [] s.swc.mac o).isEmpty
    else if o < 112 then s.portPresent (hostOf o) && s.linkUp (hostOf o)
    else decide (o ≤ 122))

/-! ## Handing over (R215, R297) -/

/-- Take the head of a VOQ. -/
def takeHead (v : Nat) (s : State) : State := { s with voqs := setQueue s.voqs v ((tblGetD [] s.voqs v).drop 1) }

/-- Put back the head of a VOQ with more of it sent. -/
def advanceHead (v : Nat) (p : Packet) (s : State) : State :=
  { s with voqs := setQueue s.voqs v (p :: (tblGetD [] s.voqs v).drop 1) }

/-- Length of a frame on the wire, from destination address to FCS (R214, R215). -/
def frameBytes (p : Packet) : Nat := max 60 p.bytes.length + 4

/-- A frame for a network port: spoiled when longer than MAX_FRAME, else handed to the MAC. Its setts are freed. -/
def handFrame (o : Nat) (p : Packet) (s : State) : State :=
  let s := releaseSetts p.id s
  if s.rd (NET_PORT_CFG_MAX_FRAME o) < frameBytes p then spoilPacket 0x19 p (s.count (NET_TX_OVERSIZE o) 1)
  else { s with swc := { s.swc with mac := tblPut s.swc.mac o (tblGetD [] s.swc.mac o ++ [p]) } }

/-- Data of a packet as a root port sends it: the storage header of an encrypted volume's block is stripped (R414). -/
def rootData (p : Packet) : Bytes := if p.inlet = 121 ∧ p.cipher.status ≠ 0 then p.bytes.drop 16 else p.bytes

/-- A packet handed whole to a root port leaves as posted writes; to any other outlet it waits there, in its setts, for
the unit that takes it. -/
def handWhole (o : Nat) (p : Packet) (s : State) : State :=
  if o < 112 ∧ s.portIsRoot (hostOf o) then
    countLate p 0 ((releaseSetts p.id s).emit (.rootWrite (hostOf o) (rootData p)))
  else { s with swc := { s.swc with handed := tblPut s.swc.handed o (tblGetD [] s.swc.handed o ++ [p]) } }

/-- Hand over one unit of a head. -/
def handUnit (o : Nat) (h : Head) (s : State) : State :=
  if o < 64 then handFrame o h.pkt (takeHead h.voq s)
  else
    let p := { h.pkt with sent := h.pkt.sent + unitBytes o h.pkt }
    if p.bytes.length ≤ p.sent then handWhole o { p with sent := 0 } (takeHead h.voq s)
    else advanceHead h.voq p s

/-- Packets of a network outlet in a class that received pause stops, and packets whose receive ring lacks free entries, are
held from outside (R76). -/
def markStopped (o : Nat) (s : State) : State :=
  if o < 64 then (s.pausedClasses o).foldl (fun t c => markPaused o c t) s
  else if o < 112 then markExternal (fun x => x.outlet == o && s.lacksEntries x) s
  else s

/-- Serve one unit at an outlet (R296-R298). -/
def serveUnit (o : Nat) (s : State) : State :=
  let s := markStopped o s
  if s.outletServes o then
    match s.chooseUnit o with
    | none => s
    | some (h, sc) => handUnit o h { s with swc := { s.swc with scheds := tblPut s.swc.scheds o sc } }
  else s

/-! ## A frame leaves (R55, R214, R283) -/

/-- EtherType of a frame behind at most n VLAN tags, read at an offset. -/
def etherType (bs : Bytes) : Nat → Nat → Nat
  | 0, off => word16 bs off
  | n + 1, off => if word16 bs off = 0x8100 ∨ word16 bs off = 0x88A8 then etherType bs n (off + 4) else word16 bs off

/-- Incremental update of a UDP checksum for the words from an offset on that changed between two frames. A sum that comes
to 0 is sent as 0xFFFF. -/
def udpStep (old new : Bytes) (off : Nat) : Nat → Nat → Nat
  | 0, sum => sum
  | n + 1, sum => udpStep old new (off + 2) n (checksumStep sum (word16 old off) (word16 new off))

/-- Fix the UDP checksum at ck for bytes off to off + 2n - 1 that changed. An IPv4 frame's 0 stays 0. -/
def fixUdp (ck : Option Nat) (off n : Nat) (old new : Bytes) : Bytes :=
  match ck with
  | none => new
  | some k =>
    if new.length < k + 2 ∨ (word16 new k = 0 ∧ etherType new 3 12 = 0x0800) then new
    else
      let sum := udpStep old new off n (word16 new k)
      overwrite new k (beBytes 2 (if sum = 0 then 0xFFFF else sum))

/-- Write 2n bytes at an offset, when they lie in the frame, and fix the UDP checksum. -/
def writeFixed (ck : Option Nat) (off n value : Nat) (bs : Bytes) : Bytes :=
  if bs.length < off + 2 * n then bs else fixUdp ck off n bs (overwrite bs off (beBytes (2 * n) value))

/-- Add to the 64-bit correctionField at an offset. -/
def addCorrection (ck : Option Nat) (off delta : Nat) (bs : Bytes) : Bytes :=
  writeFixed ck off 4 ((ofBe ((bs.drop off).take 8) + delta) % 2 ^ 64) bs

/-- One-step timestamping with an egress stamp in full, in 2^-16 ns: 48 bits of seconds and 32 of nanoseconds (R55). -/
def oneStepFrame (x : OneStep) (stamp : Nat) (bs : Bytes) : Bytes :=
  let ck := if x.udpFix then some (x.corr - 10) else none
  let ns := stamp / 65536
  addCorrection ck x.corr (stamp % 65536)
    (writeFixed ck x.origin 5 (ns / 1000000000 % 2 ^ 48 * 2 ^ 32 + ns % 1000000000) bs)

/-- Where the UDP checksum of a transparent-clock packet lies: two bytes before its PTP header, when the frame carries
IP. -/
def tcChecksum (ptp : Nat) (bs : Bytes) : Option Nat :=
  if etherType bs 3 12 = 0x0800 ∨ etherType bs 3 12 = 0x86DD then some (ptp - 2) else none

/-- A frame with its frame check sequence: the CRC-32 of IEEE 802.3, least significant byte first (R214; PRESUMED, log entry 19). -/
def withFcs (bs : Bytes) : Bytes := bs ++ leBytes 4 (crc32 bs)

/-- The frame as it leaves but for its FCS: padded to 60 bytes, timestamps applied. stamp: the egress stamp in full. -/
def egressFrame (p : Packet) (stamp : Nat) : Bytes :=
  let bs := p.bytes ++ List.replicate (60 - p.bytes.length) 0
  let bs := match p.oneStep with
    | some x => oneStepFrame x stamp bs
    | none => bs
  match p.ptp with
  | some off => addCorrection (tcChecksum off bs) (off + 8) (BitVec.ofNat 64 stamp - p.stamp).toNat bs
  | none => bs

/-- The network egress stamp: Datum now with TX_PS added (Table 2.4); completions carry its Datum short. -/
def State.egressStamp (s : State) (p : Nat) : Nat := ((s.datum.toNat : Int) + psUnits 16 (s.rd (DTM_PORT_CORR_TX_PS p))).toNat

/-- FABRIC_NS of a packet's contract: its delivery at the peer is that much later. -/
def State.fabricOf (s : State) (p : Packet) : Nat :=
  match p.contract with
  | none => 0
  | some c => match s.contract? c with
    | some x => x.par.fabric
    | none => 0

/-- The MAC of a port may send the frame it holds: the port is UP, where a frame already started completes, or PAUSE_FAILED with the
frame's class not stopped, and its island is not in reset (R49, R219, R222, R224). -/
def State.macSends (s : State) (o : Nat) (p : Packet) : Bool :=
  !(s.island o).inReset && (s.netState o == 5 || (s.netState o == 6 && !(s.pausedClasses o).contains p.cls))

/-- A frame leaves the MAC of a port, and a TS_REQ entry that waits for it completes (R55, R204, R214). -/
def sendFrame (port : Nat) (p : Packet) (rest : List Packet) (s : State) : State :=
    let stamp := s.egressStamp port
    let s := { s with swc := { s.swc with mac := setQueue s.swc.mac port rest } }
    let s := (s.count (NET_TX_FRAMES port) 1).count (NET_TX_BYTES port) (frameBytes p)
    let s := s.emit (.frame port (withFcs (egressFrame p stamp)))
    let s := countLate p (s.fabricOf p) s
    match p.tx with
    | some (g, idx) => endTx g idx 0 (stamp % 2 ^ 64) p.bytes.length (cipherBody 26 p.cipher) s
    | none => s

/-- FRAME_EGRESS: the frame the MAC of a port holds leaves (R55, R204, R214). -/
def execFrameEgress (port : Nat) (s : State) : Host.Outcome State Fault Refusal :=
  match tblGetD [] s.swc.mac port with
  | [] => .next s
  | p :: rest => if s.macSends port p then .next (sendFrame port p rest s) else .next s

/-! ## Placement into a receive ring (R205, R286, R311) -/

/-- Fields of Table 7.10, 11.3 and 12.6 in one entry of a packet; its stamp is taken when it is written (stampDone). -/
def rxBody (p : Packet) (bytes : Nat) (last : Bool) : Body :=
  [(8, 8, p.stamp.toNat), (16, 4, bytes), (20, 4, if last then p.total else 0), (24, 4, p.hash), (28, 1, p.cls), (29, 1, p.inlet),
   (30, 2, p.action + (if p.isDefault then 4096 else 0)), (32, 4, if p.isDefault then 0 else p.result), (36, 1, p.spoil),
   (37, 1, (if p.fallback then 1 else 0) + (if p.repinned then 2 else 0))]
    ++ (if last then cipherBody 38 p.cipher else [])

/-- Write a packet's data into its buffers, in order. -/
def placeData (n : Nat) : List Job → Bytes → State → State
  | [], _, s => s
  | j :: rest, bs, s => placeData n rest (bs.drop (bufLen j)) (sheetWrite n (eN j.first 8 8) (bs.take (bufLen j)) s)

/-- Completions of a packet's entries, first to last: FIRST and LAST mark them (R183, R205). -/
def placedDone (p : Packet) (n : Nat) : Bool → List Job → Nat → List Entry
  | _, [], _ => []
  | first, j :: rest, left =>
      let k := min left (bufLen j)
      mkCompletion j.first first rest.isEmpty 0 n (rxBody p k rest.isEmpty) :: placedDone p n false rest (left - k)

/-- Remove one packet from what is handed to an outlet. -/
def unhand (o : Nat) (p : Packet) (s : State) : State :=
  { s with swc := { s.swc with handed := setQueue s.swc.handed o ((tblGetD [] s.swc.handed o).erase p) } }

/-- The entries of a packet become one job whose completions are ready, holding its DMA-job slot until they are written. -/
def mergeJobs (used : List Job) (done : List Entry) (jobs : List Job) : List Job :=
  match used with
  | [] => jobs
  | u :: _ => jobs.filterMap (fun j =>
      if j.idx = u.idx then some ⟨u.idx, used.flatMap (fun x => x.entries), .ready (done.headD 0) done.tail, some .dma⟩
      else if used.any (fun x => x.idx == j.idx) then none
      else some j)

/-- Packets queued for a ring whose free entries no longer hold them are held from outside (R76, R205). -/
def markLacking (g : Nat) (s : State) : State := markExternal (fun x => x.ring == some g && s.lacksEntries x) s

/-- Place a packet into entries of its ring: a DMA-job slot is taken and its data written; its completions are written in order, which
frees the slot (R179, R205, Table 1.5). -/
def placePacket (g : Nat) (r : Ring) (p : Packet) (used : List Job) (s : State) : State :=
  let s := unhand (64 + s.sheetPortD r.sheet) p s
  let s := placeData r.sheet used p.bytes s
  let s := if r.slotHeld then s else s.takeSlot .dma
  let jobs := mergeJobs used (placedDone p used.length true used p.bytes.length) r.jobs
  let s := flushRing g (s.setRing g { r with jobs := jobs, slotWait := false, slotHeld := false })
  markLacking g (issueFetch g (refreshPressure (releaseSetts p.id (countLate p 0 s))))

/-- A packet handed over for a ring is not placed: its setts are freed. -/
def dropHanded (r : Ring) (p : Packet) (s : State) : State :=
  releaseSetts p.id (unhand (64 + s.sheetPortD r.sheet) p s)

/-- RX_PLACEMENT: the oldest packet handed over for a ring is placed into its free entries (R205). permitted: ATS permits
the buffers; otherwise the first of them completes with 0x0602 and the packet waits for the next. -/
def execRxPlacement (ring : Nat) (permitted : Bool) (s : State) : Host.Outcome State Fault Refusal :=
  match s.ring? ring with
  | none => .next s
  | some r =>
    if r.state ≠ .running ∨ s.hostWritable r.sheet = false then .next s
    else match s.handedFor ring r with
    | none => .next s
    | some p =>
      match findRun p.bytes.length r.jobs with
      | some used =>
        if r.slotHeld = false ∧ s.flight.room .dma = false then .next (s.setRing ring { r with slotWait := true })
        else if permitted then .next (placePacket ring r p used s)
        else match used with
          | j :: _ => .next (markLacking ring
              (endJob ring j.idx 0x0602 (rxBody { p with cipher := CipherInfo.none, total := 0 } 0 true) s))
          | [] => .next s
      | none =>
        if 64 ≤ r.posted.length then .next (refreshPressure (spoilPacket 0x18 p (dropHanded r p s)))
        else if p.isCapture then .next (refreshPressure ((dropHanded r p s).count SWC_CAP_SKIP 1))
        else .next (markExternal (fun x => x.ring == some ring) s)

end Sys2Proof.Machine
end

