-- ==== Sys2Proof/Machine/Transmit.lean ====
section
/-! DEFINITION. Transmit and receive entries: throttling, TX_PKT, RX_BUF (spec 07, R195-R199, R204, R205). -/

namespace Sys2Proof.Machine

/-- Depth of the BENCH_MBPS bucket: 9,216 bytes, in units of 1 bit x 10^9 x 2^16 (R197). -/
def benchDepth : Nat := 9216 * 8 * 65536000000000

/-- The BENCH_MBPS bucket of a sheet refilled to now. -/
def State.benchBucket (s : State) (n : Nat) : Nat :=
  let x := s.sheet n
  min benchDepth (x.tokens + s.limit n 2 * 1000000 * (s.datum.toNat - x.refilled))

/-- Tokens of a packet of a length. -/
def benchCost (len : Nat) : Nat := len * 8 * 65536000000000

/-- Take a packet's tokens, when a cap applies. -/
def takeBench (n len : Nat) (s : State) : State :=
  if s.limit n 2 = 0 then s
  else s.setSheet n { s.sheet n with tokens := s.benchBucket n - benchCost len, refilled := s.datum.toNat }

/-- CLASS of a TX_PKT entry. -/
def txClass (e : Entry) : Nat := eBits e 21 0 3

/-- Total LEN of a chain. -/
def txLen (j : Job) : Nat := (j.entries.map (fun e => eN e 16 4)).sum

/-- LEN of every segment and of the packet lie in their ranges (R204). -/
def txLenOk (j : Job) : Bool :=
  j.entries.all (fun e => decide (1 ≤ eN e 16 4) && decide (eN e 16 4 ≤ 9216)) && decide (14 ≤ txLen j) && decide (txLen j ≤ 9216)

/-- Packets of an inlet that the store has not committed yet. -/
def State.uncommitted (s : State) (i : Nat) : List Flying := (s.pipe.flying ++ s.pipe.waiting).filter (fun f => f.inlet == i)

/-- A port's ring engine may not start a packet of a length: 1,024 packets or 262,144 bytes would not be committed yet (R291). -/
def State.reserveFull (s : State) (i len : Nat) : Bool :=
  decide (1024 ≤ (s.uncommitted i).length) || decide (262144 < ((s.uncommitted i).map (fun f => f.bytes.length)).sum + len)

/-- The start of a ring's next transmit entry is held: its class is back-pressured toward the port, the port's host reserve has no
room, BENCH_MBPS has no tokens, or the sheet's setts are at their limit (R196-R198, R291). -/
def State.throttled (s : State) (r : Ring) (j : Job) : Bool :=
  let i := 64 + s.sheetPortD r.sheet
  s.pressed i (txClass j.first) || s.blocked i || (txLenOk j && s.reserveFull i (txLen j))
    || (s.limit r.sheet 2 != 0 && txLenOk j && decide (s.benchBucket r.sheet < benchCost (txLen j)))
    || decide (s.limit r.sheet 1 ≤ s.usage r.sheet 1)

/-- One-step fields of a TX_PKT entry. -/
def txOneStep (e : Entry) : Option OneStep :=
  if eBits e 20 1 1 = 1 then some ⟨eN e 22 2, eN e 24 2, eBits e 20 2 1 == 1⟩ else none

/-- A string made a length long, with zeros. -/
def fitTo (n : Nat) (bs : Bytes) : Bytes := bs.take n ++ List.replicate (n - bs.length) 0

/-- The reads of the segments of a TX_PKT job. -/
def readSegments (r : Ring) (j : Job) (s : State) : State :=
  j.entries.foldl (fun t e => sheetRead r.sheet (eN e 8 8) (eN e 16 4) t) s

/-- The packet of a TX_PKT job whose data has arrived: stamped with the host ingress stamp, it goes to its bench (R199,
R204). -/
def sendTx (g : Nat) (r : Ring) (j : Job) (data : Bytes) (s : State) : State :=
  let f := s.newFlying (64 + s.sheetPortD r.sheet) (fitTo (txLen j) data) s.dshort
  enterBench { f with
    sheet := some r.sheet, ringContract := r.contract, txCls := some (txClass j.first), job := some (g, j.idx),
    tsReq := eBits j.first 20 0 1 == 1, oneStep := txOneStep j.first } s

/-- Start a ring's next TX_PKT entry or chain, unless it is throttled: lengths are checked, its data is read, and it
enters its bench. -/
def startTx (g : Nat) (data : MemResult) (s : State) : State :=
  match s.startable g (· == 0x80) with
  | none => s
  | some (r, j) =>
    if s.throttled r j ∨ s.flight.room .rd = false then s
    else match beginJob g (· == 0x80) (some .dma) s with
    | (none, s) => s
    | (some (r, j), s) =>
      if txLenOk j = false then endTx g j.idx 0x0103 0 0 [] s
      else
        let s := readSegments r j (takeBench r.sheet (txLen j) s)
        match data with
        | .ok bs => sendTx g r j bs s
        | .bad => endTx g j.idx 0x0601 0 0 [] s
        | .noPermission => endTx g j.idx 0x0602 0 0 [] s
        | .timeout => endTx g j.idx 0x0701 0 0 [] s
        | .partly _ _ => endTx g j.idx 0x0701 0 0 [] s

/-- TX_PKT: the next entry or chain of a transmit ring starts; what reading its data gives is an operand (R204). -/
def execTxPkt (ring : Nat) (data : MemResult) (s : State) : Host.Outcome State Fault Refusal := .next (startTx ring data s)

/-- TX_THROTTLE_RELEASE: the condition that held a transmit entry has ended, and it starts (R195-R198). -/
def execTxThrottleRelease (ring : Nat) (data : MemResult) (s : State) : Host.Outcome State Fault Refusal :=
  .next (startTx ring data s)

/-- RX_BUF: the next entry of a receive ring is posted as a free buffer and pre-translated, or refused for its BUF_LEN (R131, R186,
R205). -/
def execRxBuf (ring : Nat) (s : State) : Host.Outcome State Fault Refusal :=
  match s.startable ring (· == 0x81) with
  | none => .next s
  | some (r, j) =>
    let len := eN j.first 16 4
    if len < 256 ∨ 16384 < len then
      .next (flushRing ring (s.setRing ring { r with jobs := markJob j.idx (.bad 0x0103) r.jobs }))
    else .next (sheetAts r.sheet (eN j.first 8 8) (s.setRing ring { r with jobs := markJob j.idx .posted r.jobs }))

end Sys2Proof.Machine
end

