-- ==== Sys2Proof/Machine/SwitchCmd.lean ====
section
/-! DEFINITION. Switch-core commands, alternates and bank groups (spec 11, R281, R289, R304-R308, R312-R314). -/

namespace Sys2Proof.Machine

/-! ## Admin-ring commands (R312-R314) -/

/-- INDEX of a switch-core entry. -/
def swIndex (e : Entry) : Nat := eN e 8 2
/-- PART of a switch-core entry. -/
def swPart (e : Entry) : Nat := eN e 10 1
/-- DATA of a switch-core entry, bytes 16-47. -/
def swData (e : Entry) : Nat := eN e 16 32

/-- A write command is held while a bench is in reset: it completes when every bench that is not FAILED holds the change (R16, R312). -/
def State.writeHeld (s : State) (op : Nat) : Bool :=
  decide (op ≠ 0x31) && decide (op ≠ 0x35) && (List.range 18).any s.benchHeld

/-- Run a switch-core command on the admin ring of a sheet of function 0; on another sheet's it completes with 0x0401. -/
def runSwitch (g op : Nat) (f : Ring → Entry → State → State × Nat × Body) (s : State) : State :=
  if s.writeHeld op then s else runEntry g (· == op) (fun r j s =>
    let named : Body := [(8, 2, swIndex j.first), (10, 1, swPart j.first)]
    if s.managerSheet r.sheet = false then (s, 0x0401, named)
    else
      let (s, st, b) := f r j.first s
      (s, st, named ++ b)) s

/-- An action record with its reserved bits 0 (Table 11.2). -/
def cleanAction (d : Nat) : BitVec 256 :=
  BitVec.ofNat 256 (ofLe ([3, 15, 0xFF, 0x0F, 0xFF, 0xFF, 0x0F, 0, 0xFF, 0xFF, 0xFF, 0xFF, 0x0F, 0xFF, 0xFF, 0xFF, 0xFF, 0xFF, 0, 0, 0xFF, 0xFF,
    0xFF, 0x07, 0xFF, 0xFF, 0x0F, 0, 0xFF, 0xFF, 0x0F, 0] : List Byte) &&& d)

/-- A rewrite of a record lies in its ranges. -/
def rewriteOk (a : BitVec 256) (byte : Nat) : Bool :=
  let len := aBits a byte 14 5 + 1
  decide (aBits a byte 8 6 + len ≤ 64) && decide (aBits a byte 0 8 + len ≤ 256)

/-- The fields of a record lie in the ranges of Table 11.2. -/
def actionOk (a : BitVec 256) : Bool :=
  !(actDisp a == 1 && decide (63 < actTarget a))
    && decide (aBits a 17 0 8 ≤ 128) && decide (aBits a 16 0 8 + aBits a 17 0 8 ≤ 256)
    && decide (aBits a 21 0 8 ≤ 128) && decide (aBits a 20 0 8 + aBits a 21 0 8 ≤ 256)
    && rewriteOk a 24 && rewriteOk a 28

/-- RING of a record is none or an open receive ring, and SA none, the connection SA or an existing one. -/
def State.actionNames (s : State) (a : BitVec 256) : Bool :=
  (actRing a == 0xFFFFF || (match s.ring? (actRing a) with
    | some r => r.kind == 2
    | none => false))
  && (actSa a == 0xFFFFF || actSa a == 0xFFFFE || (decide (actSa a < 0x40000) && (tblGet s.sas (actSa a)).isSome))

/-- RING and CONTRACT_ID of a record belong to sheets of a port. -/
def State.actionReach (s : State) (port : Nat) (a : BitVec 256) : Bool :=
  (match s.ring? (actRing a) with
   | some r => actRing a == 0xFFFFF || s.sheetPort r.sheet == some port
   | none => true)
  && (match s.contract? (actContract a) with
   | some c => actContract a == 0xFFFF || s.sheetPort c.sheet == some port
   | none => true)

/-- ACT_WRITE (R281, Table 11.10). -/
def execActWrite (ring : Nat) (s : State) : Host.Outcome State Fault Refusal :=
  .next (runSwitch ring 0x30 (fun r e s =>
    let a := cleanAction (swData e)
    if 4095 < swIndex e ∨ actionOk a = false then (s, 0x0103, [])
    else if swIndex e = 0 ∨ s.actionNames a = false then (s, 0x0104, [])
    else if s.actionReach (s.sheetPortD r.sheet) a = false then (s, 0x0402, [])
    else ({ s with tables := { s.tables with actions := tblSet actionReset s.tables.actions (swIndex e) a } }, 0, [])) s)

/-- ACT_READ (R314). -/
def execActRead (ring : Nat) (s : State) : Host.Outcome State Fault Refusal :=
  .next (runSwitch ring 0x31 (fun _ e s =>
    if 4095 < swIndex e then (s, 0x0103, []) else (s, 0, [(16, 32, (s.action (swIndex e)).toNat)])) s)

/-- Replace 32 bytes of a template. -/
def writeTemplate (t : BitVec 1024) (part data : Nat) : BitVec 1024 :=
  BitVec.ofNat 1024 (t.toNat % 2 ^ (256 * part) + data % 2 ^ 256 * 2 ^ (256 * part) + t.toNat / 2 ^ (256 * (part + 1)) * 2 ^ (256 * (part + 1)))

/-- TMPL_WRITE (R281). -/
def execTmplWrite (ring : Nat) (s : State) : Host.Outcome State Fault Refusal :=
  .next (runSwitch ring 0x32 (fun _ e s =>
    if 2047 < swIndex e ∨ 3 < swPart e then (s, 0x0103, [])
    else
      let t := tblGetD 0 s.tables.templates (swIndex e)
      ({ s with tables := { s.tables with
        templates := tblSet 0 s.tables.templates (swIndex e) (writeTemplate t (swPart e) (swData e)) } }, 0, [])) s)

/-- Member k of a PSET_WRITE entry. -/
def psMember (e : Entry) (k : Nat) : Nat := eBits e (16 + k) 0 7

/-- PSET_WRITE (R304). -/
def execPsetWrite (ring : Nat) (s : State) : Host.Outcome State Fault Refusal :=
  .next (runSwitch ring 0x33 (fun _ e s =>
    let base := swIndex e * 256 + 32 * swPart e
    if 63 < swIndex e ∨ 7 < swPart e then (s, 0x0103, [])
    else if (List.range 32).any (fun k => psMember e k != 0x7F && !s.netPresent (psMember e k)) then (s, 0x0104, [])
    else ({ s with tables := { s.tables with
        members := (List.range 32).foldl (fun t k => tblSet 0x7F t (base + k) (psMember e k)) s.tables.members } }, 0, [])) s)

/-- MCG_WRITE (R303). -/
def execMcgWrite (ring : Nat) (s : State) : Host.Outcome State Fault Refusal :=
  .next (runSwitch ring 0x34 (fun _ e s =>
    let mask := BitVec.ofNat 128 (eN e 16 16)
    if 4095 < swIndex e then (s, 0x0103, [])
    else if (List.range 128).any (fun o => mask.getLsbD o && !s.outletExists o) then (s, 0x0104, [])
    else ({ s with tables := { s.tables with groups := tblSet 0 s.tables.groups (swIndex e) mask } }, 0, [])) s)

/-- VOQ_QUERY (Table 11.9). -/
def execVoqQuery (ring : Nat) (s : State) : Host.Outcome State Fault Refusal :=
  .next (runSwitch ring 0x35 (fun _ e s =>
    let o := swPart e % 128
    if 127 < swIndex e then (s, 0x0103, [])
    else (s, 0, (List.range 8).map (fun c => (16 + 4 * c, 4, s.voqSetts (voqIndex (swIndex e) o c)))
      ++ [(48, 1, maskOf ((List.range 8).filter (s.pressed (swIndex e))))])) s)

/-! ## Bank groups (R289) -/

/-- BANK_GROUP_FAULT: no new sett goes to the group, the store's capacity falls, and the spare is consumed; with no spare
every contract breaks (R76). -/
def execBankGroupFault (group : Nat) (s : State) : Host.Outcome State Fault Refusal :=
  if 15 < group then .next s
  else
    let s := raise SWC_EVENT_STORE_FAULT { s with swc := { s.swc with
      draining := if s.activeGroups.contains group then s.swc.draining ++ [group] else s.swc.draining } }
    if s.rd HLT_SPARE_GROUP = 1 then
      let s := spareConsumed (s.wr HLT_SPARE_GROUP 0)
      .next (refreshPressure (resizePool (logFault 0x06 group true false true s)))
    else
      let s := breakWhere (fun _ => true) 2 (logFault 0x06 group false true true s)
      .next (beyondModel 3 s)

/-- BANK_GROUP_DRAINED: a faulty group holds no sett any more and leaves service. -/
def execBankGroupDrained (s : State) : Host.Outcome State Fault Refusal :=
  match s.swc.draining.find? (fun g => !s.groupHolds g) with
  | none => .next s
  | some g =>
    let s := { s with swc := { s.swc with
      draining := s.swc.draining.filter (· != g)
      outGroups := g :: s.swc.outGroups } }
    .next (s.wr SWC_STATUS_GROUPS (s.rd SWC_STATUS_GROUPS - 1))

/-! ## Alternates (R305, R308) -/

/-- A write to SWC_ALTo is refused (R305). -/
def State.altRefused (s : State) (o : Nat) (v : BitVec 64) : Bool :=
  let alt := getField v 0 6
  let en := getField v 6 1
  (en == 1 && alt == o) || !s.netPresent alt
    || (s.bit (SWC_ALT_PINNED o) && (alt != s.rd (SWC_ALT_ALT o) || en != s.rd (SWC_ALT_EN o)))

/-- A marker of an outlet at the tail of a VOQ. -/
def markerOf (o : Nat) (p : Packet) : Packet := 
  { p with
    marker := some o, id := 0, bytes := [], tx := none, sent := 0, contract := none, sheet := none, toSheet := none,
    ring := none, copy := false }

/-- VOQs of an outlet that correspond to a VOQ of its alternate: its class, and the timed classes spliced onto FALLBACK. -/
def State.correspond (s : State) (o v : Nat) : List Nat :=
  ((List.range 8).filter (fun c => (if s.timed c then s.rd ADM_CTRL_FALLBACK else c) == voqClass v)).map
    (fun c => voqIndex (voqInlet v) o c)

/-- VOQs of an alternate that hold re-pinned traffic. -/
def State.repinnedVoqs (s : State) (a : Nat) : List Nat :=
  tblKeys (fun v (q : List Packet) => voqOutlet v == a && q.any (fun p => p.repinned && p.marker.isNone)) s.voqs

/-- Place a marker at the tail of a VOQ. -/
def placeMarker (o v : Nat) (s : State) : State :=
  match (tblGetD [] s.voqs v).getLast? with
  | none => s
  | some p => { s with voqs := tblPut s.voqs v (tblGetD [] s.voqs v ++ [markerOf o p]) }

/-- Unpinning ends when no VOQ of the outlet is held. -/
def endUnpin (o : Nat) (s : State) : State :=
  if s.swc.unpinHeld.any (fun v => voqOutlet v == o) then s
  else raise SWC_EVENT_UNPIN_DONE (s.wr (SWC_ALT_UNPINNING o) 0)

/-- UNPIN of a pinned outlet whose port is UP (R308). TARGET, "port now carrying this outlet's
traffic" (Table 11.13), is the outlet's own port again (DEDUCED, notes/assumptions/59.md). -/
def unpin (o : Nat) (s : State) : State :=
  if s.bit (SWC_ALT_PINNED o) ∧ s.netState o = 5 then
    let vs := s.repinnedVoqs (s.rd (SWC_ALT_TARGET o))
    let s := vs.foldl (fun t v => placeMarker o v t) s
    let s := { s with swc := { s.swc with unpinHeld := s.swc.unpinHeld ++ vs.flatMap (s.correspond o) } }
    endUnpin o (((s.wr (SWC_ALT_PINNED o) 0).wr (SWC_ALT_TARGET o) o).wr (SWC_ALT_UNPINNING o) 1)
  else s

/-- A write to SWC_ALTo: refused, or ALT and EN taken and UNPIN acted on. What waits for a port that serves nothing and
now has no alternate enabled is spoiled (R298). -/
def altWrite (o : Nat) (v : BitVec 64) (s : State) : State :=
  if s.altRefused o v then raise SWC_EVENT_CFG_ERR s
  else
    let s := (s.wr (SWC_ALT_ALT o) (getField v 0 6)).wr (SWC_ALT_EN o) (getField v 6 1)
    if getField v 7 1 = 1 then unpin o s else refreshPressure (spoilDead o s)

/-- SWC_ALT_WRITE (R305). -/
def execSwcAltWrite (outlet : Nat) (value : BitVec 64) (s : State) : Host.Outcome State Fault Refusal :=
  if 63 < outlet then .next s else .next (altWrite outlet value s)

/-- SWC_UNPIN: a write of SWC_ALTo as it stands with UNPIN = 1 (R308). -/
def execSwcUnpin (outlet : Nat) (s : State) : Host.Outcome State Fault Refusal :=
  if 63 < outlet then .next s else .next (unpin outlet s)

/-- UNPIN_MARKER_SERVED: the marker at the head of a VOQ is served, the packets it holds back are released, and the last
one ends unpinning (R308). -/
def execUnpinMarkerServed (voq : Nat) (s : State) : Host.Outcome State Fault Refusal :=
  match tblGetD [] s.voqs voq with
  | [] => .next s
  | p :: rest =>
    match p.marker with
    | none => .next s
    | some o =>
      let free := s.correspond o voq
      let s := { s with
        voqs := setQueue s.voqs voq rest
        swc := { s.swc with unpinHeld := s.swc.unpinHeld.filter (fun v => !free.contains v) } }
      .next (refreshPressure (endUnpin o s))

end Sys2Proof.Machine
end

