-- ==== Sys2Proof/Machine/CipherCmd.lean ====
section
/-! DEFINITION. Cipher commands, the DRBG, the key cache's errors and the re-wrap (spec 12, R321-R325, R328, R331, R337,
R338, R345-R347). -/

namespace Sys2Proof.Machine

/-! ## Reach (R345) -/

/-- The sheet a command names with SHEET, 0xFFFF the ring's own: its own, or for a manager a sheet that is not FREE on its
port; none outside the issuer's reach. -/
def State.namedSheet (s : State) (issuer field : Nat) : Option Nat :=
  if field = 0xFFFF ∨ field = issuer then some issuer
  else if s.managerSheet issuer ∧ field < 4096 ∧ s.sheetPort field = some (s.sheetPortD issuer) ∧ (s.sheet field).state ≠ .free then
    some field
  else none

/-! ## Parameters (Table 12.2, R331, R337) -/

/-- A microcode mode is one that a KEY_INSTALL may name: 1-4, or one of 5-7 that the loaded microcode defines. -/
def State.modeDefined (s : State) (m : Nat) : Bool := (decide (1 ≤ m) && decide (m ≤ 4)) || (decide (5 ≤ m) && s.cipher.modes.contains m)

/-- TAG is allowed in a MODE: GCM 16 bytes; CMAC 16, 12 or 8; CTR and XTS code 0, their tag being 0 bytes. -/
def tagAllowed (p : BitVec 32) : Bool :=
  let t := p.toNat / 2 ^ 5 % 4
  match parMode p with
  | 4 => t != 3
  | 1 => t == 0 | 2 => t == 0 | 3 => t == 0
  | _ => true

/-- The constraints of R331 on the offsets; CMAC ignores ENC_OFF and IV_OFF. -/
def offsetsOk (p : BitVec 32) : Bool :=
  parMode p == 4 || (decide (parAad p ≤ parEnc p)
    && (parIv p == 0xFF || decide (parIv p ≤ 243))
    && (!(parMode p == 1 || parMode p == 2) || parIv p == 0xFF || decide (parIv p + 12 ≤ parEnc p))
    && (parMode p != 3 || parIv p == 0xFF || decide (parIv p + 8 ≤ parEnc p))
    && !(parOpen p && (parMode p == 1 || parMode p == 2 || parMode p == 3) && parIv p == 0xFF))

/-- An SA's parameters are ones the device takes. -/
def State.paramsOk (s : State) (p : BitVec 32) : Bool := s.modeDefined (parMode p) && tagAllowed p && offsetsOk p

/-! ## Key blocks (R346) -/

/-- One key of a key block: 32 bytes, or the first 16 of its half for AES-128. -/
def keyOf (klen : Bool) (half : Bytes) : BitVec 256 := BitVec.ofNat 256 (ofBe (half.take (if klen then 32 else 16)))

/-- Key material of a version from a key block and an entry's SALT. -/
def blockKey (p : BitVec 32) (version : Nat) (block : Bytes) (salt : Nat) : SaKey :=
  ⟨version, keyOf (parKlen p) block, keyOf (parKlen p) (block.drop 32), salt⟩

/-- The DRBG works. -/
def State.drbgRuns (s : State) : Bool := s.bit CPH_STATUS_DRBG_OK

/-- Status of a key block or buffer access: 0 with the data, or what it fails with. Table 12.10 has one code for every
failure but a missing permission. -/
def accessStatus : MemResult → Nat
  | .ok _ => 0
  | .noPermission => 0x0602
  | .bad => 0x0601
  | .timeout => 0x0601
  | .partly _ _ => 0x0601

/-- Data of an access that succeeded. -/
def accessData : MemResult → Bytes
  | .ok d => d
  | .noPermission => []
  | .bad => []
  | .timeout => []
  | .partly _ _ => []

/-! ## Users (R338, Table 12.9) -/

/-- USERS: the action records that name an installed SA. No ring or connection can name one: no field of a ring does, and a connection
has its own records. R338 does not list the volumes that name it. -/
def State.saUsers (s : State) (n : Nat) : Nat := (s.tables.actions.filter (fun a => actSa a.2 == n)).length

/-- Highest counter issued on any bench under the SA's present key. -/
def SA.highest (x : SA) : Nat :=
  (x.next.filter (fun k => k.1 / 32 == x.key.version)).foldl (fun m k => max m (k.2 - 1)) 0

/-- Completion fields of Table 12.9. -/
def cipherFields (sheet : Nat) (n : Option Nat) (x : Option SA) : Body :=
  let state := match x with | some a => a.state.code | none => 0
  let epoch := match x with | some a => a.epoch | none => 0
  [(8, 2, sheet), (12, 4, n.getD 0xFFFFFFFF), (16, 1, state), (23, 1, epoch)]

/-- Run a cipher command on an admin ring: SHEET in reach, then the effect on that sheet. f is given the ring's own sheet too, in whose
memory the key block or buffer lies (R346; DEDUCED, log entry 60). -/
def runCipher (g op : Nat) (f : Nat → Nat → Entry → State → State × Nat × Body) (s : State) : State :=
  runEntry g (· == op) (fun r j s =>
    match s.namedSheet r.sheet (eN j.first 8 2) with
    | none => (s, 0x0401, cipherFields (eN j.first 8 2) none none)
    | some n => f r.sheet n j.first s) s

/-- The SA a command names, of a sheet: refused with 0x0501 when FREE, 0x0401 when another sheet's. -/
def State.namedSa (s : State) (sheet n : Nat) : (Nat × SA) ⊕ Nat :=
  match tblGet s.sas n with
  | none => .inr 0x0501
  | some x => if x.sheet = sheet then .inl (n, x) else .inr 0x0401

/-- Number of an SA in an entry. -/
def saNumber (e : Entry) : Nat := eBits e 12 0 18

/-! ## Commands -/

/-- A free SA number: the one offered when it is free, else the lowest. -/
def State.freeSa (s : State) (pick : Nat) : Nat :=
  if pick < 0x40000 ∧ tblGet s.sas pick = none then pick else tblFree s.sas 0

/-- KEY_INSTALL: the key block is read and an ACTIVE SA created for the sheet (R345, R346). -/
def execKeyInstall (ring pick : Nat) (block : MemResult) (s : State) : Host.Outcome State Fault Refusal :=
  .next (runCipher ring 0x40 (fun own n e s =>
    let par : BitVec 32 := BitVec.ofNat 32 (eN e 16 4)
    let none' := cipherFields n none none
    if s.paramsOk par = false ∨ eN e 24 8 % 64 ≠ 0 then (s, 0x0103, none')
    else if s.limit n 3 < s.usage n 3 + 1 then (s, 0x0301, none')
    else if s.drbgRuns = false then (s, 0x0601, none')
    else if accessStatus block ≠ 0 then (sheetRead own (eN e 24 8) 64 s, accessStatus block, none')
    else
      let s := sheetRead own (eN e 24 8) 64 s
      let id := s.freeSa pick
      let x : SA := ⟨.active, n, par, blockKey par 0 (accessData block) (eN e 20 3), [], [], [], s.epoch, none⟩
      ({ s with sas := tblPut s.sas id x }, 0, cipherFields n (some id) (some x))) s)

/-- KEY_RETIRE: an SA that nothing names becomes RETIRING; the entry completes when its drain ends (R338). -/
def execKeyRetire (ring : Nat) (s : State) : Host.Outcome State Fault Refusal :=
  .next (startEntry ring (· == 0x41) (fun r j s =>
    match s.namedSheet r.sheet (eN j.first 8 2) with
    | none => (s, some (0x0401, cipherFields (eN j.first 8 2) none none))
    | some n =>
      let id := saNumber j.first
      match s.namedSa n id with
      | .inr st => (s, some (st, cipherFields n (some id) none))
      | .inl (_, x) =>
        if x.state = .retiring ∨ s.saUsers id ≠ 0 then (s, some (0x0106, cipherFields n (some id) (some x)))
        else ({ s with sas := tblPut s.sas id { x with state := .retiring, waiter := some (ring, j.idx) } }, none)) s)

/-- Some packet in a bench was prepared under an SA. -/
def State.saPrepared (s : State) (n : Nat) : Bool :=
  s.pipe.flying.any (fun f => match f.acted with
    | some a => (match a.sa with
      | some (k, v) => k == n && v != lostVersion
      | none => false)
    | none => false)

/-- SA_RETIRE_DONE: the packets prepared under a RETIRING SA have completed; its keys and record are erased, the slot
returns to the sheet, and KEY_RETIRE completes (R338). -/
def execSaRetireDone (sa : Nat) (s : State) : Host.Outcome State Fault Refusal :=
  match tblGet s.sas sa with
  | none => .next s
  | some x =>
    if x.state = .retiring ∧ s.saPrepared sa = false then
      let s := eraseKeys [sa] { s with sas := tblDel s.sas sa }
      let s := resolveShrinks x.sheet s
      match x.waiter with
      | some (g, idx) => .next (endJob g idx 0 (cipherFields x.sheet (some sa) none) s)
      | none => .next s
    else .next s

/-- Versions of an SA that packets in benches were prepared with stay (R327). -/
def State.versionsInUse (s : State) (n : Nat) (l : List SaKey) : List SaKey :=
  l.filter (fun k => s.pipe.flying.any (fun f => match f.acted with
    | some a => a.sa == some (n, k.version)
    | none => false))

/-- KEY_REKEY: new key material and SALT, every counter 0, state ACTIVE (R334, R345). The key cache drops what it held. -/
def execKeyRekey (ring : Nat) (block : MemResult) (s : State) : Host.Outcome State Fault Refusal :=
  .next (runCipher ring 0x42 (fun own n e s =>
    let id := saNumber e
    match s.namedSa n id with
    | .inr st => (s, st, cipherFields n (some id) none)
    | .inl (_, x) =>
      let here := cipherFields n (some id) (some x)
      if x.state = .retiring then (s, 0x0106, here)
      else if eN e 24 8 % 64 ≠ 0 then (s, 0x0103, here)
      else if s.drbgRuns = false then (s, 0x0601, here)
      else if accessStatus block ≠ 0 then (sheetRead own (eN e 24 8) 64 s, accessStatus block, here)
      else
        let s := sheetRead own (eN e 24 8) 64 s
        let older := s.versionsInUse id (x.key :: x.older)
        let keep : Nat × Nat → Bool := fun k => older.any (fun o => o.version == k.1 / 32)
        let x' := { x with
          state := .active
          key := blockKey x.par (x.key.version + 1) (accessData block) (eN e 20 3)
          older := older
          next := x.next.filter keep
          lease := x.lease.filter keep
          epoch := s.epoch }
        ({ s with
            sas := tblPut s.sas id x'
            cipher := { s.cipher with cache := s.cipher.cache.filter (· != id) } }, 0, cipherFields n (some id) (some x'))) s)

/-- SA_QUERY: state, parameters, highest counter, epoch and users (Table 12.9). -/
def execSaQuery (ring : Nat) (s : State) : Host.Outcome State Fault Refusal :=
  .next (runCipher ring 0x43 (fun _ n e s =>
    let id := saNumber e
    match s.namedSa n id with
    | .inr st => (s, st, cipherFields n (some id) none)
    | .inl (_, x) =>
      (s, 0, cipherFields n (some id) (some x) ++ [(24, 8, x.highest), (32, 4, s.saUsers id), (36, 4, x.par.toNat)])) s)

/-- ENTROPY_READ: LEN bytes of the DRBG go to BUF_ADDR (R345). result says whether the writes are permitted. -/
def execEntropyRead (ring : Nat) (result : MemResult) (s : State) : Host.Outcome State Fault Refusal :=
  .next (runCipher ring 0x44 (fun own n e s =>
    let len := eN e 32 4
    let here := cipherFields n none none
    if eN e 24 8 % 64 ≠ 0 ∨ len % 64 ≠ 0 ∨ len < 64 ∨ 4096 < len then (s, 0x0103, here)
    else if s.drbgRuns = false then (s, 0x0601, here)
    else if accessStatus result ≠ 0 then (s, accessStatus result, here)
    else
      let (bs, s) := drawBytes (len / 8) (generate s)
      (sheetWrite own (eN e 24 8) bs s, 0, here)) s)

/-! ## Entropy and the key cache (R321, R323, R325) -/

/-- NOISE_SOURCE_FAIL: a source fails its health tests. The other one alone reseeds; with neither the DRBG stops (R321). -/
def execNoiseSourceFail (source : Nat) (s : State) : Host.Outcome State Fault Refusal :=
  if s.cipher.sources.contains source then
    let left := s.cipher.sources.filter (· != source)
    let s := { s with cipher := { s.cipher with sources := left } }
    let s := logFault 0x08 source false false false s
    let s := if left = [] then s.wr CPH_STATUS_DRBG_OK 0
      else
        let s := s.wr CPH_STATUS_ES_SINGLE 1
        { s with cipher := { s.cipher with generated := 0, reseededAt := s.ns } }
    .next (raise CPH_EVENT_ENTROPY s)
  else .next s

/-- DRBG_RESEED: 2^20 generate requests or 1 s have passed: the DRBG takes a new seed from the sources that work (R321). -/
def execDrbgReseed (s : State) : Host.Outcome State Fault Refusal :=
  if s.cipher.sources = [] then .next s
  else .next { s with cipher := { s.cipher with generated := 0, reseededAt := s.ns } }

/-- KEY_CACHE_ERROR: the lost entries are reloaded from their records: the cache holds what it held (R325). -/
def execKeyCacheError (s : State) : Host.Outcome State Fault Refusal :=
  .next (raise CPH_EVENT_KC_FAULT (logFault 0x07 0xA3 false false false s))

/-- REWRAP_DONE: every SA record is wrapped under the new epoch, and the old wrapping keys are destroyed (R323). -/
def execRewrapDone (s : State) : Host.Outcome State Fault Refusal :=
  if s.bit CPH_STATUS_REWRAP then
    let e := s.epoch
    let s := { s with
      sas := tblMap (fun _ (x : SA) => { x with epoch := e }) s.sas
      cipher := { s.cipher with wrapKeys := s.cipher.wrapKeys.filter (fun k => k.1 == e) } }
    .next (raise CPH_EVENT_EPOCH (s.wr CPH_STATUS_REWRAP 0))
  else .next s

end Sys2Proof.Machine
end

