-- ==== Sys2Proof/Machine/RalushOps.lean ====
section
/-! DEFINITION. The Ralush engine's shared operations: headers received, answers sent, path rates and pacing, the DATA
packets of a message (spec 13, R349-R350, R360-R362, R364-R368; spec 14, R391-R395). -/

namespace Sys2Proof.Machine

/-! ## Headers received (Table 13.1) -/

/-- What the engine reads of a packet. -/
structure RltHdr where
  ver : Nat
  type : Nat
  flags : Nat
  path : Nat
  /-- DCONN and DGEN -/
  dconn : Nat
  psn : BitVec 32
  msn : BitVec 32
  offset : Nat
  total : Nat
  /-- UDP source port -/
  sport : Nat
  /-- ECN codepoint 0b11 -/
  ce : Bool
  body : Bytes
  deriving DecidableEq, Repr

/-- Offset of the Ralush header: 42 behind IPv4, 62 behind IPv6 (R349). -/
def rltBase (bs : Bytes) : Nat := if word16 bs 12 = 0x0800 then 42 else 62

/-- Big-endian 32-bit value at an offset. -/
def word32 (bs : Bytes) (i : Nat) : Nat := word16 bs i * 65536 + word16 bs (i + 2)

/-- The header and body of a packet whose tag is gone. -/
def parseRlt (bs : Bytes) : RltHdr :=
  let b := rltBase bs
  {
    ver := byteAt bs b / 16, type := byteAt bs b % 16, flags := byteAt bs (b + 1) % 8, path := byteAt bs (b + 2) % 16,
    dconn := word32 bs (b + 4) % 2 ^ 28, psn := BitVec.ofNat 32 (word32 bs (b + 8)), msn := BitVec.ofNat 32 (word32 bs (b + 12)),
    offset := word32 bs (b + 16), total := word32 bs (b + 20), sport := word16 bs (b - 8),
    ce := (if b = 42 then byteAt bs 15 % 4 else word16 bs 14 / 16 % 4) == 3,
    body := bs.drop (b + 44) }

/-- A DATA packet carries FIRST, LAST, RETX. -/
def RltHdr.last (h : RltHdr) : Bool := h.flags.testBit 1
/-- RETX. -/
def RltHdr.retx (h : RltHdr) : Bool := h.flags.testBit 2

/-- a is before b in the order of sequence numbers modulo 2^32. -/
def before (a b : BitVec 32) : Bool := decide (2 ^ 31 ≤ (a - b).toNat)

/-- The oldest packet handed to the engine. -/
def State.frontRlt (s : State) : Option Packet := (tblGetD [] s.swc.handed 120).head?

/-- Take a packet from the engine's outlet and free its setts. -/
def takeRlt (p : Packet) (s : State) : State := refreshPressure (releaseSetts p.id (unhand 120 p s))

/-- Discard a packet and count it. -/
def dropRlt (counter : Fld) (p : Packet) (s : State) : State := (takeRlt p s).count counter 1

/-- Highest PSN received on a path once another has arrived. -/
def seenAfter (old : Option (BitVec 32)) (psn : BitVec 32) : BitVec 32 :=
  match old with
  | none => psn
  | some o => if before o psn then psn else o

/-- A packet of the peer was received: highest PSN of its path; the source port, but not of an answer, which leaves from
the engine's own port; a DATA packet counts toward the next ACK and, with CE, toward CE_CNT (R360, R368, R391). -/
def markRx (c : Nat) (h : RltHdr) (s : State) : State :=
  match s.conn? c with
  | none => s
  | some x =>
    let t := x.rxPath h.path
    let own : Bool := h.type == 1 || h.type == 5 || h.type == 6 || h.type == 8
    let data : Bool := h.type == 1
    let t : RxPath := ⟨some (seenAfter t.seen h.psn), if data ∧ h.ce then t.ce + 1 else t.ce, if own then h.sport else t.port,
      if data then t.unacked + 1 else t.unacked⟩
    let s := s.setConn c (x.withRx h.path t)
    if data ∧ h.ce then s.count RLT_CE_RX 1 else s

/-! ## Answers (R350, R368) -/

/-- RECV entries bound to MSNs not below MSN_DONE. -/
def Conn.rltCredit (x : Conn) : Nat := (x.recvs.filter (fun m => m.job.isSome)).length

/-- Send an ACK for a path; its count starts again. -/
def sendAck (c path : Nat) (s : State) : State :=
  match s.conn? c with
  | none => s
  | some x =>
    let t := x.rxPath path
    let body := beBytes 4 x.msnDone.toNat ++ beBytes 4 (t.seen.getD 0xFFFFFFFF).toNat ++ beBytes 4 t.ce.toNat ++ beBytes 4 x.rltCredit
    sendAnswer c .ack path 0 body (s.setConn c (x.withRx path { t with unacked := 0 }))

/-- ACK a path that has seen 8 DATA packets since its last one. -/
def ackEight (c path : Nat) (s : State) : State :=
  match s.conn? c with
  | none => s
  | some x => if 8 ≤ (x.rxPath path).unacked then sendAck c path s else s

/-- Send a NAK (Table 14.3): RETRY_US for RNR and PAGE_WAIT, INDEX for the codes of memory. -/
def sendNak (c path : Nat) (msn : BitVec 32) (code idx : Nat) (s : State) : State :=
  let retry := if code = 1 then s.rd RLT_WAITS_RNR_US else if code = 4 then s.rd RLT_ODP_CFG_RETRY_US else 0
  let s := if code = 6 then s.count RLT_NAK_WITHDRAWN 1 else s
  sendAnswer c .nak path msn.toNat
    (beBytes 4 msn.toNat ++ [BitVec.ofNat 8 code, 0, 0, 0] ++ beBytes 4 retry ++ beBytes 4 (if 4 ≤ code then idx else 0)) s

/-- Missing indices below a bound as ranges, from index k on; open: the first index of the range being built. -/
def missingRanges (bits : Nat) : Nat → Nat → Option Nat → List (Nat × Nat)
  | 0, k, start => match start with
    | some a => [(a, k - 1)]
    | none => []
  | n + 1, k, start =>
    if bits.testBit k then
      match start with
      | some a => (a, k - 1) :: missingRanges bits n (k + 1) none
      | none => missingRanges bits n (k + 1) none
    else missingRanges bits n (k + 1) (some (start.getD k))

/-- The first 8 ranges a message lacks; before LAST has arrived the last one is open-ended (R366). -/
def RecvMsg.missing (m : RecvMsg) : List (Nat × Nat) :=
  match m.n with
  | some n => (missingRanges m.bits n 0 none).take 8
  | none =>
    let top := if m.bits = 0 then 0 else Nat.log2 m.bits + 1
    (missingRanges m.bits top 0 none ++ [(top, 0xFFFFFFFF)]).take 8

/-- Send a REREQ for ranges of a message. -/
def sendRereq (c path : Nat) (msn : BitVec 32) (ranges : List (Nat × Nat)) (s : State) : State :=
  sendAnswer c .rereq path msn.toNat
    (beBytes 4 msn.toNat ++ [BitVec.ofNat 8 ranges.length, 0, 0, 0]
      ++ (ranges.map (fun r => beBytes 4 r.1 ++ beBytes 4 r.2)).flatten) (s.count RLT_REREQ 1)

/-! ## Path rates (R392, R395) -/

/-- R_p of a path as it is set, in b/s: its contract's rate, or RATE_INIT. -/
def State.pathRate (s : State) (contract : Option Nat) : Nat :=
  match contract with
  | none => s.rd RLT_CC_INIT_RATE_INIT * 1000000
  | some id => match s.contract? id with
    | some k => k.par.rate
    | none => s.rd RLT_CC_INIT_RATE_INIT * 1000000

/-- A path as it is enabled, or as it returns UP. -/
def State.freshRate (s : State) (t : TxPath) : TxPath := { t with up := true, rate := s.pathRate t.contract, alpha := 0 }

/-- A path as it returns UP: one that carries a contract keeps the rate that its CONN_PATH gave it (R392, R395). -/
def State.returnedRate (s : State) (t : TxPath) : TxPath :=
  if t.contract.isSome then { t with up := true, alpha := 0 } else s.freshRate t

/-- alpha after a fraction f of marks: rounded toward zero. -/
def alphaStep (alpha f g : Nat) : Nat := ((alpha : Int) + ((f : Int) - (alpha : Int)).tdiv ((2 ^ g : Nat) : Int)).toNat

/-- R_p in Mb/s after a cut. -/
def cutRate (rateMin mbps alpha : Nat) : Nat := max rateMin (mbps - mbps * alpha / 2048)

/-- An ACK brings PSN_SEEN and CE_CNT of a path: marks and rate (R392). A path with a contract keeps its rate (R395). -/
def State.marksOf (s : State) (t : TxPath) (seen ce : BitVec 32) : TxPath × Bool :=
  let dPkt := (seen - t.seen).toNat
  if dPkt = 0 then (t, false)
  else
    let dCe := (ce - t.ce).toNat
    let f := min 1024 (dCe * 1024 / dPkt)
    let a := alphaStep t.alpha f (s.rd RLT_CC_CFG_G)
    let t := { t with seen := seen, ce := ce, alpha := a }
    if t.contract = none ∧ 0 < dCe ∧ s.rd RLT_CC_CFG_CUT_US * 1000 ≤ s.ns - t.cutAt then
      ({ t with rate := cutRate (s.rd RLT_CC_MIN_RATE_MIN) (t.rate / 1000000) a * 1000000, cutAt := s.ns }, true)
    else (t, false)

/-! ## Pacing (R393) -/

/-- Bytes of a DATA packet's frame from the destination address to the FCS. -/
def Conn.frameLen (x : Conn) (payload : Nat) : Nat := (if x.ipv4 then 42 else 62) + 44 + payload + 16 + 4

/-- T_p after a release: the schedule goes on, or starts again when the release was 1 ns late or more. -/
def nextRelease (rel now rate bytes : Nat) : Nat :=
  (if now - rel < 65536 then rel else now) + (bytes + 20) * 8 * 65536000000000 / max rate 1

/-- The path the next DATA packet leaves on: the next UP enabled one whose release time has come (R361, R393). -/
def State.releasePath (s : State) (x : Conn) : Option Nat :=
  x.turn.find? (fun p => x.pathUp p && decide ((x.path p).rel ≤ s.ns * 65536))

/-- Class in which a DATA packet of a path waits at inlet 120: its contract's, else the one its profile gives (DESIGN CHOICE,
notes/assumptions/29.md: an action may give it another class in the bench). -/
def State.dataClass (s : State) (x : Conn) (path : Nat) : Nat :=
  let t := x.path path
  match t.contract with
  | some id => s.contractClass id
  | none => (s.newFlying 120 (s.rltFrame x ⟨.data, 0, path, t.sport, x.dport, 0, 0, 0, []⟩ 0 0 0) s.dshort).defCls

/-- The engine sends no DATA packet on a path: inlet 120 is back-pressured, whole or in the packet's class (R25, R293). -/
def State.dataStopped (s : State) (x : Conn) (path : Nat) : Bool := s.stopped 120 (s.dataClass x path)

/-! ## DATA packets (R362) -/

/-- Packets of a message. -/
def packetsOf (mtu len : Nat) : Nat := max 1 ((len + mtu - 1) / mtu)

/-- Payload bytes of packet k. -/
def payloadOf (mtu len k : Nat) : Nat := min mtu (len - k * mtu)

/-- Release packet k of a message on a path. -/
def releaseData (c path : Nat) (m : SendMsg) (k : Nat) (retx : Bool) (payload : Bytes) (s : State) : State :=
  match s.conn? c with
  | none => s
  | some x =>
    let t := x.path path
    let t := { t with rel := nextRelease t.rel (s.ns * 65536) t.rate (x.frameLen payload.length) }
    let last : Bool := k + 1 == packetsOf x.mtu m.len
    let flags := (if k = 0 then 1 else 0) + (if last then 2 else 0) + (if retx then 4 else 0)
    let s := s.setConn c { x.withPath path t with cursor := path }
    let s := s.count RLT_DATA_TX 1
    let s := if retx then s.count RLT_RETX 1 else s
    sendRlt c true ⟨.data, flags, path, t.sport, x.dport, m.msn.toNat, k * x.mtu, if last then m.len else 0, payload⟩ s

/-- Payload of packet k: from tenant memory as the operand gives it, or of a capsule the engine holds; or the status with
which its SEND ends. -/
def payloadFor (mtu : Nat) (m : SendMsg) (k : Nat) (data : MemResult) : Bytes ⊕ Nat :=
  let n := payloadOf mtu m.len k
  if m.job.isNone then .inl (fitTo n (m.data.drop (k * mtu)))
  else match data with
    | .ok bs => .inl (fitTo n bs)
    | .bad => .inr 0x0601
    | .noPermission => .inr 0x0602
    | .timeout => .inr 0x0701
    | .partly _ _ => .inr 0x0701

/-- The engine reads the payload of packet k of a SEND from the sheet's memory (R363). -/
def readPayload (x : Conn) (m : SendMsg) (k : Nat) (s : State) : State :=
  if m.job.isSome then sheetRead x.sheet (m.addr + k * x.mtu) (payloadOf x.mtu m.len k) s else s

/-- Change a started message. -/
def withSend (c : Nat) (msn : BitVec 32) (f : SendMsg → SendMsg) (s : State) : State :=
  match s.conn? c with
  | none => s
  | some x => s.setConn c { x with sends := x.sends.map (fun m => if m.msn = msn then f m else m) }

/-- A started message that has not ended. -/
def Conn.sending (x : Conn) (msn : BitVec 32) : Option SendMsg := x.sends.find? (fun m => m.msn == msn && m.done == none)

/-- Queue packets of a message to be sent again, but for those queued. -/
def queueRetx (c : Nat) (msn : BitVec 32) (ks : List Nat) (s : State) : State :=
  match s.conn? c with
  | none => s
  | some x =>
    let more := ks.filter (fun k => !x.queue.any (fun q => q.msn == msn && q.idx == k))
    s.setConn c { x with queue := x.queue ++ more.map (fun k => ⟨msn, k, true⟩) }

/-- A bound receive. -/
def Conn.bound (x : Conn) (msn : BitVec 32) : Option RecvMsg := x.recvs.find? (fun m => m.msn == msn)

/-- Change a bound receive. -/
def withRecv (c : Nat) (msn : BitVec 32) (f : RecvMsg → RecvMsg) (s : State) : State :=
  match s.conn? c with
  | none => s
  | some x => s.setConn c { x with recvs := x.recvs.map (fun m => if m.msn = msn then f m else m) }

/-- A message of a connection has a stalled packet. -/
def Conn.stalledMsg (x : Conn) (msn : BitVec 32) : Bool := x.stalled.any (fun p => (parseRlt p.bytes).msn == msn)

/-! ## Regions (R373) -/

/-- Key of a region. -/
def State.regionKey (s : State) (r : Nat) : Nat := r % 2 ^ 24 + tblGetD 0 s.rlt.regGens r * 2 ^ 24

/-- The region a key names: not FREE, of the current generation. -/
def State.keyed (s : State) (key : Nat) : Option (Nat × Region) :=
  let r := key % 2 ^ 24
  if key / 2 ^ 24 % 256 = tblGetD 0 s.rlt.regGens r then (tblGet s.rlt.regions r).map (fun x => (r, x)) else none

/-- Set a region. -/
def State.setRegion (s : State) (r : Nat) (x : Region) : State := { s with rlt := { s.rlt with regions := tblPut s.rlt.regions r x } }

/-- Messages in progress in a region: a packet placed or stalled, not ended (R385). -/
def State.inProgress (s : State) (key : Nat) : List (Nat × Nat) :=
  s.conns.flatMap (fun c => (c.2.recvs.filter (fun m =>
    m.key == key && m.job.isSome && m.ended == none && (m.bits != 0 || c.2.stalledMsg m.msn))).map (fun m => (c.1, m.msn.toNat)))

end Sys2Proof.Machine
end

