-- ==== Sys2Proof/Machine/RalushSend.lean ====
section
/-! DEFINITION. Ralush as a sender: SEND entries, paced releases, acknowledgements, NAKs, REREQs, polls, probes and path
states (spec 13, R354, R360-R367; spec 14, R382-R386, R392-R395). -/

namespace Sys2Proof.Machine

/-! ## SEND (R363) -/

/-- SEND opcodes. -/
def isSend (op : Nat) : Bool := 0x90 ≤ op && op ≤ 0x97

/-- RECV opcodes. -/
def isRecv (op : Nat) : Bool := 0x98 ≤ op && op ≤ 0x9F

/-- Completion fields of a SEND or RECV that never started. -/
def refusedBody (j : Job) : Body := [(8, 4, eN j.first 8 4)]

/-- Why a SEND or RECV entry is refused before its connection's state counts: FREE or old handle, another sheet's, the
wrong ring, a connection a volume took over, LEN (R353, R363, R415). -/
def State.messageRefusal (s : State) (g : Nat) (r : Ring) (j : Job) (send : Bool) : (Nat × Conn) ⊕ Nat :=
  match s.handled (eN j.first 8 4) with
  | none => .inr 0x0501
  | some (c, x) =>
    if x.sheet ≠ r.sheet then .inr 0x0401
    else if (if send then x.sendRing else x.recvRing) ≠ g then .inr 0x0104
    else if s.connTaken c then .inr 0x0106
    else if 16777216 < eN j.first 12 4 then .inr 0x0103
    else .inl (c, x)

/-- Packet 0 of a new message, and the queue of the others (R362, R363). -/
def startMessage (c path : Nat) (m : SendMsg) (payload : Bytes) (s : State) : State :=
  match s.conn? c with
  | none => s
  | some x =>
    let n := packetsOf x.mtu m.len
    let rest := (List.range n).drop 1
    let s := s.setConn c { x with
      nextMsn := x.nextMsn + 1
      sends := x.sends ++ [m]
      queue := x.queue ++ rest.map (fun k => ⟨m.msn, k, false⟩) }
    releaseData c path m 0 false payload s

/-- Messages started and not ended as a sender. -/
def Conn.sendCount (x : Conn) : Nat := (x.sends.filter (fun m => m.done == none)).length

/-- MSG_SEND: the next entry of a message ring, a SEND, starts when its connection is OPEN, has fewer than 64 messages
started, no packet waits before its first one, a path may release it and inlet 120 is not stopped (R25, R293); a refused entry
completes (R361-R363). data: what
reading packet 0's payload gives. -/
def execMsgSend (ring : Nat) (data : MemResult) (s : State) : Host.Outcome State Fault Refusal :=
  match s.startable ring isSend with
  | none => .next s
  | some (r, j) =>
    match s.messageRefusal ring r j true with
    | .inr st => .next (endJob ring j.idx st (refusedBody j) s)
    | .inl (c, x) =>
      match x.state with
      | .armed => .next s
      | .closing => .next (endJob ring j.idx 0x0502 (refusedBody j) s)
      | .error => .next (endJob ring j.idx 0x0502 (refusedBody j) s)
      | .opened =>
        match s.releasePath x with
        | none => .next s
        | some path =>
          if 64 ≤ x.sendCount ∨ x.queue ≠ [] ∨ s.dataStopped x path then .next s
          else
            let m : SendMsg := ⟨x.nextMsn, some (ring, j.idx), eN j.first 12 4, 0, 0, 0, [], none, [], eN j.first 16 8⟩
            match beginJob ring isSend (some .msg) s with
            | (none, s) => .next s
            | (some _, s) =>
              let s := readPayload x m 0 s
              match payloadFor x.mtu m 0 data with
              | .inr st => .next (endJob ring j.idx st (refusedBody j) s)
              | .inl bs => .next (startMessage c path m bs s)

/-! ## Releases (R361, R393, R394) -/

/-- A connection sends: OPEN, or CLOSING with messages to end. -/
def Conn.active (x : Conn) : Bool := x.state == .opened || x.state == .closing

/-- PACING_RELEASE: the packet that waits first leaves on the next path whose release time has come, unless inlet 120 is stopped. data: what reading
its payload gives; a read that fails ends its SEND (R394). -/
def execPacingRelease (conn : Nat) (data : MemResult) (s : State) : Host.Outcome State Fault Refusal :=
  match s.conn? conn with
  | none => .next s
  | some x =>
    match x.queue, s.releasePath x with
    | k :: rest, some path =>
      if x.active = false ∨ s.dataStopped x path then .next s
      else
        let s := s.setConn conn { x with queue := rest }
        match x.sending k.msn with
        | none => .next s
        | some m =>
          let s := readPayload x m k.idx s
          match payloadFor x.mtu m k.idx data with
          | .inr st => .next (endSend conn k.msn st s)
          | .inl bs => .next (releaseData conn path m k.idx k.retx bs s)
    | _, _ => .next s

/-- RATE_INCREASE: INC_US passed without a cut on a path that carries no contract (R392, R395). -/
def execRateIncrease (conn path : Nat) (s : State) : Host.Outcome State Fault Refusal :=
  match s.conn? conn with
  | none => .next s
  | some x =>
    let t := x.path path
    if t.enabled ∧ t.contract = none then
      let mbps := min (s.rd RLT_CC_MAX_RATE_MAX) (t.rate / 1000000 + s.rd RLT_CC_INC_RATE_INC)
      .next (s.setConn conn (x.withPath path { t with rate := mbps * 1000000, incAt := s.ns }))
    else .next s

/-! ## Receiving the peer's control packets -/

/-- Take the oldest packet handed to the engine when it is of a type: one that was not opened, or that names no connection
that accepts packets, is discarded (R355, R364); else its path is marked and the effect applies. -/
def receiveRlt (type : RltType) (f : Nat → Conn → RltHdr → State → State) (s : State) : State :=
  match s.frontRlt with
  | none => s
  | some p =>
    let h := parseRlt p.bytes
    if h.ver ≠ 1 ∨ h.type ≠ type.code then s
    else match s.handled h.dconn with
      | none => dropRlt RLT_CIPHER_DROP p s
      | some (c, x) =>
        if p.cipher.status ≠ 2 ∨ x.state = .error then dropRlt RLT_CIPHER_DROP p s
        else f c x h (markRx c h (takeRlt p s))

/-- Complete the SENDs that an MSN_DONE covers; those that ended before ignore it (R365, R386). -/
def ackSends (c : Nat) (done : BitVec 32) (s : State) : State :=
  match s.conn? c with
  | none => s
  | some x =>
    let covered : SendMsg → Bool := fun m => m.done == none && before m.msn done
    (x.sends.filter covered).foldl (fun t m => endSend c m.msn 0 t) s

/-- The receiver answered: the polls of a connection's messages count from 0 again (R367). -/
def restartPolls (c : Nat) (p : SendMsg → Bool) (s : State) : State :=
  match s.conn? c with
  | none => s
  | some x => s.setConn c { x with sends := x.sends.map (fun m => if p m then { m with polls := 0 } else m) }

/-- ACK_RECEIVE: SENDs below MSN_DONE complete, and the path's marks and rate follow (R365, R392). -/
def execAckReceive (s : State) : Host.Outcome State Fault Refusal :=
  .next (receiveRlt .ack (fun c _ h s =>
    let s := restartPolls c (fun _ => true) s
    let s := match s.conn? c with
      | none => s
      | some x =>
        let (t, cut) := s.marksOf (x.path h.path) (BitVec.ofNat 32 (word32 h.body 4)) (BitVec.ofNat 32 (word32 h.body 8))
        let s := s.setConn c (x.withPath h.path t)
        if cut then s.count RLT_RATE_CUT 1 else s
    ackSends c (BitVec.ofNat 32 (word32 h.body 0)) s) s)

/-- A SEND that drew NAK RNR once more: it waits RETRY_US and is sent again whole, or after RNR_TRIES it completes with
0x0303 and an OPEN connection enters ERROR with cause 7 (R365). -/
def rnrSend (c : Nat) (x : Conn) (m : SendMsg) (s : State) : State :=
  if s.rd RLT_TIMERS_RNR_TRIES ≤ m.rnrs + 1 then
    let s := endSend c m.msn 0x0303 s
    if x.state = .opened then connError c 7 s else s
  else withSend c m.msn (fun k => { k with rnrs := k.rnrs + 1, retry := List.range (packetsOf x.mtu m.len) }) s

/-- NAK_RECEIVE: the named message is sent again later, or its SEND ends, by CODE (R365, R382, R383, R386). -/
def execNakReceive (s : State) : Host.Outcome State Fault Refusal :=
  .next (receiveRlt .nak (fun c x h s =>
    let msn : BitVec 32 := BitVec.ofNat 32 (word32 h.body 0)
    let code := byteAt h.body 4
    match x.sending msn with
    | none => s
    | some m =>
      let s := withSend c msn (fun k => { k with nak := code, polls := 0 }) s
      match code with
      | 1 => rnrSend c x m s
      | 2 => endSend c msn 0x0304 s
      | 3 => endSend c msn 0x0701 s
      | 4 => withSend c msn (fun k => { k with retry := k.retry.filter (· != word32 h.body 12) ++ [word32 h.body 12] }) s
      | 5 => endSend c msn 0x0603 s
      | 6 => endSend c msn 0x0503 s
      | _ => s) s)

/-- Packet indices of the ranges a REREQ lists. -/
def rereqIndices (n : Nat) (body : Bytes) : List Nat :=
  (List.range (min 8 (byteAt body 4))).flatMap (fun i =>
    (List.range n).filter (fun k => word32 body (8 + 8 * i) ≤ k && k ≤ word32 body (12 + 8 * i)))

/-- REREQ_RECEIVE: the listed packets are sent again with RETX (R366). -/
def execRereqReceive (s : State) : Host.Outcome State Fault Refusal :=
  .next (receiveRlt .rereq (fun c x h s =>
    let msn : BitVec 32 := BitVec.ofNat 32 (word32 h.body 0)
    match x.sending msn with
    | none => s
    | some m => queueRetx c msn (rereqIndices (packetsOf x.mtu m.len) h.body) (restartPolls c (fun k => k.msn == msn) s)) s)

/-- RNR_RETRY_EXPIRY: RETRY_US after a NAK RNR or PAGE_WAIT the packets concerned are queued again (R365, R382). -/
def execRnrRetryExpiry (conn msn : Nat) (s : State) : Host.Outcome State Fault Refusal :=
  let k : BitVec 32 := BitVec.ofNat 32 msn
  match s.conn? conn with
  | none => .next s
  | some x =>
    match x.sending k with
    | none => .next s
    | some m => .next (queueRetx conn k m.retry (withSend conn k (fun w => { w with retry := [] }) s))

/-- POLL_TIMER_EXPIRY: a message whose last packet left POLL_US ago without an ACK is polled on the next UP path; after
POLL_TRIES unanswered polls an OPEN connection enters ERROR with cause 4, and one that closes lets the SEND end (R367). -/
def execPollTimerExpiry (conn msn : Nat) (s : State) : Host.Outcome State Fault Refusal :=
  let k : BitVec 32 := BitVec.ofNat 32 msn
  match s.conn? conn with
  | none => .next s
  | some x =>
    match x.sending k with
    | none => .next s
    | some m =>
      if x.active = false ∨ x.queue.any (fun q => q.msn == k) ∨ m.retry ≠ [] then .next s
      else if s.rd RLT_TIMERS_POLL_TRIES ≤ m.polls then
        .next (if x.state = .opened then connError conn 4 s else endSend conn k 0x0502 s)
      else
        let s := withSend conn k (fun w => { w with polls := w.polls + 1 }) s
        .next (sendOwn conn .poll x.nextPath msn (beBytes 4 msn) (s.count RLT_POLL 1))

/-! ## Probes and path states (R354, R360) -/

/-- PROBE_RECEIVE: answered with PROBE_ACK, which opens an ARMED connection; in ERROR answered with CLOSE, though dressing
blanked it (R352, R354). -/
def execProbeReceive (s : State) : Host.Outcome State Fault Refusal :=
  let probed : Option (Packet × Nat × Conn) := match s.frontRlt with
    | none => none
    | some p =>
      let h := parseRlt p.bytes
      if h.ver = 1 ∧ h.type = 6 then (s.handled h.dconn).map (fun x => (p, x.1, x.2)) else none
  match probed with
  | some (p, c, x) =>
    if x.state = .error then .next (sendClose c x.cause (takeRlt p s))
    else .next (receiveRlt .probe (fun c _ h s =>
      let s := sendAnswer c .probeAck h.path 0 (h.body.take 8 ++ beBytes 8 s.dshort.toNat) s
      openConn c s) s)
  | none => .next (receiveRlt .probe (fun _ _ _ s => s) s)

/-- PROBE_ACK_RECEIVE: an ARMED connection opens, or a DOWN path returns to UP with its first rate (R354, R360, R392, R395). -/
def execProbeAckReceive (s : State) : Host.Outcome State Fault Refusal :=
  .next (receiveRlt .probeAck (fun c _ h s =>
    match s.conn? c with
    | none => s
    | some x =>
      if x.state = .armed then openConn c s
      else
        let t := x.path h.path
        if t.enabled ∧ t.up = false then s.setConn c (x.withPath h.path (s.returnedRate t)) else s) s)

/-- CLOSE_RECEIVE: an ARMED or OPEN connection enters ERROR with cause 2 (R354). -/
def execCloseReceive (s : State) : Host.Outcome State Fault Refusal :=
  .next (receiveRlt .close (fun c x _ s => if x.state = .armed ∨ x.state = .opened then connError c 2 s else s) s)

/-- PROBE_TIMER: PROBE on path 0 of an ARMED connection, or on a DOWN path (R354, R360). -/
def execProbeTimer (conn path : Nat) (s : State) : Host.Outcome State Fault Refusal :=
  match s.conn? conn with
  | none => .next s
  | some x =>
    let t := x.path path
    if (x.state = .armed ∧ path = 0) ∨ (x.active ∧ t.enabled ∧ t.up = false) then
      .next (sendOwn conn .probe path 0 (beBytes 8 s.dshort.toNat) s)
    else .next s

/-- OPEN_TIMEOUT: an ARMED connection did not open within OPEN_MS (R354). -/
def execOpenTimeout (conn : Nat) (s : State) : Host.Outcome State Fault Refusal :=
  match s.conn? conn with
  | none => .next s
  | some x => if x.state = .armed then .next (connError conn 3 s) else .next s

/-- PATH_DOWN_TIMEOUT: a packet sent on a path has gone POLL_US without PSN_SEEN reaching it (R360). -/
def execPathDownTimeout (conn path : Nat) (s : State) : Host.Outcome State Fault Refusal :=
  match s.conn? conn with
  | none => .next s
  | some x =>
    let t := x.path path
    if x.active ∧ t.enabled ∧ t.up ∧ t.psn ≠ t.seen + 1 then .next (s.setConn conn (x.withPath path { t with up := false }))
    else .next s

/-- PATHS_DOWN_TIMEOUT: every enabled path has been DOWN for OPEN_MS (R354). -/
def execPathsDownTimeout (conn : Nat) (s : State) : Host.Outcome State Fault Refusal :=
  match s.conn? conn with
  | none => .next s
  | some x => if x.state = .opened ∧ x.paths.all (fun t => !t.2.enabled || !t.2.up) then .next (connError conn 5 s) else .next s

end Sys2Proof.Machine
end

