-- ==== Sys2Proof/Machine/RalushRecv.lean ====
section
/-! DEFINITION. Ralush as a receiver: RECV entries, DATA packets, on-demand paging, reassembly and polls (spec 13, R362-R368;
spec 14, R375-R386). -/

namespace Sys2Proof.Machine

/-! ## RECV (R363, R378) -/

/-- The lowest MSN of a connection, from MSN_DONE on, that has no RECV. -/
def Conn.freeMsn (x : Conn) : BitVec 32 :=
  match (List.range (x.recvs.length + 1)).find? (fun k => (x.bound (x.msnDone + BitVec.ofNat 32 k)).isNone) with
  | some k => x.msnDone + BitVec.ofNat 32 k
  | none => x.msnDone

/-- The outcome of the region checks of a RECV (R378). -/
def State.regionRefusal (s : State) (sheet key addr len : Nat) : Option Nat :=
  match s.keyed key with
  | none => some 0x0501
  | some (_, g) =>
    if g.sheet ≠ sheet then some 0x0401
    else if addr < g.base ∨ g.base + g.len < addr + len then some 0x0404
    else if g.draining then some 0x0503
    else none

/-- MSG_RECV: the next entry of a message ring, a RECV, is checked and bound to the lowest unbound MSN, or refused
(R363, R378). -/
def execMsgRecv (ring : Nat) (s : State) : Host.Outcome State Fault Refusal :=
  match s.startable ring isRecv with
  | none => .next s
  | some (r, j) =>
    let refuse := fun (st : Nat) => Host.Outcome.next (endJob ring j.idx st (refusedBody j) s)
    match s.messageRefusal ring r j false with
    | .inr st => refuse st
    | .inl (c, x) =>
      if x.state = .closing ∨ x.state = .error then refuse 0x0502
      else
        let key := eN j.first 16 4
        let addr := eN j.first 24 8
        let len := eN j.first 12 4
        match s.regionRefusal r.sheet key addr len with
        | some st => refuse st
        | none =>
          let m : RecvMsg := ⟨x.freeMsn, some (ring, j.idx), len, key, addr, 0, none, 0, 0, 0, 0, 0, false, false, false, none, []⟩
          .next ((s.setConn c { x with recvs := x.recvs ++ [m] }).setRing ring { r with jobs := markJob j.idx .running r.jobs })

/-! ## On-demand paging (R380-R383) -/

/-- Pages of a placement. -/
def pagesOf (addr len : Nat) : List Nat :=
  if len = 0 then [] else (List.range ((addr + len - 1) / 4096 - addr / 4096 + 1)).map (· + addr / 4096)

/-- The outstanding Page Request for a page of a sheet. -/
def PageReq.isFor (q : PageReq) (s : State) (n page : Nat) : Bool :=
  q.port == s.sheetPortD n && q.pf == s.sheetPf n && q.pasid == s.rd (CAD_ID_PASID n) && q.page == page

/-- Outstanding Page Requests of a function. -/
def State.pageCount (s : State) (p f : Nat) : Nat := (s.rlt.pages.filter (fun q => q.port == p && q.pf == f)).length

/-- What a new absence can do: wait for its request, find 512 outstanding, or fail at once (R377, R383). -/
inductive Absence where
  | asked | full | refused
  deriving DecidableEq, Repr

/-- Meet an absent page: join its Page Request or send one. -/
def askPage (n c : Nat) (msn : BitVec 32) (k page : Nat) (s : State) : Absence × State :=
  let f := s.sheetFunc n
  let p := s.sheetPortD n
  let join : PageReq → PageReq := fun q =>
    if q.isFor s n page ∧ ¬ q.msgs.any (fun m => m.1 == c && m.2.1 == msn.toNat) then { q with msgs := q.msgs ++ [(c, msn.toNat, k)] } else q
  if f.atsEn = false ∨ f.priEn = false ∨ f.priStopped then (.refused, s)
  else if s.rlt.pages.any (fun q => q.isFor s n page) then
    (.asked, { s with rlt := { s.rlt with pages := s.rlt.pages.map join } })
  else if 512 ≤ s.pageCount p (s.sheetPf n) then (.full, s)
  else
    let q : PageReq := ⟨p, s.sheetPf n, s.rd (CAD_ID_PASID n), page, [(c, msn.toNat, k)]⟩
    (.asked, ({ s with rlt := { s.rlt with pages := s.rlt.pages ++ [q] } } : State).emit (.portMessage p 3 page))

/-- Meet every absent page of a placement: one that is refused decides. -/
def askPages (n c : Nat) (msn : BitVec 32) (k : Nat) (pages : List Nat) (s : State) : Absence × State :=
  pages.foldl (fun acc page =>
    match acc.1 with
    | .refused => acc
    | _ =>
      let (a, t) := askPage n c msn k page acc.2
      (if a = .refused then Absence.refused else if a = .full ∨ acc.1 = .full then Absence.full else Absence.asked, t)) (.asked, s)

/-- Stall slots in use. -/
def State.stallSlots (s : State) : Nat := tblSum (fun _ x => x.stalled.length) s.conns

/-- Hold a packet in a stall slot, or discard it when none is free (R381). -/
def stallPacket (c : Nat) (p : Packet) (s : State) : State :=
  match s.conn? c with
  | none => dropRlt RLT_CIPHER_DROP p s
  | some x =>
    if x.stalled.length < 8 ∧ s.stallSlots < 4096 then
      ((unhand 120 p s).setConn c { x with stalled := x.stalled ++ [p] }).count RLT_ODP_STALL 1
    else dropRlt RLT_ODP_DROP p s

/-- A message fails for its page: its stalled packets go, its RECV ends, NAK PAGE_FAIL (R383). -/
def failPage (c : Nat) (msn : BitVec 32) (idx status : Nat) (s : State) : State :=
  match s.conn? c with
  | none => s
  | some x =>
    match x.bound msn with
    | none => s
    | some m =>
      if m.ended.isSome then s
      else
        let s := dropStalled c (fun p => (parseRlt p.bytes).msn == msn) s
        let s := endRecv c msn status s
        raise RLT_MEM_EVENT_PAGE_FAIL (sendNak c m.lastPath msn 5 idx s)

/-! ## DATA (R364) -/

/-- The row of Table 13.8 that a DATA packet meets. -/
inductive DataRow where
  | dup
  | window
  | noBuf
  | withdrawn
  | badHdr
  | tooLong
  | again
  | place (k : Nat)
  deriving DecidableEq, Repr

/-- OFFSET and lengths of a DATA packet are those of R362. -/
def headerOk (mtu : Nat) (h : RltHdr) : Bool :=
  let k := h.offset / mtu
  h.offset % mtu == 0
    && (if h.last then k + 1 == packetsOf mtu h.total && h.body.length + k * mtu == h.total else h.body.length == mtu)

/-- The first row that matches. -/
def Conn.dataRow (x : Conn) (h : RltHdr) : DataRow :=
  if before h.msn x.msnDone then .dup
  else if 64 ≤ (h.msn - x.msnDone).toNat then .window
  else match x.bound h.msn with
    | none => .noBuf
    | some m =>
      if m.ended.isSome then .dup
      else if m.withdrawn then .withdrawn
      else if headerOk x.mtu h = false then .badHdr
      else if m.len < h.offset + h.body.length then .tooLong
      else if m.bits.testBit (h.offset / x.mtu) then .again
      else .place (h.offset / x.mtu)

/-- A receive after a packet was placed: bit k, N and TOTAL with LAST, the path, and on the first packet its stamp, the
timer and the slot. -/
def RecvMsg.placed (m : RecvMsg) (mtu k : Nat) (h : RltHdr) (now : BitVec 64) : RecvMsg :=
  let data := if m.job.isNone then m.data ++ [(k, h.body)] else []
  { m with
    bits := m.bits + 2 ^ k
    n := if h.last then some (packetsOf mtu h.total) else m.n
    total := if h.last then h.total else m.total
    paths := m.paths ||| 2 ^ h.path
    first := if m.bits = 0 then now else m.first
    lastPath := h.path
    timer := true
    slot := true
    data := data }

/-- Place a packet into its buffer. own: its region is PINNED, so a contract of path kind 5 covers it (R370, R384). -/
def placeRlt (c : Nat) (x : Conn) (m : RecvMsg) (k : Nat) (p : Packet) (h : RltHdr) (pinned : Bool) (s : State) : State :=
  let s := if m.slot then s else s.takeSlot .msg
  let s := if m.job.isSome ∧ h.body ≠ [] then sheetWrite x.sheet (m.addr + h.offset) h.body s else s
  let s := withRecv c h.msn (fun w => w.placed x.mtu k h s.dshort) s
  let s := if pinned ∧ h.retx = false then countLate p 0 s else s
  (takeRlt p s).count RLT_DATA_RX 1

/-- MODE of a receive's region; PINNED once the region is gone. -/
def State.regionMode (s : State) (key : Nat) : Nat :=
  match s.keyed key with
  | some (_, g) => g.mode
  | none => 0

/-- The pages of a placement that are absent: ATS grants no write permission, or a Page Request for them is outstanding. -/
def State.absentPages (s : State) (n : Nat) (pages absent : List Nat) : List Nat :=
  pages.filter (fun g => absent.contains g || s.rlt.pages.any (fun q => q.isFor s n g))

/-- Place a packet, or handle its fault by the region's MODE: pages of an on-demand region are translated before the write (R375,
R380-R383). absent: pages for which ATS grants no write
permission. -/
def placeOrFault (c : Nat) (x : Conn) (m : RecvMsg) (k : Nat) (absent : List Nat) (p : Packet) (h : RltHdr) (s : State) : State :=
  let mode := if m.job.isNone then 0 else s.regionMode m.key
  let missing := s.absentPages x.sheet (pagesOf (m.addr + h.offset) h.body.length) absent
  if mode = 0 then placeRlt c x m k p h true s
  else if missing = [] then
    let s := (pagesOf (m.addr + h.offset) h.body.length).foldl (fun t g => sheetAts x.sheet (4096 * g) t) s
    placeRlt c x m k p h false s
  else
    let s := s.count RLT_ODP_FAULT 1
    match askPages x.sheet c h.msn k missing s with
    | (.refused, s) => failPage c h.msn k 0x0603 (takeRlt p s)
    | (_, s) =>
      if mode = 1 then stallPacket c p s
      else sendNak c h.path h.msn 4 k (takeRlt p s)

/-- Handle a DATA packet under Table 13.8. -/
def handleData (c : Nat) (absent : List Nat) (p : Packet) (s : State) : State :=
  match s.conn? c with
  | none => dropRlt RLT_CIPHER_DROP p s
  | some x =>
    let h := parseRlt p.bytes
    match x.dataRow h with
    | .dup => sendAck c h.path (dropRlt RLT_DUP p s)
    | .window => dropRlt RLT_WINDOW p s
    | .noBuf => sendNak c h.path h.msn 1 0 (dropRlt RLT_NO_BUF p s)
    | .withdrawn => sendNak c h.path h.msn 6 (h.offset / x.mtu) (endRecv c h.msn 0x0503 (takeRlt p s))
    | .badHdr => dropRlt RLT_BAD_HDR p s
    | .tooLong => sendNak c h.path h.msn 2 0 (endRecv c h.msn 0x0304 (takeRlt p s))
    | .again =>
      withRecv c h.msn (fun m => { m with paths := m.paths ||| 2 ^ h.path, lastPath := h.path }) (dropRlt RLT_DUP p s)
    | .place k =>
      match x.bound h.msn with
      | some m => placeOrFault c x m k absent p h s
      | none => s

/-- A DATA packet of a stalled connection waits behind the others; of any other one it is handled (R381). -/
def arriveData (c : Nat) (absent : List Nat) (p : Packet) (s : State) : State :=
  match s.conn? c with
  | none => dropRlt RLT_CIPHER_DROP p s
  | some x => if x.stalled ≠ [] then stallPacket c p s else handleData c absent p s

/-- The engine posts a buffer of its own for a message to a connection that a volume took over (R415). -/
def postCapsule (c : Nat) (msn : BitVec 32) (s : State) : State :=
  match s.conn? c with
  | none => s
  | some x =>
    if s.connTaken c ∧ (x.bound msn).isNone ∧ before msn x.msnDone = false ∧ (msn - x.msnDone).toNat < 64 then
      let m : RecvMsg := ⟨msn, none, 16777216, 0, 0, 0, none, 0, 0, 0, 0, 0, false, false, false, none, []⟩
      s.setConn c { x with recvs := x.recvs ++ [m] }
    else s

/-- The packet would be the first placed of its message, and no flight-table slot is free. -/
def State.slotLacks (s : State) (c : Nat) (h : RltHdr) : Bool :=
  match s.conn? c with
  | none => false
  | some x => match x.bound h.msn with
    | some m => !m.slot && !s.flight.room .msg
    | none => x.stalled == [] && s.connTaken c && !s.flight.room .msg

/-- DATA_RECEIVE: the oldest packet handed to the engine, a DATA packet, is handled (R364, R381). One that was not opened,
or names no connection in ARMED, OPEN or CLOSING, is discarded. absent: pages for which ATS grants no write permission. -/
def execDataReceive (absent : List Nat) (s : State) : Host.Outcome State Fault Refusal :=
  match s.frontRlt with
  | none => .next s
  | some p =>
    let h := parseRlt p.bytes
    if h.ver ≠ 1 ∨ h.type ≠ 1 then .next s
    else match s.handled h.dconn with
      | none => .next (dropRlt RLT_CIPHER_DROP p s)
      | some (c, x) =>
        if p.cipher.status ≠ 2 ∨ x.state = .error then .next (dropRlt RLT_CIPHER_DROP p s)
        else if s.slotLacks c h then .next s
        else .next (ackEight c h.path (arriveData c absent p (postCapsule c h.msn (markRx c h s))))

/-- RALUSH_MALFORMED_DISCARD: a packet whose VER is not 1, or whose TYPE is not used, is discarded (R349). -/
def execRalushMalformedDiscard (s : State) : Host.Outcome State Fault Refusal :=
  match s.frontRlt with
  | none => .next s
  | some p =>
    let h := parseRlt p.bytes
    if h.ver ≠ 1 ∨ h.type = 0 ∨ 9 ≤ h.type then .next (dropRlt RLT_BAD_HDR p s) else .next s

/-! ## Ends of messages (R364, R366, R367) -/

/-- The payload of a full message, packets in order. -/
def RecvMsg.joined (m : RecvMsg) : Bytes := ((sortBy (fun k => k.1) m.data).map (fun k => k.2)).flatten.take m.total

/-- A bitmap holds its N bits. -/
def RecvMsg.full (m : RecvMsg) : Bool :=
  match m.n with
  | some n => m.bits % 2 ^ n == 2 ^ n - 1
  | none => false

/-- RECV_COMPLETE: a message's bitmap is full and its placements have left the host port: its RECV ends, and ACK answers
the packet that filled it (R364). A capsule goes to the storage engine (R415). Nothing completes in ARMED (R354). -/
def execRecvComplete (conn msn : Nat) (s : State) : Host.Outcome State Fault Refusal :=
  let k : BitVec 32 := BitVec.ofNat 32 msn
  match s.conn? conn with
  | none => .next s
  | some x =>
    match x.bound k with
    | none => .next s
    | some m =>
      if m.full = false ∨ m.ended.isSome ∨ x.active = false then .next s
      else
        let s := if m.job.isNone then { s with sto := { s.sto with inbox := s.sto.inbox ++ [(conn, m.joined)] } } else s
        .next (sendAck conn m.lastPath (endRecv conn k 0 s))

/-- REASM_TIMER_EXPIRY: REREQ for what is missing, or after REASM_TRIES expiries the message fails (R366). The timer of a
message with a stalled packet stands still (R381). -/
def execReasmTimerExpiry (conn msn : Nat) (s : State) : Host.Outcome State Fault Refusal :=
  let k : BitVec 32 := BitVec.ofNat 32 msn
  match s.conn? conn with
  | none => .next s
  | some x =>
    match x.bound k with
    | none => .next s
    | some m =>
      if m.timer = false ∨ m.ended.isSome ∨ x.stalledMsg k ∨ m.full then .next s
      else if s.rd RLT_TIMERS_REASM_TRIES ≤ m.tries + 1 then
        .next (sendNak conn m.lastPath k 3 0 (raise RLT_EVENT_MSG_FAIL (endRecv conn k 0x0701 s)))
      else .next (sendRereq conn m.lastPath k m.missing (withRecv conn k (fun w => { w with tries := w.tries + 1 }) s))

/-- POLL_RECEIVE: ACK when the message has ended or the connection is stalled, else REREQ for what is missing, or for all
of it (R367, R381). -/
def execPollReceive (s : State) : Host.Outcome State Fault Refusal :=
  .next (receiveRlt .poll (fun c x h s =>
    let msn : BitVec 32 := BitVec.ofNat 32 (word32 h.body 0)
    if x.stalled ≠ [] ∨ before msn x.msnDone then sendAck c h.path s
    else match x.bound msn with
      | none => sendRereq c h.path msn [(0, 0xFFFFFFFF)] s
      | some m =>
        if m.ended.isSome then sendAck c h.path s
        else if m.missing = [] then s
        else sendRereq c h.path msn m.missing s) s)

/-- ACK_TIMER_EXPIRY: 2 us after the first unacknowledged DATA packet on a path (R368). -/
def execAckTimerExpiry (conn path : Nat) (s : State) : Host.Outcome State Fault Refusal :=
  match s.conn? conn with
  | none => .next s
  | some x => if 0 < (x.rxPath path).unacked ∧ x.state ≠ .error then .next (sendAck conn path s) else .next s

/-! ## Page responses (R133, R381, R383) -/

/-- A connection whose stall may end: packets are stalled and no Page Request of its own is outstanding. -/
def State.mayResume (s : State) (c : Nat) : Bool :=
  match s.conn? c with
  | none => false
  | some x => x.stalled != [] && !s.rlt.pages.any (fun q => q.msgs.any (fun m => m.1 == c))

/-- Handle the stalled packets of a connection again, in the order they arrived. -/
def resumeConn (absent : List Nat) (c : Nat) (s : State) : State :=
  if s.mayResume c then
    match s.conn? c with
    | none => s
    | some x => x.stalled.foldl (fun t p => arriveData c absent p t) (s.setConn c { x with stalled := [] })
  else s

/-- Handle again what was stalled, on every connection that may go on. -/
def resumeStalls (absent : List Nat) (s : State) : State :=
  (tblKeys (fun _ (x : Conn) => x.stalled != []) s.conns).foldl (fun t c => resumeConn absent c t) s

/-- A Page Request ends without Success: every message that met its page fails (R383). -/
def failRequest (q : PageReq) (status : Nat) (s : State) : State :=
  q.msgs.foldl (fun t m => failPage m.1 (BitVec.ofNat 32 m.2.1) m.2.2 status t) s

/-- The outstanding Page Request for a page. -/
def State.pageReq (s : State) (port pf pasid page : Nat) : Option PageReq :=
  s.rlt.pages.find? (fun q => q.port == port && q.pf == pf && q.pasid == pasid && q.page == page)

/-- Forget a Page Request. -/
def dropRequest (q : PageReq) (s : State) : State := { s with rlt := { s.rlt with pages := s.rlt.pages.erase q } }

/-- PAGE_REQUEST_RESPONSE: code 0 Success, 1 Invalid Request, 2 Response Failure, after which the function asks for no
page until PRI is enabled again (R133, R381-R383). absent: pages that ATS then refuses. -/
def execPageRequestResponse (port pf pasid page code : Nat) (absent : List Nat) (s : State) : Host.Outcome State Fault Refusal :=
  match s.pageReq port pf pasid page with
  | none => .next s
  | some q =>
    let s := dropRequest q s
    if code = 0 then .next (resumeStalls absent s)
    else
      let s := if code = 2 then s.setFunc port pf { s.func port pf with priStopped := true } else s
      .next (resumeStalls absent (failRequest q 0x0603 s))

/-- ODP_WAIT_TIMEOUT: no response within WAIT_MS (R383). -/
def execOdpWaitTimeout (port pf pasid page : Nat) (s : State) : Host.Outcome State Fault Refusal :=
  match s.pageReq port pf pasid page with
  | none => .next s
  | some q => .next (resumeStalls [] (failRequest q 0x0702 (dropRequest q s)))

end Sys2Proof.Machine
end

