-- ==== Sys2Proof/Machine/RalushCmd.lean ====
section
/-! DEFINITION. Connection, region and congestion commands (spec 13, R353-R359; spec 14, R373-R377, R384-R390, R395). -/

namespace Sys2Proof.Machine

/-! ## Running a command -/

/-- Completion fields of Table 13.6 that name the connection. -/
def connFields (sheet handle state cause : Nat) : Body := [(8, 2, sheet), (10, 1, state), (11, 1, cause), (12, 4, handle)]

/-- Run a command of the connection unit on an admin ring: it waits until the engine serves commands (Table 1.4); SHEET
lies in the issuer's reach (R357). f is given the ring's own sheet too. -/
def runConn (g op : Nat) (f : Nat → Nat → Entry → State → State × Nat × Body) (s : State) : State :=
  if s.bit RLT_STATUS_READY = false then s
  else runEntry g (· == op) (fun r j s =>
    match s.namedSheet r.sheet (eN j.first 8 2) with
    | none => (s, 0x0401, [(8, 2, eN j.first 8 2), (12, 4, 0xFFFFFFFF)])
    | some n => f r.sheet n j.first s) s

/-- The connection a command names, of a sheet: 0x0501 FREE or old, 0x0401 another sheet's. -/
def State.namedConn (s : State) (sheet handle : Nat) : (Nat × Conn) ⊕ Nat :=
  match s.handled (handle % 2 ^ 28) with
  | none => .inr 0x0501
  | some (c, x) => if x.sheet = sheet then .inl (c, x) else .inr 0x0401

/-! ## Connections -/

/-- A message ring of a sheet by local number. -/
def State.messageRing (s : State) (n localNo : Nat) : Option Nat :=
  (s.rings.find? (fun r => r.2.sheet == n && r.2.localNo == localNo && r.2.kind == 4)).map (fun r => r.1)

/-- MTU of a code. -/
def mtuOf (code : Nat) : Nat := 512 * 2 ^ code

/-- A free connection number: the one offered when it is free, else the lowest. -/
def State.freeConnNo (s : State) (pick : Nat) : Nat :=
  if pick < 1048576 ∧ s.conn? pick = none then pick else tblFree s.conns 0

/-- One SA record of a connection: its version is the connection's generation, so that no packet of an earlier connection
of the number is dressed with its key. -/
def connSa (sheet gen epoch : Nat) (rx : Bool) (key salt : Bytes) : SA :=
  ⟨.active, sheet, connPar rx 0, ⟨gen, keyOf true key, 0, ofLe salt⟩, [], [], [], epoch, none⟩

/-- A connection as CONN_OPEN creates it: ARMED, path 0 enabled (R354, R357). -/
def State.newConn (s : State) (n sendRing recvRing : Nat) (e : Entry) : Conn where
  state := .armed
  sheet := n
  cause := 0
  ipv4 := eBits e 10 0 1 == 1
  mtu := mtuOf (eBits e 10 1 3)
  tclass := eN e 11 1
  peer := eN e 12 4 % 2 ^ 28
  sendRing := sendRing
  recvRing := recvRing
  dport := eN e 20 2
  peerIp := if eBits e 10 0 1 = 1 then eN e 32 4 else eN e 32 16
  localIp := if eBits e 10 0 1 = 1 then eN e 48 4 else eN e 48 16
  paths := [(0, s.freshRate { TxPath.none with enabled := true, sport := eN e 22 2 })]
  rx := []
  cursor := 15
  nextMsn := 0
  msnDone := 0
  sends := []
  queue := []
  recvs := []
  stalled := []
  closers := []

/-- CONN_OPEN: reads the key block and creates an ARMED connection (R357, R358). -/
def execConnOpen (ring pick : Nat) (block : MemResult) (s : State) : Host.Outcome State Fault Refusal :=
  .next (runConn ring 0x50 (fun own n e s =>
    let none' := connFields n 0xFFFFFFFF 0 0
    if 4 < eBits e 10 1 3 ∨ eN e 20 2 = 0 ∨ eN e 22 2 = 0 ∨ eN e 24 8 % 64 ≠ 0 then (s, 0x0103, none')
    else match s.messageRing n (eN e 16 2), s.messageRing n (eN e 18 2) with
    | some sr, some rr =>
      if s.limit n 4 < s.usage n 4 + 1 then (s, 0x0301, none')
      else if accessStatus block ≠ 0 then (sheetRead own (eN e 24 8) 128 s, accessStatus block, none')
      else
        let s := sheetRead own (eN e 24 8) 128 s
        let c := s.freeConnNo pick
        let k := accessData block
        let gen := s.connGen c
        let epoch := s.epoch
        let s := s.setConn c (s.newConn n sr rr e)
        let tx := connSa n gen epoch false k ((k.drop 64).take 3)
        let rx := connSa n gen epoch true (k.drop 32) []
        let s := { s with sas := tblPut (tblPut s.sas (0x40000 + 2 * c) tx) (0x40001 + 2 * c) rx }
        (s, 0, connFields n (s.connHandle c) 1 0)
    | _, _ => (s, 0x0104, none')) s)

/-- Enter CLOSING: SENDs and RECVs not started complete with 0x0502 (R355). -/
def closeConn (c : Nat) (x : Conn) (s : State) : State :=
  let s := moveConn c .closing s
  let handle := s.connHandle c
  refuseWaiting x.recvRing handle 0x0502 (refuseWaiting x.sendRing handle 0x0502 s)

/-- CONN_CLOSE: ARMED, OPEN or ERROR to CLOSING; the entry completes when the connection is FREE (R355). One that names a
CLOSING connection waits with it. -/
def execConnClose (ring : Nat) (s : State) : Host.Outcome State Fault Refusal :=
  if s.bit RLT_STATUS_READY = false then .next s
  else .next (startEntry ring (· == 0x51) (fun r j s =>
    match s.namedSheet r.sheet (eN j.first 8 2) with
    | none => (s, some (0x0401, [(8, 2, eN j.first 8 2), (12, 4, 0xFFFFFFFF)]))
    | some n =>
      let h := eN j.first 12 4
      match s.namedConn n h with
      | .inr st => (s, some (st, connFields n h 0 0))
      | .inl (c, x) =>
        let s := s.setConn c { x with closers := x.closers ++ [(ring, j.idx)] }
        (if x.state = .closing then s else closeConn c { x with closers := x.closers ++ [(ring, j.idx)] } s, none)) s)

/-- CLOSE_DRAIN_END: the started SENDs of a CLOSING connection have ended: RECVs whose message has not ended complete with
0x0502, CLOSE is sent, and the connection is FREE (R355). -/
def execCloseDrainEnd (conn : Nat) (s : State) : Host.Outcome State Fault Refusal :=
  match s.conn? conn with
  | none => .next s
  | some x =>
    if x.state = .closing ∧ x.sends = [] then
      let s := endAllRecvs conn 0x0502 (dropStalled conn (fun _ => true) s)
      .next (freeConn conn (sendClose conn 0 s))
    else .next s

/-- Bit mask of the paths that satisfy a test. -/
def pathMask (p : Nat → Bool) : Nat := ((List.range 16).filter p).foldl (fun m k => m + 2 ^ k) 0

/-- CONN_QUERY (Table 13.6). -/
def execConnQuery (ring : Nat) (s : State) : Host.Outcome State Fault Refusal :=
  .next (runConn ring 0x52 (fun _ n e s =>
    let h := eN e 12 4
    match s.namedConn n h with
    | .inr st => (s, st, connFields n h 0 0)
    | .inl (_, x) =>
      (s, 0, connFields n h x.state.code x.cause
        ++ [(16, 2, pathMask (fun p => (x.path p).enabled)), (18, 2, pathMask (fun p => (x.path p).enabled && !(x.path p).up)),
          (24, 4, x.nextMsn.toNat), (28, 4, x.msnDone.toNat)]
        ++ (List.range 16).map (fun p => (32 + 2 * p, 2, (x.path p).bucket)))) s)

/-- Check the contract a CONN_PATH names: 0x0501 FREE or WITHDRAWING, 0x0402 another sheet's, 0x0104 another kind (R359). -/
def State.pathContract (s : State) (sheet id : Nat) : Option Nat :=
  if id = 0xFFFF then none
  else match s.contract? id with
  | none => some 0x0501
  | some k =>
    if k.sheet ≠ sheet then some 0x0402
    else if k.state = .withdrawing then some 0x0501
    else if k.par.kind = 4 ∨ k.par.kind = 5 then none
    else some 0x0104

/-- A path set by CONN_PATH: a path that becomes enabled starts UP, and its rate is set; so is the rate of one that
names a contract, or whose contract changes (R360, R392, R395). -/
def State.setPath (s : State) (t : TxPath) (en : Bool) (sport : Nat) (contract : Option Nat) : TxPath :=
  let t' := { t with enabled := en, sport := sport, contract := contract }
  if en ∧ (t.enabled = false ∨ t.contract ≠ contract ∨ contract.isSome) then
    (if t.enabled then { t' with rate := s.pathRate contract } else s.freshRate t')
  else t'

/-- CONN_PATH: enables or disables a path, and sets its SPORT and contract (R359). -/
def execConnPath (ring : Nat) (s : State) : Host.Outcome State Fault Refusal :=
  .next (runConn ring 0x53 (fun _ n e s =>
    let h := eN e 12 4
    match s.namedConn n h with
    | .inr st => (s, st, connFields n h 0 0)
    | .inl (c, x) =>
      let here := connFields n h x.state.code x.cause
      let p := eBits e 16 0 4
      let en : Bool := eBits e 16 4 1 == 1
      let sport := eN e 18 2
      let id := eN e 20 2
      let others : Nat → Bool := fun k => k != p && (x.path k).enabled
      if sport = 0 ∨ (en ∧ (List.range 16).any (fun k => others k && (x.path k).sport == sport)) then (s, 0x0103, here)
      else match s.pathContract n id with
      | some st => (s, st, here)
      | none =>
        if en = false ∧ (x.path p).enabled ∧ (List.range 16).any others = false then (s, 0x0106, here)
        else
          let contract := if id = 0xFFFF then none else some id
          (s.setConn c (x.withPath p (s.setPath (x.path p) en sport contract)), 0, here)) s)

/-! ## Regions (R373-R377, R384-R388) -/

/-- Completion fields of Table 14.5. -/
def regionFields (sheet key mode state : Nat) : Body := [(8, 2, sheet), (10, 1, mode % 4 + state * 4), (12, 4, key)]

/-- STATE of a region. -/
def Region.code (g : Region) : Nat := if g.draining then 2 else 1

/-- An on-demand MODE needs ATS and PRI of the sheet's function (R377). -/
def State.modeServed (s : State) (n mode : Nat) : Bool := mode == 0 || ((s.sheetFunc n).atsEn && (s.sheetFunc n).priEn)

/-- Regions of the sheets of a port. -/
def State.portRegions (s : State) (p : Option Nat) : Nat := tblCount (fun _ g => s.sheetPort g.sheet == p) s.rlt.regions

/-- A free region: the one offered when it is free, else the lowest. -/
def State.freeRegionNo (s : State) (pick : Nat) : Nat :=
  if pick < 16777216 ∧ tblGet s.rlt.regions pick = none then pick else tblFree s.rlt.regions 0

/-- REG_OPEN: creates an ACTIVE region (R373-R377). -/
def execRegOpen (ring pick : Nat) (s : State) : Host.Outcome State Fault Refusal :=
  .next (runConn ring 0x58 (fun _ n e s =>
    let mode := eBits e 10 0 2
    let base := eN e 16 8
    let len := eN e 24 8
    let none' := regionFields n 0xFFFFFFFF mode 0
    if base % 4096 ≠ 0 ∨ len % 4096 ≠ 0 ∨ len < 4096 ∨ 2 ^ 40 < len ∨ mode = 3 then (s, 0x0103, none')
    else if s.modeServed n mode = false then (s, 0x0107, none')
    else if 16777216 / s.endpoints.length ≤ s.portRegions (s.sheetPort n) then (s, 0x0301, none')
    else
      let r := s.freeRegionNo pick
      let s := s.setRegion r ⟨false, n, mode, base, len, none, 0, 0, []⟩
      (s, 0, regionFields n (s.regionKey r) mode 1)) s)

/-- The region a command names, of a sheet: 0x0501 FREE or old, 0x0401 another sheet's. -/
def State.namedRegion (s : State) (sheet key : Nat) : (Nat × Region) ⊕ Nat :=
  match s.keyed key with
  | none => .inr 0x0501
  | some (r, g) => if g.sheet = sheet then .inl (r, g) else .inr 0x0401

/-- RECVs bound into a region whose message is not in progress are marked withdrawn. -/
def withdrawBound (key : Nat) (fenced : List (Nat × Nat)) (s : State) : State :=
  let mark : Nat → Conn → Conn := fun c x => { x with recvs := x.recvs.map (fun m =>
    if m.key = key ∧ m.job.isSome ∧ m.ended = none ∧ ¬ fenced.contains (c, m.msn.toNat) then { m with withdrawn := true } else m) }
  { s with conns := tblMap mark s.conns }

/-- RECVs into a region that are marked withdrawn. -/
def State.withdrawnCount (s : State) (key : Nat) : Nat :=
  tblSum (fun _ x => (x.recvs.filter (fun m => m.key == key && m.withdrawn)).length) s.conns

/-- REG_REVOKE: the region becomes DRAINING and the fence is taken (R385). -/
def execRegRevoke (ring : Nat) (s : State) : Host.Outcome State Fault Refusal :=
  if s.bit RLT_STATUS_READY = false then .next s
  else .next (startEntry ring (· == 0x59) (fun r j s =>
    match s.namedSheet r.sheet (eN j.first 8 2) with
    | none => (s, some (0x0401, [(8, 2, eN j.first 8 2), (12, 4, 0xFFFFFFFF)]))
    | some n =>
      let key := eN j.first 12 4
      match s.namedRegion n key with
      | .inr st => (s, some (st, regionFields n key 0 0))
      | .inl (k, g) =>
        if g.draining then (s, some (0x0106, regionFields n key g.mode g.code))
        else
          let fenced := s.inProgress key
          let s := withdrawBound key fenced s
          (s.setRegion k { g with
            draining := true, revoker := some (ring, j.idx), fenced := fenced, withdrawn := s.withdrawnCount key }, none)) s)

/-- REVOKE_DONE: the last message in progress at the fence has ended and its placements have left: the region is FREE and
REG_REVOKE completes; while its sheet is DISABLING it waits for DISABLED (R385, R387). -/
def execRevokeDone (region : Nat) (s : State) : Host.Outcome State Fault Refusal :=
  match tblGet s.rlt.regions region with
  | none => .next s
  | some g =>
    if g.draining = false ∨ g.fenced ≠ [] ∨ (s.sheet g.sheet).state = .disabling then .next s
    else
      let key := s.regionKey region
      let s := raise RLT_MEM_EVENT_REVOKE_DONE (freeRegion region s)
      match g.revoker with
      | none => .next s
      | some (r, idx) =>
        .next (endJob r idx 0 (regionFields g.sheet key g.mode 0 ++ [(16, 4, g.completed), (20, 4, g.withdrawn)]) s)

/-- REG_MODE: a new MODE for packets handled from now on (R384). -/
def execRegMode (ring : Nat) (s : State) : Host.Outcome State Fault Refusal :=
  .next (runConn ring 0x5A (fun _ n e s =>
    let key := eN e 12 4
    let mode := eBits e 10 0 2
    match s.namedRegion n key with
    | .inr st => (s, st, regionFields n key mode 0)
    | .inl (k, g) =>
      if mode = 3 then (s, 0x0103, regionFields n key g.mode g.code)
      else if g.draining then (s, 0x0106, regionFields n key g.mode g.code)
      else if s.modeServed n mode = false then (s, 0x0107, regionFields n key g.mode g.code)
      else (s.setRegion k { g with mode := mode }, 0, regionFields n key mode 1)) s)

/-- REG_QUERY (Table 14.5). -/
def execRegQuery (ring : Nat) (s : State) : Host.Outcome State Fault Refusal :=
  .next (runConn ring 0x5B (fun _ n e s =>
    let key := eN e 12 4
    match s.namedRegion n key with
    | .inr st => (s, st, regionFields n key 0 0)
    | .inl (_, g) =>
      (s, 0, regionFields n key g.mode g.code ++ [(16, 8, g.base), (24, 8, g.len), (32, 4, (s.inProgress key).length)])) s)

/-- CC_QUERY: rate in Mb/s and alpha in 1/256 of eight paths (Table 14.5). -/
def execCcQuery (ring : Nat) (s : State) : Host.Outcome State Fault Refusal :=
  .next (runConn ring 0x5C (fun _ n e s =>
    let h := eN e 12 4
    match s.namedConn n h with
    | .inr st => (s, st, [(8, 2, n), (12, 4, h)])
    | .inl (_, x) =>
      let path := fun (i : Nat) => x.path (8 * eBits e 10 0 1 + i)
      (s, 0, [(8, 2, n), (12, 4, h)]
        ++ (List.range 8).map (fun i => (16 + 4 * i, 4, if (path i).enabled then (path i).rate / 1000000 else 0))
        ++ (List.range 8).map (fun i => (48 + i, 1, min 255 ((path i).alpha / 4))))) s)

end Sys2Proof.Machine
end

