-- ==== Sys2Proof/Machine/StorageCmd.lean ====
section
/-! DEFINITION. Storage commands of the admin rings (spec 15, R398-R403, R410, R414, R415, R418, R419). -/

namespace Sys2Proof.Machine

/-! ## Running a command -/

/-- Run a storage command: SHEET in the issuer's reach; a manager command only from a sheet of function 0. -/
def runSto (g op : Nat) (mgr : Bool) (f : Nat → Nat → Entry → State → State × Nat × Body) (s : State) : State :=
  runEntry g (· == op) (fun r j s =>
    let refused := stoFields s (eN j.first 8 2) none none
    if mgr ∧ s.managerSheet r.sheet = false then (s, 0x0401, refused)
    else match s.namedSheet r.sheet (eN j.first 8 2) with
    | none => (s, 0x0401, refused)
    | some n => f r.sheet n j.first s) s

/-- CTRL of an entry. -/
def ctrlNo (e : Entry) : Nat := eBits e 10 0 12

/-- VOL of an entry. -/
def volNo (e : Entry) : Nat := eBits e 12 0 14

/-- The controller a command names, of a sheet: 0x0501 FREE, 0x0401 another sheet's. -/
def State.namedCtrl (s : State) (sheet n : Nat) : (Nat × Ctrl) ⊕ Nat :=
  match s.ctrl? n with
  | none => .inr 0x0501
  | some c => if c.sheet = sheet then .inl (n, c) else .inr 0x0401

/-- The controller a manager command names: of any sheet on the manager's port. -/
def State.portCtrl (s : State) (issuer n : Nat) : (Nat × Ctrl) ⊕ Nat :=
  match s.ctrl? n with
  | none => .inr 0x0501
  | some c => if s.sheetPort c.sheet = some (s.sheetPortD issuer) then .inl (n, c) else .inr 0x0401

/-- The volume a manager command names: of the manager's port. -/
def State.namedVol (s : State) (issuer n : Nat) : (Nat × Volume) ⊕ Nat :=
  match s.vol? n with
  | none => .inr 0x0501
  | some v => if v.port = s.sheetPortD issuer then .inl (n, v) else .inr 0x0401

/-! ## Controllers -/

/-- A free controller number: the one offered when it is free, else the lowest. -/
def State.freeCtrlNo (s : State) (pick : Nat) : Nat :=
  if pick < 4096 ∧ s.ctrl? pick = none then pick else tblFree s.ctrls 0

/-- CTRL_CREATE's fields lie in their ranges (Table 15.9). -/
def State.ctrlFieldsOk (s : State) (n : Nat) (e : Entry) : Bool :=
  decide (eN e 18 2 + 2 * (eN e 17 1 + 1) + 1 ≤ 65535) && (eN e 24 8 % 4096 == 0) && (eN e 32 8 % 4096 == 0)
    && decide (eBits e 40 0 4 ≤ 12) && decide (eBits e 41 0 4 ≤ 12) && decide (eBits e 21 0 13 ≤ (s.sheetFunc n).msixN)

/-- A local number of the range a controller would reserve is in use; number 0 is the admin ring's. -/
def State.rangeUsed (s : State) (n base nq : Nat) : Bool :=
  let last := base + 2 * nq + 1
  base == 0 || s.rings.any (fun r => r.2.sheet == n && decide (base ≤ r.2.localNo) && decide (r.2.localNo ≤ last))
    || s.ctrls.any (fun c => c.2.sheet == n && decide (c.2.localBase ≤ last) && decide (base ≤ c.2.localBase + 2 * c.2.nq + 1))

/-- A DISABLED controller with its admin queue. -/
def newCtrl (n base nq sq cq vec : Nat) : Ctrl where
  state := .disabled
  sheet := n
  localBase := base
  nq := nq
  sqs := [(0, ⟨sq, 0, 0⟩)]
  cqs := [(0, ⟨cq, vec, true, 0⟩)]
  attach := []
  feats := []
  ps := 0
  lastOp := 0
  entering := none
  leaving := false
  aers := []
  log := []
  overflow := false
  setter := none
  normal := false
  lastSq := 0
  burst := 0
  credit := []

/-- CTRL_CREATE: a DISABLED controller, its reserved local numbers and its admin queue (R399, R400). -/
def execCtrlCreate (ring pick pickSq pickCq : Nat) (s : State) : Host.Outcome State Fault Refusal :=
  .next (runSto ring 0x60 false (fun _ n e s =>
    let refused := stoFields s n none none
    let base := eN e 18 2
    let nq := eN e 17 1 + 1
    if s.ctrlFieldsOk n e = false then (s, 0x0103, refused)
    else if s.rangeUsed n base nq then (s, 0x0108, refused)
    else if s.limit n 5 < s.usage n 5 + 1 then (s, 0x0301, refused)
    else if s.limit n 0 < s.usage n 0 + 2 then (s, 0x0302, refused)
    else
      let k := s.freeCtrlNo pick
      let vec := eBits e 21 0 13
      let sq := s.freeGlobal pickSq
      let s := s.setRing sq (storageQueue n base 8 (eBits e 40 0 4 + 4) vec (eN e 24 8) .closed)
      let cq := s.freeGlobal pickCq
      let s := s.setRing cq (storageQueue n (base + 1) 9 (eBits e 41 0 4 + 4) vec (eN e 32 8) .closed)
      let s := s.setCtrl k (newCtrl n base nq sq cq vec)
      (s, 0, stoFields s n (some k) none)) s)

/-- Run a CTRL_SET whose OP is the given one, or none of Table 15.8: the effect answers the status with which the entry
completes now, or none when it waits. -/
def ctrlSet (g op : Nat) (f : Nat → Ctrl → Nat × Nat → State → State × Option Nat) (s : State) : State :=
  match s.startable g (· == 0x61) with
  | none => s
  | some (_, j) =>
    let o := eN j.first 16 1
    if o ≠ op ∧ 1 ≤ o ∧ o ≤ 4 then s
    else startEntry g (· == 0x61) (fun r j s =>
      match s.namedSheet r.sheet (eN j.first 8 2) with
      | none => (s, some (0x0401, stoFields s (eN j.first 8 2) none none))
      | some n =>
        match s.namedCtrl n (ctrlNo j.first) with
        | .inr st => (s, some (st, stoFields s n none none))
        | .inl (k, c) =>
          if o ≠ op then (s, some (0x0103, stoFields s n (some k) none))
          else match f k c (g, j.idx) s with
            | (s, some st) => (s, some (st, stoFields s n (some k) none))
            | (s, none) => (s, none)) s

/-- CTRL_ENABLE: a DISABLED controller of an ACTIVE or DEBUG sheet becomes READY, its admin queue running from 0; until the
storage engine serves, the command waits (R403, Table 1.4). -/
def execCtrlEnable (ring : Nat) (s : State) : Host.Outcome State Fault Refusal :=
  if s.bit STO_STATUS_READY = false then .next s
  else .next (ctrlSet ring 1 (fun k c _ s =>
    let st := (s.sheet c.sheet).state
    if c.state = .disabled ∧ (st = .active ∨ st = .debug) then
      let s := c.rings.foldl (fun t g => resetQueue g .running t) s
      (s.setCtrl k { c with state := .ready }, some 0)
    else (s, some 0x0106)) s)

/-- Start a shutdown of a READY controller; the entry completes when it is SHUT. -/
def shutCtrl (normal : Bool) (k : Nat) (c : Ctrl) (w : Nat × Nat) (s : State) : State × Option Nat :=
  if c.state = .ready then (s.setCtrl k { c with state := .shutting, normal := normal, setter := some w }, none)
  else (s, some 0x0106)

/-- CTRL_SHUTDOWN_NORMAL (R403). -/
def execCtrlShutdownNormal (ring : Nat) (s : State) : Host.Outcome State Fault Refusal := .next (ctrlSet ring 2 (shutCtrl true) s)

/-- CTRL_SHUTDOWN_ABRUPT (R403). -/
def execCtrlShutdownAbrupt (ring : Nat) (s : State) : Host.Outcome State Fault Refusal := .next (ctrlSet ring 3 (shutCtrl false) s)

/-- Commands of a controller that have started and not ended, but for Asynchronous Event Requests held. -/
def State.startedCmds (s : State) (n : Nat) (c : Ctrl) : List Nat :=
  tblKeys (fun i (m : NvmeCmd) => m.ctrl == n && m.begun && !c.aers.contains i) s.sto.cmds

/-- Dirty blocks of the attached volumes that no other READY controller holds. -/
def State.ownDirty (s : State) (n : Nat) (c : Ctrl) : Bool :=
  c.attach.any (fun a =>
    !(s.attachments a.2.vol).any (fun x => x.1 != n && (match s.ctrl? x.1 with
      | some o => o.state == .ready
      | none => false)) && !(s.dirtyBlocks a.2.vol).isEmpty)

/-- CTRL_SHUTDOWN_DONE: the started commands have completed, and for a normal shutdown the dirty blocks are written back:
the controller is SHUT, and CTRL_SET completes (R403). Commands fetched and not started are abandoned. -/
def execCtrlShutdownDone (ctrl : Nat) (s : State) : Host.Outcome State Fault Refusal :=
  match s.ctrl? ctrl with
  | none => .next s
  | some c =>
    if c.state = .shutting ∧ s.startedCmds ctrl c = [] ∧ (c.normal = false ∨ s.ownDirty ctrl c = false) then
      let s := abandonCmds ctrl (s.setCtrl ctrl { c with state := .shut, aers := [] })
      .next (endSetter ctrl 0 s)
    else .next s

/-- CTRL_RESET: READY, SHUTTING or SHUT to RESETTING; commands end under R416. -/
def execCtrlReset (ring : Nat) (s : State) : Host.Outcome State Fault Refusal :=
  .next (ctrlSet ring 4 (fun k c w s =>
    if c.state = .ready ∨ c.state = .shutting ∨ c.state = .shut then
      let s := resetCtrl k s
      match s.ctrl? k with
      | some c => (s.setCtrl k { c with setter := some w }, none)
      | none => (s, some 0x0106)
    else (s, some 0x0106)) s)

/-- CTRL_RESET_DONE: every command has ended: the I/O queues are deleted, the features and power state are as created, and
the controller is DISABLED (R403). -/
def execCtrlResetDone (ctrl : Nat) (s : State) : Host.Outcome State Fault Refusal :=
  match s.ctrl? ctrl with
  | none => .next s
  | some c =>
    if c.state = .resetting ∧ (s.ctrlCmds ctrl).isEmpty then
      let admin : List Nat := (c.sqs.filter (fun q => q.1 == 0)).map (fun q => q.2.ring) ++ (c.cqs.filter (fun q => q.1 == 0)).map (fun q => q.2.ring)
      let io := c.rings.filter (fun g => !admin.contains g)
      let s := { s with rings := s.rings.filter (fun r => !io.contains r.1) }
      let s := admin.foldl (fun t g => resetQueue g .closed t) s
      let s := s.setCtrl ctrl { c with
        state := .disabled
        sqs := c.sqs.filter (fun q => q.1 == 0)
        cqs := c.cqs.filter (fun q => q.1 == 0)
        feats := [], ps := 0, lastOp := 0, entering := none, leaving := false, aers := [], lastSq := 0, burst := 0, credit := [] }
      .next (endSetter ctrl 0 (resolveShrinks c.sheet s))
    else .next s

/-- CTRL_DESTROY: a DISABLED controller becomes FREE (R403). -/
def execCtrlDestroy (ring : Nat) (s : State) : Host.Outcome State Fault Refusal :=
  .next (runSto ring 0x62 false (fun _ n e s =>
    match s.namedCtrl n (ctrlNo e) with
    | .inr st => (s, st, stoFields s n none none)
    | .inl (k, c) =>
      if c.state ≠ .disabled then (s, 0x0106, stoFields s n (some k) none)
      else
        let s := freeCtrl k s
        (s, 0, stoFields s n (some k) none)) s)

/-! ## Volumes -/

/-- A contract a volume names: none, of the issuer's sheet and of the path kind; 0x0402 or 0x0104 (R417). -/
def State.volContract (s : State) (sheet id kind : Nat) : Option Nat ⊕ Nat :=
  if id = 0xFFFF then .inl none
  else match s.contract? id with
  | none => .inr 0x0104
  | some k => if k.sheet ≠ sheet then .inr 0x0402 else if k.par.kind = kind ∧ k.state ≠ .withdrawing then .inl (some id) else .inr 0x0104

/-- An SA serves a volume in a direction (R414): MODE 3, KLEN 1, DU_SIZE the block size, IV_OFF 0, ENC_OFF 16, and of a
sheet on the port. -/
def State.volSa (s : State) (port lba n : Nat) (opens : Bool) : Bool :=
  match tblGet s.sas n with
  | none => false
  | some x => decide (n < 0x40000) && s.sheetPort x.sheet == some port && parMode x.par == 3 && parKlen x.par && (parOpen x.par == opens)
      && (parUnit x.par == if lba = 0 then 512 else 4096) && parIv x.par == 0 && parEnc x.par == 16

/-- An OPEN connection of a sheet on a port, that no volume has taken over. -/
def State.volConn (s : State) (port h : Nat) : Bool :=
  match s.handled (h % 2 ^ 28) with
  | none => false
  | some (c, x) => x.state == .opened && s.sheetPort x.sheet == some port && !s.connTaken c

/-- Checks of the backend of a new volume (Table 15.10). -/
def State.backendRefusal (s : State) (port : Nat) (e : Entry) (ident : Identified) : Option Nat :=
  let lba := eBits e 16 3 1
  let root := eN e 18 2
  let sa := eN e 44 4
  if eBits e 16 0 1 = 1 then
    if sa ≠ 0xFFFFFFFF ∨ s.volConn port (eN e 48 4) = false then some 0x0104 else none
  else if s.portIsRoot root = false ∨ (s.port root).comp ≠ .nvme then some 0x0104
  else if sa ≠ 0xFFFFFFFF ∧ (s.volSa port lba sa false = false ∨ s.volSa port lba (sa + 1) true = false) then some 0x0104
  else match ident with
  | none => some 0x0601
  | some (fmt, size) => if fmt = lba ∧ eN e 32 8 + eN e 24 8 ≤ size then none else some 0x0104

/-- Volumes of a port. -/
def State.portVols (s : State) (p : Nat) : Nat := tblCount (fun _ v => v.port == p) s.sto.vols

/-- A free volume number: the one offered when it is free, else the lowest. -/
def State.freeVol (s : State) (pick : Nat) : Nat :=
  if pick < 16384 ∧ s.vol? pick = none then pick else tblFree s.sto.vols 0

/-- A volume as VOL_CREATE gives it. -/
def newVolume (s : State) (port : Nat) (out inn : Option Nat) (e : Entry) : Volume where
  port := port
  remote := eBits e 16 0 1 == 1
  lba := eBits e 16 3 1
  blocks := eN e 24 8
  rootPort := eN e 18 2
  nsid := eN e 20 4
  baseLba := eN e 32 8
  conn := eN e 48 4 % 2 ^ 28
  cache := eBits e 16 1 2
  sa := if eN e 44 4 = 0xFFFFFFFF then none else some (eN e 44 4)
  cls := eBits e 17 0 3
  contractOut := out
  contractIn := inn
  lost := []
  serial := (s.port (eN e 18 2)).serial

/-- VOL_CREATE (R398, R414, R415, R417). -/
def execVolCreate (ring pick : Nat) (ident : Identified) (s : State) : Host.Outcome State Fault Refusal :=
  .next (runSto ring 0x63 true (fun own n e s =>
    let port := s.sheetPortD own
    let refused := stoFields s n none none
    if eN e 24 8 = 0 ∨ 2 ^ 48 < eN e 24 8 ∨ eBits e 16 1 2 = 3 ∨ s.timed (eBits e 17 0 3) then (s, 0x0103, refused)
    else match s.volContract own (eN e 52 2) 6, s.volContract own (eN e 54 2) 7 with
    | .inr st, _ => (s, st, refused)
    | .inl _, .inr st => (s, st, refused)
    | .inl out, .inl inn =>
      if 16384 / s.endpoints.length ≤ s.portVols port then (s, 0x0302, refused)
      else match s.backendRefusal port e ident with
      | some st => (s, st, refused)
      | none =>
        let v := s.freeVol pick
        let s := s.setVol v (newVolume s port out inn e)
        (s, 0, stoFields s n none (some v))) s)

/-- Forget the cached blocks of a volume. -/
def dropCache (vol : Nat) (s : State) : State :=
  followDirty { s with sto := { s.sto with cache := s.sto.cache.filter (fun x => x.1 / 2 ^ 48 != vol) } }

/-- VOL_DESTROY: a volume with no attachment goes; its dirty blocks are discarded (R418). -/
def execVolDestroy (ring : Nat) (s : State) : Host.Outcome State Fault Refusal :=
  .next (runSto ring 0x64 true (fun own n e s =>
    match s.namedVol own (volNo e) with
    | .inr st => (s, st, stoFields s n none none)
    | .inl (v, _) =>
      if s.attachments v ≠ [] then (s, 0x0106, stoFields s n none (some v))
      else
        let dirty := (s.dirtyBlocks v).length
        let s := dropCache v s
        let s := { s with sto := { s.sto with
          vols := tblDel s.sto.vols v
          reqs := s.sto.reqs.filter (fun b => b.2.vol != v) } }
        (s, 0, [(8, 2, n), (10, 2, 0xFFFF), (12, 4, v), (24, 8, dirty), (56, 8, s.dshort.toNat)])) s)

/-- VOL_BIND: a REMOTE volume takes over a new connection (R410, R415). -/
def execVolBind (ring : Nat) (s : State) : Host.Outcome State Fault Refusal :=
  .next (runSto ring 0x65 true (fun own n e s =>
    match s.namedVol own (volNo e) with
    | .inr st => (s, st, stoFields s n none none)
    | .inl (v, x) =>
      if x.remote = false then (s, 0x0106, stoFields s n none (some v))
      else if s.volConn x.port (eN e 48 4) = false then (s, 0x0104, stoFields s n none (some v))
      else
        let s := s.setVol v { x with conn := eN e 48 4 % 2 ^ 28 }
        (s, 0, stoFields s n none (some v))) s)

/-! ## Attachments -/

/-- NS_ATTACH: presents a volume to a controller under an NSID (R399). -/
def execNsAttach (ring : Nat) (s : State) : Host.Outcome State Fault Refusal :=
  .next (runSto ring 0x66 true (fun own n e s =>
    match s.portCtrl own (ctrlNo e), s.namedVol own (volNo e) with
    | .inr st, _ => (s, st, stoFields s n none none)
    | .inl (k, _), .inr st => (s, st, stoFields s n (some k) none)
    | .inl (k, c), .inl (v, _) =>
      let nsid := eN e 20 4
      let here := stoFields s n (some k) (some v)
      if nsid = 0 ∨ 256 < nsid then (s, 0x0103, here)
      else if (tblGet c.attach nsid).isSome then (s, 0x0108, here)
      else if 16 ≤ ((s.attachments v).map (fun a => a.1)).dedup.length ∧ ¬ (s.attachments v).any (fun a => a.1 == k) then (s, 0x0106, here)
      else
        let s := s.setCtrl k { c with attach := tblPut c.attach nsid ⟨v, eBits e 16 0 1 == 1, false, none⟩ }
        (s, 0, stoFields s n (some k) (some v))) s)

/-- NS_DETACH: the attachment goes once its started commands have completed (R418). -/
def execNsDetach (ring : Nat) (s : State) : Host.Outcome State Fault Refusal :=
  .next (startEntry ring (· == 0x67) (fun r j s =>
    let e := j.first
    let refuse := fun (st : Nat) (k : Option Nat) => (s, some (st, stoFields s (eN e 8 2) k none))
    if s.managerSheet r.sheet = false ∨ (s.namedSheet r.sheet (eN e 8 2)).isNone then refuse 0x0401 none
    else match s.portCtrl r.sheet (ctrlNo e) with
    | .inr st => refuse st none
    | .inl (k, c) =>
      let nsid := eN e 20 4
      match tblGet c.attach nsid with
      | none => refuse (if nsid = 0 ∨ 256 < nsid then 0x0103 else 0x0501) (some k)
      | some a =>
        if a.waiter.isSome then refuse 0x0106 (some k)
        else (detachDone k nsid (s.setCtrl k { c with attach := tblPut c.attach nsid { a with waiter := some (ring, j.idx) } }), none)) s)

/-- STO_QUERY: a controller (KIND 0), or for the manager a volume (KIND 1). -/
def execStoQuery (ring : Nat) (s : State) : Host.Outcome State Fault Refusal :=
  .next (runSto ring 0x68 false (fun own n e s =>
    if eBits e 16 0 1 = 0 then
      match s.namedCtrl n (ctrlNo e) with
      | .inr st => (s, st, stoFields s n none none)
      | .inl (k, _) => (s, 0, stoFields s n (some k) none)
    else if s.managerSheet own = false then (s, 0x0401, stoFields s n none none)
    else match s.namedVol own (volNo e) with
      | .inr st => (s, st, stoFields s n none none)
      | .inl (v, _) => (s, 0, stoFields s n none (some v))) s)

end Sys2Proof.Machine
end

