-- ==== Sys2Proof/Machine/Nvme.lean ====
section
/-! DEFINITION. Presented commands: fetching, arbitration, range locks, and the I/O commands up to their backend requests
(spec 15, R399-R408, R411-R417; status codes of NVMe 2.0, notes/assumptions/31). -/

namespace Sys2Proof.Machine

/-! ## Fetching (R401) -/

/-- Dirty blocks a Flush waits for: of its volume, when it is fetched (R407). -/
def State.flushWaits (s : State) (c : Ctrl) (sq : Nat) (e : Entry) : List Nat :=
  if sq = 0 ∨ nvOp e ≠ 0 then []
  else match tblGet c.attach (nvNsid e) with
  | some a => s.dirtyBlocks a.vol
  | none => []

/-- Take one SQ entry in, under a flight-table slot, when one is free and entries are posted. -/
def takeSqe (n q : Nat) (e : Entry) (s : State) : State :=
  match s.ctrl? n with
  | none => s
  | some c =>
    match tblGet c.sqs q with
    | none => s
    | some k =>
      match s.ring? k.ring with
      | none => s
      | some r =>
        if r.state ≠ .running ∨ r.fetch = r.pi ∨ s.flight.room .sto = false then s
        else
          let m : NvmeCmd := ⟨n, q, e, .fetched, 0, none, [], false, [], [], 0, s.flushWaits c q e, []⟩
          let s := (s.takeSlot .sto).setRing k.ring { r with fetch := r.fetch + 1, head := r.head + 1 }
          { s with sto := { s.sto with cmds := tblPut s.sto.cmds s.sto.nextCmd m, nextCmd := s.sto.nextCmd + 1 } }

/-- A controller fetches from a queue: READY from all, SHUTTING from the admin queue, in power state 2 from no I/O queue
(R403, R411). -/
def Ctrl.fetches (c : Ctrl) (q : Nat) : Bool :=
  (c.state == .ready && (q == 0 || c.ps != 2)) || (c.state == .shutting && q == 0)

/-- Entries of a controller's queue fetched since a state of its ring. -/
def State.fetchedSince (s : State) (c : Ctrl) (q : Nat) (r : Ring) : Nat :=
  match (tblGet c.sqs q).bind (fun k => s.ring? k.ring) with
  | some w => (w.fetch - r.fetch).toNat
  | none => 0

/-- SQ_FETCH: entries of a submission queue arrive from tenant memory, in index order, at most 8 and not across a 4,096-byte
boundary (R401). -/
def execSqFetch (ctrl queue : Nat) (entries : List Entry) (s : State) : Host.Outcome State Fault Refusal :=
  match s.ctrl? ctrl with
  | none => .next s
  | some c =>
    match (tblGet c.sqs queue).bind (fun k => s.ring? k.ring) with
    | none => .next s
    | some r =>
      if c.fetches queue = false then .next s
      else
        let s := (entries.take (min 8 (64 - r.fetch.toNat % 64))).foldl (fun t e => takeSqe ctrl queue e t) s
        .next (sheetRead c.sheet (r.base + r.fetch.toNat % r.size * 64) (64 * s.fetchedSince c queue r) s)

/-! ## Range locks (R405, R406) -/

/-- A command takes a range-lock entry: Read, Write, Write Zeroes, Dataset Management. -/
def locks (op : Nat) : Bool := op == 1 || op == 2 || op == 8 || op == 9

/-- The entry a command takes: volume, first and last block. -/
def lockOf (vol : Nat) (e : Entry) (ranges : List (Nat × Nat)) : Nat × Nat × Nat :=
  if nvOp e = 9 then
    (vol, ranges.foldl (fun m r => min m r.1) (2 ^ 64), ranges.foldl (fun m r => max m (r.1 + r.2 - 1)) 0)
  else (vol, nvSlba e, nvSlba e + nvBlocks e - 1)

/-- Two range-lock entries overlap. -/
def overlaps (a b : Nat × Nat × Nat) : Bool := a.1 == b.1 && decide (a.2.1 ≤ b.2.2) && decide (b.2.1 ≤ a.2.2)

/-- Entries of the range-lock table in use. -/
def State.lockCount (s : State) : Nat := tblCount (fun _ m => m.lock.isSome) s.sto.cmds

/-- An earlier command that has not released its entry overlaps a command, and they are not both Reads. -/
def State.locked (s : State) (m : NvmeCmd) : Bool :=
  match m.lock with
  | none => false
  | some l => s.sto.cmds.any (fun k => match k.2.lock with
      | some o => decide (k.2.order < m.order) && overlaps o l && !(nvOp k.2.sqe == 2 && nvOp m.sqe == 2)
      | none => false)

/-- RANGE_LOCK_RELEASE: stalled commands with no earlier overlapping entry left proceed, in start order (R406). -/
def execRangeLockRelease (s : State) : Host.Outcome State Fault Refusal :=
  let stalled := sortBy (fun (x : Nat × NvmeCmd) => x.2.order) (s.sto.cmds.filter (fun x => x.2.phase == .stalled))
  .next (stalled.foldl (fun t x => if t.locked x.2 then t else t.setCmd x.1 { x.2 with phase := .started }) s)

/-! ## Arbitration (R404) -/

/-- The oldest command of an SQ that has been fetched and not started. -/
def State.oldest (s : State) (n q : Nat) : Option (Nat × NvmeCmd) :=
  s.sto.cmds.find? (fun m => m.2.ctrl == n && m.2.sq == q && m.2.phase == .fetched)

/-- CQ entries not consumed, and commands started that will post one. -/
def State.cqLoad (s : State) (n : Nat) (c : Ctrl) (q : Nat) (r : Ring) : Nat :=
  idxSub r.fetch.toNat r.pi.toNat
    + tblCount (fun _ (m : NvmeCmd) => m.ctrl == n && m.begun && (match tblGet c.sqs m.sq with
        | some k => k.cq == q
        | none => false)) s.sto.cmds

/-- An SQ holds a startable command: its CQ has room, and the range-lock table too when the command needs an entry. -/
def State.sqReady (s : State) (n : Nat) (c : Ctrl) (q : Nat) : Bool :=
  match tblGet c.sqs q, s.oldest n q with
  | some k, some (_, m) =>
    (match (tblGet c.cqs k.cq).bind (fun x => s.ring? x.ring) with
    | some r => decide (s.cqLoad n c k.cq r < 2 ^ r.sizeLog2 - 1) && !(q != 0 && locks (nvOp m.sqe) && decide (16384 ≤ s.lockCount))
    | none => false)
  | _, _ => false

/-- The SQ of a list to serve next: the one served last again while its burst of 2^AB commands lasts, else the next one in
cyclic order. -/
def nextSq (c : Ctrl) (l : List Nat) : Option Nat :=
  let ab := c.feature 1 % 8
  if l.contains c.lastSq ∧ (ab = 7 ∨ c.burst < 2 ^ ab) then some c.lastSq
  else match l.find? (fun q => decide (c.lastSq < q)) with
    | some q => some q
    | none => l.head?

/-- Weight of a priority 1-3: HPW + 1, MPW + 1, LPW + 1 of the Arbitration feature. -/
def Ctrl.weight (c : Ctrl) (p : Nat) : Nat := c.feature 1 / 2 ^ (8 * (4 - p)) % 256 + 1

/-- Ready I/O queues of a priority, rising. -/
def State.readyOf (s : State) (n : Nat) (c : Ctrl) (p : Nat) : List Nat :=
  tblKeys (fun q (k : SubQueue) => q != 0 && k.prio == p && s.sqReady n c q) c.sqs

/-- The controller after an SQ was served. -/
def Ctrl.served (c : Ctrl) (q : Nat) : Ctrl := { c with lastSq := q, burst := if c.lastSq = q then c.burst + 1 else 1 }

/-- The SQ a controller serves next, and the controller after it: admin, then urgent, then weighted round robin. -/
def State.chooseSq (s : State) (n : Nat) (c : Ctrl) : Option (Nat × Ctrl) :=
  if s.sqReady n c 0 then some (0, c)
  else match nextSq c (s.readyOf n c 0) with
  | some q => some (q, c.served q)
  | none =>
    let ready := fun (p : Nat) => !(s.readyOf n c p).isEmpty
    let left := fun (p : Nat) => tblGetD 0 c.credit p
    let c' := match [1, 2, 3].find? (fun p => ready p && decide (0 < left p)) with
      | some _ => c
      | none => { c with credit := [(1, c.weight 1), (2, c.weight 2), (3, c.weight 3)] }
    match [1, 2, 3].find? (fun p => ready p && decide (0 < tblGetD 0 c'.credit p)) with
    | none => none
    | some p => (nextSq c' (s.readyOf n c p)).map (fun q =>
        (q, ({ c' with credit := tblPut c'.credit p (tblGetD 0 c'.credit p - 1) } : Ctrl).served q))

/-- Controllers of a sheet that arbitration visits and that hold a startable command. -/
def State.readyCtrls (s : State) (sheet : Nat) : List Nat :=
  tblKeys (fun n (c : Ctrl) => c.sheet == sheet && (c.state == .ready || c.state == .shutting) && (s.chooseSq n c).isSome) s.ctrls

/-- Sheets that hold a startable command, rising. -/
def State.readySheets (s : State) : List Nat :=
  sortBy (fun n => n) ((s.ctrls.map (fun c => c.2.sheet)).dedup.filter (fun n => !(s.readyCtrls n).isEmpty))

/-- Next number of a rising list in cyclic order. -/
def nextCyclic (after : Nat) (l : List Nat) : Option Nat :=
  match l.find? (fun k => decide (after < k)) with
  | some k => some k
  | none => l.head?

/-- Commands a controller takes in one visit of its sheet: the sheet's WEIGHT, a quarter of it in power state 1 (R404,
R411). -/
def State.quantum (s : State) (c : Ctrl) : Nat :=
  let w := s.rd (STO_SHEET_WGT_WEIGHT c.sheet)
  if c.ps = 1 then (w + 3) / 4 else w

/-- The controller to serve next: the one being served while its sheet's turn lasts, else the next controller of the next
sheet. -/
def State.chooseCtrl (s : State) : Option (Nat × State) :=
  let now := tblGetD 4096 s.sto.lastCtrl s.sto.visiting
  if 0 < s.sto.credit ∧ (s.readyCtrls s.sto.visiting).contains now then
    some (now, { s with sto := { s.sto with credit := s.sto.credit - 1 } })
  else match nextCyclic s.sto.visiting s.readySheets with
  | none => none
  | some sheet => (nextCyclic (tblGetD 4096 s.sto.lastCtrl sheet) (s.readyCtrls sheet)).map (fun n =>
      let q := match s.ctrl? n with
        | some c => s.quantum c
        | none => 1
      (n, { s with sto := { s.sto with visiting := sheet, credit := q - 1, lastCtrl := tblPut s.sto.lastCtrl sheet n } }))

/-- The volume of an I/O command's namespace. -/
def State.cmdVol (s : State) (m : NvmeCmd) : Option (Nat × Attach × Volume) :=
  match s.ctrl? m.ctrl with
  | none => none
  | some c => match tblGet c.attach (nvNsid m.sqe) with
    | none => none
    | some a => (s.vol? a.vol).map (fun v => (a.vol, a, v))

/-- Start a command: it takes its range-lock entry, and stalls behind earlier overlapping ones. One to a namespace that is
being detached, ends at once. -/
def startCmd (i : Nat) (m : NvmeCmd) (ranges : List (Nat × Nat)) (s : State) : State :=
  let order := s.sto.nextOrder
  let s := { s with sto := { s.sto with nextOrder := order + 1 } }
  if m.sq = 0 then s.setCmd i { m with phase := .started, order := order }
  else match s.cmdVol m with
  | none => s.setCmd i { m with phase := .started, order := order }
  | some (v, a, _) =>
    let m := { m with phase := .started, order := order, ranges := if nvOp m.sqe = 9 then ranges else [] }
    if a.waiter.isSome then finishCmd i 0x0B 0 (s.setCmd i m)
    else if locks (nvOp m.sqe) = false ∨ (nvOp m.sqe = 9 ∧ ranges = []) then s.setCmd i m
    else
      let m := { m with lock := some (lockOf v m.sqe ranges) }
      if s.locked m then (s.setCmd i { m with phase := .stalled }).count STO_STALLS 1 else s.setCmd i m

/-- STORAGE_COMMAND_START: arbitration starts the next startable command (R404-R406). ranges: what the range list of a
Dataset Management in tenant memory names. -/
def execStorageCommandStart (ranges : List (Nat × Nat)) (s : State) : Host.Outcome State Fault Refusal :=
  match s.chooseCtrl with
  | none => .next s
  | some (n, t) =>
    match t.ctrl? n with
    | none => .next s
    | some c =>
      match t.chooseSq n c with
      | none => .next s
      | some (q, c') =>
        match t.oldest n q with
        | none => .next s
        | some (i, m) =>
          let u := t.setCtrl n c'
          let u := if q ≠ 0 ∧ nvOp m.sqe = 9 then sheetRead c.sheet (eN m.sqe 24 8) (16 * (eN m.sqe 40 1 + 1)) u else u
          .next (startCmd i m ranges u)

/-! ## Data pointers (PRP) -/

/-- Where a command's data lies: the pieces of its PRP entries, the pages behind the first two being resolved from the PRP
list as the operand gives them. None: an entry is not aligned, or the list is too short. -/
def prpPieces (e : Entry) (pages : List Nat) (len : Nat) : Option (List (Nat × Nat)) :=
  let prp1 := eN e 24 8
  let n1 := min len (4096 - prp1 % 4096)
  let k := (len - n1 + 4095) / 4096
  let rest := if k = 1 then [eN e 32 8] else pages.take k
  if prp1 % 4 ≠ 0 ∨ rest.length < k ∨ rest.any (fun p => p % 4096 != 0) then none
  else some ((prp1, n1) :: (rest.zipIdx.map (fun p => (p.1, min 4096 (len - n1 - 4096 * p.2)))).take k)

/-- Write data into the pieces of tenant memory. -/
def placePieces (n : Nat) : List (Nat × Nat) → Bytes → State → State
  | [], _, s => s
  | (a, k) :: rest, bs, s => placePieces n rest (bs.drop k) (if k = 0 then s else sheetWrite n a (bs.take k) s)

/-- Read the pieces of tenant memory that hold a command's data, and its PRP list, when it has one. -/
def fetchPieces (n : Nat) (e : Entry) (l : List (Nat × Nat)) (s : State) : State :=
  let s := if 2 < l.length then sheetRead n (eN e 32 8) (8 * (l.length - 1)) s else s
  l.foldl (fun t p => sheetRead n p.1 p.2 t) s

/-- Sheet of a command's controller. -/
def State.cmdSheet (s : State) (m : NvmeCmd) : Nat :=
  match s.ctrl? m.ctrl with
  | some c => c.sheet
  | none => 4096

/-! ## Backend requests (R410, R414, R415, R417) -/

/-- Class of the packets that a contract of a volume carries, else the volume's (R398, R417). -/
def State.volClass (s : State) (x : Volume) (contract : Option Nat) : Nat :=
  match contract with
  | some c => s.contractClass c
  | none => x.cls

/-- The packet of one logical block that the engine sends toward a local device (R414, R417). -/
def sendBlock (x : Volume) (block : Nat) (data : Bytes) (s : State) : State :=
  let bytes := match x.sa with
    | some _ => leBytes 8 block ++ List.replicate 8 0 ++ data
    | none => data
  let f := s.newFlying 121 bytes s.dshort
  enterBench { f with
    profile := none
    prog := 0
    via := some (64 + x.rootPort, x.sa.getD 0xFFFFF)
    ringContract := x.contractOut
    txCls := some (s.volClass x x.contractOut) } s

/-- The blocks of a write, one packet each. -/
def sendBlocks (x : Volume) (data : Bytes) (lo : Nat) : Nat → State → State
  | 0, s => s
  | n + 1, s =>
    let t := sendBlocks x data lo n s
    sendBlock x (lo + n) ((data.drop (n * x.blockSize)).take x.blockSize) t

/-- Opcode of a backend request. -/
def backendOp (op : Nat) : Nat := match op with | 0 => 0x02 | 3 => 0x08 | 4 => 0x09 | _ => 0x01

/-- A request capsule (Table 15.7). -/
def capsule (x : Volume) (req op lo n : Nat) (data : Bytes) : Bytes :=
  [BitVec.ofNat 8 (backendOp op), 0] ++ leBytes 2 (req % 65536) ++ leBytes 4 x.nsid ++ List.replicate 32 0 ++ leBytes 8 lo
    ++ leBytes 2 (n - 1) ++ List.replicate 14 0 ++ (if op = 1 ∨ op = 5 then data else [])

/-- Send a capsule as a message of the volume's connection. -/
def sendCapsule (x : Volume) (bytes : Bytes) (s : State) : State :=
  match s.handled x.conn with
  | none => s
  | some (c, y) =>
    let m : SendMsg := ⟨y.nextMsn, none, bytes.length, 0, 0, 0, [], none, bytes, 0⟩
    s.setConn c { y with
      nextMsn := y.nextMsn + 1
      sends := y.sends ++ [m]
      queue := y.queue ++ (List.range (packetsOf y.mtu bytes.length)).map (fun k => ⟨m.msn, k, false⟩) }

/-- Backend requests of a connection that are out. -/
def State.connRequests (s : State) (h : Nat) : Nat :=
  tblCount (fun _ (b : BackReq) => match s.vol? b.vol with
    | some x => x.remote && x.conn == h
    | none => false) s.sto.reqs

/-- Reads out on a root port have reached 1,024 blocks or 262,144 bytes (R291). -/
def State.readsFull (s : State) (port : Nat) : Bool :=
  let out := s.sto.reqs.filterMap (fun b => match s.vol? b.2.vol with
    | some x => if b.2.op = 0 ∧ x.remote = false ∧ x.rootPort = port then some (b.2.n - b.2.staged.length, x.blockSize) else none
    | none => none)
  decide (1024 ≤ (out.map (fun x => x.1)).sum) || decide (262144 ≤ (out.map (fun x => x.1 * x.2)).sum)

/-- A volume takes another backend request of an opcode: for a remote one at most 64 messages started and 256 requests out (R362,
R415); for a local one a read is issued unless its root port's inlet is stopped or its reads out are at their bound, and data is sent unless inlet 121 is (R25, R291, R293). -/
def State.backendTakes (s : State) (x : Volume) (op : Nat) : Bool :=
  if x.remote then
    (match s.handled x.conn with
      | some (_, y) => decide (y.sendCount < 64) && decide (s.connRequests x.conn < 256)
      | none => false)
  else if op = 0 then !s.stopped (64 + x.rootPort) (s.volClass x x.contractIn) && !s.readsFull x.rootPort
  else if op = 1 ∨ op = 5 then !s.stopped 121 (s.volClass x x.contractOut)
  else true

/-- Issue a backend request for blocks of a volume. -/
def issueBackend (vol : Nat) (x : Volume) (cmd : Option Nat) (op lo n : Nat) (data : Bytes) (tries : Nat) (s : State) : State :=
  let req := s.sto.nextReq
  let s := { s with sto := { s.sto with reqs := tblPut s.sto.reqs req ⟨vol, cmd, op, lo, n, data, tries, false, []⟩, nextReq := req + 1 } }
  let s := match cmd.bind s.cmd? with
    | some m => s.setCmd (cmd.getD 0) { m with phase := .running, touched := true, reqs := m.reqs ++ [req] }
    | none => s
  if x.remote then sendCapsule x (capsule x req op lo n data) s
  else
    let s := s.emit (.backend vol req (backendOp op))
    if op = 1 ∨ op = 5 then sendBlocks x data lo n s else s

/-! ## Checks of I/O commands (R399, R408, R410) -/

/-- A command that has started, with an opcode, of an I/O queue. -/
def State.ioStarted (s : State) (i op : Nat) : Option NvmeCmd :=
  match s.cmd? i with
  | some m => if m.phase = .started ∧ m.sq ≠ 0 ∧ nvOp m.sqe = op then some m else none
  | none => none

/-- SGLs or a fused operation are used: bits 15:14 and 9:8 of Dword 0. -/
def badFields (e : Entry) : Bool := eBits e 1 6 2 != 0 || eBits e 1 0 2 != 0

/-- The namespace of a command, or the status that refuses it. -/
def State.namespace? (s : State) (m : NvmeCmd) : (Nat × Attach × Volume) ⊕ Nat :=
  if badFields m.sqe then .inr 0x02
  else match s.cmdVol m with
  | none => .inr 0x0B
  | some x => .inl x

/-- The blocks of a Read, Write or Write Zeroes are refused: beyond the volume, or more data than MDTS. -/
def blocksRefused (x : Volume) (e : Entry) (data : Bool) : Option Nat :=
  if data ∧ 2 ^ 20 < nvBlocks e * x.blockSize then some 0x02
  else if x.blocks < nvSlba e + nvBlocks e then some 0x80
  else none

/-! ## Read (R407-R410) -/

/-- Data of a cached block. -/
def State.cached (s : State) (vol block : Nat) : Option Cached := tblGet s.sto.cache (cacheKey vol block)

/-- Blocks lo to lo + n - 1. -/
def blockRange (lo n : Nat) : List Nat := (List.range n).map (· + lo)

/-- A cached block reads poisoned: a mirrored copy survives; a clean block is read from the backend again; a dirty one is
lost with cause 3 (R408, R409). -/
def poisonBlock (vol block : Nat) (s : State) : State :=
  match s.cached vol block with
  | none => s
  | some x =>
    let key := cacheKey vol block
    if x.dirty then
      match x.homes with
      | [] => deferredError vol block 1 3 s
      | [_] => deferredError vol block 1 3 s
      | _ :: rest => mirrorAgain key { s with sto := { s.sto with cache := tblPut s.sto.cache key { x with homes := rest } } }
    else { s with sto := { s.sto with cache := tblDel s.sto.cache key } }

/-- Bytes of a Read at hand, in block order. -/
def NvmeCmd.readData (m : NvmeCmd) : Bytes := ((sortBy (fun x => x.1) m.got).map (fun x => x.2)).flatten

/-- Place the data of a Read and end it. -/
def endRead' (i : Nat) (m : NvmeCmd) (s : State) : State :=
  let data := m.readData
  match prpPieces m.sqe m.pages data.length with
  | none => finishCmd i 0x13 0 s
  | some l => finishCmd i 0 0 (placePieces (s.cmdSheet m) l data s)

/-- NVME_READ: blocks come from the cache, the others from the backend in one request (R407, R410). pages: the pages of the
PRP list; poisoned: cached blocks that read poisoned. -/
def execNvmeRead (cmd : Nat) (pages poisoned : List Nat) (s : State) : Host.Outcome State Fault Refusal :=
  match s.ioStarted cmd 2 with
  | none => .next s
  | some m =>
    match s.namespace? m with
    | .inr st => .next (finishCmd cmd st 0 s)
    | .inl (vol, _, x) =>
      let lo := nvSlba m.sqe
      let n := nvBlocks m.sqe
      match blocksRefused x m.sqe true with
      | some st => .next (finishCmd cmd st 0 s)
      | none =>
        if (prpPieces m.sqe pages (n * x.blockSize)).isNone then .next (finishCmd cmd 0x13 0 s)
        else
          let s := (poisoned.filter (fun b => decide (lo ≤ b) && decide (b < lo + n))).foldl (fun t b => poisonBlock vol b t) s
          let lost := match s.vol? vol with
            | some y => meetsLost lo n y.lost
            | none => false
          if lost then .next (finishCmd cmd 0x281 0 s)
          else
            let got := (blockRange lo n).filterMap (fun b => (s.cached vol b).map (fun k => (b, k.data)))
            let missing := (blockRange lo n).filter (fun b => (s.cached vol b).isNone)
            let m := { m with got := got, pages := pages }
            match missing with
            | [] => .next (endRead' cmd m ((s.setCmd cmd { m with touched := true }).count STO_CACHE_HIT n))
            | first :: _ =>
              let span := missing.getLastD first - first + 1
              if s.volDown x then .next (finishCmd cmd 0x82 0 s)
              else if s.backendTakes x 0 = false then .next s
              else .next (issueBackend vol x (some cmd) 0 first span [] 0 ((s.setCmd cmd m).count STO_CACHE_HIT got.length))

/-! ## Write (R407) -/

/-- Drop clean blocks of an expander until a block fits. -/
def evictClean (p size : Nat) (keys : List Nat) (s : State) : State :=
  keys.foldl (fun t k => if t.cacheUsed p + size ≤ tblGetD 0 t.sto.room p then t
    else { t with sto := { t.sto with cache := tblDel t.sto.cache k } }) s

/-- Make room for a block on an expander other than some; none when dirty blocks fill them. -/
def findHome (size : Nat) (except : List Nat) (s : State) : Option (Nat × State) :=
  match s.roomFor size except with
  | some p => some (p, s)
  | none =>
    ((s.sto.room.filter (fun r => !except.contains r.1)).map (fun r =>
      (r.1, evictClean r.1 size (tblKeys (fun _ (x : Cached) => !x.dirty && x.homes.contains r.1) s.sto.cache) s))).find? (fun r =>
        decide (r.2.cacheUsed r.1 + size ≤ tblGetD 0 r.2.sto.room r.1))

/-- Put one written block into the cache on a number of expanders, replacing what was there. -/
def cacheBlock (vol : Nat) (x : Volume) (copies block : Nat) (data : Bytes) (s : State) : Option State :=
  let key := cacheKey vol block
  let s := { s with sto := { s.sto with cache := tblDel s.sto.cache key } }
  match findHome x.blockSize [] s with
  | none => none
  | some (p, s) =>
    let put := fun (homes : List Nat) (s : State) =>
      some { s with sto := { s.sto with cache := tblPut s.sto.cache key ⟨true, homes, data⟩ } }
    if copies = 1 then put [p] s
    else match findHome x.blockSize [p] s with
      | none => none
      | some (q, s) => put [p, q] s

/-- Put the blocks of a write into the cache, all of them or none. -/
def cacheBlocks (vol : Nat) (x : Volume) (copies lo : Nat) (data : Bytes) : Nat → State → Option State
  | 0, s => some s
  | n + 1, s => (cacheBlocks vol x copies lo data n s).bind
      (fun t => cacheBlock vol x copies (lo + n) ((data.drop (n * x.blockSize)).take x.blockSize) t)

/-- Copies a Write's blocks need in the cache before it completes; 0 for a Write that completes at the backend: CACHE 0, FUA,
Volatile Write Cache off, no expander or too few, or write-through forced (R407). -/
def State.copies (s : State) (x : Volume) (m : NvmeCmd) : Nat :=
  let vwc := match s.ctrl? m.ctrl with
    | some c => c.feature 6 % 2 == 1
    | none => false
  if eBits m.sqe 51 6 1 = 1 ∨ vwc = false ∨ s.bit STO_STATUS_WT_FORCED ∨ s.sto.room.length < x.cache then 0 else x.cache

/-- Written blocks leave the volume's lost ranges (R408). -/
def coverLost (vol lo n : Nat) (s : State) : State :=
  match s.vol? vol with
  | none => s
  | some x => s.setVol vol { x with lost := cutLost lo n x.lost }

/-- NVME_WRITE: the tenant's data is read, and the blocks go to the cache or to the backend (R407). pages: the pages of the
PRP list; data: what reading the tenant's data gives. -/
def execNvmeWrite (cmd : Nat) (pages : List Nat) (data : MemResult) (s : State) : Host.Outcome State Fault Refusal :=
  match s.ioStarted cmd 1 with
  | none => .next s
  | some m =>
    match s.namespace? m with
    | .inr st => .next (finishCmd cmd st 0 s)
    | .inl (vol, a, x) =>
      let lo := nvSlba m.sqe
      let n := nvBlocks m.sqe
      match blocksRefused x m.sqe true with
      | some st => .next (finishCmd cmd st 0 s)
      | none =>
        if a.readOnly then .next (finishCmd cmd 0x20 0 s)
        else match prpPieces m.sqe pages (n * x.blockSize) with
        | none => .next (finishCmd cmd 0x13 0 s)
        | some l =>
        let unread := s
        let s := fetchPieces (s.cmdSheet m) m.sqe l s
        match data with
        | .ok bs =>
          let bs := bs.take (n * x.blockSize) ++ List.replicate (n * x.blockSize - bs.length) 0
          let through :=
            if s.volDown x then finishCmd cmd 0x82 0 s
            else if s.backendTakes x 1 = false then unread
            else issueBackend vol x (some cmd) 1 lo n bs 0 s
          (match s.copies x m with
          | 0 => .next through
          | k + 1 => match cacheBlocks vol x (k + 1) lo bs n s with
            | none => .next through
            | some s => .next (finishCmd cmd 0 0 (followDirty (coverLost vol lo n s))))
        | _ => .next (finishCmd cmd 0x04 0 s)

/-! ## Flush, Write Zeroes, Dataset Management -/

/-- NVME_FLUSH: completes once every block that was dirty when it was fetched has been written back (R407). -/
def execNvmeFlush (cmd : Nat) (s : State) : Host.Outcome State Fault Refusal :=
  match s.ioStarted cmd 0 with
  | none => .next s
  | some m =>
    match s.namespace? m with
    | .inr st => .next (finishCmd cmd st 0 s)
    | .inl _ =>
      if s.stillDirty m.waits = [] then .next (finishCmd cmd 0 0 s) else .next (s.setCmd cmd { m with phase := .running })

/-- A command that acts on blocks at the backend alone: refused while the volume is DOWN or read-only. -/
def atBackend (cmd : Nat) (m : NvmeCmd) (vol : Nat) (a : Attach) (x : Volume) (op : Nat) (ranges : List (Nat × Nat)) (s : State) : State :=
  if a.readOnly then finishCmd cmd 0x20 0 s
  else if ranges.any (fun r => decide (x.blocks < r.1 + r.2)) then finishCmd cmd 0x80 0 s
  else if ranges = [] then finishCmd cmd 0 0 s
  else if s.volDown x then finishCmd cmd 0x82 0 s
  else match ranges with
  | r :: rest =>
    if s.backendTakes x op then issueBackend vol x (some cmd) op r.1 r.2 [] 0 (s.setCmd cmd { m with ranges := rest })
    else s
  | [] => s

/-- NVME_WRITE_ZEROES: the blocks are zeroed at the backend, and cached copies of them go (R399, R408). -/
def execNvmeWriteZeroes (cmd : Nat) (s : State) : Host.Outcome State Fault Refusal :=
  match s.ioStarted cmd 8 with
  | none => .next s
  | some m =>
    match s.namespace? m with
    | .inr st => .next (finishCmd cmd st 0 s)
    | .inl (vol, a, x) => .next (atBackend cmd m vol a x 3 [(nvSlba m.sqe, nvBlocks m.sqe)] s)

/-- NVME_DATASET_MANAGEMENT: with Deallocate set its ranges are deallocated at the backend; without, nothing is done
(R399). -/
def execNvmeDatasetManagement (cmd : Nat) (s : State) : Host.Outcome State Fault Refusal :=
  match s.ioStarted cmd 9 with
  | none => .next s
  | some m =>
    match s.namespace? m with
    | .inr st => .next (finishCmd cmd st 0 s)
    | .inl (vol, a, x) =>
      if eBits m.sqe 44 2 1 = 1 then .next (atBackend cmd m vol a x 4 m.ranges s) else .next (finishCmd cmd 0 0 s)

end Sys2Proof.Machine
end

