-- ==== Sys2Proof/Machine/NvmeBackend.lean ====
section
/-! DEFINITION. Backend requests that end: completions, timeouts, write-back and the responses of remote targets (spec 15,
R407-R410, R414, R415). -/

namespace Sys2Proof.Machine

/-! ## Data of a reply (R414, R415, R417) -/

/-- The blocks of a reply from a first block on: number and data; what a reply lacks reads 0. -/
def replyBlocks (x : Volume) (lo : Nat) (data : Bytes) (n : Nat) : List (Nat × Bytes) :=
  (List.range n).map (fun k => (lo + k, fitTo x.blockSize (data.drop (k * x.blockSize))))

/-- The packet of one block that a local device returns: it enters at its root port's inlet and goes to the engine's outlet 121, behind
a storage header and under the unprotect SA when its volume has one (R414, R417). -/
def sendReply (x : Volume) (req : Nat) (s : State) (b : Nat × Bytes) : State :=
  let bytes := match x.sa with
    | some _ => leBytes 8 b.1 ++ List.replicate 8 0 ++ b.2
    | none => b.2
  let f := s.newFlying (64 + x.rootPort) bytes s.dshort
  enterBench { f with
    profile := none
    prog := 0
    via := some (121, match x.sa with
      | some k => k + 1
      | none => 0xFFFFF)
    staging := some (req, b.1)
    ringContract := x.contractIn
    txCls := some (s.volClass x x.contractIn) } s

/-! ## Ends of requests -/

/-- Forget a backend request. -/
def dropReq (req : Nat) (s : State) : State :=
  let less : Nat → NvmeCmd → NvmeCmd := fun _ m => { m with reqs := m.reqs.filter (· != req) }
  { s with sto := { s.sto with reqs := tblDel s.sto.reqs req, cmds := tblMap less s.sto.cmds } }

/-- Blocks written, zeroed or deallocated at the backend: cached copies of them are out of date and go, and they leave the
lost ranges (R408). -/
def backendWrote (vol lo n : Nat) (s : State) : State :=
  let gone : Nat × Cached → Bool := fun x => decide (cacheKey vol lo ≤ x.1) && decide (x.1 < cacheKey vol (lo + n))
  settleFlushes (followDirty (coverLost vol lo n { s with sto := { s.sto with cache := s.sto.cache.filter (fun x => !gone x) } }))

/-- A write-back reached the backend: blocks whose data has not changed since are clean (R407). -/
def markClean (vol : Nat) (x : Volume) (lo : Nat) (data : Bytes) : Nat → State → State
  | 0, s => s
  | n + 1, s =>
    let s := markClean vol x lo data n s
    match s.cached vol (lo + n) with
    | none => s
    | some k =>
      if k.data = (data.drop (n * x.blockSize)).take x.blockSize then
        { s with sto := { s.sto with cache := tblPut s.sto.cache (cacheKey vol (lo + n)) { k with dirty := false } } }
      else s

/-- Flushes that wait for a block of a range. -/
def State.flushesOn (s : State) (vol lo n : Nat) : List Nat :=
  tblKeys (fun _ (m : NvmeCmd) => m.flushing &&
    m.waits.any (fun k => decide (cacheKey vol lo ≤ k) && decide (k < cacheKey vol (lo + n)))) s.sto.cmds

/-- A write-back failed: Flushes that wait for it complete with Write Fault, and no deferred error is held; otherwise the data
is lost with cause 1 (R408). -/
def writeBackFailed (vol lo n : Nat) (s : State) : State :=
  match s.flushesOn vol lo n with
  | [] => followDirty (deferredError vol lo n 1 s)
  | l => l.foldl (fun t i => finishCmd i 0x280 0 t) s

/-- A backend request ended with a status and the blocks it read; its volume is there. Ranges that the backend does not take yet wait. -/
def backendDone (b : BackReq) (x : Volume) (status : Nat) (blocks : List (Nat × Bytes)) (s : State) : State :=
  if b.op = 5 then
    if status = 0 then
      settleFlushes (followDirty ((markClean b.vol x b.lo b.data b.n s).count STO_WRITEBACK b.n))
    else writeBackFailed b.vol b.lo b.n s
  else
    let s := if status = 0 ∧ b.op ≠ 0 then backendWrote b.vol b.lo b.n s else s
    match b.cmd with
    | none => s
    | some i =>
      match s.cmd? i with
      | none => s
      | some m =>
        if m.phase ≠ .running then s
        else if status ≠ 0 then finishCmd i status 0 s
        else if b.op = 0 then
          let fresh := blocks.filter (fun p => !(m.got.any (fun g => g.1 == p.1)))
          let m := { m with got := m.got ++ fresh }
          endRead' i m (s.setCmd i m)
        else match m.ranges with
        | [] => finishCmd i 0 0 s
        | r :: rest =>
          if s.volDown x then finishCmd i 0x82 0 s
          else if s.backendTakes x b.op = false then s.setCmd i { m with phase := .started }
          else issueBackend b.vol x (some i) b.op r.1 r.2 [] 0 (s.setCmd i { m with ranges := rest })

/-- A request out that has the given number ends with a status; blocks: what it read, from its data. -/
def endRequest (req status : Nat) (blocks : BackReq → Volume → List (Nat × Bytes)) (s : State) : State :=
  match tblGet s.sto.reqs req with
  | none => s
  | some b =>
    let s := dropReq req s
    match s.vol? b.vol with
    | none => s
    | some x => backendDone b x status (blocks b x) s

/-- BACKEND_COMPLETION: a local device's reply to a request: its NVMe status and, for a read, its data, which crosses a bench block by
block to the engine (R17, R407, R417). -/
def execBackendCompletion (req status : Nat) (data : Bytes) (s : State) : Host.Outcome State Fault Refusal :=
  match tblGet s.sto.reqs req with
  | none => .next s
  | some b =>
    match s.vol? b.vol with
    | none => .next s
    | some x =>
      if x.remote ∨ b.replied then .next s
      else if b.op = 0 ∧ status = 0 then
        let s := { s with sto := { s.sto with reqs := tblPut s.sto.reqs req { b with replied := true } } }
        .next ((replyBlocks x b.lo data b.n).foldl (sendReply x req) s)
      else .next (endRequest req status (fun _ _ => []) s)

/-- BACKEND_TIMEOUT: a request without reply is abandoned: its command completes with Command Interrupted, a write-back is
tried once more and then lost (R408, R410). -/
def execBackendTimeout (req : Nat) (s : State) : Host.Outcome State Fault Refusal :=
  match tblGet s.sto.reqs req with
  | none => .next s
  | some b =>
    let s := (dropReq req s).count STO_BACKEND_TO 1
    match s.vol? b.vol with
    | none => .next s
    | some x =>
      if b.op = 5 then
        if b.tries = 0 then
          if s.volDown x then .next s else .next (issueBackend b.vol x none 5 b.lo b.n b.data 1 s)
        else .next (writeBackFailed b.vol b.lo b.n s)
      else match b.cmd with
      | none => .next s
      | some i => match s.cmd? i with
        | none => .next s
        | some m => if m.phase = .running then .next (finishCmd i 0x21 0 s) else .next s

/-! ## Write-back (R407, R408) -/

/-- A request over blocks of a volume is out. -/
def State.requestOver (s : State) (vol lo n : Nat) : Bool :=
  s.sto.reqs.any (fun b => b.2.vol == vol && decide (b.2.lo < lo + n) && decide (lo < b.2.lo + b.2.n))

/-- A block is cached and dirty. -/
def State.blockDirty (s : State) (vol block : Nat) : Bool :=
  match s.cached vol block with
  | some k => k.dirty
  | none => false

/-- WRITE_BACK: the engine writes dirty blocks of a volume to its backend, when it is not DOWN and no request over them is
out. poisoned: blocks that read poisoned, which are lost unless a mirror copy survives (R407-R410). -/
def execWriteBack (vol lo n : Nat) (poisoned : List Nat) (s : State) : Host.Outcome State Fault Refusal :=
  match s.vol? vol with
  | none => .next s
  | some x =>
    if n = 0 ∨ ¬ (blockRange lo n).all (fun b => s.blockDirty vol b) ∨ s.requestOver vol lo n ∨ s.volDown x ∨ s.backendTakes x 5 = false then
      .next s
    else
      let s := (poisoned.filter (fun b => decide (lo ≤ b) && decide (b < lo + n))).foldl (fun t b => poisonBlock vol b t) s
      if ¬ (blockRange lo n).all (fun b => s.blockDirty vol b) then .next (followDirty s)
      else
        let data := ((blockRange lo n).filterMap (fun b => (s.cached vol b).map (fun k => k.data))).flatten
        .next (issueBackend vol x none 5 lo n data 0 s)

/-! ## Remote targets (R415) -/

/-- The request of a connection's volumes that a response's CID names. -/
def State.requestOf (s : State) (conn cid : Nat) : Option Nat :=
  (s.sto.reqs.find? (fun b => b.1 % 65536 == cid && (match s.vol? b.2.vol with
    | some x => x.remote && (match s.handled x.conn with
      | some (c, _) => c == conn
      | none => false)
    | none => false))).map (fun b => b.1)

/-- REMOTE_RESPONSE: the oldest capsule received ends its request; one with an unknown CID is discarded (Table 15.7). -/
def execRemoteResponse (s : State) : Host.Outcome State Fault Refusal :=
  match s.sto.inbox with
  | [] => .next s
  | (conn, bytes) :: rest =>
    let s := { s with sto := { s.sto with inbox := rest } }
    match s.requestOf conn (ofLe ((bytes.drop 12).take 2)) with
    | none => .next s
    | some req => .next (endRequest req (ofLe ((bytes.drop 14).take 2) / 2) (fun b x => replyBlocks x b.lo (bytes.drop 16) b.n) s)

end Sys2Proof.Machine
end

