-- ==== Sys2Proof/Machine/Serve.lean ====
section
/-! DEFINITION. Serving an outlet, and the storage engine accepting at outlet 121 what root ports return (spec 11, R296-R298; spec 15,
R414, R417; spec 03, R65). -/

namespace Sys2Proof.Machine

/-- The block a packet from a root port carries: the storage header of an encrypted volume's block is not part of it (R414). -/
def storageBlock (p : Packet) : Bytes := if p.cipher.status = 0 then p.bytes else p.bytes.drop 16

/-- The engine accepts a packet at outlet 121: its setts are freed, it is delivered (Table 3.2, kind 7), and its block goes to the
request it answers, which ends with its last block. A request abandoned meanwhile takes nothing (R410). -/
def acceptBlock (p : Packet) (s : State) : State :=
  let s := countLate p 0 (refreshPressure (releaseSetts p.id (unhand 121 p s)))
  match p.staging with
  | none => s
  | some (req, block) =>
    match tblGet s.sto.reqs req with
    | none => s
    | some b =>
      let b := { b with staged := b.staged.filter (fun k => k.1 != block) ++ [(block, storageBlock p)] }
      let s := { s with sto := { s.sto with reqs := tblPut s.sto.reqs req b } }
      if b.n ≤ b.staged.length then endRequest req 0 (fun b _ => b.staged) s else s

/-- The engine accepts every packet handed to outlet 121. -/
def acceptBlocks (s : State) : State := (tblGetD [] s.swc.handed 121).foldl (fun t p => acceptBlock p t) s

/-- OUTLET_UNIT_SERVE: one unit at an outlet (R296-R298); what reaches outlet 121 the storage engine accepts at once. -/
def execOutletUnitServe (outlet : Nat) (s : State) : Host.Outcome State Fault Refusal :=
  .next (acceptBlocks (refreshPressure (serveUnit outlet s)))

end Sys2Proof.Machine
end

