-- ==== Sys2Proof/Machine/NvmeAdmin.lean ====
section
/-! DEFINITION. Admin commands of a presented controller and its power states (spec 15, R399-R402, R408, R409, R411-R413;
layouts and status codes of NVMe 2.0, notes/assumptions/31). -/

namespace Sys2Proof.Machine

/-- A started command of the admin queue with an opcode, and its controller. -/
def State.adminStarted (s : State) (i op : Nat) : Option (NvmeCmd × Ctrl) :=
  match s.cmd? i with
  | none => none
  | some m =>
    if m.phase = .started ∧ m.sq = 0 ∧ nvOp m.sqe = op then (s.ctrl? m.ctrl).map (fun c => (m, c)) else none

/-- Run an admin command that completes at once: the effect answers the state, the status and Dword 0. SGLs and fused
operations are refused (R399). -/
def runAdmin (i op : Nat) (f : NvmeCmd → Ctrl → State → State × Nat × Nat) (s : State) : State :=
  match s.adminStarted i op with
  | none => s
  | some (m, c) =>
    if badFields m.sqe then finishCmd i 0x02 0 s
    else
      let (s, st, dw0) := f m c s
      finishCmd i st dw0 s

/-! ## Queues (R400-R402) -/

/-- QID of a queue command. -/
def qidOf (e : Entry) : Nat := eN e 40 2

/-- QSIZE and PC are ones the device takes: 2^n - 1 with n from 4 to 16, physically contiguous; the answer is n. -/
def queueSize (e : Entry) : Option Nat :=
  if eBits e 44 0 1 = 0 then none else ((List.range 13).map (· + 4)).find? (fun n => eN e 42 2 == 2 ^ n - 1)

/-- NVME_CREATE_IO_CQ (R400, R402). pick: the global number offered for its ring. -/
def execNvmeCreateIoCq (cmd pick : Nat) (s : State) : Host.Outcome State Fault Refusal :=
  .next (runAdmin cmd 5 (fun m c s =>
    let q := qidOf m.sqe
    let vec := eN m.sqe 46 2
    if q = 0 ∨ c.nq < q ∨ (tblGet c.cqs q).isSome then (s, 0x101, 0)
    else match queueSize m.sqe with
    | none => (s, 0x102, 0)
    | some n =>
      if (s.sheetFunc c.sheet).msixN < vec then (s, 0x108, 0)
      else if eN m.sqe 24 8 % 4096 ≠ 0 then (s, 0x13, 0)
      else if s.limit c.sheet 0 < s.usage c.sheet 0 + 1 then (s, 0x101, 0)
      else
        let g := s.freeGlobal pick
        let s := s.setRing g (storageQueue c.sheet (c.localBase + 2 * q + 1) 9 n vec (eN m.sqe 24 8) .running)
        (s.setCtrl m.ctrl { c with cqs := tblPut c.cqs q ⟨g, vec, eBits m.sqe 44 1 1 == 1, 0⟩ }, 0, 0)) s)

/-- I/O submission queues of the controllers of a port. -/
def State.portSqs (s : State) (p : Nat) : Nat :=
  tblSum (fun _ (c : Ctrl) => if s.sheetPort c.sheet = some p then tblCount (fun q _ => q != 0) c.sqs else 0) s.ctrls

/-- NVME_CREATE_IO_SQ (R400): from the port's pool, bound to a completion queue. -/
def execNvmeCreateIoSq (cmd pick : Nat) (s : State) : Host.Outcome State Fault Refusal :=
  .next (runAdmin cmd 1 (fun m c s =>
    let q := qidOf m.sqe
    let cq := eN m.sqe 46 2
    if q = 0 ∨ c.nq < q ∨ (tblGet c.sqs q).isSome ∨ cq = 0 then (s, 0x101, 0)
    else match tblGet c.cqs cq with
    | none => (s, 0x100, 0)
    | some k =>
      match queueSize m.sqe with
      | none => (s, 0x102, 0)
      | some n =>
        if eN m.sqe 24 8 % 4096 ≠ 0 then (s, 0x13, 0)
        else if 65536 / s.endpoints.length ≤ s.portSqs (s.sheetPortD c.sheet) ∨ s.limit c.sheet 0 < s.usage c.sheet 0 + 1 then (s, 0x101, 0)
        else
          let g := s.freeGlobal pick
          let s := s.setRing g (storageQueue c.sheet (c.localBase + 2 * q) 8 n k.vec (eN m.sqe 24 8) .running)
          (s.setCtrl m.ctrl { c with sqs := tblPut c.sqs q ⟨g, cq, eBits m.sqe 44 1 2⟩ }, 0, 0)) s)

/-- Remove a ring that a controller's queue used; its RINGS unit returns. -/
def freeQueue (n g : Nat) (s : State) : State := resolveShrinks n { s with rings := tblDel s.rings g }

/-- NVME_DELETE_IO_CQ: a completion queue that no submission queue uses (NVMe 2.0). -/
def execNvmeDeleteIoCq (cmd : Nat) (s : State) : Host.Outcome State Fault Refusal :=
  .next (runAdmin cmd 4 (fun m c s =>
    let q := qidOf m.sqe
    match tblGet c.cqs q with
    | none => (s, 0x101, 0)
    | some k =>
      if q = 0 then (s, 0x101, 0)
      else if c.sqs.any (fun x => x.2.cq == q) then (s, 0x10C, 0)
      else (freeQueue c.sheet k.ring (s.setCtrl m.ctrl { c with cqs := tblDel c.cqs q }), 0, 0)) s)

/-- Commands of a submission queue. -/
def State.sqCmds (s : State) (n q : Nat) : List Nat := tblKeys (fun _ (m : NvmeCmd) => m.ctrl == n && m.sq == q) s.sto.cmds

/-- A command has had no effect yet, or its CQ entry is held: an Abort catches it (R413). -/
def NvmeCmd.caught (m : NvmeCmd) : Bool :=
  !m.touched || (match m.phase with
    | .held _ _ => true
    | .fetched => false
    | .started => false
    | .stalled => false
    | .running => false)

/-- A submission queue that is being deleted takes no more entries. -/
def closeSq (k : SubQueue) (s : State) : State :=
  match s.ring? k.ring with
  | some r => s.setRing k.ring { r with state := .closed }
  | none => s

/-- Commands of a submission queue that had no effect yet complete with Command Aborted due to SQ Deletion. -/
def catchSq (n q : Nat) (s : State) : State :=
  (s.sqCmds n q).foldl (fun t i => match t.cmd? i with
    | some x => if x.caught then finishNow i x 0x08 0 t else t
    | none => t) s

/-- NVME_DELETE_IO_SQ: the queue takes no more entries, and its commands that had no effect yet complete with Command
Aborted due to SQ Deletion; while others run the command waits, and completes when it is run again after them (NVMe 2.0). -/
def execNvmeDeleteIoSq (cmd : Nat) (s : State) : Host.Outcome State Fault Refusal :=
  match s.adminStarted cmd 0 with
  | none => .next s
  | some (m, c) =>
    let q := qidOf m.sqe
    if badFields m.sqe then .next (finishCmd cmd 0x02 0 s)
    else match tblGet c.sqs q with
    | none => .next (finishCmd cmd 0x101 0 s)
    | some k =>
      if q = 0 then .next (finishCmd cmd 0x101 0 s)
      else
        let s := catchSq m.ctrl q (closeSq k s)
        if s.sqCmds m.ctrl q ≠ [] then .next s
        else match s.ctrl? m.ctrl with
        | none => .next s
        | some c => .next (finishCmd cmd 0 0 (freeQueue c.sheet k.ring (s.setCtrl m.ctrl { c with sqs := tblDel c.sqs q })))

/-! ## Identify (R399, Table 15.2, Table 15.6) -/

/-- A page of 4,096 zero bytes with fields written into it: byte offset and bytes. -/
def pageOf (fields : List (Nat × Bytes)) : Bytes :=
  fields.foldl (fun p f => overwrite p f.1 f.2) (List.replicate 4096 0)

/-- A power state descriptor: maximum power, which is free, the kind, and the latencies in µs (Table 15.6). -/
def powerDescriptor (mp : Nat) (nonOp : Bool) (enlat exlat : Nat) : Bytes :=
  leBytes 2 mp ++ [0, if nonOp then 2 else 0] ++ leBytes 4 enlat ++ leBytes 4 exlat

/-- Identify Controller. Serial, model, firmware revision, arbitration burst and OUI are free values. -/
def identifyCtrl (n : Nat) (s : State) : Bytes × State :=
  let (id, s) := drawBytes 9 s
  let (more, s) := drawBytes 2 s
  let mp := fun (k : Nat) => ofLe ((more.drop (4 + 2 * k)).take 2)
  (pageOf [(0, leBytes 2 Config.vendorId.toNat), (4, id.take 68), (72, more.take 4), (77, [8]), (78, leBytes 2 n), (80, leBytes 4 0x20000),
    (111, [1]), (258, [3]), (259, [3]), (263, [2]), (512, [0x66]), (513, [0x44]), (516, leBytes 4 256), (520, leBytes 2 0x0C), (525, [1]),
    (2048, powerDescriptor (mp 0) false 0 0), (2080, powerDescriptor (mp 1) false 10 10), (2112, powerDescriptor (mp 2) true 5000 50)], s)

/-- Identify Namespace of an attachment: one LBA format with the volume's block size, no metadata. -/
def identifyNs (x : Volume) (a : Attach) : Bytes :=
  pageOf [(0, leBytes 8 x.blocks), (8, leBytes 8 x.blocks), (16, leBytes 8 x.blocks), (99, [if a.readOnly then 1 else 0]),
    (130, [if x.lba = 0 then 9 else 12])]

/-- Active NSIDs above one, rising. -/
def nsList (c : Ctrl) (above : Nat) : Bytes := pageOf [(0, ((tblKeys (fun k _ => decide (above < k)) c.attach).map (fun k => leBytes 4 k)).flatten)]

/-- Place data of an admin command; PRP entries that are not aligned refuse it. -/
def placeAdmin (m : NvmeCmd) (c : Ctrl) (pages : List Nat) (data : Bytes) (s : State) : State × Nat × Nat :=
  match prpPieces m.sqe pages data.length with
  | none => (s, 0x13, 0)
  | some l => (placePieces c.sheet l data s, 0, 0)

/-- NVME_IDENTIFY: CNS 0 to 3. The namespace identifier of CNS 3 is a UUID that is a free value. -/
def execNvmeIdentify (cmd : Nat) (s : State) : Host.Outcome State Fault Refusal :=
  .next (runAdmin cmd 6 (fun m c s =>
    let nsid := nvNsid m.sqe
    let att := (tblGet c.attach nsid).bind (fun a => (s.vol? a.vol).map (fun x => (a, x)))
    match eN m.sqe 40 1 with
    | 0 =>
      if nsid = 0 ∨ 256 < nsid then (s, 0x0B, 0)
      else placeAdmin m c [] (match att with | some (a, x) => identifyNs x a | none => pageOf []) s
    | 1 => let (page, s) := identifyCtrl m.ctrl s; placeAdmin m c [] page s
    | 2 => if 0xFFFFFFFE ≤ nsid then (s, 0x0B, 0) else placeAdmin m c [] (nsList c nsid) s
    | 3 =>
      (match att with
      | none => (s, 0x0B, 0)
      | some _ => let (uuid, s) := drawBytes 2 s; placeAdmin m c [] (pageOf [(0, [3, 16, 0, 0] ++ uuid)]) s)
    | _ => (s, 0x02, 0)) s)

/-! ## Log pages (R408, R409) -/

/-- An entry of the deferred-error log page (Table 15.5). -/
def lostBytes (e : LostEntry) : Bytes :=
  leBytes 4 e.nsid ++ leBytes 8 e.slba ++ leBytes 4 e.nblk ++ leBytes 1 e.cause ++ List.replicate 7 0 ++ leBytes 8 e.time.toNat

/-- The deferred-error log page (Table 15.5). -/
def lostPage (c : Ctrl) : Bytes :=
  leBytes 4 c.log.length ++ [if c.overflow then 1 else 0] ++ List.replicate 11 0 ++ (c.log.map lostBytes).flatten

/-- NVME_GET_LOG_PAGE: page 0xC0; the entries returned whole are removed, and OVERFLOW clears, unless bit 0 of LSP is 1. Pages
0x01 to 0x03 have no contents in the spec and are free values. -/
def execNvmeGetLogPage (cmd : Nat) (pages : List Nat) (s : State) : Host.Outcome State Fault Refusal :=
  .next (runAdmin cmd 2 (fun m c s =>
    let len := 4 * (eN m.sqe 42 2 + 1)
    let lid := eN m.sqe 40 1
    if lid = 0xC0 then
      match placeAdmin m c pages (fitTo len (lostPage c)) s with
      | (s, 0, d) =>
        if eBits m.sqe 41 0 1 = 1 then (s, 0, d)
        else (s.setCtrl m.ctrl { c with log := c.log.drop ((len - 16) / 32), overflow := false }, 0, d)
      | r => r
    else if lid = 1 ∨ lid = 2 ∨ lid = 3 then
      let (bs, s) := drawBytes ((len + 7) / 8) s
      placeAdmin m c pages (bs.take len) s
    else (s, 0x109, 0)) s)

/-! ## Abort (R413) -/

/-- The command an Abort names: of the SQ and CID, fetched and not completed. -/
def State.abortTarget (s : State) (i n q cid : Nat) : Option (Nat × NvmeCmd) :=
  s.sto.cmds.find? (fun m => m.1 != i && m.2.ctrl == n && m.2.sq == q && nvCid m.2.sqe == cid)

/-- Started Aborts that are not newer than one. -/
def State.abortsOut (s : State) (n order : Nat) : Nat :=
  tblCount (fun _ (m : NvmeCmd) => m.ctrl == n && m.sq == 0 && nvOp m.sqe == 8 && m.begun && decide (m.order < order)) s.sto.cmds

/-- NVME_ABORT. A caught Set Features ends the power state entry it began, and the entries held for it are posted. -/
def execNvmeAbort (cmd : Nat) (s : State) : Host.Outcome State Fault Refusal :=
  .next (runAdmin cmd 8 (fun m c s =>
    if 4 ≤ s.abortsOut m.ctrl m.order then (s, 0x103, 0)
    else match s.abortTarget cmd m.ctrl (eN m.sqe 40 2) (eN m.sqe 42 2) with
    | none => (s, 0, 1)
    | some (i, x) =>
      if x.caught = false then (s, 0, 1)
      else
        let was : Bool := match c.entering with
          | some (_, k) => k == i
          | none => false
        let s := finishNow i x 0x07 0 s
        let s := if was then postHeld m.ctrl s else s
        (s.count STO_ABORT_CAUGHT 1, 0, 0)) s)

/-! ## Features (R399, R402, R407, R411) -/

/-- The controller after a feature was set. -/
def Ctrl.setFeature (c : Ctrl) (fid v : Nat) : Ctrl := { c with feats := tblPut c.feats fid v }

/-- NVME_SET_FEATURES. Power Management starts an entry, at whose end the command completes; while one is under way, or the
controller leaves a non-operational state, it waits. -/
def execNvmeSetFeatures (cmd : Nat) (s : State) : Host.Outcome State Fault Refusal :=
  match s.adminStarted cmd 9 with
  | none => .next s
  | some (m, c) =>
    let fid := eN m.sqe 40 1
    let v := eN m.sqe 44 4
    if badFields m.sqe then .next (finishCmd cmd 0x02 0 s)
    else if eBits m.sqe 43 7 1 = 1 then .next (finishCmd cmd 0x10D 0 s)
    else if fid = 2 then
      if 2 < v % 32 then .next (finishCmd cmd 0x02 0 s)
      else if c.entering.isSome ∨ c.leaving then .next s
      else .next ((s.setCmd cmd { m with phase := .running }).setCtrl m.ctrl { c with entering := some (v % 32, cmd) })
    else if fid = 7 then
      if c.sqs.any (fun q => q.1 != 0) ∨ c.cqs.any (fun q => q.1 != 0) then .next (finishCmd cmd 0x0C 0 s)
      else if v % 65536 = 65535 ∨ v / 65536 = 65535 then .next (finishCmd cmd 0x02 0 s)
      else .next (finishCmd cmd 0 ((c.nq - 1) * 65537) s)
    else if fid = 1 ∨ fid = 6 ∨ fid = 8 ∨ fid = 0x0B then .next (finishCmd cmd 0 0 (s.setCtrl m.ctrl (c.setFeature fid v)))
    else .next (finishCmd cmd 0x02 0 s)

/-- NVME_GET_FEATURES. -/
def execNvmeGetFeatures (cmd : Nat) (s : State) : Host.Outcome State Fault Refusal :=
  .next (runAdmin cmd 0x0A (fun m c s =>
    let fid := eN m.sqe 40 1
    if fid = 2 then (s, 0, c.ps)
    else if fid = 7 then (s, 0, (c.nq - 1) * 65537)
    else if fid = 1 ∨ fid = 6 ∨ fid = 8 ∨ fid = 0x0B then (s, 0, c.feature fid)
    else (s, 0x02, 0)) s)

/-! ## Asynchronous events and opcodes not implemented -/

/-- NVME_ASYNC_EVENT_REQUEST: held until an event completes it, at most four (AERL 3). -/
def execNvmeAsyncEventRequest (cmd : Nat) (s : State) : Host.Outcome State Fault Refusal :=
  match s.adminStarted cmd 0x0C with
  | none => .next s
  | some (m, c) =>
    if 4 ≤ c.aers.length then .next (finishCmd cmd 0x105 0 s)
    else .next ((s.setCmd cmd { m with phase := .running }).setCtrl m.ctrl { c with aers := c.aers ++ [cmd] })

/-- Opcodes Table 15.2 lists for a queue. -/
def opImplemented (q op : Nat) : Bool :=
  if q = 0 then [0, 1, 2, 4, 5, 6, 8, 9, 0x0A, 0x0C].contains op else [0, 1, 2, 8, 9].contains op

/-- NVME_UNSUPPORTED_OPCODE: Invalid Command Opcode (R399). -/
def execNvmeUnsupportedOpcode (cmd : Nat) (s : State) : Host.Outcome State Fault Refusal :=
  match s.cmd? cmd with
  | none => .next s
  | some m => if m.phase = .started ∧ opImplemented m.sq (nvOp m.sqe) = false then .next (finishCmd cmd 0x01 0 s) else .next s

/-! ## Power states (R411, R412) -/

/-- Commands started before a Set Features that have not completed, but for Asynchronous Event Requests held. -/
def State.startedBefore (s : State) (n : Nat) (c : Ctrl) (order : Nat) : Bool :=
  s.sto.cmds.any (fun m => m.2.ctrl == n && m.2.begun && decide (m.2.order < order) && !c.aers.contains m.1)

/-- An entry is posted on an I/O submission queue that the engine has not fetched. -/
def State.ioPosted (s : State) (c : Ctrl) : Bool :=
  c.sqs.any (fun q => q.1 != 0 && (match s.ring? q.2.ring with
    | some r => r.fetch != r.pi
    | none => false))

/-- POWER_STATE_ENTRY_END: the commands started before have completed; the Set Features completes. The entries held are
posted, or, when the state is non-operational and commands came meanwhile, the controller leaves it at once (R412). -/
def execPowerStateEntryEnd (ctrl : Nat) (s : State) : Host.Outcome State Fault Refusal :=
  match s.ctrl? ctrl with
  | none => .next s
  | some c =>
    match c.entering with
    | none => .next s
    | some (ps, k) =>
      match s.cmd? k with
      | none => .next s
      | some m =>
        if s.startedBefore ctrl c m.order then .next s
        else
          let came := (s.ctrlCmds ctrl).any (fun i => decide (k < i)) || s.ioPosted c
          let leave := decide (ps = 2) && came
          let s := finishNow k m 0 0 (s.setCtrl ctrl { c with
            ps := ps
            lastOp := if ps = 2 then c.lastOp else ps
            entering := none
            leaving := leave })
          .next (if leave then s else postHeld ctrl s)

/-- POWER_STATE_EXIT_END: the controller is back in its last operational state, fetches from its I/O queues again and posts
the entries it held (R411, R412). -/
def execPowerStateExitEnd (ctrl : Nat) (s : State) : Host.Outcome State Fault Refusal :=
  match s.ctrl? ctrl with
  | none => .next s
  | some c =>
    if c.leaving then .next (postHeld ctrl (s.setCtrl ctrl { c with ps := c.lastOp, leaving := false })) else .next s

/-- INTERRUPT_COALESCING_EXPIRY: the aggregation time of a completion queue runs out, and its message is sent (R402). -/
def execInterruptCoalescingExpiry (ctrl queue : Nat) (s : State) : Host.Outcome State Fault Refusal :=
  match s.ctrl? ctrl with
  | none => .next s
  | some c =>
    match tblGet c.cqs queue with
    | none => .next s
    | some k =>
      if k.unannounced = 0 then .next s
      else .next ((s.setCtrl ctrl { c with cqs := tblPut c.cqs queue { k with unannounced := 0 } }).sendVector
        (s.sheetPortD c.sheet) (s.sheetPf c.sheet) k.vec)

end Sys2Proof.Machine
end

