-- ==== Sys2Proof/Machine/Penlith.lean ====
section
/-! DEFINITION. Penlith instructions, thread control, galleries, migration, wait deadlock and cairns (spec 16, R424-R446;
spec 18, R479; exceptions as in the RISC-V privileged architecture, notes/assumptions/24). Ordinary RISC-V instructions are
no commands: the value of rs1 is an operand, and the PC moves by the Penlith instructions and exceptions alone. -/

namespace Sys2Proof.Machine

/-! ## Registers and exceptions (R424, R433) -/

/-- CSRs: mstatus starts with SXL and UXL 64-bit, the others at 0 (the family's reset values). -/
def Thread.csrOf (x : Thread) (n : Nat) : BitVec 64 := tblGetD (if n = 0x300 then 0xA00000000 else 0) x.csr n

/-- Set a CSR. -/
def Thread.setCsr (x : Thread) (n : Nat) (v : BitVec 64) : Thread := { x with csr := tblPut x.csr n v }

/-- Write an integer register; x0 stays 0. -/
def Thread.setX (x : Thread) (rd : Nat) (v : BitVec 64) : Thread := if rd % 32 = 0 then x else { x with x := tblPut x.x (rd % 32) v }

/-- PC of a thread, in its register. -/
def threadPc (t : Nat) : Fld := PNL_THR_PC_PC (t / 32) (t % 32)

/-- Take a trap into M mode: mepc, mcause, mtval, mstatus (MPIE, MIE, MPP), and the PC at the base of mtvec. -/
def trapM (t cause tval : Nat) (s : State) : State :=
  let x := s.thread t
  let st := x.csrOf 0x300
  let mie := getField st 3 1
  let st := putField (putField (putField st 7 1 mie) 3 1 0) 11 2 x.priv
  let x := ((x.setCsr 0x341 (BitVec.ofNat 64 (s.rd (threadPc t)))).setCsr 0x342 (BitVec.ofNat 64 cause)).setCsr 0x343 (BitVec.ofNat 64 tval)
  let pc := (x.csrOf 0x305).toNat / 4 * 4
  (s.setThread t { x.setCsr 0x300 st with priv := 3, armed := none }).wr (threadPc t) pc

/-- Take a trap into S mode: sepc, scause, stval, sstatus (SPIE, SIE, SPP, fields of mstatus), and the PC at the base of
stvec. -/
def trapS (t cause tval : Nat) (s : State) : State :=
  let x := s.thread t
  let st := x.csrOf 0x300
  let sie := getField st 1 1
  let st := putField (putField (putField st 5 1 sie) 1 1 0) 8 1 x.priv
  let x := ((x.setCsr 0x141 (BitVec.ofNat 64 (s.rd (threadPc t)))).setCsr 0x142 (BitVec.ofNat 64 cause)).setCsr 0x143 (BitVec.ofNat 64 tval)
  let pc := (x.csrOf 0x105).toNat / 4 * 4
  (s.setThread t { x.setCsr 0x300 st with priv := 1, armed := none }).wr (threadPc t) pc

/-- Take a synchronous exception: into S mode when it was raised below M mode and medeleg delegates it. -/
def trap (t cause tval : Nat) (s : State) : State :=
  let x := s.thread t
  if x.priv < 3 ∧ (x.csrOf 0x302).getLsbD cause then trapS t cause tval s else trapM t cause tval s

/-! ## Penlith instructions (R424, R429-R435) -/

/-- Wait group of a thread; 15 none. -/
def State.waitGroup (s : State) (t : Nat) : Nat := s.rd (PNL_THR_CFG_WGRP (t / 32) (t % 32))

/-- A thread of a group has issued: the group may be declared again (R433). -/
def undeclare (t : Nat) (s : State) : State :=
  { s with pnl := { s.pnl with declared := s.pnl.declared.filter (· != t / 32 * 16 + s.waitGroup t) } }

/-- A thread runs and may issue. -/
def State.runs (s : State) (t : Nat) : Bool := decide (t < 256) && s.threadState t == 1

/-- An instruction of a thread completes: rd takes its result, and the PC moves past it. -/
def finishPn (t rd : Nat) (v : BitVec 64) (s : State) : State :=
  let s := s.setThread t ((s.thread t).setX rd v)
  (undeclare t (s.wr (threadPc t) (s.rd (threadPc t) + 4))).emit (.threadResult t v)

/-- Run an instruction of a thread that yields a value for rd. -/
def runPn (t rd : Nat) (f : State → BitVec 64 × State) (s : State) : State :=
  if s.runs t then
    let (v, s) := f s
    finishPn t rd v s
  else s

/-- PN_WFE: returns armed latch bits at once, or the thread waits (R430). value: rs1. -/
def execPnWfe (thread rd : Nat) (value : BitVec 64) (s : State) : Host.Outcome State Fault Refusal :=
  if s.runs thread then
    let hit := (BitVec.ofNat 7 (s.latch thread) &&& value.setWidth 7).toNat
    if hit ≠ 0 then .next (finishPn thread rd (BitVec.ofNat 64 hit) (clearLatch thread hit s))
    else
      let s := s.setThread thread { s.thread thread with armed := some (value.toNat % 128, rd % 32) }
      .next (undeclare thread (s.setThreadState thread 2))
  else .next s

/-- WFE_WAKE: a bit that a waiting thread armed is set: its PN.WFE returns (R430). -/
def execWfeWake (thread : Nat) (s : State) : Host.Outcome State Fault Refusal :=
  match (s.thread thread).armed with
  | none => .next s
  | some (mask, rd) =>
    let hit := (BitVec.ofNat 7 (s.latch thread) &&& BitVec.ofNat 7 mask).toNat
    if s.threadState thread = 2 ∧ hit ≠ 0 then
      let s := (s.setThread thread { s.thread thread with armed := none }).setThreadState thread 1
      .next (finishPn thread rd (BitVec.ofNat 64 hit) (clearLatch thread hit s))
    else .next s

/-- PN_EVSEND: GROUP of a thread of the same wait group, else FOREIGN (Table 16.4). value: rs1. -/
def execPnEvsend (thread : Nat) (value : BitVec 64) (s : State) : Host.Outcome State Fault Refusal :=
  .next (runPn thread 0 (fun s =>
    let u := value.toNat % 256
    let same := decide (u / 32 = thread / 32) && s.waitGroup u == s.waitGroup thread && s.waitGroup u != 15
    (0, setLatch u (if same then 4 else 5) s)) s)

/-- PN_GRSV: reserves the lowest FREE slot of a gallery (R435); 0 when there is none, the gallery is not enabled, or its
outlet is the producer. value: rs1. -/
def execPnGrsv (thread rd : Nat) (value : BitVec 64) (s : State) : Host.Outcome State Fault Refusal :=
  .next (runPn thread rd (fun s =>
    let k := value.toNat / 64 % 8
    let g := value.toNat % 64
    if s.bit (PNL_GAL_EN k g) ∧ s.rd (PNL_GAL_KIND k g) ≠ 2 then
      match s.freeSlotOf k g with
      | none => (0, s)
      | some i =>
        let key := slotKey k g i
        (BitVec.ofNat 64 (s.slotAddr k g i), { s with pnl := { s.pnl with
          slots := tblPut s.pnl.slots key (.reserved thread)
          lost := s.pnl.lost.filter (· != (key, thread)) } })
    else (0, s)) s)

/-- The slot of an enabled gallery that begins at an internal address: cluster, gallery, slot. -/
def State.slotAt (s : State) (addr : Nat) : Option (Nat × Nat × Nat) :=
  let k := (addr - 0xF000000) / 0x100000
  if addr < 0xF000000 ∨ 8 ≤ k then none
  else match (List.range 64).find? (fun g => s.bit (PNL_GAL_EN k g) && decide (s.slotAddr k g 0 ≤ addr)
      && decide (addr < s.slotAddr k g (s.galSlots k g)) && (addr - s.slotAddr k g 0) % s.slotSize k g == 0) with
  | some g => some (k, g, (addr - s.slotAddr k g 0) / s.slotSize k g)
  | none => none

/-- A slot is reserved by a thread. -/
def SlotUse.isOf (u : Option SlotUse) (t : Nat) : Bool := u == some (.reserved t)

/-- PN_GSEAL: 0 sealed, 1 abandoned, 2 not reserved by the thread (R435, R442). value: rs1. -/
def execPnGseal (thread rd : Nat) (value : BitVec 64) (s : State) : Host.Outcome State Fault Refusal :=
  .next (runPn thread rd (fun s =>
    match s.slotAt value.toNat with
    | none => (2, s)
    | some (k, g, i) =>
      let key := slotKey k g i
      if SlotUse.isOf (tblGet s.pnl.slots key) thread then (0, sealSlot k g i s)
      else if s.pnl.lost.contains (key, thread) then
        (1, { s with pnl := { s.pnl with lost := s.pnl.lost.filter (· != (key, thread)) } })
      else (2, s)) s)

/-- PN_GTAKE: takes the slot sealed earliest of a gallery of the thread's cluster that threads consume; 0 when there is none
(R435). value: rs1. -/
def execPnGtake (thread rd : Nat) (value : BitVec 64) (s : State) : Host.Outcome State Fault Refusal :=
  .next (runPn thread rd (fun s =>
    let k := value.toNat / 64 % 8
    let g := value.toNat % 64
    if k = thread / 32 ∧ s.bit (PNL_GAL_EN k g) ∧ s.rd (PNL_GAL_KIND k g) ≠ 1 then
      match s.oldestSealed k g with
      | none => (0, s)
      | some i =>
        (BitVec.ofNat 64 (s.slotAddr k g i), { s with pnl := { s.pnl with slots := tblPut s.pnl.slots (slotKey k g i) (.taken k) } })
    else (0, s)) s)

/-- A slot is TAKEN. -/
def SlotUse.isTaken : SlotUse → Bool
  | .taken _ => true
  | .reserved _ => false
  | .sealed _ => false

/-- PN_GFREE: a TAKEN slot becomes FREE; no effect on another (R424). A KIND 1 slot is the inlet's to free. value: rs1. -/
def execPnGfree (thread : Nat) (value : BitVec 64) (s : State) : Host.Outcome State Fault Refusal :=
  .next (runPn thread 0 (fun s =>
    match s.slotAt value.toNat with
    | none => (0, s)
    | some (k, g, i) =>
      match tblGet s.pnl.slots (slotKey k g i) with
      | none => (0, s)
      | some u => if u.isTaken ∧ s.rd (PNL_GAL_KIND k g) ≠ 1 then (0, freeSlotKey (slotKey k g i) s) else (0, s)) s)

/-- PN_DTIME: Datum short (R424). -/
def execPnDtime (thread rd : Nat) (s : State) : Host.Outcome State Fault Refusal :=
  .next (runPn thread rd (fun s => (s.dshort, s)) s)

/-- A word that raises an illegal-instruction exception: custom-0 with another funct7, or funct3 7; or custom-1 (R424). -/
def illegalWord (w : BitVec 32) : Bool :=
  (w.toNat % 128 == 0x0B && (w.toNat / 2 ^ 25 != 0 || w.toNat / 2 ^ 12 % 8 == 7)) || w.toNat % 128 == 0x2B

/-- PENLITH_ILLEGAL_INSTRUCTION: exception 2. mtval is the word or 0, which RISC-V leaves open. -/
def execPenlithIllegalInstruction (thread : Nat) (word : BitVec 32) (s : State) : Host.Outcome State Fault Refusal :=
  if s.runs thread ∧ illegalWord word then
    let tval := if s.draw.getLsbD 0 then word.toNat else 0
    .next (undeclare thread (trap thread 2 tval s.drawn))
  else .next s

/-! ## Timers and wait deadlock (R429, R431-R433) -/

/-- THREAD_TIMER_EXPIRY: Datum reached DUE of an armed timer (R38, R429). -/
def execThreadTimerExpiry (thread : Nat) (s : State) : Host.Outcome State Fault Refusal :=
  let k := thread / 32
  let t := thread % 32
  if thread < 256 ∧ s.bit (PNL_THR_STAT_TIMER_ARMED k t) ∧ s.reached (s.reg (PNL_THR_TIMER k t)) then
    .next (setLatch thread 3 (s.wr (PNL_THR_STAT_TIMER_ARMED k t) 0))
  else .next s

/-- Bits a thread has armed with PN.WFE; 0 when it does not wait. -/
def State.armedBits (s : State) (t : Nat) : Nat :=
  if s.threadState t = 2 then (match (s.thread t).armed with
    | some (m, _) => m
    | none => 0)
  else 0

/-- Every gallery that a thread watches has the thread's wait group as its producing group. -/
def State.watchesOwn (s : State) (t : Nat) : Bool :=
  (List.range 64).all (fun g => !(s.rd (PNL_THR_WATCH_WATCH (t / 32) (t % 32))).testBit g || s.rd (PNL_GAL_WGRP (t / 32) g) == s.waitGroup t)

/-- The armed bits of a waiting thread hold no external source and no set latch bit (R432). -/
def State.stuck (s : State) (t : Nat) : Bool :=
  let m := s.armedBits t
  let bad := fun (b : Nat) => m.testBit b && (b == 0 || b == 3 || b == 5 || b == 6 || ((b == 1 || b == 2) && !s.watchesOwn t) || (s.latch t).testBit b)
  s.threadState t == 2 && !(List.range 7).any bad

/-- Local threads of a wait group of a cluster. -/
def State.groupThreads (s : State) (k g : Nat) : List Nat := (List.range 32).filter (fun t => s.waitGroup (32 * k + t) == g)

/-- The wait map of a cluster in the snapshot registers. -/
def snapshot (k g : Nat) (s : State) : State :=
  if s.bit (PNL_DLK_GRP_VALID k) then s
  else
    let members := s.groupThreads k g
    let s := (List.range 32).foldl (fun u t => (u.wr (PNL_DLK_MASK_ARMED k t) (u.armedBits (32 * k + t))).wr
      (PNL_DLK_MASK_MEMBER k t) (if members.contains t then 1 else 0)) s
    ((s.wr (PNL_DLK_GRP_GROUP k) g).wr (PNL_DLK_GRP_VALID k) 1).setReg (PNL_DLK_TIME k) s.dshort

/-- WAIT_DEADLOCK: the conditions of R432 held for 64 cycles in a group: the wait map is kept, DEADLOCK is raised, and the
lowest thread of the group wakes with exception 24 (R433). -/
def execWaitDeadlock (cluster group : Nat) (s : State) : Host.Outcome State Fault Refusal :=
  match s.groupThreads cluster group with
  | [] => .next s
  | t :: rest =>
    if cluster < 8 ∧ group < 15 ∧ (t :: rest).all (fun u => s.stuck (32 * cluster + u)) ∧ s.pnl.declared.contains (cluster * 16 + group) = false then
      let s := raisePnl cluster (PNL_EVENT_DEADLOCK cluster) (snapshot cluster group s)
      let s := { s with pnl := { s.pnl with declared := (cluster * 16 + group) :: s.pnl.declared } }
      .next (trapM (32 * cluster + t) 24 group (s.setThreadState (32 * cluster + t) 1))
    else .next s

/-- DEADLOCK_SNAPSHOT_CLEAR: a write of 1 to PNL_DLK_GRP.VALID (R433). -/
def execDeadlockSnapshotClear (cluster : Nat) (s : State) : Host.Outcome State Fault Refusal :=
  if cluster < 8 then .next (s.wr (PNL_DLK_GRP_VALID cluster) 0) else .next s

/-! ## Galleries and packets (R436, R437, R447) -/

/-- Bytes of cluster memory. -/
def State.cluRead (s : State) (a n : Nat) : Bytes := (List.range n).map (fun i => memGet s.pnl.mem (a + i))

/-- Write cluster memory. -/
def cluWrite (a : Nat) (bs : Bytes) (s : State) : State := { s with pnl := { s.pnl with mem := memWrite s.pnl.mem a bs } }

/-- Setts of an inlet's packets that the store has not committed (R291). -/
def State.creditUsed (s : State) (inlet : Nat) : Nat :=
  (((s.pipe.flying ++ s.pipe.waiting).filter (fun f => f.inlet == inlet)).map (fun f => setts f.bytes.length)).sum

/-- GALLERY_SEND: the inlet of a cluster consumes the oldest sealed slot of a send gallery as one packet in its CLASS, while it
holds credit and the inlet is back-pressured neither whole nor in the class; a slot with a bad LEN is freed unsent and counted (R25,
R291, R293, R436). -/
def execGallerySend (cluster gallery : Nat) (s : State) : Host.Outcome State Fault Refusal :=
  if 8 ≤ cluster ∨ 64 ≤ gallery ∨ s.galIs cluster gallery 1 = false then .next s
  else match s.oldestSealed cluster gallery with
  | none => .next s
  | some i =>
    let key := slotKey cluster gallery i
    let a := s.slotAddr cluster gallery i
    let len := ofLe (s.cluRead a 2)
    let cls := ofLe (s.cluRead (a + 2) 1) % 8
    if len < 14 ∨ 9216 < len ∨ s.slotSize cluster gallery < len + 16 then
      .next (freeSlotKey key (s.count (PNL_SEND_BAD_COUNT cluster) 1))
    else if 1024 < s.creditUsed (112 + cluster) + setts len ∨ s.stopped (112 + cluster) cls then .next s
    else
      let s := { s with pnl := { s.pnl with slots := tblPut s.pnl.slots key (.taken cluster) } }
      let f := s.newFlying (112 + cluster) (s.cluRead (a + 16) len) s.dshort
      .next (enterBench { f with txCls := some cls, gallery := some key } s)

/-- Delivery header of a packet (Table 16.6). -/
def deliveryHeader (p : Packet) (bytes : Nat) : Bytes :=
  leBytes 4 p.total ++ leBytes 2 bytes ++ leBytes 1 p.inlet ++ leBytes 1 p.cls ++ leBytes 1 p.spoil ++ List.replicate 3 0
    ++ leBytes 4 p.hash ++ leBytes 4 (if p.isDefault then 0 else p.result) ++ List.replicate 4 0 ++ leBytes 8 p.stamp.toNat

/-- A cluster takes a packet: the gallery of its class has a FREE slot (R437). -/
def State.cluTakes (s : State) (k : Nat) (p : Packet) : Bool :=
  match s.deliveryGallery k p.cls with
  | some g => (s.freeSlotOf k g).isSome
  | none => false

/-- GALLERY_DELIVERY: the outlet of a cluster writes the packet handed to it first whose class has a FREE slot into that slot,
truncated to what it holds, and the slot is sealed (R437). -/
def execGalleryDelivery (cluster : Nat) (s : State) : Host.Outcome State Fault Refusal :=
  let o := 112 + cluster
  if 8 ≤ cluster then .next s
  else match (tblGetD [] s.swc.handed o).find? (s.cluTakes cluster) with
  | none => .next s
  | some p =>
    match s.deliveryGallery cluster p.cls with
    | none => .next s
    | some g =>
      match s.freeSlotOf cluster g with
      | none => .next s
      | some i =>
        let data := p.bytes.take (s.slotSize cluster g - 32)
        let s := cluWrite (s.slotAddr cluster g i) (deliveryHeader p data.length ++ data) (unhand o p s)
        .next (refreshPressure (releaseSetts p.id (sealSlot cluster g i s)))

/-- Fields of a PNL_GAL image: KIND, SIZE_LOG2, SLOTS_LOG2, CLASS, BASE. -/
def galFieldsOk (v : BitVec 64) : Bool :=
  getField v 1 2 != 3 && decide (getField v 3 3 ≤ 6) && decide (2 ≤ getField v 6 4) && decide (getField v 6 4 ≤ 8)

/-- First byte and end of a gallery image in cluster memory. -/
def galExtent (v : BitVec 64) : Nat × Nat :=
  let base := 64 * getField v 17 13
  (base, base + 2 ^ getField v 6 4 * 64 * 2 ^ getField v 3 3)

/-- A gallery image may be enabled: within cluster memory, overlapping no enabled gallery, and the only delivery gallery of
its class. -/
def State.galFits (s : State) (k g : Nat) (v : BitVec 64) : Bool :=
  let e := galExtent v
  decide (e.2 ≤ 0x80000) && (List.range 64).all (fun h =>
    let w := s.reg (PNL_GAL k h)
    let d := galExtent w
    h == g || getField w 0 1 == 0
      || ((decide (e.2 ≤ d.1) || decide (d.2 ≤ e.1))
        && !(getField v 1 2 == 2 && getField w 1 2 == 2 && getField v 14 3 == getField w 14 3)))

/-- A write to a register of a cluster is refused: CFG_ERR. -/
def refusePnl (k : Nat) (s : State) : State := raisePnl k (PNL_EVENT_CFG_ERR k) s

/-- A write to PNL_GALg (Table 16.10): while EN is 0 every field is written, KIND 3 and sizes out of range are refused, and EN
is set only when the gallery fits; while EN is 1 only EN is written, and cleared only when every slot is FREE. -/
def galWrite (k g : Nat) (value : BitVec 64) (s : State) : State :=
  let v := putField value 30 34 0
  let v := if getField v 1 2 = 2 then putField v 10 4 15 else v
  if s.bit (PNL_GAL_EN k g) then
    if getField v 0 1 = 1 then s
    else if s.pnl.slots.any (fun x => x.1 / 256 == k * 64 + g) then refusePnl k s
    else s.wr (PNL_GAL_EN k g) 0
  else if galFieldsOk v = false ∨ (getField v 0 1 = 1 ∧ s.galFits k g v = false) then refusePnl k s
  else
    let s := s.setReg (PNL_GAL k g) v
    if getField v 0 1 = 1 then galEvent k g 2 s else s

/-- GALLERY_ENABLE: a write to PNL_GALg (R447). -/
def execGalleryEnable (cluster gallery : Nat) (value : BitVec 64) (s : State) : Host.Outcome State Fault Refusal :=
  if cluster < 8 ∧ gallery < 64 then .next (galWrite cluster gallery value s) else .next s

/-! ## Thread control (R438-R442, Table 16.9) -/

/-- Core of a cluster that holds a thread's context. -/
def State.coreOf (s : State) (t : Nat) : Nat := t / 32 * 8 + s.rd (PNL_THR_STAT_CONTEXT (t / 32) (t % 32)) / 4

/-- Slots that a thread has reserved, of a gallery (k x 64 + g) or of all. -/
def State.reservedBy (s : State) (t : Nat) (gal : Option Nat) : List Nat :=
  tblKeys (fun key u => u == .reserved t && (match gal with
    | some g => key / 256 == g
    | none => true)) s.pnl.slots

/-- Return slots that a thread has reserved to FREE; their bytes are discarded, and read as anything from then on (R442). -/
def abandonSlots (t : Nat) (keys : List Nat) (s : State) : State :=
  keys.foldl (fun u key =>
    let k := key / 16384
    let g := key / 256 % 64
    let (bs, u) := drawBytes (u.slotSize k g / 8) u
    let u := cluWrite (u.slotAddr k g (key % 256)) bs u
    freeSlotKey key { u with pnl := { u.pnl with lost := (key, t) :: u.pnl.lost } }) s

/-- START: a STOPPED thread of a released cluster runs at its PC; one whose context lies on a FAILED core is not started
(R423, R479). -/
def startThread (t : Nat) (s : State) : State :=
  if s.threadState t ≠ 0 ∨ (s.rd SVY_RELEASE_CLUSTER).testBit (t / 32) = false then s
  else if s.health.coresFailed.contains (s.coreOf t) then refusePnl (t / 32) s
  else s.setThreadState t 1

/-- STOP: the thread is STOPPED, and its reservations are discarded as by abandonment. One that migrates is STOPPED when the
exchange is over. -/
def stopThread (t : Nat) (s : State) : State :=
  let s := abandonSlots t (s.reservedBy t none) s
  let s := s.setThread t { s.thread t with armed := none }
  if s.threadState t = 4 then
    let stop : Nat → Nat × Nat × Nat × Nat → Nat × Nat × Nat × Nat := fun k m =>
      if k = t / 32 then (m.1, m.2.1, if m.1 = t % 32 then 0 else m.2.2.1, if m.2.1 = t % 32 then 0 else m.2.2.2) else m
    { s with pnl := { s.pnl with moving := tblMap stop s.pnl.moving } }
  else s.setThreadState t 0

/-- A halt of a thread is refused: it is timed, and its sheet is none or not in state DEBUG (R438). -/
def State.haltRefused (s : State) (t : Nat) : Bool :=
  let sh := s.rd (PNL_THR_CFG_SHEET (t / 32) (t % 32))
  s.bit (PNL_THR_CFG_TIMED (t / 32) (t % 32)) && (decide (4096 ≤ sh) || (s.sheet sh).state != .debug)

/-- HALT: a running or waiting thread becomes HALTED, or the halt is refused. -/
def haltThread (t : Nat) (s : State) : State :=
  let st := s.threadState t
  if st ≠ 1 ∧ st ≠ 2 then s
  else if s.haltRefused t then s.wr (PNL_DBG_STATUS_REFUSED (t / 32)) 1
  else
    let s := s.setThread t { s.thread t with haltedAt := s.ns, resumeTo := st }
    (s.setThreadState t 3).wr (PNL_DBG_STATUS_REFUSED (t / 32)) 0

/-- RESUME: a HALTED thread runs or waits again, with RESUME set (R441). -/
def resumeThread (t : Nat) (s : State) : State :=
  if s.threadState t = 3 then setLatch t 6 (s.setThreadState t (s.thread t).resumeTo) else s

/-- A write of an OP to PNL_THR_CTRLt (Table 16.9). -/
def threadCtrl (t op : Nat) (s : State) : State :=
  match op with
  | 1 => startThread t s
  | 2 => stopThread t s
  | 3 => haltThread t s
  | 4 => resumeThread t s
  | 5 => setLatch t 5 s
  | _ => s

/-- Run a control operation of a thread 0-255. -/
def onThread (t op : Nat) (s : State) : State := if t < 256 then threadCtrl t op s else s

/-- THREAD_START (R447). -/
def execThreadStart (thread : Nat) (s : State) : Host.Outcome State Fault Refusal := .next (onThread thread 1 s)

/-- THREAD_STOP (R447). -/
def execThreadStop (thread : Nat) (s : State) : Host.Outcome State Fault Refusal := .next (onThread thread 2 s)

/-- THREAD_HALT (R438). -/
def execThreadHalt (thread : Nat) (s : State) : Host.Outcome State Fault Refusal := .next (onThread thread 3 s)

/-- THREAD_RESUME (R441). -/
def execThreadResume (thread : Nat) (s : State) : Host.Outcome State Fault Refusal := .next (onThread thread 4 s)

/-- THREAD_KICK (R429). -/
def execThreadKick (thread : Nat) (s : State) : Host.Outcome State Fault Refusal := .next (onThread thread 5 s)

/-- A write to PNL_GAL_ABANDON with GO = 1: slots that a thread HALTED for ABANDON_MS has reserved in a gallery of the cluster
become FREE; in any other case it is ignored and REFUSED set (R442). -/
def galAbandon (k t g : Nat) (s : State) : State :=
  let n := 32 * k + t
  if s.threadState n = 3 ∧ (s.thread n).haltedAt + s.rd (PNL_DBG_CFG_ABANDON_MS k) * 1000000 ≤ s.ns then
    raisePnl k (PNL_EVENT_ABANDON k) ((abandonSlots n (s.reservedBy n (some (k * 64 + g))) s).wr (PNL_DBG_STATUS_REFUSED k) 0)
  else s.wr (PNL_DBG_STATUS_REFUSED k) 1

/-- GALLERY_ABANDON (R442). -/
def execGalleryAbandon (cluster thread gallery : Nat) (s : State) : Host.Outcome State Fault Refusal :=
  if cluster < 8 ∧ thread < 32 ∧ gallery < 64 then .next (galAbandon cluster thread gallery s) else .next s

/-! ## Migration and core faults (R446, R479) -/

/-- Stop a thread for an exchange: one that is STOPPED or HALTED stays so. -/
def stopForMove (t : Nat) (s : State) : State := if s.threadState t = 1 ∨ s.threadState t = 2 then s.setThreadState t 4 else s

/-- Exchange the contexts of two threads: each keeps its number, and its EPOCH increments. -/
def swapContexts (t u : Nat) (s : State) : State :=
  let c := fun (n : Nat) => PNL_THR_STAT_CONTEXT (n / 32) (n % 32)
  let e := fun (n : Nat) => PNL_THR_STAT_EPOCH (n / 32) (n % 32)
  let (a, b) := (s.rd (c t), s.rd (c u))
  let s := (s.wr (c t) b).wr (c u) a
  let s := s.wr (e t) (s.rd (e t) + 1)
  s.wr (e u) (s.rd (e u) + 1)

/-- A write to PNL_MIGRATE with GO = 1: refused while BUSY or for two threads of one core; otherwise both threads stop. -/
def migrate (k t u : Nat) (s : State) : State :=
  if s.bit (PNL_MIGRATE_STATUS_BUSY k) ∨ s.coreOf (32 * k + t) = s.coreOf (32 * k + u) then s.wr (PNL_MIGRATE_STATUS_ERR k) 1
  else
    let m := (t, u, s.threadState (32 * k + t), s.threadState (32 * k + u))
    let s := { s with pnl := { s.pnl with moving := tblPut s.pnl.moving k m } }
    let s := (s.wr (PNL_MIGRATE_STATUS_BUSY k) 1).wr (PNL_MIGRATE_STATUS_ERR k) 0
    stopForMove (32 * k + u) (stopForMove (32 * k + t) s)

/-- THREAD_MIGRATE (R446). -/
def execThreadMigrate (cluster t u : Nat) (s : State) : Host.Outcome State Fault Refusal :=
  if cluster < 8 ∧ t < 32 ∧ u < 32 then .next (migrate cluster t u s) else .next s

/-- Put a thread back into the state it had before an exchange. -/
def endMoveOf (t st : Nat) (s : State) : State := if s.threadState t = 4 then s.setThreadState t st else s

/-- MIGRATE_DONE: the contexts are exchanged, the threads go on in their states, BUSY clears (R446). -/
def execMigrateDone (cluster : Nat) (s : State) : Host.Outcome State Fault Refusal :=
  match tblGet s.pnl.moving cluster with
  | none => .next s
  | some (t, u, st, su) =>
    let s := swapContexts (32 * cluster + t) (32 * cluster + u) s
    let s := endMoveOf (32 * cluster + u) su (endMoveOf (32 * cluster + t) st s)
    let s := { s with pnl := { s.pnl with moving := tblDel s.pnl.moving cluster } }
    .next (raisePnl cluster (PNL_EVENT_MIGRATE_DONE cluster) (s.wr (PNL_MIGRATE_STATUS_BUSY cluster) 0))

/-- A write to PNL_CLU_CFG: refused while a timed thread of the cluster is not STOPPED (R427). -/
def clusterCfgWrite (k : Nat) (value : BitVec 64) (s : State) : State :=
  if (List.range 32).any (fun t => s.bit (PNL_THR_CFG_TIMED k t) && s.threadState (32 * k + t) != 0) then refusePnl k s
  else s.plainWrite (PNL_CLU_CFG k) value

/-- CLUSTER_FREQ_WRITE (R427). -/
def execClusterFreqWrite (cluster : Nat) (value : BitVec 32) (s : State) : Host.Outcome State Fault Refusal :=
  if cluster < 8 then .next (clusterCfgWrite cluster (value.setWidth 64) s) else .next s

/-- The lowest STOPPED thread of a cluster whose context lies on another core, not FAILED (R479). -/
def State.reserveThread (s : State) (core : Nat) : Option Nat :=
  ((List.range 32).map (fun t => 32 * (core / 8) + t)).find? (fun t =>
    s.threadState t == 0 && s.coreOf t != core && !s.health.coresFailed.contains (s.coreOf t))

/-- Move one thread off a core, or stop it where no STOPPED thread is free: then the fault is beyond the model. -/
def moveOff (core t : Nat) (x : Bool × State) : Bool × State :=
  match x.2.reserveThread core with
  | some u => (x.1, swapContexts t u x.2)
  | none => (true, stopThread t x.2)

/-- CORE_FAULT: the core's threads move to STOPPED contexts of other cores of the cluster, lowest first, and it is FAILED
(R479, R483). -/
def execCoreFault (core : Nat) (s : State) : Host.Outcome State Fault Refusal :=
  if 64 ≤ core ∨ s.health.coresFailed.contains core then .next s
  else
    let on := ((List.range 32).map (fun t => 32 * (core / 8) + t)).filter (fun t => s.coreOf t == core && s.threadState t != 0)
    let (beyond, s) := on.foldl (fun x t => moveOff core t x) (false, s)
    let s := { s with health := { s.health with coresFailed := core :: s.health.coresFailed } }
    let s := logFault 0x0C core true beyond true (s.count HLT_SPARE_CORES_FAILED 1)
    .next (if beyond then beyondModel 6 s else updateHealth s)

/-! ## Cairns (R443, R444) -/

/-- Claim for a local thread: the source, 0 when there is none. -/
def claimCairn (k t : Nat) (s : State) : Nat × State :=
  match s.cairnSource k t with
  | none => (0, s)
  | some n => (n, { s with cairns := tblPut s.cairns (k * 1024 + n) ⟨false, true⟩ })

/-- Complete a source: INSERV clears; no effect on one that is not in service. -/
def completeCairn (k n : Nat) (s : State) : State :=
  match tblGet s.cairns (k * 1024 + n % 1024) with
  | none => s
  | some c => if c.inserv then { s with cairns := tblPut s.cairns (k * 1024 + n % 1024) { c with inserv := false } } else s

/-- CAIRN_COMPLETE: a write to CRN_COMPLETEt (R444). -/
def execCairnComplete (cluster source : Nat) (s : State) : Host.Outcome State Fault Refusal :=
  if cluster < 8 then .next (completeCairn cluster source s) else .next s

/-- Raise a software source 512-1,023. -/
def raiseCairn (k n : Nat) (s : State) : State := if 512 ≤ n ∧ n < 1024 then cairnEventIn k n s else s

/-- CAIRN_RAISE: a write to CRN_RAISE (R443, Table 16.11). -/
def execCairnRaise (cluster source : Nat) (s : State) : Host.Outcome State Fault Refusal :=
  if cluster < 8 then .next (raiseCairn cluster source s) else .next s

end Sys2Proof.Machine
end

