-- ==== Sys2Proof/Machine/Links.lean ====
section
/-! DEFINITION. Transfers across the graticule and the failures of its links (spec 04, R94-R97, R100). -/

namespace Sys2Proof.Machine

/-- The next state of an outcome; the state given, when it has none. -/
def nextOr (s : State) (o : Host.Outcome State Fault Refusal) : State :=
  match o with
  | .next t => t
  | _ => s

/-! ## Transfers (R94, R95, R100) -/

/-- A beat of a transfer: 64 bytes and whether its CRC-16 passes at the receiver. -/
abbrev Beat := BitVec 512 × Bool

/-- Key of a sender and receiver pair. -/
def pairKey (src dst : Nat) : Nat := src * 4096 + dst

/-- A sequence number was applied before: it is at most 127 behind the last one applied. R95 does not say how a number that wraps
is told from an old one (DESIGN CHOICE, log entry 15). -/
def alreadyApplied (last : Option (BitVec 8)) (seq : BitVec 8) : Bool :=
  match last with
  | none => false
  | some l => decide ((l - seq).toNat < 128)

/-- A sequence number is the next to apply: the one after the last, or, before any, whichever comes (R95; log entry 15). -/
def nextInOrder (last : Option (BitVec 8)) (seq : BitVec 8) : Bool :=
  match last with
  | none => true
  | some l => seq == l + 1

/-- The sender holds a transfer until it is acknowledged (R95). -/
def holdTransfer (t : Transfer) (s : State) : State := { s with grt := { s.grt with sent := s.grt.sent ++ [t] } }

/-- A transfer is acknowledged: its sender holds it no longer. -/
def dropTransfer (t : Transfer) (s : State) : State := { s with grt := { s.grt with sent := s.grt.sent.filter (· != t) } }

/-- Apply a transfer whole at its target (R94). -/
def applyTransfer (t : Transfer) (s : State) : State :=
  ({ s with grt := { s.grt with applied := tblPut s.grt.applied (pairKey t.src t.dst) t.seq } }).emit (.grtApplied t.src t.dst t.beats)

/-- A transfer whose beats all pass reaches its target: the next in order is applied, one applied before is discarded, and both
are acknowledged; one sent after a transfer that has not been applied is not, and stays held (R94, R95). acked false: the
acknowledgement is lost. -/
def receiveTransfer (t : Transfer) (acked : Bool) (s : State) : State :=
  let last := tblGet s.grt.applied (pairKey t.src t.dst)
  if alreadyApplied last t.seq then (if acked then dropTransfer t s else s)
  else if nextInOrder last t.seq then (if acked then dropTransfer t (applyTransfer t s) else applyTransfer t s)
  else s

/-! ## Links (R96, R97) -/

/-- A unit that can no longer be reached is a failed unit: a bench under R254, the cores of a cluster under R479, and of any other
the contracts that use it break (R76, R97). -/
def cutOff (node : Nat) (s : State) : State :=
  if 0x70 ≤ node ∧ node < 0x82 then benchFault (node - 0x70) s
  else if 0x90 ≤ node ∧ node < 0x98 then
    (List.range 8).foldl (fun t c => nextOr t (execCoreFault ((node - 0x90) * 8 + c) t)) s
  else breakNode node s

/-- The path of a contract uses a link. -/
def State.pathOnLink (s : State) (link : Nat) (c : Contract) : Bool :=
  Config.linkOnPath link c.par.src c.par.dst (s.benchOf c.par.bucket)

/-- A link moves to its reserve path: every transfer on it that is not acknowledged is sent again there, in order, and arrives
(R96). -/
def toReserve (link : Nat) (s : State) : State :=
  let s := { s with grt := { s.grt with links := tblPut s.grt.links link 1 } }
  let s := raise GRT_EVENT_RESERVE (s.wr GRT_STATUS_LINKS_RESERVE (s.rd GRT_STATUS_LINKS_RESERVE + 1))
  let s := (s.grt.sent.filter (fun t => t.link == link)).foldl (fun u t => receiveTransfer t true u) s
  spareConsumed (logFault 0x01 link true false true s)

/-- The reserve path of a link fails: the link is lost, the units cut off are failed units, and the contracts that use them, or
whose paths used the link, are BROKEN (R97). -/
def loseLink (link : Nat) (cut : List Nat) (s : State) : State :=
  let s := { s with grt := { s.grt with links := tblPut s.grt.links link 2 } }
  let s := s.wr GRT_STATUS_LINKS_RESERVE (s.rd GRT_STATUS_LINKS_RESERVE - 1)
  let s := raise GRT_EVENT_LOST (s.wr GRT_STATUS_LINKS_LOST (s.rd GRT_STATUS_LINKS_LOST + 1))
  let s := cut.foldl (fun t n => cutOff n t) (logFault 0x02 link false true true s)
  beyondModel 2 (breakWhere (s.pathOnLink link) 2 s)

/-- A link fails: it moves to its reserve path, or, already there, is lost; a lost link fails no more. -/
def linkFail (link : Nat) (cut : List Nat) (s : State) : State :=
  match tblGet s.grt.links link with
  | none => toReserve link s
  | some 1 => loseLink link cut s
  | some _ => s

/-- GRT_TRANSFER_RECEIVE: a transfer, ended at its eighth beat, arrives: every beat passes and it is applied and acknowledged; or
it is rejected and resent once on the link, and a second failure fails the link, which sends it again on the reserve path if one
is left (R94-R97, R100). course: whether the checks of the resend pass, and what the link makes of the transfer and of its
acknowledgement. A transfer has at least one beat, and none crosses a lost link. -/
def execGrtTransferReceive (link src dst : Nat) (seq : BitVec 8) (beats : List Beat) (course : Course)
    (cut : List Nat) (s : State) : Host.Outcome State Fault Refusal :=
  if beats.isEmpty ∨ tblGet s.grt.links link = some 2 then .next s
  else
    let whole := beats.take 8
    let t : Transfer := ⟨link, src, dst, seq, whole.map (fun (b : Beat) => b.1)⟩
    let s := holdTransfer t s
    if course.fate = .lost then .next s
    else if whole.all (fun (b : Beat) => b.2) then .next (receiveTransfer t (course.fate == .acked) s)
    else
      let s := s.count GRT_RETRY_CNT_COUNT 1
      if course.resendOk then .next (receiveTransfer t (course.fate == .acked) s) else .next (linkFail link cut s)

/-- GRT_ACK_TIMEOUT: 64 ns without acknowledgement fails the link (R96). -/
def execGrtAckTimeout (link : Nat) (cut : List Nat) (s : State) : Host.Outcome State Fault Refusal :=
  .next (linkFail link cut s)

end Sys2Proof.Machine
end

