-- ==== Sys2Proof/Machine/BootOps.lean ====
section
/-! DEFINITION. Boot: notices, copies and their headers, loading image classes, failed attempts, minimal mode, and what a
device reset leaves (spec 17, R448-R462, R473; spec 20, R530). -/

namespace Sys2Proof.Machine

/-! ## Notices (R473) -/

/-- Sequence number of the last notice. -/
def State.noticeSeq (s : State) : Nat := (s.reg (SVY_NOTICE 2)).toNat + (s.reg (SVY_NOTICE 3)).toNat * 2 ^ 32

/-- Post a notice: SVY_NOTICE is written, vector 0 of function 0 of every endpoint port is sent, cairn source 303 has an
event, and in BOOT_STATE 3 the managers are told. -/
def postNotice (s : State) : State :=
  let seq := s.noticeSeq + 1
  let t := s.dshort.toNat
  let put : Nat → Nat → State → State := fun i v u => u.setReg (SVY_NOTICE i) (BitVec.ofNat 64 (v % 2 ^ 32))
  let s := put 1 (s.reg SVY_BOOT_CAUSE).toNat (put 0 (s.reg SVY_BOOT_STATUS).toNat s)
  let s := put 3 (seq / 2 ^ 32) (put 2 seq s)
  let s := put 4 (s.rd SVY_RECOV_STATUS_RESULT) s
  let s := put 7 (t / 2 ^ 32) (put 6 t s)
  let s := { s with boot := { s.boot with noticeOpen := true } }
  let s := cairnEvent 303 (s.endpoints.foldl (fun u p => u.sendVector p 0 0) s)
  if s.rd SVY_BOOT_STATUS_STATE = 3 then notifyAll s else s

/-- Set BOOT_STATE; a change is a notice, and PLDM sensor 3 reports it (R458, R508). -/
def setBootState (st : Nat) (s : State) : State :=
  if s.rd SVY_BOOT_STATUS_STATE = st then s else platformEvent 3 st (updateHealth (postNotice (s.wr SVY_BOOT_STATUS_STATE st)))

/-- Set STRIKES; a change is a notice. -/
def setStrikes (n : Nat) (s : State) : State :=
  if s.rd SVY_BOOT_STATUS_STRIKES = n then s else postNotice (s.wr SVY_BOOT_STATUS_STRIKES n)

/-- Set SVY_BOOT_CAUSE: code, class, and the reasons of its copies; a change is a notice, and replace-me may follow it (R485). -/
def setCause (code cls ra rb : Nat) (s : State) : State :=
  let v := BitVec.ofNat 64 (code + cls * 2 ^ 8 + ra * 2 ^ 12 + rb * 2 ^ 16)
  if s.reg SVY_BOOT_CAUSE = v then s else updateHealth (postNotice (s.setReg SVY_BOOT_CAUSE v))

/-! ## Fuses and the boot record (R450, R468, R469) -/

/-- An owner key slot is revoked; it holds a hash. -/
def State.slotRevoked (s : State) (n : Nat) : Bool := s.boot.fuses.getLsbD (6 + n)
/-- An owner key slot holds a hash. -/
def State.slotFilled (s : State) (n : Nat) : Bool := s.boot.fuses.getLsbD (10 + n)

/-- Write the boot record to flash B and then A, each with the sequence number incremented; while the Surveyor island restarts the
write waits for its end (R450, R481). -/
def saveRecord (s : State) : State :=
  if s.health.restarting then s
  else ({ s with boot := { s.boot with recordSeq := s.boot.recordSeq + 2 } }.emit (.flash 1 0)).emit (.flash 0 0)

/-! ## Copies (R449, R451, R452) -/

/-- Number of a copy. -/
def copyKey (c dev : Nat) : Nat := c * 2 + dev

/-- Header of a copy in flash. -/
def State.header (s : State) (c dev : Nat) : Bytes :=
  match tblGet s.boot.headers (copyKey c dev) with
  | some h => h
  | none => leBytes 128 (Config.shippedHeader (copyKey c dev)).toNat

/-- A field of a header: offset and bytes, little-endian. -/
def hdrN (h : Bytes) (off n : Nat) : Nat := ofLe ((h.drop off).take n)

/-- VERSION, BODY_LEN, ENTRY of a header. -/
def hdrVersion (h : Bytes) : Nat := hdrN h 8 4
/-- BODY_LEN. -/
def hdrLen (h : Bytes) : Nat := hdrN h 12 4
/-- ENTRY. -/
def hdrEntry (h : Bytes) : Nat := hdrN h 20 4

/-- Largest body of a class (Table 17.1). -/
def maxBody (c : Nat) : Nat :=
  match c with | 0 => 0x200000 | 1 => 0x80000 | 2 => 0x80000 | 3 => 0x100000 | 4 => 0x400000 | 5 => 0x3000000 | _ => 0

/-- State of a copy. -/
def State.copyState (s : State) (c dev : Nat) : Nat := tblGetD 0 s.boot.copyStates (copyKey c dev)

/-- Register field with the state of a copy. -/
def copyField (c dev : Nat) : Fld := if dev = 0 then SVY_IMG_STATUS_A_STATE c else SVY_IMG_STATUS_B_STATE c

/-- Register field with the reason of a copy. -/
def reasonField (c dev : Nat) : Fld := if dev = 0 then SVY_IMG_STATUS_REASON_A c else SVY_IMG_STATUS_REASON_B c

/-- Set the state of a copy in the boot record and its register. -/
def setCopy (c dev st : Nat) (s : State) : State :=
  ({ s with boot := { s.boot with copyStates := tblPut s.boot.copyStates (copyKey c dev) st } }).wr (copyField c dev) st

/-- Floor of a class. -/
def State.floor (s : State) (c : Nat) : Nat := tblGetD 0 s.boot.floors c

/-- The reason for which a copy is refused before its body is read, if any (R452, Table 17.4). -/
def State.copyRefused (s : State) (c dev : Nat) : Option Nat :=
  let h := s.header c dev
  if s.copyState c dev = 3 then some 9
  else if hdrN h 0 4 ≠ 0x534B5246 ∨ hdrN h 4 1 ≠ c ∨ hdrN h 6 2 ≠ 1 ∨ hdrLen h % 64 ≠ 0 ∨ hdrLen h = 0 ∨ maxBody c < hdrLen h
      ∨ hdrLen h ≤ hdrEntry h then some 3
  else if hdrN h 16 4 ≠ s.epoch then some 5
  else if hdrVersion h < s.floor c then some 6
  else none

/-- The copy tried first (R449). -/
def State.preferred (s : State) (c : Nat) : Nat :=
  if s.copyState c 0 = 1 then 0
  else if s.copyState c 1 = 1 then 1
  else if s.copyState c 0 = 0 ∧ s.copyState c 1 = 0 then (if hdrVersion (s.header c 0) < hdrVersion (s.header c 1) then 1 else 0)
  else if s.copyState c 1 = 0 then 1
  else 0

/-! ## Loading (R453-R456, R460) -/

/-- The load of a class. -/
def State.load? (s : State) (c : Nat) : Option Load := tblGet s.boot.loads c

/-- Set it. -/
def State.setLoad (s : State) (c : Nat) (x : Load) : State := { s with boot := { s.boot with loads := tblPut s.boot.loads c x } }

/-- Image state of a class: SVY_IMG_STATUSc.STATE. -/
def State.imgState (s : State) (c : Nat) : Nat := s.rd (SVY_IMG_STATUS_STATE c)

/-- Units of a class that report ready (Table 17.1). -/
def unitsOf (c : Nat) : Nat := match c with | 0 => 1 | 1 => 1 | 2 => 4 | 3 => 2 | 4 => 18 | 5 => 8 | _ => 0

/-- Every unit of a class has reported ready. -/
def State.classReady (s : State) (c : Nat) : Bool :=
  match s.load? c with
  | some x => x.matched && (List.range (unitsOf c)).all (fun k => x.ready.contains k)
  | none => false

/-- Islands that the load of a class releases when its tag matches, or, for clusters, when its entry chunk is written; the
Surveyor island runs from the start (R22, R457). -/
def classNodes (c : Nat) : List Nat :=
  match c with
  | 1 => [datumNode]
  | 3 => List.range 64
  | 4 => (List.range 18).map (fun k => 0x70 + k)
  | 5 => (List.range 8).map (fun k => 0x90 + k)
  | _ => []

/-- Release an island: its spine delay is measured, over a round trip that is a free value, and a bench's mask generators are seeded
(R47, R319, log entry 3). -/
def releaseNode (s : State) (n : Nat) : State :=
  let t := s.drawn.setIsland n ({ s.island n with
    released := true
    inReset := false }.calibrate n s.draw.toNat)
  if 0x70 ≤ n ∧ n < 0x82 then reseedBench (n - 0x70) t else t

/-- Release islands. -/
def releaseNodes (l : List Nat) (s : State) : State := l.foldl releaseNode s

/-- The Surveyor island starts: the DRBG is instantiated from the noise sources that work, and the wrapping key of the current epoch is
derived (R321, R322; DESIGN CHOICE, log entry 35: at the first step of boot). -/
def startSurveyor (s : State) : State :=
  let s := releaseNodes [0xA2] s
  { s with cipher := { s.cipher with
      generated := 0
      reseededAt := s.ns
      wrapKeys := [(s.epoch, Config.wrapKey s.epoch)] } }.wr CPH_STATUS_DRBG_OK (if s.cipher.sources = [] then 0 else 1)

/-- The frame in the MAC of a network port is lost, a TS_REQ entry that waits for it completing with EGRESS 0, and so are the packets
that wait at its inlet, but for those it is to send again (R248). -/
def discardPort (p : Nat) (s : State) : State :=
  let frames := tblGetD [] s.swc.mac p
  let s := { s with
    swc := { s.swc with mac := tblDel s.swc.mac p }
    pipe := { s.pipe with waiting := s.pipe.waiting.filter (fun f => f.inlet != p || f.replayed) } }
  refreshPressure (frames.foldl (fun t f => match f.tx with
    | some (g, idx) => endTx g idx 0 0 f.bytes.length (cipherBody 26 f.cipher) t
    | none => t) s)

/-- Datapath state of an island that a reset discards beside its transfers: the packets in a bench, which its inlets replay
(R103, R248), the frame in the MAC of a network port and what waits at its inlet, the translations of a host port, what the storage
engine staged of replies, the keys and masks of the key cache, and Datum's counts of samples. R15 names none; what a sheet, ring,
thread or connection holds stands in set-up registers and tenant tables, and what the flight table or the sett store holds is the
hub's (DESIGN CHOICE, log entry 15). -/
def discardDatapath (node : Nat) (s : State) : State :=
  if node < 0x40 then discardPort node s
  else if node = 0xA1 then
    { s with sto := { s.sto with reqs := tblMap (fun _ (b : BackReq) => { b with staged := [] }) s.sto.reqs } }
  else if 0x40 ≤ node ∧ node < 0x70 then
    (List.range 8).foldl (fun t f => t.setFunc (node - 0x40) f { t.func (node - 0x40) f with ats := [] }) s
  else if 0x70 ≤ node ∧ node < 0x82 then benchReset (node - 0x70) s
  else if node = 0xA3 then { s with cipher := { s.cipher with cache := [] } }
  else if node = datumNode then forgetSamples s
  else s

/-- Hold islands in reset as before their release: their datapath state is discarded (R15). -/
def resetNodes (l : List Nat) (s : State) : State :=
  l.foldl (fun t n => discardDatapath n (releaseGrants n (t.setIsland n Island.fresh))) s

/-- The threads of every cluster stop, and its held outputs are discarded. -/
def stopClusters (s : State) : State :=
  let s := (List.range 256).foldl (fun t n => if t.threadState n = 0 then t else stopThread n t) s
  { (s.wr SVY_RELEASE_CLUSTER 0) with boot := { s.boot with outputs := [] } }

/-- Start to load a copy: its header passed. A PENDING copy becomes TRIAL. -/
def startCopy (c dev : Nat) (tried : List Nat) (s : State) : State :=
  let s := if s.copyState c dev = 1 then saveRecord (setCopy c dev 2 s) else s
  let s := s.setLoad c ⟨dev, dev :: tried, 0, false, false, []⟩
  (s.wr (SVY_IMG_STATUS_STATE c) 1).wr (SVY_IMG_STATUS_COPY c) dev

/-- Try copies of a class in order: whether one is being loaded. -/
def tryCopies (c : Nat) : List Nat → List Nat → State → Bool × State
  | [], _, s => (false, s)
  | dev :: rest, tried, s =>
    match s.copyRefused c dev with
    | some r => tryCopies c rest (dev :: tried) (s.wr (reasonField c dev) r)
    | none => (true, startCopy c dev tried s)

/-- Copies of a class in the order in which they are tried, but for some. -/
def State.order (s : State) (c : Nat) (tried : List Nat) : List Nat :=
  [s.preferred c, 1 - s.preferred c].filter (fun d => !tried.contains d)

/-- Load a class from its preferred copy, or else the other. -/
def loadClass (c : Nat) (s : State) : Bool × State := tryCopies c (s.order c []) [] s

/-- A class of a waiting unit, with no copy left, waits for a package (R460). -/
def loadOrWait (c : Nat) (s : State) : State :=
  let (ok, s) := loadClass c s
  if ok then s else { (s.wr (SVY_IMG_STATUS_STATE c) 3) with boot := { s.boot with loads := tblDel s.boot.loads c } }

/-- A class is past its load: its tag matched, or it waits. -/
def State.settled (s : State) (c : Nat) : Bool := s.imgState c == 2 || s.imgState c == 3

/-- Load the next class of steps 5 to 8 of R457 whose dependencies hold (Table 1.4). -/
def loadNext (s : State) : State :=
  if s.rd SVY_BOOT_STATUS_STATE ≠ 2 then s
  else
    let s := if s.imgState 2 = 0 then loadOrWait 2 s else s
    let s := if s.imgState 3 = 0 ∧ s.settled 2 then loadOrWait 3 s else s
    let s := if s.imgState 4 = 0 ∧ s.settled 3 then loadOrWait 4 s else s
    if s.imgState 5 = 0 ∧ s.settled 4 ∧ s.classReady 2 then loadOrWait 5 s else s

/-! ## Device reset and failed starts (R460, R461, R530) -/

/-- The station record is good: it configures at most 16 endpoint ports and 32 root ports, and some port (R108). -/
def State.stationsOk (s : State) : Bool :=
  decide (s.endpoints.length ≤ 16) && decide (((List.range 48).filter s.portIsRoot).length ≤ 32)

/-- Write the station record into HP_STN_CFG. -/
def putStations (l : List (BitVec 32)) (s : State) : State :=
  (List.range 12).foldl (fun t k => t.setReg (HP_STN_CFG k) (BitVec.ofNat 64 ((l.getD k 0).toNat % 256))) s

/-- HP_STN_CFG is loaded from the station record; one that is missing or bad, a boot record that was not accepted having none, gives
station 0 in mode 1 as an endpoint, and CFG_DEFAULT. The endpoint ports' islands are released to train (R107, R108). -/
def takeStations (s : State) : State :=
  let f := s.boot.found
  let t := putStations f.stations s
  let ok : Bool := f.cause == 0 && f.accepted && !f.stations.isEmpty && t.stationsOk
  let s := if ok then t else putStations [1] s
  let s := { s with boot := { s.boot with cfgDefault := !ok } }
  releaseNodes (s.endpoints.map (fun p => 0x40 + p)) s

/-- Step 3 of R457: HP_STN_CFG and NET_CAGE_CFG are loaded from the records, an unsound cage record setting CFG_ERR in its port's
block, and the management addresses are set (R107, R108, R501, R502). -/
def takeRecords (s : State) : State :=
  let f := s.boot.found
  let s := takeStations s
  let s := (List.range 32).foldl (fun u k => u.setReg (NET_CAGE_CFG k) (BitVec.ofNat 64 (f.cages.getD k 0).toNat)) s
  let s := flagCages s
  { s with mgmt := { s.mgmt with smbAddr := f.smb.getD 0x50, i3cStatic := if f.smb.isSome then f.i3c else none } }

/-- The boot record accepted was sealed under the next epoch: the ROM blows that epoch's fuse, which completes an advance that was
interrupted, and the wrapping key is the new epoch's (R323, R450). -/
def finishAdvance (s : State) : State :=
  if s.boot.found.nextEpoch ∧ s.epoch < 63 then
    let e := s.epoch + 1
    { s with
      boot := { s.boot with
        fuses := (putField (s.boot.fuses.setWidth 64) 0 6 e).setWidth 32
        found := { s.boot.found with nextEpoch := false } }
      cipher := { s.cipher with wrapKeys := [(e, Config.wrapKey e)] } }
  else s

/-- A copy that a start finds TRIAL was never committed and is REJECTED (R449). -/
def rejectTrials (s : State) : State :=
  let l := (List.range 12).filter (fun k => tblGetD 0 s.boot.copyStates k == 2)
  if l = [] then s else saveRecord (l.foldl (fun t k => setCopy (k / 2) (k % 2) 3 t) s)

/-- Show the copy states of the boot record in the class registers. -/
def showCopies (s : State) : State :=
  (List.range 12).foldl (fun t k => t.wr (copyField (k / 2) (k % 2)) (tblGetD 0 t.boot.copyStates k)) s

/-- What survives a reset: queue, outputs, draws, what flash and fuses hold, the consumables and permanent faults of the boot
record (R450, R483, R495). -/
def afterReset (s : State) : State :=
  let gone : Nat → Consumable → Consumable := fun _ x => { x with present := false }
  { State.reset with
    pending := s.pending
    outs := s.outs
    fresh := s.fresh
    boot := { s.boot with loads := [], outputs := [], staging := [], installing := 0, noticeOpen := false, runSince := [], cfgDefault := false }
    health := { State.reset.health with
      permanent := s.health.permanent
      cons := tblMap gone s.health.consSaved
      consSaved := s.health.consSaved }
    power := { State.reset.power with inReset := false } }

/-- A failed start: the Surveyor and Datum islands and every unit loaded are reset, but the endpoint links stay up, and the
Surveyor's own registers that outlive a start keep their values, and Datum, which no step moves back, counts on (R35, R36, R460). -/
def afterFailedStart (s : State) : State :=
  let keep : Nat × BitVec 64 → Bool := fun r =>
    (decide (HP_PORT_CFG 0 ≤ r.1) && decide (r.1 < HP_PORT_CFG 48)) || r.1 == SVY_CTRL || r.1 == SVY_BOOT_STATUS || r.1 == SVY_BOOT_CAUSE
      || (decide (SVY_NOTICE 0 ≤ r.1) && decide (r.1 < SVY_NOTICE 16)) || r.1 / 4096 == 3
  let u := afterReset s
  { u with
    regs := s.regs.filter keep
    ports := s.ports
    funcs := s.funcs
    vectors := s.vectors
    datum := s.datum
    boot := { u.boot with
      noticeOpen := s.boot.noticeOpen
      cfgDefault := s.boot.cfgDefault }
    power := s.power }.wr SVY_BOOT_STATUS_SEALED 0

/-- Enter minimal mode (R461, R462): functions other than 0 are absent. Where no boot record was read the stations are the default
(R108; DESIGN CHOICE, log entry 35). -/
def enterMinimal (code cls ra rb : Nat) (s : State) : State :=
  let s := setBootState 4 (setCause code cls ra rb s)
  let s := if s.endpoints = [] then takeStations s else s
  (s.endpoints.filter s.linkUp).foldl (fun t p => (List.range 8).foldl (fun u f => sampleFunc p f u) t) s

/-- Run the boot sequence from step 1 until class 0 is being loaded; a start that fails runs it again, at most so often, and
the third enters minimal mode (R457, R460, R461). -/
def bootRun : Nat → State → State
  | 0, s => s
  | n + 1, s =>
    let k := s.rd SVY_BOOT_STATUS_STRIKES
    let fail : Nat → Nat → Nat → State → State := fun code ra rb t =>
      if 2 ≤ k then enterMinimal code 0 ra rb (setStrikes 3 t)
      else
        let u := afterFailedStart t
        bootRun n (setStrikes (k + 1) u)
    let s := setBootState 1 (startSurveyor s)
    if s.boot.found.cause ≠ 0 then fail s.boot.found.cause 0 0 s
    else if s.boot.found.accepted = false then fail 2 0 0 s
    else
      let s := rejectTrials (showCopies (takeRecords (finishAdvance (s.wr SVY_COMMIT_CFG_HOURS s.boot.hours))))
      let (ok, s) := loadClass 0 s
      if ok then s
      else fail 1 (s.rd (SVY_IMG_STATUS_REASON_A 0)) (s.rd (SVY_IMG_STATUS_REASON_B 0)) (s.wr (SVY_IMG_STATUS_STATE 0) 4)

/-- A start failed in the course of the boot (R460, R461). In minimal mode the device stays there. -/
def startFails (code cls : Nat) (s : State) : State :=
  let ra := s.rd (SVY_IMG_STATUS_REASON_A cls)
  let rb := s.rd (SVY_IMG_STATUS_REASON_B cls)
  let k := s.rd SVY_BOOT_STATUS_STRIKES
  if s.rd SVY_BOOT_STATUS_STATE = 4 then setCause code cls ra rb s
  else if 2 ≤ k then enterMinimal code cls ra rb (setStrikes 3 s)
  else bootRun 3 (setStrikes (k + 1) (afterFailedStart s))

/-- A class has no copy left: a waiting unit waits, a privileged one fails the start (R460). -/
def classFails (c : Nat) (s : State) : State :=
  let s := { s with boot := { s.boot with loads := tblDel s.boot.loads c } }
  if 2 ≤ c then loadNext (s.wr (SVY_IMG_STATUS_STATE c) 3)
  else startFails 1 c (s.wr (SVY_IMG_STATUS_STATE c) 4)

/-- The units of a class are reset and its hold region is cleared (R454). -/
def resetClass (c : Nat) (s : State) : State :=
  let s := if c = 5 then stopClusters s else s
  resetNodes (classNodes c) s

/-- An attempt on the copy being loaded or run fails: the other copy is tried, unless it was tried (R455, R456, R460). -/
def attemptFails (c reason : Nat) (s : State) : State :=
  match s.load? c with
  | none => s
  | some x =>
    let s := resetClass c (s.wr (reasonField c x.copy) reason)
    let (ok, s) := tryCopies c (s.order c x.tried) x.tried s
    if ok then s else classFails c s

/-- A device reset: strikes and what else it keeps, then boot, or minimal mode while FORCE_MIN is 1 (R461, R530). -/
def deviceReset (strikes : Nat) (tripped force : Bool) (s : State) : State :=
  let s := (afterReset s).wr SVY_BOOT_STATUS_STRIKES strikes
  let s := s.wr SVY_THERM_STATUS_TRIPPED (if tripped then 1 else 0)
  if force then
    let s := if s.boot.found.cause = 0 ∧ s.boot.found.accepted then showCopies (takeRecords (finishAdvance s)) else s
    enterMinimal 8 0 0 0 (startSurveyor s)
  else bootRun 4 s

end Sys2Proof.Machine
end

