-- ==== Sys2Proof/Machine/BootCmd.lean ====
section
/-! DEFINITION. Resets, image chunks, ready reports, commits, packages, epochs and owner keys (spec 17, R453-R473; spec 20,
R529, R530). -/

namespace Sys2Proof.Machine

/-! ## Resets -/

/-- POWER_ON_RESET: POR_N rises with every rail in tolerance: strikes and TRIPPED clear, THERMTRIP_N and HEALTH_REQ_N are
released, and the boot sequence starts on what the ROM finds (R461, R485, R529, R533). -/
def execPowerOnReset (found : BootFound) (s : State) : Host.Outcome State Fault Refusal :=
  let s := { s with boot := { s.boot with found := found } }
  .next (deviceReset 0 false false ((s.emit (.ball 2 0 1)).emit (.ball 0 0 1)))

/-- A byte of the staging buffer. -/
def State.staged (s : State) (off n : Nat) : Bytes := (List.range n).map (fun i => memGet s.boot.staging (off + i))

/-- A field of the package in the staging buffer. -/
def State.pkgN (s : State) (off n : Nat) : Nat := ofLe (s.staged off n)

/-- Copies that a flash write of the package touches read REJECTED when it fails (Table 17.7). -/
def failInstall (s : State) : State :=
  let c := s.pkgN 7 1
  if s.rd SVY_BOOT_STATUS_STATE = 3 ∧ s.imgState c ≠ 3 ∧ s.imgState c ≠ 4 then setCopy c (1 - s.preferred c) 3 s
  else setCopy c 0 3 (setCopy c 1 3 s)

/-- SYS_RESET: SYS_RST_N low for 1 µs: a device reset that keeps STRIKES and TRIPPED. An image write it falls into leaves the
copies being written REJECTED (R461, R530). While the device is held in power-on reset or tripped it has no effect. -/
def execSysReset (s : State) : Host.Outcome State Fault Refusal :=
  if s.power.inReset ∨ s.power.tripped then .next s
  else
    let s := if s.boot.installing = 1 then saveRecord (failInstall s) else s
    .next (deviceReset (s.rd SVY_BOOT_STATUS_STRIKES) (s.bit SVY_THERM_STATUS_TRIPPED) (s.bit SVY_CTRL_FORCE_MIN) (s.emit (.ball 0 0 1)))

/-! ## Images (R453-R458) -/

/-- Units start to execute, under output hold: for class 5 every cluster is released, and its thread 0 runs at the entry point
(R423, R457). -/
def startUnits (c : Nat) (entry : Nat) (s : State) : State :=
  if c ≠ 5 then s
  else
    let s := releaseNodes (classNodes 5) (s.wr SVY_RELEASE_CLUSTER 0xFF)
    (List.range 8).foldl (fun t k =>
      (t.wr (threadPc (32 * k)) ((Config.holdBase k).toNat + entry)).setThreadState (32 * k) 1) s

/-- IMAGE_CHUNK_WRITTEN: a 64 KiB chunk of the copy being loaded lands in its hold region and is locked; the chunk with ENTRY
starts the units. ok false: flash could not be read (R453, Table 17.4). -/
def execImageChunkWritten (cls : Nat) (ok : Bool) (s : State) : Host.Outcome State Fault Refusal :=
  match s.load? cls with
  | none => .next s
  | some x =>
    let h := s.header cls x.copy
    if x.matched ∨ hdrLen h ≤ x.chunks * 65536 then .next s
    else if ok = false then .next (attemptFails cls 2 s)
    else
      let starts := !x.started && decide (hdrEntry h < (x.chunks + 1) * 65536)
      let s := s.setLoad cls { x with chunks := x.chunks + 1, started := x.started || starts }
      .next (if starts then startUnits cls (hdrEntry h) s else s)

/-- Known-answer tests of a bench passed and the tables in HBM are ready: the bench becomes SPARE or ACTIVE (R243, R320,
R457). -/
def benchUp (k : Nat) (s : State) : State :=
  if s.rd (BNC_STATUS_STATE k) ≠ 0 then s
  else if k = 8 ∨ k = 17 then setBench k 1 s
  else activateBench k s

/-- Fault of the boot record applied again at boot (R483). -/
def applyPermanent (p : Permanent) (s : State) : State :=
  match p.kind with
  | 0x01 => linkFail p.unit [] s
  | 0x02 => linkFail p.unit [] s
  | 0x05 => benchFault (p.unit - 0x70) s
  | 0x06 => nextOr s (execBankGroupFault p.unit s)
  | 0x0C => nextOr s (execCoreFault p.unit s)
  | _ => updateHealth (logFault 0x0B p.unit true false true (s.wr HLT_SPARE_HBM_LOW 1))

/-- The storage engine serves once the Ralush engine does and every root port's island is out of reset; the cache memory of expanders comes
with them (R22, R407; DESIGN CHOICE, notes/assumptions/30.md: no expander has to be attached). -/
def serveStorage (s : State) : State :=
  let up : Nat → Bool := fun p => !s.portIsRoot p || ((s.island (0x40 + p)).released && !(s.island (0x40 + p)).inReset)
  if s.bit RLT_STATUS_READY ∧ (List.range 48).all up then s.wr STO_STATUS_READY 1 else s

/-- Step 7 of R457: once every bench has reported and HBM is ready the benches come up, the recorded faults are applied, and the
transport and storage engines serve (Table 1.4). -/
def stepSeven (s : State) : State :=
  if s.classReady 4 = false ∨ s.classReady 2 = false ∨ s.bit RLT_STATUS_READY then s
  else
    let failed := match s.load? 4 with
      | some x => x.ready.filter (fun k => decide (32 ≤ k))
      | none => []
    let s := ((List.range 18).filter (fun k => !failed.contains (k + 32))).foldl (fun t k => benchUp k t) s
    let l := s.health.permanent
    let s := l.foldl (fun t p => applyPermanent p t) { s with health := { s.health with permanent := [] } }
    serveStorage (s.wr RLT_STATUS_READY 1)

/-- Both privileged units are ready: BOOT_STATE 2, strikes and cause clear, the islands of the hub and the root ports are
released, admission and management serve; ports that stayed up in minimal mode have their functions again (R457, R458, R461,
R462). -/
def privilegedReady (s : State) : State :=
  if s.rd SVY_BOOT_STATUS_STATE = 2 ∨ s.rd SVY_BOOT_STATUS_STATE = 3 then s
  else
    let was := s.rd SVY_BOOT_STATUS_STATE
    let hub := [0xA0, 0xA1, 0xA3, 0xA9] ++ ((List.range 48).filter s.portIsRoot).map (fun p => 0x40 + p)
    let s := releaseNodes hub (setBootState 2 (setCause 0 0 0 0 (setStrikes 0 s)))
    let s := s.wr ADM_STATUS_READY 1
    let s := if was = 4 then (s.endpoints.filter s.linkUp).foldl (fun t p => (List.range 8).foldl (fun u f => sampleFunc p f u) t) s else s
    loadNext s

/-- Every unit has reported ready: RWL fields are sealed and BOOT_STATE is 3 (R457). -/
def fullService (s : State) : State :=
  if s.rd SVY_BOOT_STATUS_STATE = 2 ∧ (List.range 6).all (fun c => s.imgState c == 2 && s.classReady c) then
    setBootState 3 (s.wr SVY_BOOT_STATUS_SEALED 1)
  else s

/-- UNIT_READY: a unit of a class whose tag matched reports ready. ok false: a bench whose known-answer tests failed, which
stays NOT_READY and is reported by survey (R320, R456, R457, R489). -/
def execUnitReady (cls unit : Nat) (ok : Bool) (s : State) : Host.Outcome State Fault Refusal :=
  match s.load? cls with
  | none => .next s
  | some x =>
    if x.matched = false ∨ unitsOf cls ≤ unit ∨ x.ready.contains unit then .next s
    else
      let bad : Bool := decide (cls = 4) && !ok
      let s := s.setLoad cls { x with ready := if bad then unit :: (unit + 32) :: x.ready else unit :: x.ready }
      let s := if bad then surveyRec 5 7 unit 0 [] 0 s else s
      if s.classReady cls = false then .next s
      else if cls = 0 then
        if s.imgState 1 = 0 ∨ s.imgState 1 = 4 then
          let (ok, s) := loadClass 1 s
          .next (if ok then s else classFails 1 s)
        else .next (if s.classReady 1 then privilegedReady s else s)
      else if cls = 1 then .next (if s.classReady 0 then privilegedReady s else s)
      else .next (fullService (stepSeven (loadNext s)))

/-- UNIT_READY_TIMEOUT: 100 ms after its tag matched a unit has not reported: reason 8, and the attempt fails (R456). -/
def execUnitReadyTimeout (cls unit : Nat) (s : State) : Host.Outcome State Fault Refusal :=
  match s.load? cls with
  | none => .next s
  | some x =>
    if x.matched = false ∨ unitsOf cls ≤ unit ∨ x.ready.contains unit then .next s
    else
      let s := if cls = 4 then surveyRec 5 7 unit 0 [] 0 s else if cls = 5 then surveyRec 5 7 (0x100 + unit) 0 [] 0 s else s
      .next (attemptFails cls 8 s)

/-- HOLD_REGION_WRITE_FAULT: a party's write to a locked hold region is refused by the memory firewall: the fault is latched, the
unit restarted from flash, and the attempt counts as failed with reason 7 (R30, R455). -/
def execHoldRegionWriteFault (cls : Nat) (who : Party) (addr : Nat) (s : State) : Host.Outcome State Fault Refusal :=
  match s.load? cls with
  | none => .next s
  | some x =>
    if x.chunks = 0 then .next s
    else .next (attemptFails cls 7 (protEvent who addr true none (s.wr (SVY_IMG_STATUS_HOLD_FAULT cls) 1)))

/-- MINIMAL_RETRY: one more attempt at the privileged classes in minimal mode (R462). -/
def execMinimalRetry (s : State) : Host.Outcome State Fault Refusal :=
  if s.rd SVY_BOOT_STATUS_STATE ≠ 4 ∨ s.boot.found.cause ≠ 0 ∨ s.boot.found.accepted = false then .next s
  else
    match [0, 1].find? (fun c => s.imgState c != 1 && !s.classReady c) with
    | none => .next s
    | some c =>
      let (ok, s) := loadClass c s
      .next (if ok then s else classFails c s)

/-! ## Commit (R466) -/

/-- A write of a class to SVY_COMMIT. -/
def commitClass (c : Nat) (s : State) : State :=
  match s.load? c with
  | none => s.wr SVY_BOOT_STATUS_COMMIT_ERR 1
  | some x =>
    if x.matched ∧ s.copyState c x.copy = 2 then
      let s := saveRecord (setCopy c x.copy 0 s)
      { s with boot := { s.boot with
        runTime := tblPut s.boot.runTime c 0
        runSince := tblPut s.boot.runSince c s.ns } }
    else s.wr SVY_BOOT_STATUS_COMMIT_ERR 1

/-- SVY_COMMIT (R466). -/
def execSvyCommit (cls : Nat) (s : State) : Host.Outcome State Fault Refusal := .next (commitClass cls s)

/-- Add a class's running time since the last addition to its committed running time; at HOURS the floor rises to the running
version, never falling, and the time clears. -/
def addRunTime (c since : Nat) (s : State) : State :=
  let t := tblGetD 0 s.boot.runTime c + (s.ns - since)
  if s.rd SVY_COMMIT_CFG_HOURS * 3600000000000 ≤ t then
    { s with boot := { s.boot with
      floors := tblPut s.boot.floors c (max (s.floor c) (s.rd (SVY_IMG_STATUS_VERSION c)))
      runTime := tblDel s.boot.runTime c
      runSince := tblDel s.boot.runSince c } }
  else { s with boot := { s.boot with runTime := tblPut s.boot.runTime c t, runSince := tblPut s.boot.runSince c s.ns } }

/-- COMMIT_TIME_UPDATE: the boot record takes the committed running times; deferred during a Surveyor restart (R466, R481). -/
def execCommitTimeUpdate (s : State) : Host.Outcome State Fault Refusal :=
  if s.health.restarting ∨ s.boot.runSince = [] then .next s
  else .next (saveRecord (s.boot.runSince.foldl (fun t x => addRunTime x.1 x.2 t) s))

/-! ## Packages (R463-R471) -/

/-- Size of the staging buffer: 4 MiB until HBM is ready, 64 MiB after (R470). -/
def State.stagingSize (s : State) : Nat := if s.classReady 2 then 0x4000000 else 0x400000

/-- Rounded up to a multiple of 64. -/
def up64 (n : Nat) : Nat := (n + 63) / 64 * 64

/-- Lengths of a public key and a signature under an ALG (Table 17.5A). -/
def algLengths (alg : Nat) : Nat × Nat := if alg = 1 then (2592, 4627) else (97, 96)

/-- The package's form is right: check 0x01 of Table 17.7. -/
def State.pkgForm (s : State) (len : Nat) : Bool :=
  let kind := s.pkgN 6 1
  let cls := s.pkgN 7 1
  let body := s.pkgN 12 4
  let (pk, sig) := algLengths (s.pkgN 16 1)
  decide (256 ≤ len) && decide (len ≤ s.stagingSize) && s.pkgN 0 4 == 0x314B5246 && s.pkgN 4 2 == 1
    && decide (1 ≤ kind) && decide (kind ≤ 3)
    && (if kind = 1 then decide (cls ≤ 5) && body % 64 == 0 && decide (0 < body) && decide (body ≤ maxBody cls) && decide (s.pkgN 88 4 < body)
        else body == 0 && (if kind = 3 then decide (cls ≤ 3) else cls == 0))
    && (s.pkgN 16 1 == 1 || s.pkgN 16 1 == 2) && decide (s.pkgN 17 1 ≤ 3) && s.pkgN 18 2 == 0
    && s.pkgN 20 4 == pk && s.pkgN 24 4 == sig && (kind == 2 || s.pkgN 28 4 == 0) && s.pkgN 92 164 == 0
    && len == 256 + up64 pk + up64 body + sig

/-- Slots not revoked. -/
def State.liveSlots (s : State) : List Nat := (List.range 4).filter (fun n => !s.slotRevoked n)

/-- RESULT of the package in the staging buffer: the first check of Table 17.7 that fails (R464, R467-R469). -/
def State.pkgResult (s : State) (len : Nat) : Nat :=
  if s.pkgForm len = false then 0x01
  else
    let kind := s.pkgN 6 1
    let cls := s.pkgN 7 1
    let slot := s.pkgN 17 1
    let pk := s.pkgN 20 4
    let bodyLen := s.pkgN 12 4
    let body := s.staged (256 + up64 pk) bodyLen
    let signed := 256 + up64 pk + up64 bodyLen
    let serial := s.pkgN 32 8
    if Config.sha384 body ≠ BitVec.ofNat 384 (ofLe (s.staged 40 48)) then 0x02
    else if s.slotRevoked slot ∨ s.slotFilled slot = false then 0x04
    else if Config.sha384 (s.staged 256 pk) ≠ Config.slotHash slot then 0x05
    else if Config.verifies (s.pkgN 16 1) (s.staged 256 pk) (s.staged 0 signed) (s.staged signed (s.pkgN 24 4)) = false then 0x03
    else if (serial ≠ 0 ∧ serial ≠ Config.fusedSerial.toNat) ∨ (serial = 0 ∧ kind ≠ 1) then 0x07
    else if kind = 1 ∧ s.pkgN 8 4 < s.floor cls then 0x06
    else if kind = 2 ∧ (s.pkgN 28 4 ≤ s.epoch ∨ 63 < s.pkgN 28 4) then 0x08
    else if kind = 3 ∧ (cls = slot ∨ (s.liveSlots.filter (· != cls)).isEmpty) then 0x0B
    else 0x00

/-- A party holds the data port (R514). -/
def State.holdsPort (s : State) (who : Party) : Bool :=
  match who with
  | .host p f => s.rd SVY_DP_LOCK_OWNER == 1 && s.rd SVY_DP_LOCK_PORT == p && f == 0
  | .bmc => s.rd SVY_DP_LOCK_OWNER == 2
  | .surveyor => false
  | .firmware _ => false

/-- An access to the data port is refused. -/
def dpDeny (s : State) : State := s.wr SVY_DP_STATUS_DENIED 1

/-- A package's check ended with a RESULT: BUSY clears and a notice is posted. -/
def endPackage (result : Nat) (s : State) : State :=
  let s := (s.wr SVY_RECOV_STATUS_RESULT result).wr SVY_RECOV_STATUS_BUSY 0
  postNotice { s with boot := { s.boot with installing := 0 } }

/-- Check the package of a length in the staging buffer: it is refused, or stays BUSY to be acted on. -/
def checkPackage (len : Nat) (s : State) : State :=
  let s := s.wr SVY_RECOV_STATUS_BUSY 1
  let r := s.pkgResult len
  if r = 0 then { s with boot := { s.boot with installing := s.pkgN 6 1 } } else endPackage r s

/-- A write of 1 to SUBMIT by a party: ignored while BUSY; denied to a party that does not hold the data port, and while a
firmware update owns the staging buffer (R470, R510, R514). -/
def submitPackage (who : Party) (s : State) : State :=
  if s.holdsPort who = false ∨ s.mgmt.update.isSome then dpDeny s
  else if s.bit SVY_RECOV_STATUS_BUSY then s
  else checkPackage (s.rd SVY_RECOV_LEN_LEN) s

/-- Header under which the package's image is sealed (Table 17.2). -/
def State.sealedHeader (s : State) : Bytes :=
  let cls := s.pkgN 7 1
  let len := s.pkgN 12 4
  let h := leBytes 4 0x534B5246 ++ leBytes 1 cls ++ [0] ++ leBytes 2 1 ++ leBytes 4 (s.pkgN 8 4) ++ leBytes 4 len ++ leBytes 4 s.epoch
    ++ leBytes 4 (s.pkgN 88 4) ++ List.replicate 8 0 ++ s.staged 40 48
  h ++ leBytes 48 (Config.sealTag s.epoch (h ++ s.staged (256 + up64 (s.pkgN 20 4)) len)).toNat

/-- Write an image to a copy in flash. -/
def writeCopy (c dev st : Nat) (h : Bytes) (s : State) : State :=
  let s := (setCopy c dev st s).emit (.flash dev 1)
  { s with boot := { s.boot with headers := tblPut s.boot.headers (copyKey c dev) h } }

/-- Write the image of the package that passed: in BOOT_STATE 3 into the copy not preferred, PENDING; otherwise, and for a class
that waits or failed, into both, COMMITTED, and the class is loaded at once, a cluster image once HBM holds its hold region (R457,
R465, R471). -/
def installImage (s : State) : State :=
  let c := s.pkgN 7 1
  let h := s.sealedHeader
  if s.rd SVY_BOOT_STATUS_STATE = 3 ∧ s.imgState c ≠ 3 ∧ s.imgState c ≠ 4 then saveRecord (writeCopy c (1 - s.preferred c) 1 h s)
  else
    let s := resetClass c (saveRecord (writeCopy c 0 0 h (writeCopy c 1 0 h s)))
    if c = 5 ∧ s.classReady 2 = false then
      { (s.wr (SVY_IMG_STATUS_STATE 5) 0) with boot := { s.boot with loads := tblDel s.boot.loads 5 } }
    else
      let (ok, s) := loadClass c s
      if ok then s else classFails c s

/-- IMAGE_PACKAGE_INSTALL: an image package that passed is sealed into flash; ok false: the flash write failed (R465). -/
def execImagePackageInstall (ok : Bool) (s : State) : Host.Outcome State Fault Refusal :=
  if s.boot.installing ≠ 1 ∨ s.mgmt.update.isSome then .next s
  else .next (endPackage (if ok then 0 else 0x09) (if ok then installImage s else failInstall s))

/-- EPOCH_ADVANCE: for each epoch up to TARGET_EPOCH the boot record is resealed and one fuse blown, and the SA re-wrap starts under
the new epoch's wrapping key; ok false: the boot record could not be written, and the epoch stays (R323, R468, Table 17.7). -/
def execEpochAdvance (ok : Bool) (s : State) : Host.Outcome State Fault Refusal :=
  if s.boot.installing ≠ 2 then .next s
  else if ok = false then .next (endPackage 0x09 s)
  else
    let target := s.pkgN 28 4
    let s := (List.range (target - s.epoch)).foldl (fun t _ => saveRecord t) s
    let f := putField (s.boot.fuses.setWidth 64) 0 6 target
    let s := { s with
      boot := { s.boot with fuses := f.setWidth 32 }
      cipher := { s.cipher with wrapKeys := tblPut s.cipher.wrapKeys target (Config.wrapKey target) } }
    .next (endPackage 0 (s.wr CPH_STATUS_REWRAP 1))

/-- OWNER_SLOT_REVOKE: the revocation fuse of slot CLASS is blown (R469). -/
def execOwnerSlotRevoke (s : State) : Host.Outcome State Fault Refusal :=
  if s.boot.installing ≠ 3 then .next s
  else
    let f := s.boot.fuses ||| BitVec.ofNat 32 (2 ^ (6 + s.pkgN 7 1))
    .next (endPackage 0 { s with boot := { s.boot with fuses := f } })

/-- NOTICE_ACK (R473). -/
def execNoticeAck (s : State) : Host.Outcome State Fault Refusal := .next { s with boot := { s.boot with noticeOpen := false } }

end Sys2Proof.Machine
end

