-- ==== Sys2Proof/Machine/HealthCmd.lean ====
section
/-! DEFINITION. Memory repair and poison, lockstep restarts, health messages, the protection log, survey, consumables and the
health commands (spec 18, R477-R498). -/

namespace Sys2Proof.Machine

/-! ## Memory (R477, R478, R482) -/

/-- Unit number of an HBM channel in the fault log (Table 18.6), or the hub's node for hub SRAM. -/
def memUnit (channel : Option Nat) : Nat := match channel with | some n => n % 64 | none => 0xA9

/-- A bank of a channel, numbered over the device. -/
def bankKey (channel bank : Nat) : Nat := channel % 64 + 64 * bank

/-- HBM_ROW_REPAIR: a row of a bank that returned 16 corrected errors within 24 h is copied into a free repair row and redirected to
it; with none left there is nothing to repair it with. The bank's eighth repair row sets HBM_LOW (R478). -/
def execHbmRowRepair (channel bank row : Nat) (s : State) : Host.Outcome State Fault Refusal :=
  let b := bankKey channel bank
  let used := tblGetD 0 s.health.repairs b
  if 8 ≤ used then .next s
  else
    let s := { s with health := { s.health with
      repairs := tblPut s.health.repairs b (used + 1)
      redirected := (b, row, used) :: s.health.redirected.filter (fun x => x.1 != b || x.2.1 != row) } }
    let last := used + 1 == 8
    let s := if last then s.wr HLT_SPARE_HBM_LOW 1 else s
    .next (updateHealth (raise HLT_EVENT_HBM_REPAIR (logFault 0x0B (memUnit (some channel)) true false last s)))

/-- UNCORRECTABLE_ERROR: an error beyond correction in an HBM channel, or (none) in hub SRAM: the lines read poisoned from then
on, the fault is logged and is beyond the model, and every contract is BROKEN, since every path uses the memory (R478, R482,
R76). -/
def execUncorrectableError (channel : Option Nat) (lines : List Nat) (s : State) : Host.Outcome State Fault Refusal :=
  let s := { s with health := { s.health with poisoned := lines.foldl (fun l a => if l.contains a then l else a :: l) s.health.poisoned } }
  let s := logFault 0x0E (memUnit channel) false true false s
  .next (beyondModel 4 (breakWhere (fun _ => true) 2 s))

/-- MEMORY_SCRUB: a scrub pass corrected some errors; they are counted and logged in no other way (R477). -/
def execMemoryScrub (corrected : Nat) (s : State) : Host.Outcome State Fault Refusal :=
  .next { s with health := { s.health with scrubbed := s.health.scrubbed + corrected } }

/-! ## Surveyor lockstep (R481) -/

/-- The update that a Surveyor restart ends, and the check it ran (R510). -/
def dropUpdate (s : State) : State :=
  if s.mgmt.update.isSome then
    ({ s with mgmt := { s.mgmt with update := none, cancel := none } }).wr SVY_RECOV_STATUS_BUSY (if s.boot.installing = 0 then 0 else 1)
  else s

/-- Restart the Surveyor island alone: class 0 is loaded again; admission and management are not ready. -/
def restartSurveyor (s : State) : State :=
  let s := dropUpdate { s with health := { s.health with restarting := true } }
  let s := (s.wr ADM_STATUS_READY 0).wr MGT_STATUS_READY 0
  let (ok, s) := loadClass 0 s
  if ok then s else classFails 0 s

/-- LOCKSTEP_MISMATCH: in BOOT_STATE 3 the island restarts, and a third mismatch within 1 h is beyond the model; earlier the start
fails; in minimal mode the ROM goes on (R460, R461, R481). -/
def execLockstepMismatch (s : State) : Host.Outcome State Fault Refusal :=
  let st := s.rd SVY_BOOT_STATUS_STATE
  if st = 3 then
    let now := s.ns / 1000000000
    let recent := now :: (s.health.mismatches.filter (fun t => decide (now < t + 3600)))
    let s := { s with health := { s.health with mismatches := recent } }
    let third : Bool := decide (3 ≤ recent.length)
    let s := logFault 0x0D 0xA2 false third false s
    let s := if third then beyondModel 5 s else s
    .next (if s.health.restarting then s else restartSurveyor s)
  else if st = 1 ∨ st = 2 then .next (startFails 5 0 (logFault 0x0D 0xA2 false false false s))
  else .next s

/-- SURVEYOR_RESTART_DONE: class 0 runs and reported ready: the island resumes service, and the boot record takes what was
deferred (R481). -/
def execSurveyorRestartDone (s : State) : Host.Outcome State Fault Refusal :=
  if s.health.restarting ∧ s.classReady 0 then
    let s := { s with health := { s.health with restarting := false, consSaved := s.health.cons } }
    .next (saveRecord ((s.wr ADM_STATUS_READY 1).wr MGT_STATUS_READY 1))
  else .next s

/-! ## Health messages and the protection log (R486, R488) -/

/-- HEALTH_COAL_EXPIRY: the COAL_US interval of a port ends: a held message is sent and opens a new one (R486). -/
def execHealthCoalExpiry (port : Nat) (s : State) : Host.Outcome State Fault Refusal :=
  match tblGet s.health.coal port with
  | none => .next s
  | some held =>
    let s := { s with health := { s.health with coal := tblDel s.health.coal port } }
    .next (if held then notifyPort port s else s)

/-- A write of 1 to HLT_PROT_POP: the oldest entry goes. -/
def popProt (s : State) : State := showProt { s with health := { s.health with protLog := s.health.protLog.drop 1 } }

/-- PROT_LOG_POP (R488). -/
def execProtLogPop (s : State) : Host.Outcome State Fault Refusal := .next (popProt s)

/-! ## Survey (R490) -/

/-- Records written and not read. -/
def State.unreadSurvey (s : State) : Nat := (s.rd HLT_SURV_WR_COUNT + 2 ^ 32 - s.rd HLT_SURV_RD_COUNT) % 2 ^ 32

/-- A write to HLT_SURV_RD moves it forward; a value beyond HLT_SURV_WR, and so one behind HLT_SURV_RD, is stored as HLT_SURV_WR
(R490, Table 18.6). -/
def surveyAdvance (v : Nat) (s : State) : State :=
  let ahead := (v % 2 ^ 32 + 2 ^ 32 - s.rd HLT_SURV_RD_COUNT) % 2 ^ 32
  s.wr HLT_SURV_RD_COUNT (if ahead ≤ s.unreadSurvey then v else s.rd HLT_SURV_WR_COUNT)

/-- SURVEY_READ_ADVANCE (R490). -/
def execSurveyReadAdvance (value : Nat) (s : State) : Host.Outcome State Fault Refusal := .next (surveyAdvance value s)

/-- Pad or cut bytes to a length. -/
def padTo (n : Nat) (fill : Byte) (bs : Bytes) : Bytes := (bs ++ List.replicate n fill).take n

/-- A survey record as Table 18.5 lays it out: text serials are padded with spaces, binary ones with 0. -/
def SurveyRec.bytes (r : SurveyRec) : Bytes :=
  let text := r.kind == 3 || (r.kind == 2 && r.detail / 256 != 0x0502)
  leBytes 1 r.kind ++ leBytes 1 r.event ++ leBytes 2 r.index ++ leBytes 4 r.detail ++ leBytes 8 r.time.toNat
    ++ (if text then padTo 20 0x20 r.serial else padTo 20 0 r.serial) ++ leBytes 4 r.vendor ++ List.replicate 24 0

/-- The 64 bytes at a place of the survey ring; a place never written reads 0. -/
def State.surveyBytes (s : State) (i : Nat) : Bytes :=
  match tblGet s.health.survey (i % 256) with
  | some r => r.bytes
  | none => List.replicate 64 0

/-! ## Consumables (R492-R495) -/

/-- A consumables record as Table 18.8 lays it out. Records of host ports count only while the port is a root port. -/
def State.consBytes (s : State) (i : Nat) : Bytes :=
  let c := (tblGetD Consumable.fresh s.health.cons i).upTo s.ns
  if c.valid = false ∨ 80 ≤ i ∨ (32 ≤ i ∧ s.portIsRoot (i - 32) = false) then List.replicate 64 0
  else
    let flags := 1 + c.kind * 2 + (if c.present then 8 else 0) + (if c.soon then 16 else 0)
    leBytes 1 flags ++ leBytes 1 c.wear ++ [0, 0] ++ leBytes 4 (c.onTime / 3600000000000) ++ leBytes 8 c.firstSeen ++ leBytes 8 c.replaceBy
      ++ (if c.kind = 3 then padTo 20 0 c.serial else padTo 20 0x20 c.serial) ++ leBytes 4 c.vendor ++ leBytes 8 c.metric ++ List.replicate 8 0

/-- WEAR of a lane in percent, not clamped above; none where the alarm threshold is not above the first bias (R493). -/
def laneWear (i i0 alarm : Nat) : Option Nat := if alarm ≤ i0 then none else some (100 * (i - i0) / (alarm - i0))

/-- The greatest of what lanes give, with the lane's bias. -/
def worstLane : List (Nat × Nat) → List Nat → Option (Nat × Nat)
  | (i, alarm) :: rest, i0 :: more =>
    match laneWear i i0 alarm, worstLane rest more with
    | some w, some (v, j) => if v ≤ w then some (w, i) else some (v, j)
    | some w, none => some (w, i)
    | none, x => x
  | _, _ => none

/-- WEAR and METRIC of a reading (R493); an expander that reports no Life Used is measured against CXL_ERR_BUDGET. Where no lane
of a module has a threshold above its first bias the spec gives no WEAR: a free one. -/
def wearOf (c : Consumable) (r : WearReading) (s : State) : Nat × Nat :=
  match r with
  | .optical lanes =>
    match worstLane lanes c.bias0 with
    | some (w, i) => (min w 100, i)
    | none => (s.draw.toNat % 101, (lanes.headD (0, 0)).1)
  | .nvme used units => (min used 100, units)
  | .expander life errors =>
    (min (match life with | some l => l | none => 100 * errors / s.rd HLT_CONS_CFG_CXL_ERR_BUDGET) 100, errors)

/-- A reading is of a kind of part (Table 18.8). -/
def readingFits (kind : Nat) : WearReading → Bool
  | .optical _ => kind == 1
  | .nvme _ _ => kind == 2
  | .expander _ _ => kind == 3

/-- Sum of a list of integers. -/
def sumInt (l : List Int) : Int := l.foldl (· + ·) 0

/-- The Datum second at which the least-squares line through (second, wear) samples reaches 100; 0 when its slope is not above 0
(R494). -/
def lineTo100 (l : List (Nat × Nat)) : Nat :=
  let n : Int := l.length
  let sx := sumInt (l.map (fun p => (p.1 : Int)))
  let sy := sumInt (l.map (fun p => (p.2 : Int)))
  let a := n * sumInt (l.map (fun p => (p.1 : Int) * p.2)) - sx * sy
  let b := n * sumInt (l.map (fun p => (p.1 : Int) * p.1)) - sx * sx
  if a ≤ 0 ∨ b ≤ 0 then 0 else ((sx * a + (100 * n - sy) * b) / (n * a)).toNat

/-- REPLACE_BY of samples, newest first, in Datum ns: 0 while they span fewer than 7 days (R494). -/
def replaceBy (l : List (Nat × Nat)) : Nat :=
  match l, l.getLast? with
  | (t, _) :: _, some (u, _) => if t < u + 7 * 86400 then 0 else lineTo100 l * 1000000000
  | _, _ => 0

/-- Take a wear sample into a record: 30 days of samples are kept, REPLACE_BY and SOON recomputed. -/
def sampleWear (c : Consumable) (r : WearReading) (s : State) : Consumable :=
  let c := c.upTo s.ns
  let first : List Nat := match r with | .optical lanes => lanes.map (·.1) | _ => []
  let c := if c.bias0 = [] then { c with bias0 := first } else c
  let now := s.ns / 1000000000
  let (w, m) := wearOf c r s
  let l := (now, w) :: c.samples.filter (fun p => decide (now ≤ p.1 + 30 * 86400))
  let by' := replaceBy l
  let soon : Bool := w == 100 || (by' != 0 && decide (by' ≤ s.ns + s.rd HLT_CONS_CFG_WARN_DAYS * 86400 * 1000000000))
  { c with wear := w, metric := m, samples := l, replaceBy := by', soon := soon }

/-- A free value was drawn for an optical reading. -/
def drawReading (r : WearReading) (s : State) : State := match r with | .optical _ => s.drawn | _ => s

/-- WEAR_SAMPLE: the wear of a present attachment is read; SOON raises HLT_EVENT.CONS (R493, R494). -/
def execWearSample (record : Nat) (reading : WearReading) (s : State) : Host.Outcome State Fault Refusal :=
  let c := tblGetD Consumable.fresh s.health.cons record
  if c.present = false ∨ readingFits c.kind reading = false then .next s
  else
    let c' := sampleWear c reading s
    let s := { s with health := { s.health with cons := tblPut s.health.cons record c' } }
    let s := drawReading reading s
    .next (if c'.soon ∧ c.soon = false then raise HLT_EVENT_CONS s else s)

/-- CONSUMABLES_SAVE: the boot record takes the consumables records; deferred during a Surveyor restart (R481, R495). -/
def execConsumablesSave (s : State) : Host.Outcome State Fault Refusal :=
  if s.health.restarting then .next s
  else
    let now : Nat → Consumable → Consumable := fun _ c => c.upTo s.ns
    let cons := tblMap now s.health.cons
    .next (saveRecord { s with health := { s.health with cons := cons, consSaved := cons } })

/-! ## Health commands (R496-R498) -/

/-- The fault log, oldest entry first, places that hold none last (Table 18.12). -/
def State.faultLog (s : State) : Bytes :=
  let oldest := if s.rd HLT_FAULT_CNT_COUNT < 32 then 0 else s.rd HLT_FAULT_CNT_COUNT
  (List.range 32).flatMap (fun k =>
    let r := (oldest + k) % 32
    leBytes 8 (s.reg (HLT_FAULT r)).toNat ++ leBytes 8 (s.reg (HLT_FAULT_T r)).toNat)

/-- The health snapshot, Table 18.12. -/
def State.snapshot (s : State) : Bytes :=
  leBytes 4 (s.reg HLT_STATUS).toNat ++ leBytes 4 (s.reg HLT_SPARE).toNat ++ leBytes 4 (s.summary s.boot.noticeOpen)
    ++ leBytes 4 (s.rd HLT_FAULT_CNT_COUNT) ++ leBytes 4 (s.reg SVY_BOOT_STATUS).toNat ++ leBytes 4 (s.reg SVY_BOOT_CAUSE).toNat
    ++ List.replicate 40 0 ++ s.faultLog ++ (List.range 80).flatMap s.consBytes

/-- Bytes 56-63 of a health completion. -/
def healthBody (s : State) (l : Body) : Body := l ++ [(56, 8, s.dshort.toNat)]

/-- Run a health command on the admin ring of a sheet of function 0; on any other sheet it completes with 0x0401. During a
Surveyor restart the commands wait (R496). -/
def healthGate (ring op : Nat) (f : Ring → Entry → State → State × Nat × Body) (s : State) : Host.Outcome State Fault Refusal :=
  if s.health.restarting then .next s
  else .next (runEntry ring (· == op) (fun r j t =>
    if t.sheetPf r.sheet ≠ 0 then (t, 0x0401, healthBody t []) else f r j.first t) s)

/-- HLT_SNAPSHOT; permitted: ATS gave permission for the buffer (R497, R498). -/
def execHltSnapshot (ring : Nat) (permitted : Bool) (s : State) : Host.Outcome State Fault Refusal :=
  healthGate ring 0x70 (fun r e t =>
    if eN e 8 8 % 64 ≠ 0 then (t, 0x0103, healthBody t [])
    else if eN e 16 4 < 5696 then (t, 0x0304, healthBody t [])
    else if permitted = false then (t, 0x0602, healthBody t [])
    else (sheetWrite r.sheet (eN e 8 8) t.snapshot t, 0, healthBody t [(16, 4, 5696)])) s

/-- SURVEY_DRAIN; permitted: ATS gave permission for the buffer (R497, R498). -/
def execSurveyDrain (ring : Nat) (permitted : Bool) (s : State) : Host.Outcome State Fault Refusal :=
  healthGate ring 0x71 (fun r e t =>
    let pos : Body := [(24, 4, t.rd HLT_SURV_RD_COUNT), (28, 4, t.rd HLT_SURV_LOST_COUNT)]
    if eN e 8 8 % 64 ≠ 0 ∨ eN e 20 4 = 0 ∨ 256 < eN e 20 4 then (t, 0x0103, healthBody t pos)
    else if eN e 16 4 < 64 then (t, 0x0304, healthBody t pos)
    else if permitted = false then (t, 0x0602, healthBody t pos)
    else
      let n := min (min (eN e 20 4) (eN e 16 4 / 64)) t.unreadSurvey
      let rd := t.rd HLT_SURV_RD_COUNT
      let bs := (List.range n).flatMap (fun k => t.surveyBytes (rd + k))
      let t := if n = 0 then t else sheetWrite r.sheet (eN e 8 8) bs t
      let t := t.wr HLT_SURV_RD_COUNT (rd + n)
      (t, 0, healthBody t [(16, 4, 64 * n), (20, 4, n), (24, 4, t.rd HLT_SURV_RD_COUNT), (28, 4, t.rd HLT_SURV_LOST_COUNT)])) s

end Sys2Proof.Machine
end

