-- ==== Sys2Proof/Machine/Mgmt.lean ====
section
/-! DEFINITION. Management: MCTP control, PLDM monitoring and firmware update, SPDM attestation (spec 19, R501-R513). What the
chapter takes from the DMTF and MIPI documents it names is in notes/assumptions/40. Bindings: 0 I3C, 1 SMBus, 2 + n the
VDM path of host port n. -/

namespace Sys2Proof.Machine

/-- Send a message: binding, MCTP message type (Table 19.1), command or code, the bytes after it. -/
def respond (b kind code : Nat) (bs : Bytes) (s : State) : State := sendMctp b kind code bs s

/-- A message can come on a binding: I3C, SMBus, or the VDM path of function 0 of an endpoint port whose link is up (R503). -/
def State.hasBinding (s : State) (b : Nat) : Bool := decide (b < 2) || (s.portIsEndpoint (b - 2) && s.linkUp (b - 2))

/-- The responder serves requests of a binding: it runs or the device is in minimal mode, no Surveyor restart is in progress,
and fewer than 4 requests of the binding are outstanding (R504, R505). -/
def State.mgmtReady (s : State) (b : Nat) : Bool :=
  (s.bit MGT_STATUS_READY || s.rd SVY_BOOT_STATUS_STATE == 4) && !s.health.restarting
    && decide (tblGetD 0 s.mgmt.outstanding b < 4)

/-- The not-ready answer of a message type (R505). -/
def notReady (b kind code : Nat) (s : State) : State :=
  if kind = 1 then respond b 1 code [0x04] s
  else if kind = 5 then respond b 5 0x7F [0x03, 0x00] s
  else if kind = 0x7E then respond b 0x7E code [0x01] s
  else s

/-- Serve a request, or answer it as not ready. A request on a binding the device does not have reaches nothing. -/
def serve (b kind code : Nat) (f : State → State) (s : State) : Host.Outcome State Fault Refusal :=
  if s.hasBinding b = false then .next s
  else if s.mgmtReady b then .next (f s)
  else .next (notReady b kind code s)

/-- MCTP_NOT_READY: a request that the responder cannot serve (R505). -/
def execMctpNotReady (b kind code : Nat) (s : State) : Host.Outcome State Fault Refusal := serve b kind code id s

/-- MCTP_MESSAGE_DISCARD: a message of an unaccepted type, longer than 4,224 bytes, or with a bad PEC has no effect (R502,
R503). -/
def execMctpMessageDiscard (s : State) : Host.Outcome State Fault Refusal := .next s

/-! ## MCTP control and addresses (R501, R503) -/

/-- EID of a binding. -/
def State.eid (s : State) (b : Nat) : Nat :=
  if b = 0 then s.rd MGT_STATUS_EID_I3C else if b = 1 then s.rd MGT_STATUS_EID_SMB else tblGetD 0 s.mgmt.eidVdm (b - 2)

/-- Set the EID of a binding. -/
def setEid (b eid : Nat) (s : State) : State :=
  if b = 0 then s.wr MGT_STATUS_EID_I3C eid
  else if b = 1 then s.wr MGT_STATUS_EID_SMB eid
  else { s with mgmt := { s.mgmt with eidVdm := tblPut s.mgmt.eidVdm (b - 2) eid } }

/-- MCTP control, served at all times: 1 Set Endpoint ID (operation and EID), 2 Get Endpoint ID, 4 Get MCTP Version Support, 5
Get Message Type Support; any other command is unsupported (R503, R505). -/
def mctpControl (b cmd op eid : Nat) (s : State) : State :=
  match cmd with
  | 1 =>
    if op ≤ 1 ∧ 8 ≤ eid ∧ eid ≤ 254 then respond b 0 1 ([0x00, 0x00] ++ leBytes 1 eid ++ [0x00]) (setEid b eid s)
    else respond b 0 1 [0x02] s
  | 2 => respond b 0 2 ([0x00] ++ leBytes 1 (s.eid b) ++ [0x00, 0x00]) s
  | 4 => respond b 0 4 [0x00, 0x01, 0xF1, 0xF3, 0xF1, 0x00] s
  | 5 => respond b 0 5 [0x00, 0x04, 0x00, 0x01, 0x05, 0x7E] s
  | _ => respond b 0 cmd [0x05] s

/-- MCTP_CONTROL (R503). -/
def execMctpControl (b cmd op eid : Nat) (s : State) : Host.Outcome State Fault Refusal :=
  .next (if s.hasBinding b then mctpControl b cmd op eid s else s)

/-- I3C_ADDRESS_ASSIGN: SETDASA to the static address of the board record, or ENTDAA (none), gives the dynamic address (R501). -/
def execI3cAddressAssign (static : Option Nat) (dynamic : Nat) (s : State) : Host.Outcome State Fault Refusal :=
  match static with
  | none => .next { s with mgmt := { s.mgmt with i3cDynamic := some dynamic } }
  | some _ =>
    if static = s.mgmt.i3cStatic then .next { s with mgmt := { s.mgmt with i3cDynamic := some dynamic } } else .next s

/-! ## PLDM monitoring (R507, R508) -/

/-- PLDM_GET_PDR: a record of the fixed repository, or INVALID_RECORD_HANDLE. -/
def execPldmGetPdr (b handle : Nat) (s : State) : Host.Outcome State Fault Refusal :=
  serve b 1 0x51 (fun t => respond b 1 0x51 (if Config.pdr handle = [] then [0x82] else [0x00] ++ Config.pdr handle) t) s

/-- A temperature register in whole degrees (R539). -/
def degrees (x : Nat) : Int := signed 12 x / 8

/-- Highest WEAR over present consumables records. -/
def State.maxWear (s : State) : Nat := s.health.cons.foldl (fun m c => if c.2.present then max m c.2.wear else m) 0

/-- Reading of a numeric sensor (Table 19.3). -/
def State.numericSensor (s : State) (id : Nat) : Option Int :=
  if id = 10 then some (degrees (s.rd SVY_THERM_STATUS_MAX))
  else if id = 11 then some (s.rd SVY_POWER_PKG / 8 : Nat)
  else if 12 ≤ id ∧ id ≤ 15 then some (degrees (s.rd (SVY_TEMP_TEMP (id + 8))))
  else if id = 16 then some (s.maxWear : Nat)
  else none

/-- State of a numeric sensor against its thresholds (R538): 1 normal, 8 warning, 9 critical, 10 fatal. -/
def State.sensorState (s : State) (id : Nat) (v : Int) : Nat :=
  let lim : Int × Int × Int := if id = 10 then ((s.rd SVY_THERM_CFG_WARN : Nat), 110, 115)
    else if id = 11 then (580, 4096, 4096) else if id = 16 then (4096, 4096, 4096) else (95, 100, 105)
  if lim.2.2 ≤ v then 10 else if lim.2.1 ≤ v then 9 else if lim.1 ≤ v then 8 else 1

/-- PLDM_GET_SENSOR_READING: a numeric sensor as a 16-bit signed reading, or INVALID_SENSOR_ID (R507). -/
def execPldmGetSensorReading (b sensor : Nat) (s : State) : Host.Outcome State Fault Refusal :=
  serve b 1 0x11 (fun t => match t.numericSensor sensor with
    | none => respond b 1 0x11 [0x80] t
    | some v => respond b 1 0x11 ([0x00, 0x03, 0x00, 0x00] ++ leBytes 1 (t.sensorState sensor v) ++ [0x00, 0x00] ++ leBytes 2 (unsigned 16 v)) t) s

/-- Value of a state sensor (Table 19.3). -/
def State.stateSensor (s : State) (id : Nat) : Option Nat :=
  match id with
  | 1 => some (s.rd HLT_STATUS_HEALTH + 1)
  | 2 => some (if s.bit HLT_STATUS_REPLACE_ME then 2 else 1)
  | 3 => some (s.rd SVY_BOOT_STATUS_STATE)
  | _ => none

/-- PLDM_GET_STATE_SENSOR_READINGS (R507). -/
def execPldmGetStateSensorReadings (b sensor : Nat) (s : State) : Host.Outcome State Fault Refusal :=
  serve b 1 0x21 (fun t => match t.stateSensor sensor with
    | none => respond b 1 0x21 [0x80] t
    | some v => respond b 1 0x21 ([0x00, 0x01, 0x00] ++ leBytes 1 v ++ [0x00, 0x00]) t) s

/-- PLDM_SET_EVENT_RECEIVER: events go to an EID on the binding of the request; enable 0 ends them (R508). -/
def execPldmSetEventReceiver (b eid enable : Nat) (s : State) : Host.Outcome State Fault Refusal :=
  serve b 1 0x04 (fun t =>
    respond b 1 0x04 [0x00] { t with mgmt := { t.mgmt with receiver := if enable = 0 then none else some (b, eid) } }) s

/-- PLDM_EVENT_RETRY: 1 s after an event was sent it is acknowledged and forgotten, or repeated, up to 3 times (R508). -/
def execPldmEventRetry (sensor : Nat) (acked : Bool) (s : State) : Host.Outcome State Fault Refusal :=
  match s.mgmt.unacked.find? (fun x => x.1 == sensor), s.mgmt.receiver with
  | some (_, v, sent), some (b, eid) =>
    let others := s.mgmt.unacked.filter (fun x => x.1 != sensor)
    if acked ∨ 4 ≤ sent then .next { s with mgmt := { s.mgmt with unacked := others } }
    else
      let s := sendMctp b 1 sensor (leBytes 2 v ++ leBytes 1 eid) s
      .next { s with mgmt := { s.mgmt with unacked := others ++ [(sensor, v, sent + 1)] } }
  | _, _ => .next s

/-- Commands that a PLDM type implements (R507). -/
def pldmCommands (typ : Nat) : List Nat :=
  match typ with
  | 0 => [1, 2, 3, 4, 5]
  | 2 => [0x04, 0x0A, 0x11, 0x21, 0x51]
  | 5 => [0x10, 0x15, 0x16, 0x17, 0x18, 0x1A, 0x1D]
  | _ => []

/-- PLDM Base: 1 SetTID, 2 GetTID, 3 GetPLDMVersion of a type, 4 GetPLDMTypes, 5 GetPLDMCommands of a type. -/
def pldmBase (b cmd arg : Nat) (s : State) : State :=
  match cmd with
  | 1 => if arg = 0 ∨ arg = 0xFF then respond b 1 1 [0x02] s else respond b 1 1 [0x00] { s with mgmt := { s.mgmt with tid := arg } }
  | 2 => respond b 1 2 ([0x00] ++ leBytes 1 s.mgmt.tid) s
  | 3 =>
    if (pldmCommands arg).isEmpty then respond b 1 3 [0x83] s
    else respond b 1 3 ([0x00, 0x00, 0x00, 0x00, 0x00, 0x05, 0x00, 0xFF, if arg = 2 then 0xF2 else 0xF1, 0xF1] ++ leBytes 4 s.draw.toNat) s.drawn
  | 4 => respond b 1 4 ([0x00, 0x25] ++ List.replicate 7 0) s
  | 5 => if (pldmCommands arg).isEmpty then respond b 1 5 [0x83] s
         else respond b 1 5 ([0x00] ++ leBytes 32 ((pldmCommands arg).foldl (fun m c => m + 2 ^ c) 0)) s
  | _ => respond b 1 cmd [0x05] s

/-- PLDM_BASE_REQUEST (R507). -/
def execPldmBaseRequest (b cmd arg : Nat) (s : State) : Host.Outcome State Fault Refusal := serve b 1 cmd (pldmBase b cmd arg) s

/-! ## Firmware update (R509, R510) -/

/-- Ask for the next piece of the component image: offset and length. -/
def requestPiece (b off len : Nat) (s : State) : State := respond b 1 0x15 (leBytes 4 off ++ leBytes 4 (min 1024 (len - off))) s

/-- A request of the update came in. -/
def touchUpdate (s : State) : State := { s with mgmt := { s.mgmt with updateTouched := s.ns } }

/-- REQUEST_UPDATE: the staging buffer belongs to the update of a class from now on; refused while another party holds the data
port, while BUSY, and during an update (R510). -/
def execRequestUpdate (b cls len : Nat) (s : State) : Host.Outcome State Fault Refusal :=
  serve b 1 0x10 (fun t =>
    if t.mgmt.update.isSome then respond b 1 0x10 [0x81] t
    else if t.rd SVY_DP_LOCK_OWNER = 1 ∨ t.bit SVY_RECOV_STATUS_BUSY then respond b 1 0x10 [0x8A] t
    else if 6 ≤ cls ∨ len = 0 ∨ t.stagingSize < len then respond b 1 0x10 [0x02] t
    else requestPiece b 0 len (respond b 1 0x10 [0x00] (touchUpdate { t with
      mgmt := { t.mgmt with update := some (cls, len, 0), updateResult := none, cancel := none }
      boot := { t.boot with staging := [] } }))) s

/-- FIRMWARE_DATA_RECEIVE: a piece arrives into the staging buffer and the next is requested; after the last one TransferComplete
is sent and the package check begins (R509). A piece of another length than asked for is asked for again. -/
def execFirmwareDataReceive (b : Nat) (data : Bytes) (s : State) : Host.Outcome State Fault Refusal :=
  serve b 1 0x15 (fun t => match t.mgmt.update with
    | none => respond b 1 0x15 [0x80] t
    | some (cls, len, got) =>
      if len ≤ got then respond b 1 0x15 [0x88] t
      else if data.length ≠ min 1024 (len - got) then requestPiece b got len (touchUpdate t)
      else
        let t := touchUpdate { t with
          boot := { t.boot with staging := memWrite t.boot.staging got data }
          mgmt := { t.mgmt with update := some (cls, len, got + data.length) } }
        if got + data.length = len then respond b 1 0x16 [0x00] (t.wr SVY_RECOV_STATUS_BUSY 1)
        else requestPiece b (got + data.length) len t) s

/-- Answer a CancelUpdate that waited for the check, and end the update. -/
def answerCancel (s : State) : State :=
  match s.mgmt.cancel with
  | none => s
  | some b =>
    respond b 1 0x1D [0x00] { s with mgmt := { s.mgmt with
      update := none
      cancel := none
      outstanding := tblDel s.mgmt.outstanding b } }

/-- RESULT of the package an update brought: the check of R464, and an image package of the component's class. -/
def State.updateCheck (s : State) (cls len : Nat) : Nat :=
  if s.pkgForm len ∧ (s.pkgN 6 1 ≠ 1 ∨ s.pkgN 7 1 ≠ cls) then 0x01 else s.pkgResult len

/-- FIRMWARE_VERIFY_APPLY: the package is checked and, when it passes, written; VerifyComplete and ApplyComplete report. ok false:
the flash write failed (R509). -/
def execFirmwareVerifyApply (b : Nat) (ok : Bool) (s : State) : Host.Outcome State Fault Refusal :=
  match s.mgmt.update with
  | none => .next s
  | some (cls, len, got) =>
    if got ≠ len ∨ s.mgmt.updateResult.isSome then .next s
    else
      let r := s.updateCheck cls len
      let verify : Bytes := if r = 0 then [0x00] else leBytes 1 (0x90 + r % 0x20)
      let s := respond b 1 0x17 verify s
      let done : Nat → State → State := fun result t =>
        answerCancel { endPackage result t with mgmt := { t.mgmt with updateResult := some result } }
      if r ≠ 0 then .next (done r s)
      else if ok then .next (done 0 (respond b 1 0x18 [0x00] (installImage s)))
      else .next (done 0x09 (respond b 1 0x18 [0x02] (failInstall s)))

/-- ACTIVATE_FIRMWARE: reports activation by system reset when the class has a PENDING copy, and that none is needed otherwise; the
update ends. Self-contained activation is not supported (R509, R510). -/
def execActivateFirmware (b : Nat) (selfContained : Bool) (s : State) : Host.Outcome State Fault Refusal :=
  serve b 1 0x1A (fun t => match t.mgmt.update, t.mgmt.updateResult with
    | some (cls, _, _), some 0 =>
      if selfContained then respond b 1 0x1A [0x8C] (touchUpdate t)
      else
        let reset := t.copyState cls 0 == 1 || t.copyState cls 1 == 1
        let t := { t with mgmt := { t.mgmt with update := none, updateResult := none } }
        respond b 1 0x1A (if reset then [0x00] else [0x8B]) t
    | some _, _ => respond b 1 0x1A [0x85] (touchUpdate t)
    | none, _ => respond b 1 0x1A [0x80] t) s

/-- CANCEL_UPDATE: ends the update; once the check has begun it is answered when the check ends (R510). -/
def execCancelUpdate (b : Nat) (s : State) : Host.Outcome State Fault Refusal :=
  serve b 1 0x1D (fun t => match t.mgmt.update with
    | none => respond b 1 0x1D [0x80] t
    | some (_, len, got) =>
      if got = len ∧ t.mgmt.updateResult = none then
        { t with mgmt := { t.mgmt with
          cancel := some b
          outstanding := tblPut t.mgmt.outstanding b (tblGetD 0 t.mgmt.outstanding b + 1) } }
      else respond b 1 0x1D [0x00] { t with mgmt := { t.mgmt with update := none, updateResult := none } }) s

/-- UPDATE_IDLE_TIMEOUT: 60 s without a request: the staging buffer is released (R510). -/
def execUpdateIdleTimeout (s : State) : Host.Outcome State Fault Refusal :=
  if s.mgmt.update.isSome ∧ s.mgmt.updateTouched + 60000000000 ≤ s.ns then .next (dropUpdate s) else .next s

/-! ## SPDM (R511-R513) -/

/-- SPDM version a binding negotiated, as its header byte; 1.3 before. -/
def State.spdmVer (s : State) (b : Nat) : Nat := tblGetD 0x13 s.mgmt.spdmVersion b

/-- Steps of the negotiation done on a binding. -/
def State.spdmStep (s : State) (b : Nat) : Nat := tblGetD 0 s.mgmt.spdmPhase b

/-- An SPDM response of a binding: header and bytes; the request and the response enter the transcript. -/
def spdmRespond (b code : Nat) (request body : Bytes) (s : State) : State :=
  let msg := leBytes 1 (s.spdmVer b) ++ leBytes 1 code ++ body
  let log := tblGetD [] s.mgmt.spdmLog b ++ request ++ msg
  respond b 5 code body { s with mgmt := { s.mgmt with spdmLog := tblPut s.mgmt.spdmLog b log } }

/-- An SPDM ERROR of a binding: code and data. -/
def spdmError (b code : Nat) (s : State) : State := respond b 5 0x7F (leBytes 1 code ++ [0x00]) s

/-- Move a binding's negotiation to a step. -/
def setSpdmStep (b n : Nat) (s : State) : State := { s with mgmt := { s.mgmt with spdmPhase := tblPut s.mgmt.spdmPhase b n } }

/-- Negotiate: 0x84 GET_VERSION starts afresh and offers 1.2 and 1.3; 0xE1 GET_CAPABILITIES in one of them; 0xE3
NEGOTIATE_ALGORITHMS settles ECDSA P-384 with SHA-384 when the requester offers them (R511). -/
def spdmNegotiate (b code version : Nat) (offers : Bool) (request : Bytes) (s : State) : State :=
  match code with
  | 0x84 =>
    let s := setSpdmStep b 1 { s with mgmt := { s.mgmt with
      spdmVersion := tblDel s.mgmt.spdmVersion b
      spdmLog := tblDel s.mgmt.spdmLog b } }
    spdmRespond b 0x04 request [0x00, 0x00, 0x00, 0x02, 0x00, 0x12, 0x00, 0x13] s
  | 0xE1 =>
    if s.spdmStep b = 0 then spdmError b 0x04 s
    else if version ≠ 0x12 ∧ version ≠ 0x13 then spdmError b 0x41 s
    else
      let s := setSpdmStep b 2 { s with mgmt := { s.mgmt with spdmVersion := tblPut s.mgmt.spdmVersion b version } }
      spdmRespond b 0x61 request ([0x00, 0x00, 0x00] ++ leBytes 1 s.draw.toNat ++ [0x00, 0x00] ++ leBytes 4 0x16 ++ leBytes 4 4224 ++ leBytes 4 4224) s.drawn
  | 0xE3 =>
    if s.spdmStep b < 2 then spdmError b 0x04 s
    else
      let pick : Nat → Nat := fun n => if offers then n else 0
      spdmRespond b 0x63 request ([0x00, 0x00] ++ leBytes 2 36 ++ [0x01, 0x00] ++ leBytes 4 (pick 4) ++ leBytes 4 (pick 0x80)
        ++ leBytes 4 (pick 2) ++ List.replicate 12 0 ++ [0x00, 0x00, 0x00, 0x00]) (if offers then setSpdmStep b 3 s else s)
  | _ => spdmError b 0x07 s

/-- SPDM_NEGOTIATE (R511). -/
def execSpdmNegotiate (b code version : Nat) (offers : Bool) (request : Bytes) (s : State) : Host.Outcome State Fault Refusal :=
  serve b 5 code (spdmNegotiate b code version offers request) s

/-- Serve a request that needs the negotiation done. -/
def spdmServe (b code : Nat) (f : State → State) (s : State) : Host.Outcome State Fault Refusal :=
  serve b 5 code (fun t => if t.spdmStep b < 3 then spdmError b 0x04 t else f t) s

/-- SPDM_GET_CERTIFICATE: a portion of the chain of slot 0; other slots are empty (R512). -/
def execSpdmGetCertificate (b slot off len : Nat) (request : Bytes) (s : State) : Host.Outcome State Fault Refusal :=
  spdmServe b 0x82 (fun t =>
    let chain := Config.certChain
    if slot ≠ 0 ∨ chain.length ≤ off then spdmError b 0x01 t
    else
      let part := (chain.drop off).take (min len 4096)
      spdmRespond b 0x02 request ([0x00, 0x00] ++ leBytes 2 part.length ++ leBytes 2 (chain.length - off - part.length) ++ part) t) s

/-- Sign what a binding exchanged so far with the identity key (R512). -/
def State.spdmSign (s : State) (b : Nat) (request body : Bytes) (what : Nat) : Bytes :=
  leBytes 96 (Config.identitySign (tblGetD [] s.mgmt.spdmLog b ++ request ++ body) what).toNat

/-- Digest of the running copy of a class; 48 zero bytes when it is not RUNNING (R513). -/
def State.bodyDigest (s : State) (c : Nat) : Bytes :=
  if s.imgState c = 2 then ((s.header c (s.rd (SVY_IMG_STATUS_COPY c))).drop 32).take 48 else List.replicate 48 0

/-- Fuse image as SVY_EPOCH shows it. -/
def State.epochReg (s : State) : Nat := s.boot.fuses.toNat % 2 ^ 14

/-- A measurement of Table 19.4: its form, raw or digest, and its content. -/
def State.measurement (s : State) (i : Nat) : Option (Bool × Bytes) :=
  let f := s.boot.found
  if 1 ≤ i ∧ i ≤ 6 then some (false, s.bodyDigest (i - 1))
  else if i = 7 then some (true, (List.range 6).flatMap (fun c => leBytes 4 (s.rd (SVY_IMG_STATUS_VERSION c)) ++ leBytes 4 (s.floor c)))
  else if i = 8 then some (true, leBytes 4 s.epochReg)
  else if i = 9 then some (false, leBytes 48 (Config.sha384 (Config.recordBytes f.stations f.cages f.smb f.i3c)).toNat)
  else if i = 10 then some (true, leBytes 1 (s.rd MGT_DBG_STATUS_LEVEL) ++ leBytes 1 (s.rd SVY_CTRL_FORCE_MIN))
  else none

/-- A measurement block in DMTF form. -/
def State.measureBlock (s : State) (i : Nat) : Bytes :=
  match s.measurement i with
  | none => []
  | some (raw, v) => leBytes 1 i ++ [0x01] ++ leBytes 2 (v.length + 3) ++ [if raw then 0x80 else 0x01] ++ leBytes 2 v.length ++ v

/-- Blocks that an index requests: one, or all for 0xFF. -/
def measureList (index : Nat) : List Nat := if index = 0xFF then (List.range 10).map (· + 1) else [index]

/-- SPDM_CHALLENGE: answered for slot 0 under the identity key, with a fresh nonce (R512). -/
def execSpdmChallenge (b slot : Nat) (request : Bytes) (s : State) : Host.Outcome State Fault Refusal :=
  spdmServe b 0x83 (fun t =>
    if slot ≠ 0 then spdmError b 0x01 t
    else
      let (nonce, t) := drawBytes 4 t
      let body := [0x00, 0x01] ++ leBytes 48 (Config.sha384 Config.certChain).toNat ++ nonce ++ [0x00, 0x00]
      spdmRespond b 0x03 request (body ++ t.spdmSign b request body 0) t) s

/-- SPDM_GET_MEASUREMENTS: index 0 gives their number, 0xFF all, others one; signed when asked (R513). -/
def execSpdmGetMeasurements (b index : Nat) (signed : Bool) (request : Bytes) (s : State) : Host.Outcome State Fault Refusal :=
  spdmServe b 0xE0 (fun t =>
    if index ≠ 0 ∧ index ≠ 0xFF ∧ t.measurement index = none then spdmError b 0x01 t
    else
      let blocks := if index = 0 then [] else (measureList index).flatMap t.measureBlock
      let n := if index = 0 then 0 else (measureList index).length
      let (nonce, t) := drawBytes 4 t
      let body := leBytes 1 (if index = 0 then 10 else 0) ++ [0x00] ++ leBytes 1 n ++ leBytes 3 blocks.length ++ blocks ++ nonce ++ [0x00, 0x00]
      spdmRespond b 0x60 request (if signed then body ++ t.spdmSign b request body 1 else body) t) s

end Sys2Proof.Machine
end

