-- ==== Sys2Proof/Machine/DataPort.lean ====
section
/-! DEFINITION. The data port, debug unlock and the TAP (spec 19, R506, R514-R519). -/

namespace Sys2Proof.Machine

/-! ## Holding the port (R514) -/

/-- A party may hold the data port: function 0 of a host port, or the MCTP path. -/
def dpParty (who : Party) : Bool :=
  match who with
  | .host _ f => f == 0
  | .bmc => true
  | .surveyor => false
  | .firmware _ => false

/-- The party's data-port access restarts the 1 s of R514. -/
def dpTouch (who : Party) (s : State) : State :=
  if s.holdsPort who then { s with mgmt := { s.mgmt with dpTouched := s.ns } } else s

/-- A read of SVY_DP_LOCK by a party: it claims a free port. -/
def dpClaim (who : Party) (s : State) : State :=
  if dpParty who = false ∨ s.rd SVY_DP_LOCK_OWNER ≠ 0 then dpTouch who s
  else
    let port := match who with | .host p _ => p | _ => 0
    let owner := match who with | .host _ _ => 1 | _ => 2
    dpTouch who ((s.wr SVY_DP_LOCK_OWNER owner).wr SVY_DP_LOCK_PORT port)

/-- SVY_DP_LOCK as a party reads it: GRANTED is 1 for the one that holds the port. -/
def State.dpLock (s : State) (who : Party) : Nat := (if s.holdsPort who then 1 else 0) + (s.reg SVY_DP_LOCK).toNat / 4 * 4

/-- The port becomes free. -/
def dpFree (s : State) : State := (s.wr SVY_DP_LOCK_OWNER 0).wr SVY_DP_LOCK_PORT 0

/-- A write of 1 to RELEASE. -/
def dpRelease (who : Party) (s : State) : State := if s.holdsPort who then dpFree s else s

/-- DP_IDLE_TIMEOUT: 1 s without an access by the owner (R514). -/
def execDpIdleTimeout (s : State) : Host.Outcome State Fault Refusal :=
  if s.rd SVY_DP_LOCK_OWNER ≠ 0 ∧ s.mgmt.dpTouched + 1000000000 ≤ s.ns then .next (dpFree s) else .next s

/-! ## The aperture (R515, R516) -/

/-- Size of a space (Table 19.5); space 1 has the ranges of internal memory instead. -/
def State.dpSize (s : State) (space : Nat) : Nat :=
  match space with
  | 0 => s.stagingSize
  | 2 => s.mgmt.dump.length
  | 3 => 8192
  | _ => 2 ^ 48

/-- A space byte exists. -/
def State.dpHas (s : State) (space a : Nat) : Bool := if space = 1 then isHbm a || isCxl a else decide (a < s.dpSize space)

/-- Bytes of space 1 that a party may not read: all of it for the BMC while BMC_MEM is 0, the key cache's and the output-hold
buffers' for anyone, and a poisoned line, which is never handed on as valid (R482, R515). -/
def State.dpHidden (s : State) (who : Party) (a : Nat) : Bool :=
  (who == .bmc && !s.bit MGT_CFG_BMC_MEM) || Config.keptFromPort a || s.health.poisoned.contains (a / 64)

/-- A byte of a space as a party reads it. -/
def State.dpByte (s : State) (who : Party) (space a : Nat) : Byte :=
  if s.dpHas space a = false then 0
  else match space with
    | 0 => memGet s.boot.staging a
    | 1 => if s.dpHidden who a then 0 else memGet s.mem a
    | 2 => if s.bit SVY_DP_STATUS_DUMP_BUSY then 0 else s.mgmt.dump.getD a 0
    | _ => tblGetD 0 s.mgmt.token a

/-- What an access to n bytes of a space marks: RANGE for a byte beyond it, DENIED for one hidden. -/
def dpMark (who : Party) (space a n : Nat) (s : State) : State :=
  let l := (List.range n).map (· + a)
  let s := if l.any (fun x => !s.dpHas space x) ∧ ¬ (space = 2 ∧ s.bit SVY_DP_STATUS_DUMP_BUSY) then s.wr SVY_DP_STATUS_RANGE 1 else s
  if space = 1 ∧ l.any (fun x => s.dpHas 1 x && s.dpHidden who x) then dpDeny s else s

/-- Write bytes to the token buffer. -/
def tokenWrite : Nat → Bytes → Tbl Byte → Tbl Byte
  | _, [], t => t
  | a, b :: bs, t => tokenWrite (a + 1) bs (if a < 8192 then tblSet 0 t a b else t)

/-- ADDR after an access that covers offset 0x7FC while AUTO is 1. -/
def dpAdvance (off n : Nat) (s : State) : State :=
  if s.bit SVY_DP_CTRL_AUTO ∧ off ≤ 0x7FC ∧ 0x7FC < off + n then s.wr SVY_DP_ADDR_ADDR ((s.rd SVY_DP_ADDR_ADDR + 2048) % 2 ^ 48) else s

/-- An aperture access is of whole aligned dwords inside it. -/
def dpAligned (off n : Nat) : Bool := off % 4 == 0 && n % 4 == 0 && decide (0 < n) && decide (off + n ≤ 2048)

/-- Read n bytes at an aperture offset: the bytes, and the state after. A party that does not hold the port reads 0. -/
def dpRead (who : Party) (off n : Nat) (s : State) : Bytes × State :=
  if s.holdsPort who = false then (List.replicate n 0, s)
  else if dpAligned off n = false then (List.replicate n 0, dpDeny s)
  else
    let s := dpTouch who s
    let a := s.rd SVY_DP_ADDR_ADDR + off
    let space := s.rd SVY_DP_CTRL_SPACE
    let bs := (List.range n).map (fun i => s.dpByte who space (a + i))
    (bs, dpAdvance off n (dpMark who space a n s))

/-- Write bytes at an aperture offset: a party that does not hold the port is denied; a write to the staging buffer while BUSY is
ignored, and one while a firmware update owns it denied; spaces 1 and 2 take no write (R470, R510, R514-R516). -/
def dpWrite (who : Party) (off : Nat) (bs : Bytes) (s : State) : State :=
  if s.holdsPort who = false ∨ dpAligned off bs.length = false ∨ 512 < bs.length then dpDeny s
  else
    let s := dpTouch who s
    let a := s.rd SVY_DP_ADDR_ADDR + off
    let space := s.rd SVY_DP_CTRL_SPACE
    let s := dpMark who space a bs.length s
    let s := match space with
      | 0 =>
        if s.mgmt.update.isSome then dpDeny s
        else if s.bit SVY_RECOV_STATUS_BUSY then s
        else { s with boot := { s.boot with staging := memWrite s.boot.staging a (bs.take (s.stagingSize - a)) } }
      | 3 => { s with mgmt := { s.mgmt with token := tokenWrite a bs s.mgmt.token } }
      | _ => dpDeny s
    dpAdvance off bs.length s

/-- Status of a DP message of the BMC: 3 for an offset or length out of range, 2 while another party holds the port or none. -/
def State.dpStatus (s : State) (off n : Nat) : Nat :=
  if n < 4 ∨ 256 < n ∨ dpAligned off n = false then 3 else if s.holdsPort .bmc = false then 2 else 0

/-- THEIVO_DP_READ (R506). -/
def execTheivoDpRead (b off n : Nat) (s : State) : Host.Outcome State Fault Refusal :=
  serve b 0x7E 3 (fun t =>
    let st := t.dpStatus off n
    if st ≠ 0 then respond b 0x7E 3 (leBytes 1 st) t
    else
      let (bs, t) := dpRead .bmc off n t
      respond b 0x7E 3 ([0x00] ++ bs) t) s

/-- THEIVO_DP_WRITE (R506). -/
def execTheivoDpWrite (b off : Nat) (data : Bytes) (s : State) : Host.Outcome State Fault Refusal :=
  serve b 0x7E 4 (fun t =>
    let st := t.dpStatus off data.length
    if st = 3 then respond b 0x7E 4 [0x03] t else respond b 0x7E 4 (leBytes 1 st) (dpWrite .bmc off data t)) s

/-! ## The debug dump (R517) -/

/-- A write of 1 to DUMP: ignored while DUMP_BUSY. -/
def startDump (s : State) : State := s.wr SVY_DP_STATUS_DUMP_BUSY 1

/-- A write to SVY_DP_CTRL by a party (R514, R517). -/
def dpCtrlWrite (who : Party) (v : BitVec 64) (s : State) : State :=
  if s.holdsPort who = false then dpDeny s
  else
    let s := (dpTouch who s).plainWrite SVY_DP_CTRL v
    if v.getLsbD 3 then startDump s else s

/-- A write to SVY_DP_ADDR by a party: bits 1:0 read 0. -/
def dpAddrWrite (who : Party) (v : BitVec 64) (s : State) : State :=
  if s.holdsPort who = false then dpDeny s else (dpTouch who s).wr SVY_DP_ADDR_ADDR (v.toNat % 2 ^ 48 / 4 * 4)

/-! ## Debug unlock (R518, R519) -/

/-- NEW: a fresh nonce from the DRBG. -/
def newNonce (s : State) : State :=
  let (bs, s) := drawBytes 4 s
  let s := (List.range 8).foldl (fun t k => t.setReg (MGT_DBG_NONCE k) (BitVec.ofNat 64 (ofLe ((bs.drop (4 * k)).take 4)))) s
  { s with mgmt := { s.mgmt with nonceSet := true } }

/-- DEBUG_NONCE_NEW (R519). -/
def execDebugNonceNew (s : State) : Host.Outcome State Fault Refusal := .next (newNonce s)

/-- SUBMIT: the check of the token starts; ignored while BUSY. -/
def submitToken (s : State) : State := s.wr MGT_DBG_STATUS_BUSY 1

/-- DEBUG_TOKEN_SUBMIT (R519). -/
def execDebugTokenSubmit (s : State) : Host.Outcome State Fault Refusal := .next (submitToken s)

/-- Bytes of the token buffer. -/
def State.tokenBytes (s : State) (off n : Nat) : Bytes := (List.range n).map (fun i => tblGetD 0 s.mgmt.token (off + i))

/-- A field of the token. -/
def State.tokenN (s : State) (off n : Nat) : Nat := ofLe (s.tokenBytes off n)

/-- The token's form is right (Table 19.6). -/
def State.tokenForm (s : State) : Bool :=
  let (pk, sig) := algLengths (s.tokenN 4 1)
  s.tokenN 0 4 == 0x544B5246 && (s.tokenN 4 1 == 1 || s.tokenN 4 1 == 2) && decide (s.tokenN 5 1 ≤ 3)
    && (s.tokenN 6 1 == 1 || s.tokenN 6 1 == 2) && s.tokenN 7 1 == 0 && s.tokenN 48 4 == pk && s.tokenN 52 4 == sig && s.tokenN 56 8 == 0

/-- The current nonce. -/
def State.nonce (s : State) : Bytes := (List.range 8).flatMap (fun k => leBytes 4 (s.reg (MGT_DBG_NONCE k)).toNat)

/-- RESULT of the token in the buffer: the failure limit, the slot rules of Table 17.7, then the nonce (R519). -/
def State.tokenResult (s : State) : Nat :=
  if 8 ≤ s.rd MGT_DBG_STATUS_FAILS then 0x0D
  else if s.tokenForm = false then 0x01
  else
    let slot := s.tokenN 5 1
    let pk := s.tokenN 48 4
    let signed := 64 + up64 pk
    if s.slotRevoked slot ∨ s.slotFilled slot = false then 0x04
    else if Config.sha384 (s.tokenBytes 64 pk) ≠ Config.slotHash slot then 0x05
    else if Config.verifies (s.tokenN 4 1) (s.tokenBytes 64 pk) (s.tokenBytes 0 signed) (s.tokenBytes signed (s.tokenN 52 4)) = false then 0x03
    else if s.tokenN 8 8 ≠ Config.fusedSerial.toNat then 0x07
    else if s.mgmt.nonceSet = false ∨ s.tokenBytes 16 32 ≠ s.nonce then 0x0C
    else 0

/-- DEBUG_TOKEN_CHECK_DONE: LEVEL is set, or a failure counted; the nonce is consumed in any case (R519). -/
def execDebugTokenCheckDone (s : State) : Host.Outcome State Fault Refusal :=
  if s.bit MGT_DBG_STATUS_BUSY = false then .next s
  else
    let r := s.tokenResult
    let s := (s.wr MGT_DBG_STATUS_BUSY 0).wr MGT_DBG_STATUS_RESULT r
    let s := { s with mgmt := { s.mgmt with nonceSet := false } }
    .next (if r = 0 then s.wr MGT_DBG_STATUS_LEVEL (s.tokenN 6 1)
           else s.wr MGT_DBG_STATUS_FAILS (min 8 (s.rd MGT_DBG_STATUS_FAILS + 1)))

/-- LOCK. -/
def lockDebug (s : State) : State := s.wr MGT_DBG_STATUS_LEVEL 0

/-- DEBUG_LOCK (R519). -/
def execDebugLock (s : State) : Host.Outcome State Fault Refusal := .next (lockDebug s)

/-- A write to MGT_DBG_CTRL: NEW, SUBMIT and LOCK, in that order. -/
def dbgCtrlWrite (v : BitVec 64) (s : State) : State :=
  let s := if v.getLsbD 0 then newNonce s else s
  let s := if v.getLsbD 1 then submitToken s else s
  if v.getLsbD 2 then lockDebug s else s

/-- Debug level that an instruction of the TAP needs: 0 IDCODE and 1 BYPASS none, 2 boundary scan level 1, 3 core debug level 2;
any other is never run (R518). -/
def tapLevel (instr : Nat) : Nat := match instr with | 0 => 0 | 1 => 0 | 2 => 1 | 3 => 2 | _ => 3

/-- IDCODE: version 1, part 0x1280, the maker of the fuses (R518). -/
def idcode : BitVec 32 := (0x1 : BitVec 4) ++ (0x1280 : BitVec 16) ++ Config.jtagMaker ++ (1 : BitVec 1)

/-- TAP_INSTRUCTION_LOAD: run, or refused until unlock allows it (R518). -/
def execTapInstructionLoad (instr : Nat) (s : State) : Host.Outcome State Fault Refusal :=
  if tapLevel instr ≤ s.rd MGT_DBG_STATUS_LEVEL then
    .next ({ s with mgmt := { s.mgmt with tap := instr } }.emit (.tap instr (if instr = 0 then idcode else 0)))
  else .next s

end Sys2Proof.Machine
end

