-- ==== Sys2Proof/Machine/PowerCmd.lean ====
section
/-! DEFINITION. Supply, thermal, voltage and reference clock events (spec 20, R526-R539). -/

namespace Sys2Proof.Machine

/-! ## Held in reset (R529, R533) -/

/-- The device held with every island in reset: what flash and fuses hold stays, everything else is at its reset value. -/
def heldDown (tripped : Bool) (trip : Nat) (s : State) : State :=
  let u := { afterReset s with power := { State.reset.power with inReset := true, tripped := tripped } }
  (u.wr SVY_THERM_STATUS_TRIPPED trip).emit (.ball 2 0 0)

/-- SUPPLY_FAULT: a rail out of tolerance for 2 µs: power-on reset, and THERMTRIP_N low until power is removed (R529). -/
def execSupplyFault (s : State) : Host.Outcome State Fault Refusal := .next (heldDown true 0 s)

/-- A thermal trip: THERMTRIP_N low, every island held in reset, TRIPPED set (R533). -/
def trip (s : State) : State := heldDown true 1 s

/-- THERMAL_TRIP (R533). -/
def execThermalTrip (s : State) : Host.Outcome State Fault Refusal := if s.power.inReset then .next s else .next (trip s)

/-! ## Voltage (R526, R527) -/

/-- Ask for the next step of at most 25 mV toward a rail's target, unless a request is unacknowledged. -/
def stepAvs (rail : Nat) (s : State) : State :=
  let now := s.rd (SVY_AVS_STATUS_VOUT_MV rail)
  let goal := s.rd (SVY_AVS_STATUS_TARGET_MV rail)
  if now = goal ∨ (tblGet s.power.avsAsked rail).isSome then s
  else
    let mv := if now < goal then min goal (now + 25) else max goal (now - 25)
    { s with power := { s.power with avsAsked := tblPut s.power.avsAsked rail mv } }.emit (.avs rail mv)

/-- Sensors of a rail's die (R538). -/
def railSensors (rail : Nat) : List Nat := match rail with | 0 => List.range 8 | 1 => (List.range 8).map (· + 8) | _ => (List.range 4).map (· + 16)

/-- Temperature of a sensor. -/
def State.temp (s : State) (n : Nat) : Int := signed 12 (s.rd (SVY_TEMP_TEMP n))

/-- Hottest of some sensors, with the lowest number that reads it. -/
def State.hottest (s : State) : List Nat → Option (Int × Nat)
  | [] => none
  | n :: rest =>
    match s.hottest rest with
    | none => some (s.temp n, n)
    | some (t, m) => if t ≤ s.temp n then some (s.temp n, n) else some (t, m)

/-- Set a rail's target once image class 0 runs: the fused one, plus 10 mV while its die's hottest sensor reads below 0 °C (R526). -/
def aimAvs (rail : Nat) (s : State) : State :=
  if s.imgState 0 ≠ 2 then s
  else
    let cold : Bool := match s.hottest (railSensors rail) with | some (t, n) => s.bit (SVY_TEMP_VALID n) && decide (t < 0) | none => false
    stepAvs rail (s.wr (SVY_AVS_STATUS_TARGET_MV rail) (Config.fusedAvs rail + (if cold then 10 else 0)))

/-- Aim every rail. -/
def aimRails (s : State) : State := [0, 1, 2].foldl (fun t r => aimAvs r t) s

/-- AVS_STEP_ACK: the regulator acknowledged a step; the next is sent (R526). -/
def execAvsStepAck (rail : Nat) (s : State) : Host.Outcome State Fault Refusal :=
  match tblGet s.power.avsAsked rail with
  | none => .next s
  | some mv =>
    let s := { s with power := { s.power with avsAsked := tblDel s.power.avsAsked rail } }
    .next (stepAvs rail (s.wr (SVY_AVS_STATUS_VOUT_MV rail) mv))

/-- AVS_TIMEOUT: a request unacknowledged for 1 ms: the voltage holds, ERR is set, the request is repeated; below the fused target
with failing margin monitors the device trips (R527). -/
def execAvsTimeout (rail : Nat) (marginOk : Bool) (s : State) : Host.Outcome State Fault Refusal :=
  match tblGet s.power.avsAsked rail with
  | none => .next s
  | some mv =>
    let s := s.wr (SVY_AVS_STATUS_ERR rail) 1
    if marginOk = false ∧ s.rd (SVY_AVS_STATUS_VOUT_MV rail) < Config.fusedAvs rail then .next (trip s)
    else .next (s.emit (.avs rail mv))

/-! ## Sensors (R533, R537, R538) -/

/-- Throttle of a die (0 west, 1 east): on from 110 °C on any sensor, off when every one reads at most 107 °C. -/
def State.dieThrottled (s : State) (die : Nat) : Bool :=
  match s.hottest (railSensors die) with
  | some (t, _) => decide (880 ≤ t) || ((s.rd SVY_THERM_STATUS_THROTTLE).testBit die && decide (856 < t))
  | none => false

/-- Write a temperature into its register. -/
def putTemp (n : Nat) (t : Int) (s : State) : State := (s.wr (SVY_TEMP_TEMP n) (unsigned 12 t)).wr (SVY_TEMP_VALID n) 1

/-- SENSOR_SAMPLE: 24 temperatures in 0.125 °C and the package power in 0.125 W are read. An HBM stack at 105 °C trips (R533,
R538, R539). -/
def execSensorSample (temps : List Int) (power : Nat) (s : State) : Host.Outcome State Fault Refusal :=
  if s.power.inReset ∨ temps.length ≠ 24 then .next s
  else
    let s := (List.range 24).foldl (fun t n => putTemp n (temps.getD n 0) t) s
    let (m, k) := (s.hottest (List.range 20)).getD (0, 0)
    let s := (s.wr SVY_THERM_STATUS_MAX (unsigned 12 m)).wr SVY_THERM_STATUS_MAX_SENSOR k
    let s := s.wr SVY_THERM_STATUS_WARN_NOW (if (s.rd SVY_THERM_CFG_WARN : Nat) * 8 ≤ m then 1 else 0)
    let thr := (if s.dieThrottled 0 then 1 else 0) + (if s.dieThrottled 1 then 2 else 0)
    let s := (s.wr SVY_THERM_STATUS_THROTTLE thr).wr SVY_POWER_PKG (min power 8191)
    if [20, 21, 22, 23].any (fun n => decide (840 ≤ s.temp n)) then .next (trip s) else .next (aimRails s)

/-! ## Reference clocks (R532) -/

/-- Ports of the network lanes a NET_REFCLK clocks. -/
def State.clockedPorts (s : State) (m : Nat) : List Nat :=
  (List.range 64).filter (fun p => (List.range (portMode (s.rd (NET_PORT_CFG_MODE p))).1).any (fun j => (p + j) / 8 == m))

/-- Set the lost mark of the PCIE_REFCLK of a station's ports. -/
def setStationClock (st : Nat) (lost : Bool) (s : State) : State :=
  [0, 1, 2, 3].foldl (fun t k => t.setPort (4 * st + k) { t.port (4 * st + k) with clkLost := lost }) s

/-- REFCLK_LOSS: 0-11 PCIE_REFCLK of a station: its links go down; 12-19 NET_REFCLK 0-7: its lanes lose lock; 20 SYS_REFCLK: the
generators hold their last frequency (R532). -/
def execRefclkLoss (clock : Nat) (s : State) : Host.Outcome State Fault Refusal :=
  if clock < 12 then
    .next ([0, 1, 2, 3].foldl (fun t k => if t.portPresent (4 * clock + k) then linkLost (4 * clock + k) t else t) (setStationClock clock true s))
  else if clock < 20 then
    let m := clock - 12
    let s := { s with power := { s.power with netClkLost := if s.power.netClkLost.contains m then s.power.netClkLost else m :: s.power.netClkLost } }
    .next ((s.clockedPorts m).foldl (fun t p => nextOr t (execLinkLossOfLock p 0 t)) s)
  else if clock = 20 then .next { s with power := { s.power with sysClkLost := true } }
  else .next s

/-- REFCLK_RETURN: lanes and links may lock and train again, the generators follow (R532). -/
def execRefclkReturn (clock : Nat) (s : State) : Host.Outcome State Fault Refusal :=
  if clock < 12 then .next (setStationClock clock false s)
  else if clock < 20 then .next { s with power := { s.power with netClkLost := s.power.netClkLost.filter (· != clock - 12) } }
  else if clock = 20 then .next { s with power := { s.power with sysClkLost := false } }
  else .next s

end Sys2Proof.Machine
end

