-- ==== Sys2Proof/Machine/Balls.lean ====
section
/-! DEFINITION. The balls of the package: which signal, supply or ground each position carries (spec 00, R10; spec 20,
R521-R524). -/

namespace Sys2Proof.Machine

/-- A ball: the index of its row, A = 1 to DF = 82, and its column, 1 to 82 (R10). -/
structure Ball where
  row : Nat
  col : Nat
  deriving DecidableEq, Repr

/-- A position of the array has a ball (R521). -/
def Ball.wf (b : Ball) : Bool := decide (1 ≤ b.row) && decide (b.row ≤ 82) && decide (1 ≤ b.col) && decide (b.col ≤ 82)

/-- Row index of a row of the group that starts with letter g (0 none, 1 A, 2 B, 3 C, 4 D), from the place of its last letter among
the 19 letters used (R10). -/
def rowIndex (g letter : Nat) : Nat := 19 * g + letter

/-- Distance of a ball from row A and from column 1 in mm: the pitch is 1.00 mm (R10, Table 20.1). -/
def Ball.place (b : Ball) : Nat × Nat := (b.row - 1, b.col - 1)

/-- The ball at the mirrored column (R523). -/
def Ball.mirror (b : Ball) : Ball := ⟨b.row, 83 - b.col⟩

/-- Ball group (Table 20.2); 0 for no ball. -/
def Ball.group (b : Ball) : Nat :=
  if b.wf = false then 0
  else if b.row ≤ 10 then (if b.col ≤ 41 then 1 else 2)
  else if b.col ≤ 10 then 3
  else if 73 ≤ b.col then 4
  else if 73 ≤ b.row then 8
  else if b.col ≤ 35 then 5
  else if b.col ≤ 47 then 6
  else 7

/-! ## SerDes signals (Table 20.3) -/

/-- Ball of lane j, west side, j < 32: transmit or receive, positive or negative. -/
def westLane (j : Nat) (tx neg : Bool) : Ball :=
  let n := if neg then 1 else 0
  if j % 2 = 0 then ⟨(if tx then 2 else 5) + n, 2 + j⟩ else ⟨(if tx then 7 else 9) + n, 1 + j⟩

/-- NET_TXP, NET_TXN, NET_RXP, NET_RXN of a network lane 0-63. -/
def laneBall (j : Nat) (tx neg : Bool) : Ball := if j < 32 then westLane j tx neg else (westLane (j - 32) tx neg).mirror

/-- NET_REFCLKP or N of reference m, 0-7. -/
def netClockBall (m : Nat) (neg : Bool) : Ball :=
  let b : Ball := ⟨if neg then 3 else 2, 35 + 2 * (m % 4)⟩
  if m < 4 then b else b.mirror

/-- First row of a station, 0-11. -/
def stationRow (st : Nat) : Nat := 11 + 12 * (st % 6)

/-- A ball of a station given as on the west side. -/
def stationBall (st : Nat) (b : Ball) : Ball := if st < 6 then b else b.mirror

/-- PCIE_TXP, PCIE_TXN, PCIE_RXP, PCIE_RXN of PCI Express lane 16 s + q. -/
def pcieBall (lane : Nat) (tx neg : Bool) : Ball :=
  let q := lane % 16
  let n := if neg then 1 else 0
  let row := stationRow (lane / 16) + 1 + q % 8
  stationBall (lane / 16) ⟨row, (if q < 8 then (if tx then 1 else 4) else (if tx then 6 else 9)) + n⟩

/-- PCIE_REFCLKP or N of a station. -/
def pcieClockBall (st : Nat) (neg : Bool) : Ball := stationBall st ⟨stationRow st + 9, if neg then 3 else 2⟩

/-- PCIE_PERST_N of a host port. -/
def perstBall (p : Nat) : Ball := stationBall (p / 4) ⟨stationRow (p / 4) + 9, 5 + p % 4⟩

/-- PCIE_CAL of a station, and NET_CAL of a side. -/
def pcieCalBall (st : Nat) : Ball := stationBall st ⟨stationRow st + 9, 10⟩
/-- NET_CAL: west, or east. -/
def netCalBall (east : Bool) : Ball := if east then (Ball.mk 5 35).mirror else ⟨5, 35⟩

/-! ## Supplies (R522-R524) -/

/-- What a supply ball carries: the rails of Table 20.4, the sense points of R524, or ground. -/
inductive Supply where
  | vddW | vddE | vddHub | vddAon | avddPll | avddNet | avddhNet | avddPcie | avddhPcie | vddcHbm | vddqHbm | vppHbm | vddIo | vss
  | senseW | senseWGround | senseE | senseEGround | senseHub | senseHubGround
  deriving DecidableEq, Repr

/-- Rail of the rows of G5 or G7: the die's rail, then the HBM rails. -/
def hbmRail (die : Supply) (row : Nat) : Supply :=
  if row ≤ 65 then die else if row ≤ 68 then .vddcHbm else if row ≤ 71 then .vddqHbm else .vppHbm

/-- Rail of the rows of G6. -/
def hubRail (row : Nat) : Supply := if row ≤ 63 then .vddHub else if row ≤ 70 then .vddAon else .avddPll

/-- Sense points of R524. -/
def sensePoint (b : Ball) : Option Supply :=
  if b = ⟨38, 23⟩ then some .senseW
  else if b = ⟨38, 24⟩ then some .senseWGround
  else if b = ⟨38, 60⟩ then some .senseE
  else if b = ⟨38, 59⟩ then some .senseEGround
  else if b = ⟨38, 41⟩ then some .senseHub
  else if b = ⟨38, 42⟩ then some .senseHubGround
  else none

/-- Supply of a ball of G1 or G3, given on the west side, that carries one. -/
def westSupply (b : Ball) : Supply :=
  if b.row ≤ 10 then
    if 6 ≤ b.row ∧ b.row ≤ 8 ∧ 34 ≤ b.col ∧ b.col ≤ 41 then .avddNet
    else if 9 ≤ b.row ∧ 34 ≤ b.col ∧ b.col ≤ 41 then .avddhNet
    else .vss
  else if (b.row - 11) % 12 = 10 then .avddPcie
  else if (b.row - 11) % 12 = 11 ∧ b.col ≤ 5 then .avddhPcie
  else .vss

/-- What a ball that carries no signal is connected to. -/
def Ball.supply (b : Ball) : Supply :=
  match sensePoint b with
  | some x => x
  | none =>
    match b.group with
    | 1 => westSupply b
    | 2 => westSupply b.mirror
    | 3 => westSupply b
    | 4 => westSupply b.mirror
    | 5 => if (b.row + b.col) % 2 = 1 then hbmRail .vddW b.row else .vss
    | 6 => if (b.row + b.col) % 2 = 1 then hubRail b.row else .vss
    | 7 => if (b.row + b.col) % 2 = 0 then hbmRail .vddE b.row else .vss
    | 8 => if b.row = 80 then .vddIo else .vss
    | _ => .vss

/-! ## Other signals of G8 (R524) -/

/-- Sideband signals of a cage, in the order of their rows CV to DC. -/
inductive CageSignal where
  | scl | sda | prsN | rstN | lpmode | intN
  deriving DecidableEq, Repr

/-- Row of a cage sideband signal. -/
def CageSignal.row : CageSignal → Nat
  | .scl => 74 | .sda => 75 | .prsN => 76 | .rstN => 77 | .lpmode => 78 | .intN => 79

/-- Ball of a cage sideband signal. -/
def cageBall (k : Nat) (x : CageSignal) : Ball := ⟨x.row, 11 + k⟩

/-- The remaining signals of G8. -/
inductive IoSignal where
  | porN | sysRstN | thermtripN | healthReqN | faultLed | ppsIn | ref10mIn | holdOsc (n : Nat)
  | tck | tms | tdi | tdo | trstN | ppsOut (n : Nat)
  | mgmtScl | mgmtSda | smbScl | smbSda | synceOut (n : Nat) | sysRefclk
  | avsClk | avsMdata | avsSdata
  | flashSck | flashDqs | flashACsN | flashBCsN | flashRstN | flashWpN | flashDq (i : Nat)
  deriving DecidableEq, Repr

/-- Ball of a signal of G8. -/
def ioBall (x : IoSignal) : Ball :=
  match x with
  | .porN => ⟨74, 44⟩ | .sysRstN => ⟨74, 45⟩ | .thermtripN => ⟨74, 46⟩ | .healthReqN => ⟨74, 47⟩ | .faultLed => ⟨74, 48⟩
  | .ppsIn => ⟨74, 52⟩ | .ref10mIn => ⟨74, 54⟩ | .holdOsc n => ⟨74, 56 + 2 * n⟩
  | .tck => ⟨75, 44⟩ | .tms => ⟨75, 45⟩ | .tdi => ⟨75, 46⟩ | .tdo => ⟨75, 47⟩ | .trstN => ⟨75, 48⟩ | .ppsOut n => ⟨75, 52 + 2 * n⟩
  | .mgmtScl => ⟨76, 44⟩ | .mgmtSda => ⟨76, 45⟩ | .smbScl => ⟨76, 46⟩ | .smbSda => ⟨76, 47⟩ | .synceOut n => ⟨76, 52 + 2 * n⟩
  | .sysRefclk => ⟨76, 58⟩
  | .avsClk => ⟨77, 44⟩ | .avsMdata => ⟨77, 45⟩ | .avsSdata => ⟨77, 46⟩
  | .flashSck => ⟨78, 44⟩ | .flashDqs => ⟨78, 45⟩ | .flashACsN => ⟨78, 46⟩ | .flashBCsN => ⟨78, 47⟩ | .flashRstN => ⟨78, 48⟩
  | .flashWpN => ⟨78, 49⟩ | .flashDq i => ⟨79, 44 + i⟩

end Sys2Proof.Machine
end

