-- ==== Sys2Proof/Machine/RegView.lean ====
section
/-! DEFINITION. What a read of a register returns: its value in the register file, or what the field's description counts
(R9, R10, and the register tables of chapters 2 to 20). -/

namespace Sys2Proof.Machine

/-- The index of an address in an array of n registers, a stride apart. -/
def arrIndex (base n stride b : Nat) : Option Nat :=
  if base ≤ b ∧ (b - base) % stride = 0 ∧ (b - base) / stride < n then some ((b - base) / stride) else none

/-- The plain value of the register at an address. -/
def State.plain (s : State) (b : Nat) : Nat := (s.reg b).toNat

/-- The value of the register at an address with one field replaced. -/
def State.withField (s : State) (f : Fld) (x : Nat) : Nat := (putField (s.reg f.addr) f.lo f.width x).toNat

/-- Surveyor registers as a party reads them (Tables 17.8-17.10, 19.7). -/
def State.svyView (s : State) (who : Party) (b : Nat) : Nat :=
  if b = SVY_EPOCH then s.epochReg
  else if b = SVY_DP_LOCK then s.dpLock who
  else match arrIndex (SVY_FLOOR 0) 6 4 b with
    | some c => s.floor c
    | none => s.plain b

/-- Admission registers: CONTRACTS counts the contracts not FREE; ADM_OUT_CFG of an outlet that does not exist reads 0. -/
def State.admView (s : State) (b : Nat) : Nat :=
  if b = ADM_STATUS then s.withField ADM_STATUS_CONTRACTS s.contracts.length
  else match arrIndex (ADM_OUT_CFG 0) 128 4 b with
    | some o => if s.outletExists o then s.plain b else 0
    | none => s.plain b

/-- Outstanding and quarantined tags of a port, as HP_TAG_STATUS shows them (Table 5.6). -/
def State.tagStatus (s : State) (p : Nat) : Nat :=
  (s.portTags p).length % 8192 + ((s.portTags p).filter (fun t => t.quarantined)).length % 8192 * 8192

/-- Host port registers: those of an absent port read 0, but for the station's HP_STN_CFG (R13, Table 5.13). ROLE is the
role that the station record gives the port, whether or not its link is up (Table 5.7). -/
def State.hpView (s : State) (b : Nat) : Nat :=
  let p := (b - 0x4000000) / 0x10000
  if b % 0x10000 = 0x10 then s.plain b
  else if s.portPresent p = false then 0
  else if b = HP_TAG_STATUS p then s.tagStatus p
  else if b = HP_PORT_STATUS p then s.withField (HP_PORT_STATUS_ROLE p) (if s.portIsRoot p then 1 else 0)
  else s.plain b

/-- Mailbox and cadastre registers (Tables 6.6, 6.12). -/
def State.cadView (s : State) (b : Nat) : Nat :=
  let n := (b - 0x5000000) / 0x1000
  match arrIndex (CAD_USE n 0) 5 8 b with
  | some i => s.usageRecord n / 2 ^ (64 * i) % 2 ^ 64
  | none => if b = MBX_STATUS n then s.mbxStatus n else s.plain b

/-- Ring registers (Tables 7.12, 7.13). -/
def State.rngView (s : State) (b : Nat) : Nat :=
  match arrIndex (RNG_RSTATUS 0) 1048576 8 b with
  | some g => (s.rstatus g).toNat
  | none => s.plain b

/-- Bench registers: BUCKETS counts the buckets a bench serves (Table 9.7). -/
def State.bncView (s : State) (b : Nat) : Nat :=
  match arrIndex (BNC_STATUS 0) 18 0x100000 b with
  | some k => s.withField (BNC_STATUS_BUCKETS k) (s.bucketsOf k).length
  | none => s.plain b

/-- Table registers (Tables 10.7 to 10.9). -/
def State.tblView (s : State) (b : Nat) : Nat :=
  match arrIndex (TBL_ENTRIES 0) 64 4 b with
  | some t => s.tableEntries t
  | none =>
    match arrIndex (TBL_PROG_READS 0) 256 4 b with
    | some n => s.progH n
    | none =>
      match arrIndex (TBL_LEARN_USED 0).addr 18 0x40 b with
      | some k => (s.learned k).used
      | none =>
        if b = TBL_DIE_USED then s.tables.die.used
        else if b = TBL_HBM_USED then s.tables.hbm.used
        else if b = TBL_LPM_USED then s.prefixes
        else s.plain b

/-- A port may have a default receive ring (Table 11.13). -/
def State.rxdefPort (s : State) (p : Nat) : Bool := s.portIsEndpoint p

/-- Switch core registers: F is counted; those of outlets that do not exist read 0 (Tables 11.10 to 11.15). -/
def State.swcView (s : State) (b : Nat) : Nat :=
  if b = SWC_FREE then s.freeSetts
  else match arrIndex (SWC_OUT_WGT 0) 128 8 b with
    | some o => if s.outletExists o then s.plain b else 0
    | none => match arrIndex (SWC_RXDEF 0) 48 4 b with
      | some p => if s.rxdefPort p then s.plain b else 0
      | none => s.plain b

/-- Engines of the benches that are ACTIVE or SPARE, eight each (Table 12.11). -/
def State.engines (s : State) : Nat :=
  8 * ((List.range 18).filter (fun k => s.rd (BNC_STATUS_STATE k) == 1 || s.rd (BNC_STATUS_STATE k) == 2)).length

/-- Cipher registers (Tables 12.11, 12.12). -/
def State.cphView (s : State) (b : Nat) : Nat :=
  if b = CPH_STATUS then (putField (putField (s.reg b) 3 8 s.engines) 11 21 s.epoch).toNat
  else if b = CPH_KC_STATUS then s.kcEntries.length
  else if b = CPH_KC_PINNED then (s.kcEntries.filter s.pinned).length
  else if b = CPH_SA_COUNT then (s.sas.filter (fun x => decide (x.1 < 0x40000))).length
  else s.plain b

/-- Ralush registers (Tables 13.9, 14.7). -/
def State.rltView (s : State) (b : Nat) : Nat :=
  if b = RLT_STATUS then s.withField RLT_STATUS_CONNS s.conns.length
  else if b = RLT_REG_STATUS then s.rlt.regions.length
  else if b = RLT_STALL_STATUS then s.stallSlots
  else s.plain b

/-- Storage registers (Table 15.9). -/
def State.stoView (s : State) (b : Nat) : Nat :=
  if b = STO_STATUS then
    (putField (putField (s.reg b) 1 1 (if s.cacheBytes = 0 then 1 else 0)) 3 15 s.lockCount).toNat
  else s.plain b

/-- Slots of a gallery in a use. -/
def State.slotsIn (s : State) (k g : Nat) (p : SlotUse → Bool) : Nat :=
  tblCount (fun key u => key / 256 == k * 64 + g && p u) s.pnl.slots

/-- A SEALED slot. -/
def SlotUse.isSealed : SlotUse → Bool
  | .sealed _ => true
  | .reserved _ => false
  | .taken _ => false

/-- A RESERVED slot. -/
def SlotUse.isReserved : SlotUse → Bool
  | .reserved _ => true
  | .sealed _ => false
  | .taken _ => false

/-- PNL_GAL_STAT of a gallery; 0 while it is disabled (Table 16.10). -/
def State.galStat (s : State) (k g : Nat) : Nat :=
  if s.bit (PNL_GAL_EN k g) then
    s.freeSlots k g + s.slotsIn k g SlotUse.isSealed * 2 ^ 9 + s.slotsIn k g SlotUse.isReserved * 2 ^ 18
  else 0

/-- Cluster and cairn registers (Tables 16.9 to 16.11). -/
def State.pnlView (s : State) (b : Nat) : Nat :=
  let k := (b - 0xF000000) / 0x100000 % 8
  if b < 0xF800000 then
    match arrIndex (PNL_THR_STAT k 0) 32 4 b with
    | some t => s.withField (PNL_THR_STAT_LATCH k t) (s.latch (32 * k + t))
    | none => match arrIndex (PNL_GAL_STAT k 0) 64 4 b with
      | some g => s.galStat k g
      | none => s.plain b
  else
    match arrIndex (CRN_SRC k 0) 1023 8 b with
    | some i =>
      let c := tblGetD ⟨false, false⟩ s.cairns (k * 1024 + i + 1)
      (putField (putField (s.reg b) 33 1 (if c.pend then 1 else 0)) 34 1 (if c.inserv then 1 else 0)).toNat
    | none => s.plain b

/-- The five sums of MGT_TEL (Table 19.8), saturating. -/
def State.telemetry (s : State) (i : Nat) : Nat :=
  min (2 ^ 64 - 1) (match i with
    | 0 => ((List.range 64).map (fun p => s.rd (NET_RX_BYTES p))).sum
    | 1 => ((List.range 64).map (fun p => s.rd (NET_TX_BYTES p))).sum
    | 2 => ((List.range 16).map (fun r => s.rd (SWC_SPOIL_CNT r))).sum
    | 3 => s.rd ADM_MISS_CNT_COUNT
    | _ => s.rd HLT_FAULT_CNT_COUNT)

/-- Management registers (Table 19.8). -/
def State.mgtView (s : State) (b : Nat) : Nat :=
  if b = MGT_HEALTH then s.plain HLT_STATUS
  else match arrIndex (MGT_TEL 0) 5 8 b with
    | some i => s.telemetry i
    | none => s.plain b

/-- What a read of the register at its canonical address returns to a party. -/
def State.view (s : State) (who : Party) (b : Nat) : Nat :=
  match b / 0x1000000 with
  | 0 => s.svyView who b
  | 2 => s.admView b
  | 4 => s.hpView b
  | 5 => s.cadView b
  | 6 => s.rngView b
  | 7 => s.plain b
  | 8 => s.bncView b
  | 9 => s.bncView b
  | 10 => s.tblView b
  | 11 => s.swcView b
  | 12 => s.cphView b
  | 13 => s.rltView b
  | 14 => s.stoView b
  | 15 => s.pnlView b
  | 16 => if b = HLT_SUMMARY then s.summary s.boot.noticeOpen else s.plain b
  | 17 => s.mgtView b
  | _ => s.plain b

/-- DTM_NOW: Datum nanoseconds; the matching fraction is latched (R59). -/
def readNow (s : State) : Nat × State := (s.ns % 2 ^ 64, s.wr DTM_NOW_FRAC_FRAC (s.datum.toNat % 65536))

/-- The slot whose claim register lies at an address, if any: sheet, true for UP. -/
def claimAt (a : Nat) : Option (Nat × Bool) :=
  if 0x5000000 ≤ a ∧ a < 0x6000000 then
    match a % 0x1000 with
    | 0x84 => some ((a - 0x5000000) / 0x1000, true)
    | 0x90 => some ((a - 0x5000000) / 0x1000, false)
    | _ => none
  else none

/-- The cairn claim register at an address: cluster, local thread. -/
def cairnClaimAt (b : Nat) : Option (Nat × Nat) :=
  if 0xF800000 ≤ b ∧ b < 0x10000000 then
    (arrIndex (CRN_CLAIM ((b - 0xF800000) / 0x100000) 0) 32 4 b).map (fun t => ((b - 0xF800000) / 0x100000, t))
  else none

/-- A whole read of the register at an address, with the side effect of a read: a claim (R153, R444, R514) or the latch of
DTM_NOW (R59). Addresses with no register read 0 (R27). -/
def readReg (who : Party) (a : Nat) (s : State) : Nat × State :=
  match claimAt a with
  | some (n, up) => let (got, t) := claimSlot n up who s; (if got then 1 else 0, t)
  | none =>
    match findReg a with
    | none => (0, s)
    | some (_, b) =>
      if b = DTM_NOW then readNow s
      else if b = SVY_DP_LOCK then let t := dpClaim who s; (t.dpLock who, t)
      else match cairnClaimAt b with
        | some (k, t) => claimCairn k t s
        | none => (s.view who b, s)

/-! ## The debug dump (R517) -/

/-- A record of the dump: address, length, 4 reserved bytes, the bytes. -/
def dumpRecord (a : Nat) (bs : Bytes) : Bytes := leBytes 8 a ++ leBytes 4 bs.length ++ [0, 0, 0, 0] ++ bs

/-- Bytes of the register at an address. -/
def regBytes (a : Nat) : Nat := match findReg a with | some (r, _) => r.bytes | none => 4

/-- Addresses of the elements of an array of registers. -/
def elementsOf : List (Nat × Nat) → Nat → List Nat
  | [], a => [a]
  | (count, stride) :: rest, a => (List.range count).flatMap (fun i => elementsOf rest (a + i * stride))

/-- Registers whose values a dump takes: of every block of Table 1.6, but for the fuse range; of the ring status registers those of
open rings. -/
def State.dumpAddrs (s : State) : List Nat :=
  (((List.range 18).filter (· != 9)).flatMap (fun b => (blockRegs (b * 0x1000000)).flatMap (fun r =>
    if r.base = RNG_RSTATUS 0 then s.rings.map (fun g => RNG_RSTATUS g.1) else elementsOf r.dims r.base))).filter
      (fun a => !(decide (0x800000 ≤ a) && decide (a < 0x1000000)))

/-- What a dump holds: the fault log, the survey ring, and every register that reads away from its reset value; at most 8 MiB
(DESIGN CHOICE, notes/assumptions/41.md). -/
def State.dumpBytes (s : State) : Bytes :=
  let regs := s.dumpAddrs.filter (fun a => s.view .surveyor a != (regReset a).toNat)
  (dumpRecord 0x10000400 ((List.range 32).flatMap (fun r => leBytes 8 (s.reg (HLT_FAULT r)).toNat ++ leBytes 8 (s.reg (HLT_FAULT_T r)).toNat))
    ++ dumpRecord 0x10008000 ((List.range 256).flatMap s.surveyBytes)
    ++ regs.flatMap (fun a => dumpRecord a (leBytes (regBytes a) (s.view .surveyor a)))).take 0x800000

/-- DUMP_DONE: the snapshot is captured (R517). -/
def execDumpDone (s : State) : Host.Outcome State Fault Refusal :=
  if s.bit SVY_DP_STATUS_DUMP_BUSY then
    let bs := s.dumpBytes
    .next (({ s with mgmt := { s.mgmt with dump := bs } }.wr SVY_DP_STATUS_DUMP_LEN bs.length).wr SVY_DP_STATUS_DUMP_BUSY 0)
  else .next s

end Sys2Proof.Machine
end

