-- ==== Sys2Proof/Machine/RegRoute.lean ====
section
/-! DEFINITION. What a whole write to a register does: the actions of WO fields, the writes a block checks, fields that are
writable in some states only; every other field by its access code (R9, and the register tables of chapters 2 to 20). -/

namespace Sys2Proof.Machine

/-- Write to a Surveyor register (Tables 17.8-17.10, 19.7, 20.11). -/
def svyWrite (who : Party) (b : Nat) (v : BitVec 64) (s : State) : State :=
  if b = SVY_COMMIT then commitClass (getField v 0 4) s
  else if b = SVY_COMMIT_CFG then
    let s := s.plainWrite b v
    { s with boot := { s.boot with hours := s.rd SVY_COMMIT_CFG_HOURS } }
  else if b = SVY_RECOV_CTRL then
    if v.getLsbD 0 then submitPackage who s else if s.holdsPort who then s else dpDeny s
  else if b = SVY_NOTICE_ACK then
    if v.getLsbD 0 then { s with boot := { s.boot with noticeOpen := false } } else s
  else if b = SVY_DP_LOCK then if v.getLsbD 1 then dpRelease who s else s
  else if b = SVY_DP_CTRL then dpCtrlWrite who v s
  else if b = SVY_DP_ADDR then dpAddrWrite who v s
  else s.plainWrite b v

/-- Write to a Datum register (Tables 2.5-2.12). SAMPLE_INT written 0, outside its range, is stored as written: Table 2.9 gives it no
"stored as" rule (log entry 44). -/
def dtmWrite (b : Nat) (v : BitVec 64) (s : State) : State :=
  if b = DTM_CTRL then
    let s := s.plainWrite b v
    if v.getLsbD 0 then stepRequest s else s
  else if b = DTM_SERVO_A then servoSample 1 v s
  else if b = DTM_SERVO_B then servoSample 2 v s
  else if b = DTM_HOLD_CFG then holdCfgWrite v s
  else if b = DTM_SRC_CFG 0 then s.plainWrite b (putField v 4 24 0)
  else if b = DTM_SRC_CFG 1 ∨ b = DTM_SRC_CFG 2 then s.plainWrite b (putField v 3 1 0)
  else match arrIndex (DTM_PPS_CFG 0) 4 8 b with
    | some n => ppsWrite n v s
    | none => match arrIndex (DTM_SYNCE_CFG 0) 2 4 b with
      | some n => synceWrite n v s
      | none => s.plainWrite b v

/-- Write to a graticule register (Table 4.10). -/
def grtWrite (b : Nat) (v : BitVec 64) (s : State) : State :=
  let s := s.plainWrite b v
  if b = GRT_CTRL ∧ v.getLsbD 0 then nextOr s (execGrtCntClr s) else s

/-- Write to HP_PORT_CFG of a port: LINK_DIS takes effect when it changes, then RETRAIN and OBS_CLR act (Table 5.6). -/
def portCfgWrite (p : Nat) (v : BitVec 64) (s : State) : State :=
  let was := s.bit (HP_PORT_CFG_LINK_DIS p)
  let s := s.plainWrite (HP_PORT_CFG p) v
  let s := if was = v.getLsbD 4 then s else nextOr s (execHpLinkDisable p (v.getLsbD 4) s)
  let s := if v.getLsbD 3 then nextOr s (execHpRetrain p s) else s
  if v.getLsbD 11 then nextOr s (execHpObsClr p s) else s

/-- Write to HP_PF_CFG of a function; EN and BAR0_LOG2 of function 0 are RO (Table 5.13). -/
def pfCfgWrite (p f : Nat) (v : BitVec 64) (s : State) : State :=
  let v := if f = 0 then putField v 0 6 (getField (s.reg (HP_PF_CFG p 0)) 0 6) else v
  s.plainWrite (HP_PF_CFG p f) v

/-- Write to a host port register; an absent port ignores it, but for HP_STN_CFG (Tables 5.6-5.13). -/
def hpWrite (b : Nat) (v : BitVec 64) (s : State) : State :=
  let p := (b - 0x4000000) / 0x10000
  if b % 0x10000 = 0x10 then s.plainWrite b v
  else if s.portPresent p = false then s
  else if (checkedReg b).isSome then admConfigWrite b v s
  else if b = HP_PORT_CFG p then portCfgWrite p v s
  else if b = HP_WIN_COMMIT p then if v.getLsbD 0 then nextOr s (execHpWinCommit p s) else s
  else match arrIndex (HP_PF_CFG p 0) 8 4 b with
    | some f => pfCfgWrite p f v s
    | none => match arrIndex (winAddr p 0 0 0) 1024 8 b with
      | some k => writeShadow p k v s
      | none => s.plainWrite b v

/-- A write of an OP to CAD_OP of a sheet (Table 6.6). -/
def cadOp (n op : Nat) (s : State) : State :=
  match op with
  | 1 => createSheet n s
  | 2 => cadDestroy n s
  | 3 => cadEnable n s
  | _ => s

/-- Write to a cadastre register: CAD_ID and CAD_SHARE while the sheet is FREE (Table 6.6). -/
def cadWrite (b : Nat) (v : BitVec 64) (s : State) : State :=
  let n := (b - 0x5000000) / 0x1000
  if b = CAD_OP n then cadOp n (getField v 0 2) s
  else if b % 0x1000 < 0x830 then if (s.sheet n).state = .free then s.plainWrite b v else s
  else s.plainWrite b v

/-- A write to a bell or ACK register of a mailbox page (Table 6.3). -/
def mailWrite (who : Party) (a : Nat) (v : BitVec 64) (s : State) : State :=
  let n := (a - 0x5000000) / 0x1000
  if v.getLsbD 0 = false then s
  else match a % 0x1000 with
    | 0x88 => bellSlot n true who s
    | 0x8C => ackSlot n true who s
    | 0x94 => bellSlot n false who s
    | 0x98 => ackSlot n false who s
    | _ => s

/-- A write of an OP to RNG_ADMIN_CTRL of a sheet; the number of a ring it opens is the device's choice (R168). -/
def adminOp (n : Nat) (v : BitVec 64) (s : State) : State :=
  match getField v 0 2 with
  | 1 => adminOpen n s.draw.toNat (v.getLsbD 2) s.drawn
  | 2 => adminEnable n s
  | 3 => adminClose n s
  | _ => s

/-- Write to a ring register: BASE, HEAD_ADDR and SIZE_LOG2 while ring 0 is CLOSED (Tables 7.13, 7.14). -/
def rngWrite (b : Nat) (v : BitVec 64) (s : State) : State :=
  let n := (b - 0x6800000) / 0x40
  if b = RNG_DB_DROP then s.wr RNG_DB_DROP_COUNT 0
  else if b < 0x6800000 ∨ 0x6840000 ≤ b then s.plainWrite b v
  else if b = RNG_ADMIN_CTRL n then adminOp n v s
  else if (s.findRing n 0).isSome then
    if b = RNG_ADMIN_BASE n ∨ b = RNG_ADMIN_HEAD n then s
    else if b = RNG_ADMIN_CFG n then s.plainWrite b (putField v 0 5 (s.rd (RNG_ADMIN_CFG_SIZE_LOG2 n)))
    else s.plainWrite b v
  else s.plainWrite b v

/-- Write to NET_PORT_CTRL of a port (Table 8.6). -/
def portCtrlWrite (p : Nat) (v : BitVec 64) (s : State) : State :=
  let s := if v.getLsbD 2 then clearNetCounters p s else s
  let s := if v.getLsbD 1 then netRestore p s else s
  if v.getLsbD 0 then netRetrain p s else s

/-- Write to a network port register (Tables 8.5-8.10). A port number whose lanes another port holds ignores MODE alone
(R211). -/
def netWrite (b : Nat) (v : BitVec 64) (s : State) : State :=
  let p := (b - 0x7000000) / 0x8000
  if b % 0x8000 < 0x4000 then
    if b = NET_PORT_CFG p then netCfgWrite p v s
    else if b = NET_PORT_CTRL p then portCtrlWrite p v s
    else if b = NET_HEAD_CFG p ∨ b = NET_PRIO_MAP p then netHeadWrite b p v s
    else if b = NET_PFC_CFG p then netPfcWrite p v s
    else s.plainWrite b v
  else if b = NET_CAGE_ACC p then cageAccWrite p v.toNat s
  else s.plainWrite b v

/-- Write to a bench register (Tables 9.2-9.10). -/
def bncWrite (b : Nat) (v : BitVec 64) (s : State) : State :=
  if b = BNC_PROF_COMMIT 0 then if v.getLsbD 0 then profCommit s else s
  else if b = BNC_MOVE then
    if v.getLsbD 18 then bucketMove (getField v 0 12) (getField v 12 5) (v.getLsbD 17) s else s
  else if 0x8010000 ≤ b ∧ b < 0x8012000 then shadowWrite b v s
  else match arrIndex (BNC_DEFAULT 0) 128 4 b with
    | some i => defaultWrite i v s
    | none => match arrIndex (BNC_CONTOUR 0) 16 8 b with
      | some c => (settleContour c s).plainWrite b v
      | none => s.plainWrite b v

/-- Write to a table register (Tables 10.4, 10.6, 10.9). -/
def tblWrite (b : Nat) (v : BitVec 64) (s : State) : State :=
  if b = TBL_LEARN_CFG then learnCfgWrite v s
  else match arrIndex (TBL_DESC 0) 64 8 b with
    | some t => descWrite t v s
    | none => match arrIndex (TBL_PROG 0 0) 1024 4 b with
      | some i => progWrite (i / 4) (i % 4) v s
      | none => s.plainWrite b v

/-- A write to a switch core register is refused: CFG_ERR (R315). -/
def swcRefuse (s : State) : State := raise SWC_EVENT_CFG_ERR s

/-- A SWC_SPOIL_CFG image is refused: CLASS timed, or CAP_RING no receive ring of a sheet of function 0, whatever EN is
(Table 11.12). -/
def State.spoilCfgRefused (s : State) (v : BitVec 64) : Bool :=
  s.timed (getField v 18 3) ||
    (match s.ring? (getField v 22 20) with
      | some r => !(r.kind == 2 && s.sheetPf r.sheet == 0)
      | none => true)

/-- Write to SWC_RXDEF of a port: RING must be a receive ring of a sheet on the port, whatever EN is (Table 11.13). -/
def rxdefWrite (p : Nat) (v : BitVec 64) (s : State) : State :=
  let good := match s.ring? (getField v 0 20) with
    | some r => r.kind == 2 && s.sheetPort r.sheet == some p
    | none => false
  if s.rxdefPort p = false then s
  else if good = false then swcRefuse s
  else s.plainWrite (SWC_RXDEF p) v

/-- Write to a switch core register (Tables 11.11-11.13). -/
def swcWrite (b : Nat) (v : BitVec 64) (s : State) : State :=
  if b = SWC_SPOIL_CFG then if s.spoilCfgRefused v then swcRefuse s else s.plainWrite b v
  else if b = SWC_BP_CFG ∨ b = SWC_BP_FLOOR then refreshPressure (s.plainWrite b v)
  else if (arrIndex (SWC_MIR 1) 15 4 b).isSome then
    if s.outletExists (getField v 0 7) = false then swcRefuse s else s.plainWrite b v
  else match arrIndex (SWC_OUT_WGT 0) 128 8 b with
    | some o => if s.outletExists o then s.plainWrite b v else s
    | none => match arrIndex (SWC_ALT 0) 64 4 b with
      | some o => altWrite o v s
      | none => match arrIndex (SWC_RXDEF 0) 48 4 b with
        | some p => rxdefWrite p v s
        | none => s.plainWrite b v

/-- Write to a storage register: a timed HOST_CLASS is refused (Table 15.9). -/
def stoWrite (b : Nat) (v : BitVec 64) (s : State) : State :=
  if b = STO_CFG ∧ s.timed (getField v 0 3) then s else s.plainWrite b v

/-- Write to PNL_THR_CFG of a thread: TIMED only while STOPPED (R427). -/
def thrCfgWrite (k t : Nat) (v : BitVec 64) (s : State) : State :=
  let v := if s.threadState (32 * k + t) = 0 then v else putField v 0 1 (s.rd (PNL_THR_CFG_TIMED k t))
  s.plainWrite (PNL_THR_CFG k t) v

/-- Write to a register of a cluster whose offset it is (Tables 16.7-16.10). -/
def pnlWrite (b : Nat) (v : BitVec 64) (s : State) : State :=
  let k := (b - 0xF000000) / 0x100000
  if b = PNL_CLU_CFG k then clusterCfgWrite k v s
  else if b = PNL_GAL_ABANDON k then if v.getLsbD 11 then galAbandon k (getField v 0 5) (getField v 5 6) s else s
  else if b = PNL_MIGRATE k then if v.getLsbD 10 then migrate k (getField v 0 5) (getField v 5 5) s else s
  else match arrIndex (PNL_THR_CFG k 0) 32 4 b with
  | some t => thrCfgWrite k t v s
  | none =>
    match arrIndex (PNL_THR_CTRL k 0) 32 4 b with
    | some t => threadCtrl (32 * k + t) (getField v 0 3) s
    | none =>
      match arrIndex (PNL_THR_PC k 0) 32 8 b with
      | some t => if s.threadState (32 * k + t) = 0 ∨ s.threadState (32 * k + t) = 3 then s.plainWrite b v else s
      | none =>
        match arrIndex (PNL_THR_TIMER k 0) 32 8 b with
        | some t => (s.plainWrite b v).wr (PNL_THR_STAT_TIMER_ARMED k t) 1
        | none =>
          match arrIndex (PNL_GAL k 0) 64 8 b with
          | some g => galWrite k g v s
          | none => s.plainWrite b v

/-- Write to a cairn register (Table 16.11). -/
def crnWrite (b : Nat) (v : BitVec 64) (s : State) : State :=
  let k := (b - 0xF800000) / 0x100000
  if (arrIndex (CRN_COMPLETE k 0) 32 4 b).isSome then completeCairn k (getField v 0 10) s
  else if b = CRN_RAISE k then raiseCairn k (getField v 0 10) s
  else s.plainWrite b v

/-- Write to HLT_CTRL: the LED follows LOCATE (R485). -/
def hltCtrlWrite (v : BitVec 64) (s : State) : State :=
  let was := s.led
  let s := s.plainWrite HLT_CTRL v
  if s.led = was then s else s.emit (.ball 1 0 s.led)

/-- Write to a health register (Tables 18.8-18.10). -/
def hltWrite (b : Nat) (v : BitVec 64) (s : State) : State :=
  if b = HLT_PROT_POP then if v.getLsbD 0 then popProt s else s
  else if b = HLT_SURV_RD then surveyAdvance v.toNat s
  else if b = HLT_CTRL then hltCtrlWrite v s
  else s.plainWrite b v

/-- Write to a management register; the BMC may not write MGT_CFG (R520, Table 19.8). -/
def mgtWrite (who : Party) (b : Nat) (v : BitVec 64) (s : State) : State :=
  if b = MGT_CFG then if who = .bmc then dpDeny s else s.plainWrite b v
  else if b = MGT_DBG_CTRL then dbgCtrlWrite v s
  else s.plainWrite b v

/-- A whole write of a party to the register at its canonical address. -/
def routedWrite (who : Party) (b : Nat) (v : BitVec 64) (s : State) : State :=
  match b / 0x1000000 with
  | 0 => svyWrite who b v s
  | 1 => dtmWrite b v s
  | 2 => if (checkedReg b).isSome then admConfigWrite b v s else s.plainWrite b v
  | 3 => grtWrite b v s
  | 4 => hpWrite b v s
  | 5 => cadWrite b v s
  | 6 => rngWrite b v s
  | 7 => netWrite b v s
  | 8 => bncWrite b v s
  | 9 => bncWrite b v s
  | 10 => tblWrite b v s
  | 11 => swcWrite b v s
  | 14 => stoWrite b v s
  | 15 => if b < 0xF800000 then pnlWrite b v s else crnWrite b v s
  | 16 => hltWrite b v s
  | 17 => mgtWrite who b v s
  | _ => s.plainWrite b v

/-- A whole write of a party to the register at an address: mailbox bells and ACKs, else the register there; an address with no
register ignores it (R27). -/
def writeReg (who : Party) (a : Nat) (v : BitVec 64) (s : State) : State :=
  if 0x5000000 ≤ a ∧ a < 0x6000000 ∧ a % 0x1000 < 0x800 then mailWrite who a v s
  else match findReg a with
    | none => s
    | some (_, b) => routedWrite who b v s

end Sys2Proof.Machine
end

