-- ==== Sys2Proof/Machine/RegAccess.lean ====
section
/-! DEFINITION. Accesses to control space: the reach of each party, widths and alignment, islands that are not released, in reset
or under output hold, doorbells, the BMC's register messages and host requests to BARs (R8, R16, R27-R30, R119, R122-R128, R148,
R173, R208, R454, R459, R506). -/

namespace Sys2Proof.Machine

/-! ## Reach (R29, R30, R148, R208) -/

/-- The sheet whose ring registers or doorbell or mailbox page an address of control space lies in. -/
def State.pageSheet (s : State) (a : Nat) : Option Nat :=
  if 0x5000000 ≤ a ∧ a < 0x6000000 then some ((a - 0x5000000) / 0x1000)
  else if 0x6000000 ≤ a ∧ a < 0x6800000 then (s.ring? ((a - 0x6000000) / 8)).map (fun r => r.sheet)
  else if 0x6800000 ≤ a ∧ a < 0x6840000 then some ((a - 0x6800000) / 0x40)
  else if 0x20000000 ≤ a ∧ a < 0x21000000 then some ((a - 0x20000000) / 0x1000)
  else none

/-- A sheet's page is on a host port, or the address is of no sheet. -/
def State.pageOn (s : State) (p a : Nat) : Bool :=
  match s.pageSheet a with
  | some n => s.sheetPort n == some p
  | none => true

/-- A tenant reaches a page: of a sheet on its function. -/
def State.pageOf (s : State) (p f a : Nat) : Bool :=
  match s.pageSheet a with
  | some n => s.sheetPort n == some p && s.sheetPf n == f
  | none => false

/-- The fuses and the key hierarchy. -/
def isFuse (a : Nat) : Bool := decide (0x800000 ≤ a) && decide (a < 0x1000000)

/-- The data port registers, with those of recovery, and the MGT_ block (R29, R470). -/
def bmcReach (a : Nat) : Bool :=
  (decide (0x1000 ≤ a) && decide (a < 0x2000)) || (decide (0xB0 ≤ a) && decide (a < 0xBC))
    || (decide (0x11000000 ≤ a) && decide (a < 0x12000000))

/-- Expander whose range of the CXL aperture an address lies in: its root port, and the address in the range. -/
def State.expanderAt (s : State) (a : Nat) : Option (Nat × Nat) :=
  (s.ports.find? (fun p => decide (p.2.cxlBase ≤ a) && decide (a < p.2.cxlBase + p.2.cxlSize))).map
    (fun p => (p.1, a - p.2.cxlBase))

/-- The HBM tier of the tables: the first 16 GiB of each stack (Table 10.1). -/
def isHbmTier (a : Nat) : Bool := isHbm a && decide ((a - 0x400000000000) % 0xC00000000 < 0x400000000)

/-- The part of an expander's range that is the write-back cache: its lowest bytes (R407; the place in the range is open, log entry
44). -/
def State.isCachePart (s : State) (a : Nat) : Bool :=
  match s.expanderAt a with
  | some (p, off) => decide (off < tblGetD 0 s.sto.room p)
  | none => false

/-- Cluster whose locked hold region an address lies in. -/
def State.lockedHold (s : State) (a : Nat) : Option Nat :=
  match s.load? 5 with
  | none => none
  | some x => (List.range 8).find? (fun k =>
      decide ((Config.holdBase k).toNat ≤ a) && decide (a < (Config.holdBase k).toNat + x.chunks * 65536))

/-- The memory firewall gives an address to one engine alone: the HBM tier, the cache part of an expander, and regions that the
spec does not place (R257, R323, R407). A locked hold region is write-locked only, and stands apart (R455). -/
def State.firewalled (s : State) (a : Nat) : Bool :=
  (s.lockedHold a).isNone && (isHbmTier a || s.isCachePart a || Config.firewalled a)

/-- Table 1.7: a party reaches an address of control space or internal memory. -/
def State.reaches (s : State) (who : Party) (a : Nat) : Bool :=
  match who with
  | .surveyor => true
  | .firmware _ => !isFuse a && !((isHbm a || isCxl a) && s.firewalled a)
  | .host p 0 =>
      ((decide (a < 0x12000000) && !isFuse a) || (decide (0x20000000 ≤ a) && decide (a < 0x21000000))) && s.pageOn p a
  | .host p f =>
      ((decide (0x20000000 ≤ a) && decide (a < 0x21000000))
        || (decide (0x5000000 ≤ a) && decide (a < 0x6000000) && decide (a % 0x1000 < 0xA0))) && s.pageOf p f a
  | .bmc => bmcReach a

/-- Lines an access touches. -/
def linesOf (a n : Nat) : List Nat := (List.range ((a % 64 + n + 63) / 64)).map (fun i => a / 64 + i)

/-- A party reaches every line of an access of n bytes. -/
def State.reachesAll (s : State) (who : Party) (a n : Nat) : Bool :=
  (linesOf a n).all (fun l => s.reaches who (max a (64 * l)))

/-! ## Islands (R16, R459, R454) -/

/-- Island that serves an address; none where the access is served in every BOOT_STATE. BNC_EVENT of bench 0 is held on the hub
(R255). -/
def State.islandAt (s : State) (a : Nat) : Option Nat :=
  match a / 0x1000000 with
  | 1 => some 0xA8
  | 2 => some 0xA2
  | 3 => some 0xA9
  | 4 => let p := (a - 0x4000000) / 0x10000; if s.portPresent p then some (0x40 + p) else none
  | 5 => some 0xA9
  | 6 => some 0xA9
  | 7 => if a < 0x7200000 then some ((a - 0x7000000) / 0x8000) else none
  | 8 => if a = BNC_EVENT 0 then some 0xA9 else some (0x70 + (a - 0x8000000) / 0x100000)
  | 9 => if a < 0x9200000 then some (0x70 + (a - 0x8000000) / 0x100000) else none
  | 10 => some 0xA9
  | 11 => some 0xA9
  | 12 => some 0xA3
  | 13 => some 0xA0
  | 14 => some 0xA1
  | 15 => some (0x90 + (a - 0xF000000) / 0x100000 % 8)
  | 16 => some 0xA2
  | 0x20 => some 0xA9
  | _ => none

/-- The Surveyor image runs: the ADM_ and HLT_ blocks, which it serves, are none of those served in every BOOT_STATE. -/
def State.surveyorRuns (s : State) : Bool := s.rd SVY_BOOT_STATUS_STATE == 2 || s.rd SVY_BOOT_STATUS_STATE == 3

/-- The island of an address has not been released since device reset. -/
def State.unreleased (s : State) (a : Nat) : Bool :=
  match s.islandAt a with
  | some n => !(s.island n).released || (n == 0xA2 && !s.surveyorRuns)
  | none => false

/-- The island of an address that is in reset, if it is. -/
def State.heldBy (s : State) (a : Nat) : Option Nat :=
  match s.islandAt a with
  | some n => if (s.island n).released && (s.island n).inReset then some n else none
  | none => none

/-- The island in reset that holds an access of n bytes: that of the first 8-byte part that one holds (R8, R16). -/
def State.holderOf (s : State) (a n : Nat) : Option Nat :=
  (List.range ((a % 8 + n + 7) / 8)).findSome? (fun i => s.heldBy (if i = 0 then a else a - a % 8 + 8 * i))

/-- A firmware access that is an output of its unit under output hold: class 5 executes, its tag has not matched, and the access
leaves the cluster's own island (R454). -/
def State.outputOf (s : State) (who : Party) (a : Nat) : Option Nat :=
  match who, s.load? 5 with
  | .firmware k, some x => if x.started && !x.matched && s.islandAt a != some (0x90 + k) then some k else none
  | _, _ => none

/-! ## Parts (R8) -/

/-- The aligned 8-byte parts of an access of more than 8 bytes, with their lengths; a shorter access is one part. -/
def accessParts : Nat → Nat → Nat → List (Nat × Nat)
  | 0, _, _ => []
  | fuel + 1, a, n =>
    if n = 0 then [] else
      let k := min n (8 - a % 8)
      (a, k) :: accessParts fuel (a + k) (n - k)

/-- Parts of an access of n bytes. -/
def partsOf (a n : Nat) : List (Nat × Nat) := if n ≤ 8 then [(a, n)] else accessParts n a n

/-- A 4-byte read, aligned: of a 32-bit register, or 0. -/
def read4 (who : Party) (a : Nat) (s : State) : Nat × State := if regBytes a = 4 then readReg who a s else (0, s)

/-- A part of a read of registers. -/
def readPart (who : Party) (a n : Nat) (s : State) : Nat × State :=
  if n = 4 ∧ a % 4 = 0 then read4 who a s
  else if n = 8 ∧ a % 8 = 0 then
    if regBytes a = 8 then readReg who a s
    else
      let (x, s) := read4 who a s
      let (y, s) := read4 who (a + 4) s
      (x + y * 2 ^ 32, s)
  else (0, s)

/-- A 4-byte write, aligned. -/
def write4 (who : Party) (a v : Nat) (s : State) : State :=
  if regBytes a = 4 then writeReg who a (BitVec.ofNat 64 (v % 2 ^ 32)) s else s

/-- A part of a write of registers. -/
def writePart (who : Party) (a n v : Nat) (s : State) : State :=
  if n = 4 ∧ a % 4 = 0 then write4 who a v s
  else if n = 8 ∧ a % 8 = 0 then
    if regBytes a = 8 then writeReg who a (BitVec.ofNat 64 v) s
    else write4 who (a + 4) (v / 2 ^ 32) (write4 who a v s)
  else s

/-! ## What is not a register -/

/-- Slot bytes of a mailbox page: sheet, true for UP, offset in the slot. -/
def slotAt (a : Nat) : Option (Nat × Bool × Nat) :=
  if 0x5000000 ≤ a ∧ a < 0x6000000 ∧ a % 0x1000 < 0x80 then
    some ((a - 0x5000000) / 0x1000, decide (a % 0x1000 < 0x40), a % 0x40)
  else none

/-- Slot bytes as read; 0 when the sheet is FREE. -/
def State.slotBytes (s : State) (n : Nat) (up : Bool) (off k : Nat) : Bytes :=
  if (s.sheet n).state = .free then List.replicate k 0
  else ((leBytes 64 ((s.sheet n).slot up).bytes.toNat).drop off).take k

/-- An access of whole aligned dwords within the slot bytes of a page, UP and DOWN together: R8 does not say whether one access may
cover bytes of both slots, and the model lets it, each slot under its own rules (log entry 44). -/
def slotAligned (off n : Nat) : Bool := off % 4 == 0 && n % 4 == 0 && decide (off + n ≤ 128)

/-- Slot bytes of a page as read, from an offset in the page on. -/
def State.pageBytes (s : State) (k off n : Nat) : Bytes :=
  if slotAligned off n then
    ((s.slotBytes k true 0 64 ++ s.slotBytes k false 0 64).drop off).take n
  else List.replicate n 0

/-- A write to the slot bytes of a page: what falls on UP, then what falls on DOWN. -/
def writePage (k off : Nat) (who : Party) (bs : Bytes) (s : State) : State :=
  if slotAligned off bs.length = false then s
  else
    let s := if off < 64 then writeSlot k true who off (bs.take (64 - off)) s else s
    if 64 < off + bs.length then writeSlot k false who (off - 64) (bs.drop (64 - off)) s else s

/-- Cluster memory. -/
def isClusterMem (a : Nat) : Bool := decide (0xF000000 ≤ a) && decide (a < 0xF800000) && decide (0x80000 ≤ a % 0x100000)

/-- The data-port aperture SVY_DP_DATA. -/
def isAperture (a : Nat) : Bool := decide (0x1800 ≤ a) && decide (a < 0x2000)

/-- The survey ring and the consumables records of the HLT_ block, read-only words of 4 bytes, from an address on. -/
def State.recordBytes (s : State) (a n : Nat) : Option Bytes :=
  if 0x10008000 ≤ a ∧ a + n ≤ 0x1000C000 then
    some ((((List.range 256).flatMap s.surveyBytes).drop (a - 0x10008000)).take n)
  else if 0x10010000 ≤ a ∧ a + n ≤ 0x10011400 then
    some ((((List.range 80).flatMap s.consBytes).drop (a - 0x10010000)).take n)
  else none

/-- A doorbell page. -/
def isDoorbell (a : Nat) : Bool := decide (0x20000000 ≤ a) && decide (a < 0x21000000)

/-- DB_PRODUCE of a sheet: ignored unless it is ACTIVE or DEBUG (R173, R174, Table 6.7). -/
def doorbell (n loc pi : Nat) (s : State) : State :=
  if (s.sheet n).state = .active ∨ (s.sheet n).state = .debug then
    match s.findRing n loc with
    | some (g, r) => ringDoorbell g r pi s
    | none => dropDoorbell s
  else s

/-- A part of a write to a doorbell page: a part narrower than 8 bytes at offset 0 is counted and has no other effect (R8, R173). -/
def doorbellWrite (a n v : Nat) (s : State) : State :=
  let sheet := (a - 0x20000000) / 0x1000
  if 8 ≤ a % 0x1000 then s
  else if n = 8 ∧ a % 0x1000 = 0 then doorbell sheet (v % 2 ^ 16) (v / 2 ^ 32) s
  else if (s.sheet sheet).state = .active ∨ (s.sheet sheet).state = .debug then dropDoorbell s
  else s

/-- DOORBELL_WRITE: DB_PRODUCE of a sheet's page names a local ring and a producer index; narrow: in less than 8 bytes (R173,
R174). -/
def execDoorbellWrite (sheet loc pi : Nat) (narrow : Bool) (s : State) : Host.Outcome State Fault Refusal :=
  .next (doorbellWrite (0x20000000 + sheet * 0x1000) (if narrow then 4 else 8) (loc % 2 ^ 16 + pi % 2 ^ 32 * 2 ^ 32) s)

/-! ## Internal memory (R27, R28) -/

/-- Lines that a write covers whole. -/
def wholeLines (a n : Nat) : List Nat := (linesOf a n).filter (fun l => decide (a ≤ l * 64) && decide (l * 64 + 64 ≤ a + n))

/-- An address of memory that exists: HBM, or an attached expander's range of the CXL aperture; the rest reads as reserved. -/
def State.memThere (s : State) (a : Nat) : Bool := isHbm a || (s.expanderAt a).isSome

/-- Write memory that exists: a whole line written is poisoned no more. -/
def memStore (a : Nat) (bs : Bytes) (s : State) : State :=
  let gone := wholeLines a bs.length
  { s with mem := memWrite s.mem a bs, health := { s.health with poisoned := s.health.poisoned.filter (fun l => !gone.contains l) } }

/-- A party's write to internal memory: a locked hold region refuses it and restarts its unit (R455); a range with no expander ignores
it. -/
def memAccess (who : Party) (a : Nat) (bs : Bytes) (s : State) : State :=
  if (s.lockedHold a).isSome then nextOr s (execHoldRegionWriteFault 5 who a s)
  else if s.memThere a then memStore a bs s
  else s

/-! ## Whole accesses -/

/-- Kinds of place an address lies in. -/
inductive Place where
  | slots (sheet : Nat) | aperture | cluster | memory | doorbells | registers
  deriving DecidableEq, Repr

/-- The place of an address. -/
def placeOf (a : Nat) : Place :=
  match slotAt a with
  | some (k, _, _) => .slots k
  | none =>
    if isAperture a then .aperture
    else if isClusterMem a then .cluster
    else if isHbm a ∨ isCxl a then .memory
    else if isDoorbell a then .doorbells
    else .registers

/-- A place that takes an access of any length whole (R8). -/
def Place.takesWhole : Place → Bool
  | .slots _ => true | .aperture => true | .cluster => true | .memory => true | .doorbells => false | .registers => false

/-- The pieces of an access: whole inside a place that takes it so, else its 8-byte parts (R8). -/
def piecesOf (a n : Nat) : List (Nat × Nat) :=
  if (placeOf a).takesWhole ∧ placeOf a = placeOf (a + n - 1) then [(a, n)] else partsOf a n

/-- A piece of a read that its party and island allow: outside its reach it reads 0 with a protection event; on an
island not released it reads 0 (R30, R459). -/
def readPiece (who : Party) (a n : Nat) (s : State) : Bytes × State :=
  if s.reachesAll who a n = false then (List.replicate n 0, protEvent who a false none s)
  else if s.unreleased a then (List.replicate n 0, s)
  else match placeOf a with
    | .slots k => (s.pageBytes k (a % 0x1000) n, s)
    | .aperture => dpRead who (a - 0x1800) n s
    | .cluster => (s.cluRead a n, s)
    | .memory => (if s.memThere a then s.memRead a n else List.replicate n 0, s)
    | .doorbells => (List.replicate n 0, s)
    | .registers =>
      if (n = 4 ∨ n = 8) ∧ a % n = 0 ∧ (s.recordBytes a n).isSome then ((s.recordBytes a n).getD [], s)
      else
        let (v, t) := readPart who a n s
        (leBytes n v, t)

/-- A piece of a write that its party and island allow. -/
def writePiece (who : Party) (a : Nat) (bs : Bytes) (s : State) : State :=
  if s.reachesAll who a bs.length = false then protEvent who a true none s
  else if s.unreleased a then s
  else match placeOf a with
    | .slots k => writePage k (a % 0x1000) who bs s
    | .aperture => dpWrite who (a - 0x1800) bs s
    | .cluster => cluWrite a bs s
    | .memory => memAccess who a bs s
    | .doorbells => doorbellWrite a bs.length (ofLe bs) s
    | .registers => writePart who a bs.length (ofLe bs) s

/-- Read the pieces of an access in order. -/
def readPieces (who : Party) : List (Nat × Nat) → State → Bytes × State
  | [], s => ([], s)
  | (a, n) :: rest, s =>
    let (bs, s) := readPiece who a n s
    let (cs, s) := readPieces who rest s
    (bs ++ cs, s)

/-- Write the pieces of an access in order. -/
def writePieces (who : Party) : List (Nat × Nat) → Bytes → State → State
  | [], _, s => s
  | (a, n) :: rest, bs, s => writePieces who rest (bs.drop n) (writePiece who a (bs.take n) s)

/-- Read n bytes of control space or internal memory. -/
def readSpace (who : Party) (a n : Nat) (s : State) : Bytes × State := readPieces who (piecesOf a n) s

/-- Write bytes to control space or internal memory. -/
def writeSpace (who : Party) (a : Nat) (bs : Bytes) (s : State) : State := writePieces who (piecesOf a bs.length) bs s

/-- Perform an access: a read is answered. -/
def perform (h : HeldAccess) (s : State) : State :=
  if h.isWrite then writeSpace h.who h.addr (leBytes h.size h.value) s
  else
    let (bs, t) := readSpace h.who h.addr h.size s
    t.emit (.reply h.who bs)

/-- Bytes that a held output takes of the 256 KiB output-hold buffer (notes/assumptions/46). -/
def outputBytes (h : HeldAccess) : Nat := 16 + h.size

/-- An access to control space: held for an island in reset, queued as an output under output hold unless the buffer is full,
otherwise performed (R16, R454). -/
def access (h : HeldAccess) (s : State) : State :=
  match s.outputOf h.who h.addr with
  | some k =>
    let l := tblGetD [] s.boot.outputs k
    if (l.map outputBytes).sum + outputBytes h ≤ 262144 then
      { s with boot := { s.boot with outputs := tblPut s.boot.outputs k (l ++ [h]) } }
    else s
  | none =>
    match s.holderOf h.addr h.size with
    | some n => s.setIsland n { s.island n with held := (s.island n).held ++ [h] }
    | none => perform h s

/-- REGISTER_WRITE: a party writes size bytes, little-endian, at an address of control space (R8, R9, R30). -/
def execRegisterWrite (who : Party) (addr size value : Nat) (s : State) : Host.Outcome State Fault Refusal :=
  .next (access ⟨who, true, addr, size, value, 0⟩ s)

/-- An island leaves reset: its replica takes Datum time from a spine delay measured again over the round trip given, a bench's mask
generators are seeded again, the accesses held for it are performed in order, and what depends on it may serve (R16, R22, R49, R319). -/
def endIslandReset (node roundTripPs : Nat) (s : State) : State :=
  let x := s.island node
  let s := s.setIsland node ({ x with inReset := false, held := [] }.calibrate node roundTripPs)
  let s := if 0x70 ≤ node ∧ node < 0x82 then reseedBench (node - 0x70) s else s
  refreshPressure (serveStorage (x.held.foldl (fun t h => access h t) s))

/-- A failed bench stays in reset until device reset (Table 9.7). -/
def State.staysInReset (s : State) (node : Nat) : Bool :=
  decide (0x70 ≤ node) && decide (node < 0x82) && s.rd (BNC_STATUS_STATE (node - 0x70)) == 3

/-- ISLAND_RESET_END: an island leaves reset; the Datum island leaves it with DATUM_RESUME (R16, R49, R50). -/
def execIslandResetEnd (node roundTripPs : Nat) (s : State) : Host.Outcome State Fault Refusal :=
  let x := s.island node
  if x.released = false ∨ x.inReset = false ∨ s.staysInReset node ∨ (node = datumNode ∧ s.dtm.restarting) then .next s
  else .next (endIslandReset node roundTripPs s)

/-! ## Register accesses with rows of their own -/

/-- DATUM_RESUME: Datum resumes from the replicas' time without a step; when its island was reset, the accesses held for it are
performed (R16, R50). The round trip of the delay measured is a free value. -/
def execDatumResume (s : State) : Host.Outcome State Fault Refusal :=
  if s.dtm.restarting then
    let s := { s with dtm := { s.dtm with restarting := false } }
    if (s.island datumNode).inReset then .next (endIslandReset datumNode s.draw.toNat s.drawn) else .next s
  else .next s

/-- A write that reaches a register without the path of a party: the rows that name none. -/
def devWrite (a n v : Nat) (s : State) : State := access ⟨.surveyor, true, a, n, v, 0⟩ s

/-- SERVO_SAMPLE_WRITE: one 64-bit write to DTM_SERVO_A, or with b to DTM_SERVO_B (R43). -/
def execServoSampleWrite (b : Bool) (value : BitVec 64) (s : State) : Host.Outcome State Fault Refusal :=
  .next (devWrite (if b then DTM_SERVO_B else DTM_SERVO_A) 8 value.toNat s)

/-- DTM_STEP_REQUEST: a write of DTM_CTRL as it stands with STEP 1 (R37). -/
def execDtmStepRequest (s : State) : Host.Outcome State Fault Refusal :=
  if (s.heldBy DTM_CTRL).isSome then .next (devWrite DTM_CTRL 4 ((s.reg DTM_CTRL).toNat + 1) s)
  else if s.unreleased DTM_CTRL then .next s
  else .next (stepRequest s)

/-- DTM_PORT_CORR_WRITE: a new correction applies to whole frames from the next frame boundary; a frame is one step,
so to every later frame (R60). -/
def execDtmPortCorrWrite (port : Nat) (value : BitVec 32) (s : State) : Host.Outcome State Fault Refusal :=
  if port < 64 then .next (devWrite (DTM_PORT_CORR port) 4 value.toNat s) else .next s

/-- DTM_NOW_READ: a party's 64-bit read of DTM_NOW is answered with Datum nanoseconds, and the matching fraction is latched
(Table 2.8); a party that does not reach it is answered 0 with a protection event (R29, R30, R59). -/
def execDtmNowRead (who : Party) (s : State) : Host.Outcome State Fault Refusal := .next (access ⟨who, false, DTM_NOW, 8, 0, 0⟩ s)

/-- Address of a register of a sheet's mailbox page. -/
def mailReg (sheet off : Nat) : Nat := 0x5000000 + sheet * 0x1000 + off

/-- MBX_CLAIM: a party's read of MBX_UP_CLAIM or MBX_DOWN_CLAIM, with its answer; out of its reach it reads 0 with a protection
event (R148, R153). -/
def execMbxClaim (sheet : Nat) (up : Bool) (who : Party) (s : State) : Host.Outcome State Fault Refusal :=
  .next (access ⟨who, false, mailReg sheet (if up then 0x84 else 0x90), 4, 0, 0⟩ s)

/-- MBX_BELL: a party's write of 1 to MBX_UP_BELL or MBX_DOWN_BELL (R148, R153). -/
def execMbxBell (sheet : Nat) (up : Bool) (who : Party) (s : State) : Host.Outcome State Fault Refusal :=
  .next (access ⟨who, true, mailReg sheet (if up then 0x88 else 0x94), 4, 1, 0⟩ s)

/-- MBX_ACK: a party's write of 1 to MBX_UP_ACK or MBX_DOWN_ACK (R148, R153). -/
def execMbxAck (sheet : Nat) (up : Bool) (who : Party) (s : State) : Host.Outcome State Fault Refusal :=
  .next (access ⟨who, true, mailReg sheet (if up then 0x8C else 0x98), 4, 1, 0⟩ s)

/-- CAIRN_CLAIM: a party's read of CRN_CLAIM of a thread (R444); out of its reach it reads 0 with a protection event (R30). -/
def execCairnClaim (cluster t : Nat) (who : Party) (s : State) : Host.Outcome State Fault Refusal :=
  if cluster < 8 ∧ t < 32 then .next (access ⟨who, false, CRN_CLAIM cluster t, 4, 0, 0⟩ s) else .next s

/-- DP_LOCK_CLAIM: a party's read of SVY_DP_LOCK (R514). -/
def execDpLockClaim (who : Party) (s : State) : Host.Outcome State Fault Refusal := .next (access ⟨who, false, SVY_DP_LOCK, 4, 0, 0⟩ s)

/-- DP_APERTURE_ACCESS: a party's write of bytes at an offset of SVY_DP_DATA, or (no bytes) its read of n (R516). -/
def execDpApertureAccess (who : Party) (off n : Nat) (data : Option Bytes) (s : State) : Host.Outcome State Fault Refusal :=
  let len := match data with
    | some bs => bs.length
    | none => n
  if 2048 < off + len then .next s
  else match data with
  | some bs => .next (access ⟨who, true, 0x1800 + off, bs.length, ofLe bs, 0⟩ s)
  | none => .next (access ⟨who, false, 0x1800 + off, n, 0, 0⟩ s)

/-- A party sets a bit of a register that is served in every BOOT_STATE; out of its reach it is a protection event (R29, R30). -/
def setsBit (who : Party) (a : Nat) (f : State → State) (s : State) : State := if s.reaches who a then f s else protEvent who a true none s

/-- DP_RELEASE: a party's write of 1 to RELEASE (R514). -/
def execDpRelease (who : Party) (s : State) : Host.Outcome State Fault Refusal := .next (setsBit who SVY_DP_LOCK (dpRelease who) s)

/-- DP_DUMP: a party's write of 1 to DUMP, with SPACE and AUTO as they stand; one that does not hold the port is denied (R514, R517). -/
def execDpDump (who : Party) (s : State) : Host.Outcome State Fault Refusal :=
  .next (setsBit who SVY_DP_CTRL (fun t => if t.holdsPort who then startDump (dpTouch who t) else dpDeny t) s)

/-- PACKAGE_SUBMIT: a party's write of 1 to SUBMIT (R470). -/
def execPackageSubmit (who : Party) (s : State) : Host.Outcome State Fault Refusal :=
  .next (setsBit who SVY_RECOV_CTRL (submitPackage who) s)

/-! ## The BMC's register messages (R506) -/

/-- A register message of the BMC: 2 when the address lies outside its reach, is MGT_CFG, or belongs to the data port
that another party holds; 3 when it is not aligned. -/
def State.bmcStatus (s : State) (a n : Nat) : Nat :=
  if (n ≠ 4 ∧ n ≠ 8) ∨ a % n ≠ 0 then 3
  else if bmcReach a = false then 2
  else if a = MGT_CFG then 2
  else if (a = SVY_DP_CTRL ∨ a = SVY_DP_ADDR ∨ a = SVY_RECOV_CTRL ∨ isAperture a) ∧ s.holdsPort .bmc = false then 2
  else 0

/-- THEIVO_REG_READ: 4 bytes, or 8 of a 64-bit register (R506). -/
def execTheivoRegRead (b addr : Nat) (s : State) : Host.Outcome State Fault Refusal :=
  serve b 0x7E 1 (fun t =>
    let n := regBytes addr
    let st := if addr % n ≠ 0 then 3 else if bmcReach addr = false ∨ (isAperture addr ∧ t.holdsPort .bmc = false) then 2 else 0
    if st ≠ 0 then respond b 0x7E 1 (leBytes 1 st) t
    else
      let (bs, t) := readSpace .bmc addr n t
      respond b 0x7E 1 ([0x00] ++ bs) t) s

/-- THEIVO_REG_WRITE (R506). -/
def execTheivoRegWrite (b addr : Nat) (data : Bytes) (s : State) : Host.Outcome State Fault Refusal :=
  serve b 0x7E 2 (fun t =>
    let st := t.bmcStatus addr data.length
    if st = 3 then respond b 0x7E 2 [0x03] t
    else if bmcReach addr = false then respond b 0x7E 2 [0x02] t
    else respond b 0x7E 2 (leBytes 1 st) (writeSpace .bmc addr data t)) s

end Sys2Proof.Machine
end

