-- ==== Sys2Proof/Machine/HostMmio.lean ====
section
/-! DEFINITION. Host requests to BARs: the MSI-X structures, translation through the active window bank, and the targets of each
window kind (R28, R30, R119, R122-R128, R455, R478). -/

namespace Sys2Proof.Machine

/-! ## MSI-X structures (R119) -/

/-- The 16 bytes of a vector's table entry; 0 above MSIX_N. -/
def State.vecBytes (s : State) (p f v : Nat) : Bytes :=
  if (s.func p f).msixN < v then List.replicate 16 0
  else
    let m := s.vec p f v
    leBytes 8 m.addr.toNat ++ leBytes 4 m.data.toNat ++ leBytes 4 (if m.mask then 1 else 0)

/-- A byte of the Pending Bit Array. -/
def State.pbaByte (s : State) (p f i : Nat) : Byte :=
  BitVec.ofNat 8 (ofBits ((List.range 8).map (fun j => decide (8 * i + j ≤ (s.func p f).msixN) && (s.vec p f (8 * i + j)).pend)))

/-- Bytes of the MSI-X region from an offset in it: table, then at 32,768 the Pending Bit Array. -/
def State.msixRead (s : State) (p f off n : Nat) : Bytes :=
  (List.range n).map (fun i =>
    let o := off + i
    if o < 32768 then (s.vecBytes p f (o / 16)).getD (o % 16) 0
    else if o < 33024 then s.pbaByte p f (o - 32768)
    else 0)

/-- Write bytes to a vector's table entry, from an offset in it: an unmasked vector that is pending is sent. -/
def vecWrite (p f v off : Nat) (bs : Bytes) (s : State) : State :=
  if (s.func p f).msixN < v then s
  else
    let e := overwrite (s.vecBytes p f v) off bs
    let m := s.vec p f v
    sendPending p f v (s.setVec p f v { m with
      addr := BitVec.ofNat 64 (ofLe (e.take 8))
      data := BitVec.ofNat 32 (ofLe ((e.drop 8).take 4))
      mask := (e.getD 12 0).getLsbD 0 })

/-- A write to the MSI-X region: an aligned dword or quadword of the table; the Pending Bit Array is read only. -/
def msixWrite (p f off : Nat) (bs : Bytes) (s : State) : State :=
  if off < 32768 ∧ (bs.length = 4 ∨ bs.length = 8) ∧ off % bs.length = 0 then vecWrite p f (off / 16) (off % 16) bs s else s

/-! ## Memory behind windows (R27, R28, R122) -/

/-- Read internal memory for a host function: what the firewall keeps reads 0 with a protection event, a range with no expander 0,
a poisoned line is answered as poison. -/
def hostMemRead (p f a n : Nat) (s : State) : State :=
  if s.firewalled a then (protEvent (.host p f) a false none s).emit (.reply (.host p f) (List.replicate n 0))
  else if s.memThere a = false then s.emit (.reply (.host p f) (List.replicate n 0))
  else if (linesOf a n).any (fun l => s.health.poisoned.contains l) then s.emit (.portMessage p 5 a)
  else s.emit (.reply (.host p f) (s.memRead a n))

/-- Write internal memory for a host function: what the firewall keeps discards it with a protection event, and a locked hold region
restarts its unit (R122, R455). -/
def hostMemWrite (p f a : Nat) (bs : Bytes) (s : State) : State :=
  if s.firewalled a then protEvent (.host p f) a true none s
  else memAccess (.host p f) a bs s

/-! ## Peer windows (R124) -/

/-- A host's request is forwarded to the peer port of a window, a read under a tag of that port; when that port is down or contained a write is discarded and a
read answered all-ones, and PEER_FAULT is raised. -/
def peerRequest (p f : Nat) (w : Win) (a n : Nat) (data : Option Bytes) (s : State) : State :=
  let q := w.peerPort
  let pasid := if w.pasidEn then some w.pasid else none
  if s.linkUp q = false ∨ s.bit (HP_PORT_STATUS_DPC q) then
    let s := raise (HP_EVENT_PEER_FAULT p) s
    match data with
    | some _ => s
    | none => s.emit (.reply (.host p f) (List.replicate n 0xFF))
  else match data with
    | some bs => s.emit (.hostWrite ⟨q, 0, pasid, false, false, a⟩ bs)
    | none => issueRead ⟨q, 0, pasid, false, false, a⟩ n (.peer p f (s.rd (HP_WIN_STATUS_GEN p)) n) s

/-! ## Requests (R122) -/

/-- A request that translates to an address of control space; one held at an island carries its window generation (R127). -/
def hostControl (p f a n : Nat) (data : Option Bytes) (s : State) : State :=
  match data with
  | some bs => access ⟨.host p f, true, a, bs.length, ofLe bs, s.rd (HP_WIN_STATUS_GEN p)⟩ s
  | none => access ⟨.host p f, false, a, n, 0, s.rd (HP_WIN_STATUS_GEN p)⟩ s

/-- A request at an internal address of HBM or CXL memory. -/
def hostMemory (p f a n : Nat) (data : Option Bytes) (s : State) : State :=
  match data with
  | some bs => hostMemWrite p f a bs s
  | none => hostMemRead p f a n s

/-- A request that R122 hands to R30: a read returns 0, a write is discarded, and the event records the translated address, or with a
BAR the offset of a request in no valid window (R488). -/
def hostRefused (p f addr n : Nat) (bar : Option Nat) (isWrite : Bool) (s : State) : State :=
  let s := protEvent (.host p f) addr isWrite bar s
  if isWrite then s else s.emit (.reply (.host p f) (List.replicate n 0))

/-- A request in a window. A data port window maps the data port registers and its aperture, SVY_DP_LOCK on
(notes/assumptions/45). -/
def hostThrough (p f : Nat) (w : Win) (off n : Nat) (data : Option Bytes) (s : State) : State :=
  let a := w.target + (off - w.offset)
  match w.kind with
  | 1 => hostControl p f a n data s
  | 2 => hostControl p f a n data s
  | 3 =>
    if off - w.offset < 0x1000 then hostControl p f (0x1000 + (off - w.offset)) n data s
    else match data with
      | some _ => s
      | none => s.emit (.reply (.host p f) (List.replicate n 0))
  | 4 => hostMemory p f a n data s
  | 5 => hostMemory p f a n data s
  | 6 => peerRequest p f w a n data s
  | _ => s

/-- HOST_MMIO_REQUEST: a host's read of n bytes, or write of data, at an offset of BAR0 (bar 0) or BAR2 (bar 1) of a function
(R119, R122). A request across the end of its window, or a write where WR_DIS discards writes, is refused. A function that is absent, or a link that is down, takes no request; in minimal mode only window 0 of function 0
serves (R462). -/
def execHostMmioRequest (port pf bar off n : Nat) (data : Option Bytes) (s : State) : Host.Outcome State Fault Refusal :=
  let len := match data with
    | some bs => bs.length
    | none => n
  let size := s.barSize port pf bar
  if s.linkUp port = false ∨ (s.func port pf).present = false ∨ 1 < bar ∨ len = 0 ∨ size < off + len then .next s
  else if bar = 0 ∧ size - 65536 ≤ off then
    match data with
    | some bs => .next (msixWrite port pf (off - (size - 65536)) bs s)
    | none => .next (s.emit (.reply (.host port pf) (s.msixRead port pf (off - (size - 65536)) n)))
  else
    let minimal := s.rd SVY_BOOT_STATUS_STATE == 4
    match s.windowAt port pf bar off with
    | none => .next (hostRefused port pf off len (some bar) data.isSome s)
    | some w =>
      if minimal ∧ w ≠ s.window true port 0 0 then .next (hostRefused port pf off len (some bar) data.isSome s)
      else if (w.wrDis ∧ data.isSome) ∨ w.offset + 2 ^ w.sizeLog2 < off + len then
        .next (hostRefused port pf (w.address off) len none data.isSome s)
      else .next (hostThrough port pf w off len data s)

end Sys2Proof.Machine
end

