-- ==== Sys2Proof/Machine/Watchdog.lean ====
section
/-! DEFINITION. The watchdog of a shared target: bites, and units that fail by repeated bites (spec 04, R102-R104; Table 18.1). -/

namespace Sys2Proof.Machine

/-- Nanoseconds since an instant given as a Datum short. -/
def State.elapsed (s : State) (t : BitVec 64) : Nat := (s.ns + 2 ^ 48 - t.toNat / 65536) % 2 ^ 48

/-- Bites of the last second, with a new one. -/
def State.bitesWith (s : State) (b : Bite) : List Bite := b :: s.grt.bites.filter (fun x => decide (s.ns < x.time + 1000000000))

/-- A unit that is neither a bench nor a core failed by repeated bites: beyond the model, the contracts that use it are BROKEN
(R76, Table 18.1). -/
def unitFails (node : Nat) (s : State) : State := breakNode node (beyondModel 3 (logFault 0x04 node false true false s))

/-- An island enters reset: it keeps its set-up registers and its seal, and loses its datapath state (R15, R99, R103). -/
def resetIsland (node : Nat) (s : State) : State :=
  discardDatapath node (releaseGrants node (s.setIsland node { s.island node with inReset := true }))

/-- Record a bite of a requester at a target (R103, step 4). -/
def recordBite (kind inst requester : Nat) (s : State) : State :=
  let s := s.count GRT_BITE_CNT_COUNT 1
  let s := s.setReg GRT_BITE_LAST (BitVec.ofNat 64 (inst % 4096 + kind % 16 * 2 ^ 12 + requester % 4096 * 2 ^ 16))
  raise GRT_EVENT_BITE (s.setReg GRT_BITE_TIME s.dshort)

/-- Bites of an island in a list, and those of one of its cores. -/
def bitesOf (l : List Bite) (node : Nat) (core : Option Nat) : Nat :=
  (l.filter (fun b => b.node == node && (match core with
    | some c => b.core == c
    | none => true))).length

/-- Keep the bites of the last second. -/
def setBites (l : List Bite) (s : State) : State := { s with grt := { s.grt with bites := l } }

/-- An island bitten REPEAT_LIMIT times within a second: the unit fails. A bench is swapped under R254, and of a cluster the core
that issued so many of the transfers fails under R479; any other unit is beyond the model (R104). -/
def repeatFail (node core : Nat) (l : List Bite) (s : State) : State :=
  let s := raise GRT_EVENT_REPEAT s
  if 0x90 ≤ node ∧ node < 0x98 then
    if s.rd GRT_CTRL_REPEAT_LIMIT ≤ bitesOf l node (some core) then
      nextOr s (execCoreFault ((node - 0x90) * 8 + core) (setBites (l.filter (fun b => b.node != node || b.core != core)) s))
    else s
  else
    let s := setBites (l.filter (fun b => b.node != node)) s
    if 0x70 ≤ node ∧ node < 0x82 then benchFault (node - 0x70) s else unitFails node s

/-- A bite at a target, of the requester with an index: the transfer is discarded, the grant released, the requester's island
reset, the bite recorded, and an island bitten REPEAT_LIMIT times within 1 s fails. core: the core of a cluster that issued the
transfer. -/
def bite (kind inst i core : Nat) (s : State) : State :=
  let node := requesterNode kind inst i
  let island := islandOfNode node
  let s := s.setArbiter kind inst ⟨i, none⟩
  let s := logFault 0x03 node false false false (recordBite kind inst node (resetIsland island s))
  let l := s.bitesWith ⟨island, core % 8, s.ns⟩
  let s := setBites l s
  if s.rd GRT_CTRL_REPEAT_LIMIT ≤ bitesOf l island none then repeatFail island (core % 8) l s else s

/-- WATCHDOG_BITE: the transfer that a target granted has not been accepted 1 us after the grant (R102, R103). -/
def execWatchdogBite (kind inst core : Nat) (s : State) : Host.Outcome State Fault Refusal :=
  match (s.arbiter kind inst).granted with
  | none => .next s
  | some (i, t) => if inst < targets kind ∧ 1000 ≤ s.elapsed t then .next (bite kind inst i core s) else .next s

end Sys2Proof.Machine
end

