-- ==== Sys2Proof/Machine/TagCheck.lean ====
section
/-! DEFINITION. The tag check of an image copy, and the release of what output hold queued (spec 17, R453, R454, R457). -/

namespace Sys2Proof.Machine

/-- Release the outputs a cluster's hold buffer queued, in order. -/
def releaseOutputs (k : Nat) (s : State) : State :=
  let l := tblGetD [] s.boot.outputs k
  l.foldl (fun t h => access h t) { s with boot := { s.boot with outputs := tblDel s.boot.outputs k } }

/-- A class runs: its image state, version and reason show it, its islands are released, a committed copy's running time counts,
and for class 0 the management responder runs and the rails are aimed (R454, R466, R505, R526). -/
def classRuns (c : Nat) (x : Load) (s : State) : State :=
  let h := s.header c x.copy
  let s := (s.setLoad c { x with matched := true }).wr (SVY_IMG_STATUS_STATE c) 2
  let s := (s.wr (SVY_IMG_STATUS_VERSION c) (hdrVersion h)).wr (reasonField c x.copy) 1
  let s := releaseNodes (classNodes c) s
  let s := if s.copyState c x.copy = 0 then { s with boot := { s.boot with runSince := tblPut s.boot.runSince c s.ns } } else s
  if c = 0 then aimRails (if s.health.restarting then s else s.wr MGT_STATUS_READY 1) else s

/-- IMAGE_TAG_CHECK: once every chunk of a copy is in its hold region and its units execute, its tag is checked. A match releases
the held outputs in order and lifts the hold; a mismatch discards them, resets the units and records reason 4 (R453, R454). -/
def execImageTagCheck (cls : Nat) (ok : Bool) (s : State) : Host.Outcome State Fault Refusal :=
  match s.load? cls with
  | none => .next s
  | some x =>
    if x.matched ∨ x.started = false ∨ x.chunks * 65536 < hdrLen (s.header cls x.copy) then .next s
    else if ok = false then .next (attemptFails cls 4 s)
    else
      let s := classRuns cls x s
      let s := if cls = 5 then (List.range 8).foldl (fun t k => releaseOutputs k t) s else s
      .next (if 2 ≤ cls then loadNext s else s)

end Sys2Proof.Machine
end

