-- ==== Sys2Proof/Machine/Dispatch.lean ====
section
/-! DEFINITION. Each command and its meaning. -/

namespace Sys2Proof.Machine

/-- The effect of a command on everything but the queue. -/
def exec (i : Instr) (s : State) : Host.Outcome State Fault Refusal :=
  match i with
  | .registerWrite who addr size value => Sys2Proof.Machine.execRegisterWrite who addr size value s
  | .islandResetEnd node roundTripPs => Sys2Proof.Machine.execIslandResetEnd node roundTripPs s
  | .flightSlotWaitStart ring => Sys2Proof.Machine.execFlightSlotWaitStart ring s
  | .undefinedOpcode ring => Sys2Proof.Machine.execUndefinedOpcode ring s
  | .networkFrameReceive port frame check => Sys2Proof.Machine.execNetworkFrameReceive port frame check s
  | .budgetTokenRelease inlet => Sys2Proof.Machine.execBudgetTokenRelease inlet s
  | .benchEnqueue place => Sys2Proof.Machine.execBenchEnqueue place s
  | .keyLoadDone place ok => Sys2Proof.Machine.execKeyLoadDone place ok s
  | .outletUnitServe outlet => Sys2Proof.Machine.execOutletUnitServe outlet s
  | .frameEgress port => Sys2Proof.Machine.execFrameEgress port s
  | .rxPlacement ring permitted => Sys2Proof.Machine.execRxPlacement ring permitted s
  | .ppsInEdge => Sys2Proof.Machine.execPpsInEdge s
  | .servoSampleWrite b value => Sys2Proof.Machine.execServoSampleWrite b value s
  | .sourceDisqualify n => Sys2Proof.Machine.execSourceDisqualify n s
  | .ref10mLoss => Sys2Proof.Machine.execRef10mLoss s
  | .waitToRestoreExpiry n => Sys2Proof.Machine.execWaitToRestoreExpiry n s
  | .holdoverLimitExpiry => Sys2Proof.Machine.execHoldoverLimitExpiry s
  | .dtmStepRequest => Sys2Proof.Machine.execDtmStepRequest s
  | .spineMeasure node roundTripPs => Sys2Proof.Machine.execSpineMeasure node roundTripPs s
  | .datumRestart firmware => Sys2Proof.Machine.execDatumRestart firmware s
  | .datumResume => Sys2Proof.Machine.execDatumResume s
  | .spinePathFail node roundTripPs => Sys2Proof.Machine.execSpinePathFail node roundTripPs s
  | .ppsOutEdge n => Sys2Proof.Machine.execPpsOutEdge n s
  | .synceLos n => Sys2Proof.Machine.execSynceLos n s
  | .dtmPortCorrWrite port value => Sys2Proof.Machine.execDtmPortCorrWrite port value s
  | .dtmNowRead who => Sys2Proof.Machine.execDtmNowRead who s
  | .admitContract ring pick => Sys2Proof.Machine.execAdmit ring pick s
  | .withdraw ring => Sys2Proof.Machine.execWithdraw ring s
  | .withdrawDrainEnd contract => Sys2Proof.Machine.execWithdrawDrainEnd contract s
  | .modify ring => Sys2Proof.Machine.execModify ring s
  | .check ring => Sys2Proof.Machine.execCheck ring s
  | .admissionQuery ring => Sys2Proof.Machine.execAdmissionQuery ring s
  | .stageDump ring => Sys2Proof.Machine.execStageDump ring s
  | .admConfigWrite addr value => Sys2Proof.Machine.execAdmConfigWrite addr value s
  | .grtTransferReceive link src dst seq beats course cut => Sys2Proof.Machine.execGrtTransferReceive link src dst seq beats course cut s
  | .grtAckTimeout link cut => Sys2Proof.Machine.execGrtAckTimeout link cut s
  | .arbiterGrant kind inst raised => Sys2Proof.Machine.execArbiterGrant kind inst raised s
  | .watchdogBite kind inst core => Sys2Proof.Machine.execWatchdogBite kind inst core s
  | .grtCntClr => Sys2Proof.Machine.execGrtCntClr s
  | .hostLinkUp port speed lanes partner => Sys2Proof.Machine.execHostLinkUp port speed lanes partner s
  | .hostLinkDown port => Sys2Proof.Machine.execHostLinkDown port s
  | .l0pEnter port => Sys2Proof.Machine.execL0pEnter port s
  | .l0pExit port => Sys2Proof.Machine.execL0pExit port s
  | .l1Enter port level enabled => Sys2Proof.Machine.execL1Enter port level enabled s
  | .l1Exit port => Sys2Proof.Machine.execL1Exit port s
  | .creditWaitExceeded port waitNs => Sys2Proof.Machine.execCreditWaitExceeded port waitNs s
  | .msixUnmask port pf vec => Sys2Proof.Machine.execMsixUnmask port pf vec s
  | .hostMmioRequest port pf bar off n data => Sys2Proof.Machine.execHostMmioRequest port pf bar off n data s
  | .hpWinCommit port => Sys2Proof.Machine.execHpWinCommit port s
  | .winRetireDone port => Sys2Proof.Machine.execWinRetireDone port s
  | .atsInvalidationRequest port pf pasid page sizeLog2 => Sys2Proof.Machine.execAtsInvalidationRequest port pf pasid page sizeLog2 s
  | .atsInvalidationComplete port pf => Sys2Proof.Machine.execAtsInvalidationComplete port pf s
  | .pageRequestResponse port pf pasid page code absent => Sys2Proof.Machine.execPageRequestResponse port pf pasid page code absent s
  | .hostReadCompletion port tag ok entries bytes => Sys2Proof.Machine.execHostReadCompletion port tag ok entries bytes s
  | .completionTimeout port tag => Sys2Proof.Machine.execCompletionTimeout port tag s
  | .bmeClear port pf => Sys2Proof.Machine.execBmeClear port pf s
  | .bmeSet port pf pasidEn funcMask control => Sys2Proof.Machine.execBmeSet port pf pasidEn funcMask control s
  | .flr port pf => Sys2Proof.Machine.execFlr port pf s
  | .flrComplete port pf => Sys2Proof.Machine.execFlrComplete port pf s
  | .pasidEnableClear port pf => Sys2Proof.Machine.execPasidEnableClear port pf s
  | .dpcTrigger port => Sys2Proof.Machine.execDpcTrigger port s
  | .dpcRelease port => Sys2Proof.Machine.execDpcRelease port s
  | .rootPortEnumerate port partner funcs vendor serial => Sys2Proof.Machine.execRootPortEnumerate port partner funcs vendor serial s
  | .rootPresenceChange port present => Sys2Proof.Machine.execRootPresenceChange port present s
  | .cxlAttach port capacity classCode vendor => Sys2Proof.Machine.execCxlAttach port capacity classCode vendor s
  | .hpRetrain port => Sys2Proof.Machine.execHpRetrain port s
  | .hpLinkDisable port on => Sys2Proof.Machine.execHpLinkDisable port on s
  | .hpObsClr port => Sys2Proof.Machine.execHpObsClr port s
  | .perstAssert port => Sys2Proof.Machine.execPerstAssert port s
  | .perstDeassert port => Sys2Proof.Machine.execPerstDeassert port s
  | .mbxClaim sheet up who => Sys2Proof.Machine.execMbxClaim sheet up who s
  | .mbxBell sheet up who => Sys2Proof.Machine.execMbxBell sheet up who s
  | .mbxAck sheet up who => Sys2Proof.Machine.execMbxAck sheet up who s
  | .mbxClaimTimeout sheet up => Sys2Proof.Machine.execMbxClaimTimeout sheet up s
  | .reshape ring => Sys2Proof.Machine.execReshape ring s
  | .sheetEnable ring => Sys2Proof.Machine.execSheetEnable ring s
  | .sheetDisable ring => Sys2Proof.Machine.execSheetDisable ring s
  | .sheetDisableDone sheet => Sys2Proof.Machine.execSheetDisableDone sheet s
  | .sheetDebug ring => Sys2Proof.Machine.execSheetDebug ring s
  | .sheetQuery ring => Sys2Proof.Machine.execSheetQuery ring s
  | .cadOpCreate sheet => Sys2Proof.Machine.execCadOpCreate sheet s
  | .cadOpEnable sheet => Sys2Proof.Machine.execCadOpEnable sheet s
  | .cadOpDestroy sheet => Sys2Proof.Machine.execCadOpDestroy sheet s
  | .sheetDestroyDone sheet => Sys2Proof.Machine.execSheetDestroyDone sheet s
  | .doorbellWrite sheet loc pi narrow => Sys2Proof.Machine.execDoorbellWrite sheet loc pi narrow s
  | .entryFetch ring data => Sys2Proof.Machine.execEntryFetch ring data s
  | .coalTimerExpiry ring => Sys2Proof.Machine.execCoalTimerExpiry ring s
  | .ringNop ring => Sys2Proof.Machine.execRingNop ring s
  | .ringOpen ring pick => Sys2Proof.Machine.execRingOpen ring pick s
  | .ringEnable ring => Sys2Proof.Machine.execRingEnable ring s
  | .ringDisable ring => Sys2Proof.Machine.execRingDisable ring s
  | .ringQuiesceEnd ring writesLeft => Sys2Proof.Machine.execRingQuiesceEnd ring writesLeft s
  | .ringIdle ring => Sys2Proof.Machine.execRingIdle ring s
  | .ringClose ring => Sys2Proof.Machine.execRingClose ring s
  | .ringQuery ring => Sys2Proof.Machine.execRingQuery ring s
  | .ringTune ring => Sys2Proof.Machine.execRingTune ring s
  | .adminRingOpen sheet pick oneWrite => Sys2Proof.Machine.execAdminRingOpen sheet pick oneWrite s
  | .adminRingEnable sheet => Sys2Proof.Machine.execAdminRingEnable sheet s
  | .adminRingClose sheet => Sys2Proof.Machine.execAdminRingClose sheet s
  | .rngDbDropClear => Sys2Proof.Machine.execRngDbDropClear s
  | .txPkt ring data => Sys2Proof.Machine.execTxPkt ring data s
  | .txThrottleRelease ring data => Sys2Proof.Machine.execTxThrottleRelease ring data s
  | .rxBuf ring => Sys2Proof.Machine.execRxBuf ring s
  | .copy ring result => Sys2Proof.Machine.execCopy ring result s
  | .fill ring result => Sys2Proof.Machine.execFill ring result s
  | .netModeWrite port mode => Sys2Proof.Machine.execNetModeWrite port mode s
  | .netPortEnable port => Sys2Proof.Machine.execNetPortEnable port s
  | .netPortDisable port => Sys2Proof.Machine.execNetPortDisable port s
  | .netHeadroomConfigWrite port reg value => Sys2Proof.Machine.execNetHeadroomConfigWrite port reg value s
  | .netPrbsTest port test rate errors => Sys2Proof.Machine.execNetPrbsTest port test rate errors s
  | .netCntClr port => Sys2Proof.Machine.execNetCntClr port s
  | .netRetrain port => Sys2Proof.Machine.execNetRetrain port s
  | .netRestore port => Sys2Proof.Machine.execNetRestore port s
  | .pfcFrameReceive port op enables quanta => Sys2Proof.Machine.execPfcFrameReceive port op enables quanta s
  | .rxPauseExpiry port cls => Sys2Proof.Machine.execRxPauseExpiry port cls s
  | .pfcRefresh port => Sys2Proof.Machine.execPfcRefresh port s
  | .pauseLimitExpiry port => Sys2Proof.Machine.execPauseLimitExpiry port s
  | .modulePresenceDebounced cage i3c serial vendor => Sys2Proof.Machine.execModulePresenceDebounced cage i3c serial vendor s
  | .moduleReady cage power matching => Sys2Proof.Machine.execModuleReady cage power matching s
  | .dataPathActivated port => Sys2Proof.Machine.execDataPathActivated port s
  | .moduleInitTimeout port => Sys2Proof.Machine.execModuleInitTimeout port s
  | .mgmtBusAccessFail cage => Sys2Proof.Machine.execMgmtBusAccessFail cage s
  | .moduleRemove cage => Sys2Proof.Machine.execModuleRemove cage s
  | .moduleInterrupt cage report => Sys2Proof.Machine.execModuleInterrupt cage report s
  | .cageAccess cage value => Sys2Proof.Machine.execCageAccess cage value s
  | .cageAccessDone cage ok data => Sys2Proof.Machine.execCageAccessDone cage ok data s
  | .linkLockAcquired port => Sys2Proof.Machine.execLinkLockAcquired port s
  | .calibrationDone port => Sys2Proof.Machine.execCalibrationDone port s
  | .linkLossOfLock port uncorrectable => Sys2Proof.Machine.execLinkLossOfLock port uncorrectable s
  | .bncProfCommit => Sys2Proof.Machine.execBncProfCommit s
  | .profRetireDone => Sys2Proof.Machine.execProfRetireDone s
  | .bncDefaultWrite inlet value => Sys2Proof.Machine.execBncDefaultWrite inlet value s
  | .bucketMove bucket dest force => Sys2Proof.Machine.execBucketMove bucket dest force s
  | .drainMarkerPass inlet => Sys2Proof.Machine.execDrainMarkerPass inlet s
  | .benchFault bench => Sys2Proof.Machine.execBenchFault bench s
  | .tblInsert ring hbmFault => Sys2Proof.Machine.execTblInsert ring hbmFault s
  | .tblUpdate ring hbmFault => Sys2Proof.Machine.execTblUpdate ring hbmFault s
  | .tblDelete ring hbmFault => Sys2Proof.Machine.execTblDelete ring hbmFault s
  | .tblLookup ring => Sys2Proof.Machine.execTblLookup ring s
  | .lpmAdd ring hbmFault => Sys2Proof.Machine.execLpmAdd ring hbmFault s
  | .lpmDel ring hbmFault => Sys2Proof.Machine.execLpmDel ring hbmFault s
  | .lpmLookup ring => Sys2Proof.Machine.execLpmLookup ring s
  | .learnFlush ring => Sys2Proof.Machine.execLearnFlush ring s
  | .tblProgWrite prog stepNo value => Sys2Proof.Machine.execTblProgWrite prog stepNo value s
  | .tblDescWrite table value => Sys2Proof.Machine.execTblDescWrite table value s
  | .tblLearnCfgWrite value => Sys2Proof.Machine.execTblLearnCfgWrite value s
  | .learnInsert bench => Sys2Proof.Machine.execLearnInsert bench s
  | .learnAge bench => Sys2Proof.Machine.execLearnAge bench s
  | .actWrite ring => Sys2Proof.Machine.execActWrite ring s
  | .actRead ring => Sys2Proof.Machine.execActRead ring s
  | .tmplWrite ring => Sys2Proof.Machine.execTmplWrite ring s
  | .psetWrite ring => Sys2Proof.Machine.execPsetWrite ring s
  | .mcgWrite ring => Sys2Proof.Machine.execMcgWrite ring s
  | .voqQuery ring => Sys2Proof.Machine.execVoqQuery ring s
  | .bankGroupFault group => Sys2Proof.Machine.execBankGroupFault group s
  | .bankGroupDrained => Sys2Proof.Machine.execBankGroupDrained s
  | .swcAltWrite outlet value => Sys2Proof.Machine.execSwcAltWrite outlet value s
  | .swcUnpin outlet => Sys2Proof.Machine.execSwcUnpin outlet s
  | .unpinMarkerServed voq => Sys2Proof.Machine.execUnpinMarkerServed voq s
  | .keyInstall ring pick block => Sys2Proof.Machine.execKeyInstall ring pick block s
  | .keyRetire ring => Sys2Proof.Machine.execKeyRetire ring s
  | .saRetireDone sa => Sys2Proof.Machine.execSaRetireDone sa s
  | .keyRekey ring block => Sys2Proof.Machine.execKeyRekey ring block s
  | .saQuery ring => Sys2Proof.Machine.execSaQuery ring s
  | .entropyRead ring result => Sys2Proof.Machine.execEntropyRead ring result s
  | .noiseSourceFail source => Sys2Proof.Machine.execNoiseSourceFail source s
  | .drbgReseed => Sys2Proof.Machine.execDrbgReseed s
  | .keyCacheError => Sys2Proof.Machine.execKeyCacheError s
  | .rewrapDone => Sys2Proof.Machine.execRewrapDone s
  | .connOpen ring pick block => Sys2Proof.Machine.execConnOpen ring pick block s
  | .connClose ring => Sys2Proof.Machine.execConnClose ring s
  | .closeDrainEnd conn => Sys2Proof.Machine.execCloseDrainEnd conn s
  | .connQuery ring => Sys2Proof.Machine.execConnQuery ring s
  | .connPath ring => Sys2Proof.Machine.execConnPath ring s
  | .msgSend ring data => Sys2Proof.Machine.execMsgSend ring data s
  | .msgRecv ring => Sys2Proof.Machine.execMsgRecv ring s
  | .dataReceive absent => Sys2Proof.Machine.execDataReceive absent s
  | .recvComplete conn msn => Sys2Proof.Machine.execRecvComplete conn msn s
  | .ackReceive => Sys2Proof.Machine.execAckReceive s
  | .nakReceive => Sys2Proof.Machine.execNakReceive s
  | .rereqReceive => Sys2Proof.Machine.execRereqReceive s
  | .pollReceive => Sys2Proof.Machine.execPollReceive s
  | .probeReceive => Sys2Proof.Machine.execProbeReceive s
  | .probeAckReceive => Sys2Proof.Machine.execProbeAckReceive s
  | .closeReceive => Sys2Proof.Machine.execCloseReceive s
  | .probeTimer conn path => Sys2Proof.Machine.execProbeTimer conn path s
  | .openTimeout conn => Sys2Proof.Machine.execOpenTimeout conn s
  | .pathDownTimeout conn path => Sys2Proof.Machine.execPathDownTimeout conn path s
  | .pathsDownTimeout conn => Sys2Proof.Machine.execPathsDownTimeout conn s
  | .reasmTimerExpiry conn msn => Sys2Proof.Machine.execReasmTimerExpiry conn msn s
  | .pollTimerExpiry conn msn => Sys2Proof.Machine.execPollTimerExpiry conn msn s
  | .ackTimerExpiry conn path => Sys2Proof.Machine.execAckTimerExpiry conn path s
  | .rnrRetryExpiry conn msn => Sys2Proof.Machine.execRnrRetryExpiry conn msn s
  | .pacingRelease conn data => Sys2Proof.Machine.execPacingRelease conn data s
  | .rateIncrease conn path => Sys2Proof.Machine.execRateIncrease conn path s
  | .regOpen ring pick => Sys2Proof.Machine.execRegOpen ring pick s
  | .regRevoke ring => Sys2Proof.Machine.execRegRevoke ring s
  | .revokeDone region => Sys2Proof.Machine.execRevokeDone region s
  | .regMode ring => Sys2Proof.Machine.execRegMode ring s
  | .regQuery ring => Sys2Proof.Machine.execRegQuery ring s
  | .ccQuery ring => Sys2Proof.Machine.execCcQuery ring s
  | .odpWaitTimeout port pf pasid page => Sys2Proof.Machine.execOdpWaitTimeout port pf pasid page s
  | .sqFetch ctrl queue entries => Sys2Proof.Machine.execSqFetch ctrl queue entries s
  | .storageCommandStart ranges => Sys2Proof.Machine.execStorageCommandStart ranges s
  | .rangeLockRelease => Sys2Proof.Machine.execRangeLockRelease s
  | .nvmeRead cmd pages poisoned => Sys2Proof.Machine.execNvmeRead cmd pages poisoned s
  | .nvmeWrite cmd pages data => Sys2Proof.Machine.execNvmeWrite cmd pages data s
  | .nvmeFlush cmd => Sys2Proof.Machine.execNvmeFlush cmd s
  | .nvmeWriteZeroes cmd => Sys2Proof.Machine.execNvmeWriteZeroes cmd s
  | .nvmeDatasetManagement cmd => Sys2Proof.Machine.execNvmeDatasetManagement cmd s
  | .nvmeCreateIoSq cmd pick => Sys2Proof.Machine.execNvmeCreateIoSq cmd pick s
  | .nvmeCreateIoCq cmd pick => Sys2Proof.Machine.execNvmeCreateIoCq cmd pick s
  | .nvmeDeleteIoSq cmd => Sys2Proof.Machine.execNvmeDeleteIoSq cmd s
  | .nvmeDeleteIoCq cmd => Sys2Proof.Machine.execNvmeDeleteIoCq cmd s
  | .nvmeIdentify cmd => Sys2Proof.Machine.execNvmeIdentify cmd s
  | .nvmeGetLogPage cmd pages => Sys2Proof.Machine.execNvmeGetLogPage cmd pages s
  | .nvmeAbort cmd => Sys2Proof.Machine.execNvmeAbort cmd s
  | .nvmeSetFeatures cmd => Sys2Proof.Machine.execNvmeSetFeatures cmd s
  | .nvmeGetFeatures cmd => Sys2Proof.Machine.execNvmeGetFeatures cmd s
  | .nvmeAsyncEventRequest cmd => Sys2Proof.Machine.execNvmeAsyncEventRequest cmd s
  | .nvmeUnsupportedOpcode cmd => Sys2Proof.Machine.execNvmeUnsupportedOpcode cmd s
  | .powerStateEntryEnd ctrl => Sys2Proof.Machine.execPowerStateEntryEnd ctrl s
  | .backendCompletion req status data => Sys2Proof.Machine.execBackendCompletion req status data s
  | .backendTimeout req => Sys2Proof.Machine.execBackendTimeout req s
  | .writeBack vol lo n poisoned => Sys2Proof.Machine.execWriteBack vol lo n poisoned s
  | .remoteResponse => Sys2Proof.Machine.execRemoteResponse s
  | .ctrlCreate ring pick pickSq pickCq => Sys2Proof.Machine.execCtrlCreate ring pick pickSq pickCq s
  | .ctrlEnable ring => Sys2Proof.Machine.execCtrlEnable ring s
  | .ctrlShutdownNormal ring => Sys2Proof.Machine.execCtrlShutdownNormal ring s
  | .ctrlShutdownAbrupt ring => Sys2Proof.Machine.execCtrlShutdownAbrupt ring s
  | .ctrlShutdownDone ctrl => Sys2Proof.Machine.execCtrlShutdownDone ctrl s
  | .ctrlReset ring => Sys2Proof.Machine.execCtrlReset ring s
  | .ctrlResetDone ctrl => Sys2Proof.Machine.execCtrlResetDone ctrl s
  | .ctrlDestroy ring => Sys2Proof.Machine.execCtrlDestroy ring s
  | .volCreate ring pick ident => Sys2Proof.Machine.execVolCreate ring pick ident s
  | .volDestroy ring => Sys2Proof.Machine.execVolDestroy ring s
  | .volBind ring => Sys2Proof.Machine.execVolBind ring s
  | .nsAttach ring => Sys2Proof.Machine.execNsAttach ring s
  | .nsDetach ring => Sys2Proof.Machine.execNsDetach ring s
  | .stoQuery ring => Sys2Proof.Machine.execStoQuery ring s
  | .pnWfe thread rd value => Sys2Proof.Machine.execPnWfe thread rd value s
  | .wfeWake thread => Sys2Proof.Machine.execWfeWake thread s
  | .pnEvsend thread value => Sys2Proof.Machine.execPnEvsend thread value s
  | .pnGrsv thread rd value => Sys2Proof.Machine.execPnGrsv thread rd value s
  | .pnGseal thread rd value => Sys2Proof.Machine.execPnGseal thread rd value s
  | .pnGtake thread rd value => Sys2Proof.Machine.execPnGtake thread rd value s
  | .pnGfree thread value => Sys2Proof.Machine.execPnGfree thread value s
  | .pnDtime thread rd => Sys2Proof.Machine.execPnDtime thread rd s
  | .penlithIllegalInstruction thread word => Sys2Proof.Machine.execPenlithIllegalInstruction thread word s
  | .threadTimerExpiry thread => Sys2Proof.Machine.execThreadTimerExpiry thread s
  | .waitDeadlock cluster group => Sys2Proof.Machine.execWaitDeadlock cluster group s
  | .deadlockSnapshotClear cluster => Sys2Proof.Machine.execDeadlockSnapshotClear cluster s
  | .gallerySend cluster gallery => Sys2Proof.Machine.execGallerySend cluster gallery s
  | .galleryDelivery cluster => Sys2Proof.Machine.execGalleryDelivery cluster s
  | .galleryEnable cluster gallery value => Sys2Proof.Machine.execGalleryEnable cluster gallery value s
  | .threadStart thread => Sys2Proof.Machine.execThreadStart thread s
  | .threadStop thread => Sys2Proof.Machine.execThreadStop thread s
  | .threadHalt thread => Sys2Proof.Machine.execThreadHalt thread s
  | .threadResume thread => Sys2Proof.Machine.execThreadResume thread s
  | .threadKick thread => Sys2Proof.Machine.execThreadKick thread s
  | .galleryAbandon cluster thread gallery => Sys2Proof.Machine.execGalleryAbandon cluster thread gallery s
  | .threadMigrate cluster t u => Sys2Proof.Machine.execThreadMigrate cluster t u s
  | .migrateDone cluster => Sys2Proof.Machine.execMigrateDone cluster s
  | .clusterFreqWrite cluster value => Sys2Proof.Machine.execClusterFreqWrite cluster value s
  | .cairnClaim cluster t who => Sys2Proof.Machine.execCairnClaim cluster t who s
  | .cairnComplete cluster source => Sys2Proof.Machine.execCairnComplete cluster source s
  | .cairnRaise cluster source => Sys2Proof.Machine.execCairnRaise cluster source s
  | .coreFault core => Sys2Proof.Machine.execCoreFault core s
  | .powerOnReset found => Sys2Proof.Machine.execPowerOnReset found s
  | .sysReset => Sys2Proof.Machine.execSysReset s
  | .imageChunkWritten cls ok => Sys2Proof.Machine.execImageChunkWritten cls ok s
  | .imageTagCheck cls ok => Sys2Proof.Machine.execImageTagCheck cls ok s
  | .unitReady cls unit ok => Sys2Proof.Machine.execUnitReady cls unit ok s
  | .unitReadyTimeout cls unit => Sys2Proof.Machine.execUnitReadyTimeout cls unit s
  | .holdRegionWriteFault cls who addr => Sys2Proof.Machine.execHoldRegionWriteFault cls who addr s
  | .minimalRetry => Sys2Proof.Machine.execMinimalRetry s
  | .svyCommit cls => Sys2Proof.Machine.execSvyCommit cls s
  | .commitTimeUpdate => Sys2Proof.Machine.execCommitTimeUpdate s
  | .packageSubmit who => Sys2Proof.Machine.execPackageSubmit who s
  | .imagePackageInstall ok => Sys2Proof.Machine.execImagePackageInstall ok s
  | .epochAdvance ok => Sys2Proof.Machine.execEpochAdvance ok s
  | .ownerSlotRevoke => Sys2Proof.Machine.execOwnerSlotRevoke s
  | .noticeAck => Sys2Proof.Machine.execNoticeAck s
  | .hbmRowRepair channel bank row => Sys2Proof.Machine.execHbmRowRepair channel bank row s
  | .uncorrectableError channel lines => Sys2Proof.Machine.execUncorrectableError channel lines s
  | .memoryScrub corrected => Sys2Proof.Machine.execMemoryScrub corrected s
  | .lockstepMismatch => Sys2Proof.Machine.execLockstepMismatch s
  | .surveyorRestartDone => Sys2Proof.Machine.execSurveyorRestartDone s
  | .healthCoalExpiry port => Sys2Proof.Machine.execHealthCoalExpiry port s
  | .protLogPop => Sys2Proof.Machine.execProtLogPop s
  | .surveyReadAdvance value => Sys2Proof.Machine.execSurveyReadAdvance value s
  | .wearSample record reading => Sys2Proof.Machine.execWearSample record reading s
  | .consumablesSave => Sys2Proof.Machine.execConsumablesSave s
  | .hltSnapshot ring permitted => Sys2Proof.Machine.execHltSnapshot ring permitted s
  | .surveyDrain ring permitted => Sys2Proof.Machine.execSurveyDrain ring permitted s
  | .mctpControl b cmd op eid => Sys2Proof.Machine.execMctpControl b cmd op eid s
  | .i3cAddressAssign static dynamic => Sys2Proof.Machine.execI3cAddressAssign static dynamic s
  | .mctpNotReady b kind code => Sys2Proof.Machine.execMctpNotReady b kind code s
  | .theivoRegRead b addr => Sys2Proof.Machine.execTheivoRegRead b addr s
  | .theivoRegWrite b addr data => Sys2Proof.Machine.execTheivoRegWrite b addr data s
  | .theivoDpRead b off n => Sys2Proof.Machine.execTheivoDpRead b off n s
  | .theivoDpWrite b off data => Sys2Proof.Machine.execTheivoDpWrite b off data s
  | .pldmGetPdr b handle => Sys2Proof.Machine.execPldmGetPdr b handle s
  | .pldmGetSensorReading b sensor => Sys2Proof.Machine.execPldmGetSensorReading b sensor s
  | .pldmGetStateSensorReadings b sensor => Sys2Proof.Machine.execPldmGetStateSensorReadings b sensor s
  | .pldmSetEventReceiver b eid enable => Sys2Proof.Machine.execPldmSetEventReceiver b eid enable s
  | .pldmEventRetry sensor acked => Sys2Proof.Machine.execPldmEventRetry sensor acked s
  | .pldmBaseRequest b cmd arg => Sys2Proof.Machine.execPldmBaseRequest b cmd arg s
  | .requestUpdate b cls len => Sys2Proof.Machine.execRequestUpdate b cls len s
  | .firmwareDataReceive b data => Sys2Proof.Machine.execFirmwareDataReceive b data s
  | .firmwareVerifyApply b ok => Sys2Proof.Machine.execFirmwareVerifyApply b ok s
  | .activateFirmware b selfContained => Sys2Proof.Machine.execActivateFirmware b selfContained s
  | .cancelUpdate b => Sys2Proof.Machine.execCancelUpdate b s
  | .updateIdleTimeout => Sys2Proof.Machine.execUpdateIdleTimeout s
  | .spdmNegotiate b code version offers request => Sys2Proof.Machine.execSpdmNegotiate b code version offers request s
  | .spdmGetCertificate b slot off len request => Sys2Proof.Machine.execSpdmGetCertificate b slot off len request s
  | .spdmChallenge b slot request => Sys2Proof.Machine.execSpdmChallenge b slot request s
  | .spdmGetMeasurements b index signed request => Sys2Proof.Machine.execSpdmGetMeasurements b index signed request s
  | .dpLockClaim who => Sys2Proof.Machine.execDpLockClaim who s
  | .dpRelease who => Sys2Proof.Machine.execDpRelease who s
  | .dpIdleTimeout => Sys2Proof.Machine.execDpIdleTimeout s
  | .dpApertureAccess who off n data => Sys2Proof.Machine.execDpApertureAccess who off n data s
  | .dpDump who => Sys2Proof.Machine.execDpDump who s
  | .dumpDone => Sys2Proof.Machine.execDumpDone s
  | .debugNonceNew => Sys2Proof.Machine.execDebugNonceNew s
  | .debugTokenSubmit => Sys2Proof.Machine.execDebugTokenSubmit s
  | .debugTokenCheckDone => Sys2Proof.Machine.execDebugTokenCheckDone s
  | .debugLock => Sys2Proof.Machine.execDebugLock s
  | .supplyFault => Sys2Proof.Machine.execSupplyFault s
  | .thermalTrip => Sys2Proof.Machine.execThermalTrip s
  | .sensorSample temps power => Sys2Proof.Machine.execSensorSample temps power s
  | .avsStepAck rail => Sys2Proof.Machine.execAvsStepAck rail s
  | .avsTimeout rail marginOk => Sys2Proof.Machine.execAvsTimeout rail marginOk s
  | .refclkLoss clock => Sys2Proof.Machine.execRefclkLoss clock s
  | .aerErrorMessage port severity => Sys2Proof.Machine.execAerErrorMessage port severity s
  | .atsPriEnableChange port pf ats pri => Sys2Proof.Machine.execAtsPriEnableChange port pf ats pri s
  | .interruptCoalescingExpiry ctrl queue => Sys2Proof.Machine.execInterruptCoalescingExpiry ctrl queue s
  | .powerStateExitEnd ctrl => Sys2Proof.Machine.execPowerStateExitEnd ctrl s
  | .ralushMalformedDiscard => Sys2Proof.Machine.execRalushMalformedDiscard s
  | .mctpMessageDiscard => Sys2Proof.Machine.execMctpMessageDiscard s
  | .tapInstructionLoad instr => Sys2Proof.Machine.execTapInstructionLoad instr s
  | .refclkReturn clock => Sys2Proof.Machine.execRefclkReturn clock s

end Sys2Proof.Machine
end

