-- ==== Sys2Proof/Safety.lean ====
section
/-! DEFINITION. What holds of every state a run can meet: each sparse structure of the state is in its one canonical form,
so that equal devices are equal data. -/

namespace Sys2Proof.Machine

/-- The canonical form of the register file: addresses rising, each the one address of its register, and no register listed
at its reset value. -/
def regsWf (t : Tbl (BitVec 64)) : Prop := tblWf t = true ∧ ∀ x ∈ t, canonAddr x.1 = x.1 ∧ x.2 ≠ regReset x.1

/-- Internal memory, the clusters' memories and the staging buffer list no zero byte and list the others in order. -/
def memoriesWf (mem clusters staging : List Host.Cell) : Prop :=
  memWf mem = true ∧ memWf clusters = true ∧ memWf staging = true

/-- The device's tables are in order: contracts, islands, host ports, functions, vectors. -/
def portTablesWf (contracts : Tbl Contract) (islands : Tbl Island) (ports : Tbl HostPort) (funcs : Tbl Func)
    (vectors : Tbl MsixVec) : Prop :=
  tblWf contracts = true ∧ tblWf islands = true ∧ tblWf ports = true ∧ tblWf funcs = true ∧ tblWf vectors = true

/-- The tables of tenants' objects are in order: sheets, rings, cairn sources, queues, security associations, connections,
controllers. -/
def objectTablesWf (sheets : Tbl Sheet) (rings : Tbl Ring) (cairns : Tbl CairnSrc) (voqs : Tbl (List Packet)) (sas : Tbl SA)
    (conns : Tbl Conn) (ctrls : Tbl Ctrl) : Prop :=
  tblWf sheets = true ∧ tblWf rings = true ∧ tblWf cairns = true ∧ tblWf voqs = true ∧ tblWf sas = true
    ∧ tblWf conns = true ∧ tblWf ctrls = true

/-- The canonical form of a state: kept by every step (Laws). -/
def State.Wf (s : State) : Prop :=
  regsWf s.regs ∧ memoriesWf s.mem s.pnl.mem s.boot.staging
    ∧ portTablesWf s.contracts s.islands s.ports s.funcs s.vectors
    ∧ objectTablesWf s.sheets s.rings s.cairns s.voqs s.sas s.conns s.ctrls

/-- The next entry of ring g has an opcode and starts: the ring is RUNNING and its sheet ACTIVE or DEBUG, its kind takes the opcode,
and a flight-table slot is free or held for it (R25, R170, R181). r is the ring before, j the entry's job, u the state with the job
running. -/
def State.Starts (s : State) (g op : Nat) (r : Ring) (j : Job) (u : State) : Prop :=
  beginJob g (· == op) (some .dma) s = (some (r, j), u)

/-- The completion of a job that was started on a ring: the entry gets its header with the status and the fields of its body, and
what order allows is written, which releases its slot, and announced (R177, R179, R187). -/
abbrev done (g : Nat) (j : Job) (status : Nat) (body : Body) (t : State) : State := endJob g j.idx status body t

/-- The oldest packet handed to the engine is an opened one of a type for connection c, which accepts packets (R355, R364); h is its
header and u the state with the packet taken and its path marked (R360, R368). -/
def State.Hands (s : State) (type : RltType) (c : Nat) (x : Conn) (h : RltHdr) (u : State) : Prop :=
  ∃ p : Packet, s.frontRlt = some p ∧ parseRlt p.bytes = h ∧ h.ver = 1 ∧ h.type = type.code ∧ s.handled h.dconn = some (c, x)
    ∧ p.cipher.status = 2 ∧ x.state ≠ .error ∧ u = markRx c h (takeRlt p s)

/-- A command answers a next state of which a property holds. -/
def Answers (c : Instr) (s : State) (p : State → Prop) : Prop := ∃ t, exec c s = .next t ∧ p t

end Sys2Proof.Machine
end

