-- ==== Sys2Proof/WellFormed.lean ====
section
/-! DEFINITION. Commands that can be named: each operand that numbers a unit is within what the device has. A command outside
these ranges has no counterpart in the hardware; exec is total on it all the same (notes/assumptions/11). -/

namespace Sys2Proof

/-- Global ring numbers are 0-1,048,575 (R168). -/
def okRing (n : Nat) : Bool := decide (n < 1048576)

/-- Host ports 0-47 (R106). -/
def okHostPort (n : Nat) : Bool := decide (n < 48)

/-- Network ports 0-63 (R12). -/
def okNetPort (n : Nat) : Bool := decide (n < 64)

/-- At most 8 physical functions a port (Table 0.1). -/
def okPf (n : Nat) : Bool := decide (n < 8)

/-- At most 2,048 MSI-X vectors a function (R119). -/
def okVec (n : Nat) : Bool := decide (n < 2048)

/-- Sheets 0-4,095 (R147). -/
def okSheet (n : Nat) : Bool := decide (n < 4096)

/-- CONTRACT_ID is 0-65,535 (chapter 3). -/
def okContract (n : Nat) : Bool := decide (n < 65536)

/-- Inlets and outlets 0-127 (R18). -/
def okSide (n : Nat) : Bool := decide (n < 128)

/-- Benches 0-17 (Table 0.1). -/
def okBench (n : Nat) : Bool := decide (n < 18)

/-- Cages 0-31 (Table 8.8). -/
def okCage (n : Nat) : Bool := decide (n < 32)

/-- Island nodes of Table 4.9, and the two the model adds (notes/assumptions/8). -/
def okNode (n : Nat) : Bool := decide (n < 170)

/-- Connections 0-1,048,575 (R353). -/
def okConn (n : Nat) : Bool := decide (n < 1048576)

/-- Paths 0-15 of a connection (Table 0.1). -/
def okPath (n : Nat) : Bool := decide (n < 16)

/-- The region table has 16,777,216 entries (R373). -/
def okRegion (n : Nat) : Bool := decide (n < 16777216)

/-- Installed SAs 0-262,143 (R323), and the model's numbers of connection SAs. -/
def okSa (n : Nat) : Bool := decide (n < 2359296)

/-- Controllers 0-4,095 (Table 0.1). -/
def okCtrl (n : Nat) : Bool := decide (n < 4096)

/-- Threads 0-255 (R12). -/
def okThread (n : Nat) : Bool := decide (n < 256)

/-- Local thread indexes 0-31 (R421). -/
def okLocal (n : Nat) : Bool := decide (n < 32)

/-- Clusters 0-7 (R421). -/
def okCluster (n : Nat) : Bool := decide (n < 8)

/-- Galleries 0-63 of a cluster (Table 16.1). -/
def okGallery (n : Nat) : Bool := decide (n < 64)

/-- Integer registers x0-x31 of RV64 (R422). -/
def okReg (n : Nat) : Bool := decide (n < 32)

/-- Cores 0-63 (R12). -/
def okCore (n : Nat) : Bool := decide (n < 64)

/-- Cairn sources 0-1,023 (R443). -/
def okSource (n : Nat) : Bool := decide (n < 1024)

/-- Image classes 0-5 (Table 17.1). -/
def okClass (n : Nat) : Bool := decide (n < 6)

/-- Classes and priorities 0-7. -/
def okPrio (n : Nat) : Bool := decide (n < 8)

/-- I3C, SMBus and the VDM path of each host port (R503). -/
def okBinding (n : Nat) : Bool := decide (n < 50)

/-- AVS rails 0-2 (R526). -/
def okRail (n : Nat) : Bool := decide (n < 3)

/-- Reference clocks: 12 PCIE_REFCLK, 8 NET_REFCLK, SYS_REFCLK (Table 20.6). -/
def okClock (n : Nat) : Bool := decide (n < 21)

/-- VOQs 0-131,071 (R20). -/
def okVoq (n : Nat) : Bool := decide (n < 131072)

/-- Buckets 0-4,095 (R249). -/
def okBucket (n : Nat) : Bool := decide (n < 4096)

/-- Bank groups 0-15 (R287). -/
def okGroup (n : Nat) : Bool := decide (n < 16)

/-- Discipline sources 0-2 (Table 2.1). -/
def okServo (n : Nat) : Bool := decide (n < 3)

/-- Link widths of a host port (R106). -/
def okLanes (n : Nat) : Bool := decide (n = 1 ∨ n = 2 ∨ n = 4 ∨ n = 8 ∨ n = 16)

/-- Correctable, nonfatal and fatal (R140). -/
def okSeverity (n : Nat) : Bool := decide (n < 3)

/-- The party is one the device has. -/
def okParty : Party → Bool
  | .surveyor => true
  | .bmc => true
  | .firmware k => okCluster k
  | .host p f => okHostPort p && okPf f

/-- The operands of a command are within the device's ranges. -/
def Instr.wf : Instr → Bool
  | .registerWrite who _ _ _ => okParty who
  | .islandResetEnd node _ => okNode node
  | .flightSlotWaitStart ring => okRing ring
  | .undefinedOpcode ring => okRing ring
  | .networkFrameReceive port _ _ => okNetPort port
  | .budgetTokenRelease inlet => okSide inlet
  | .benchEnqueue _ => true
  | .keyLoadDone _ _ => true
  | .outletUnitServe outlet => okSide outlet
  | .frameEgress port => okNetPort port
  | .rxPlacement ring _ => okRing ring
  | .ppsInEdge => true
  | .servoSampleWrite _ _ => true
  | .sourceDisqualify n => okServo n
  | .ref10mLoss => true
  | .waitToRestoreExpiry n => okServo n
  | .holdoverLimitExpiry => true
  | .dtmStepRequest => true
  | .spineMeasure node _ => okNode node
  | .datumRestart _ => true
  | .datumResume => true
  | .spinePathFail node _ => okNode node
  | .ppsOutEdge _ => true
  | .synceLos _ => true
  | .dtmPortCorrWrite port _ => okNetPort port
  | .dtmNowRead who => okParty who
  | .admitContract ring _ => okRing ring
  | .withdraw ring => okRing ring
  | .withdrawDrainEnd contract => okContract contract
  | .modify ring => okRing ring
  | .check ring => okRing ring
  | .admissionQuery ring => okRing ring
  | .stageDump ring => okRing ring
  | .admConfigWrite _ _ => true
  | .grtTransferReceive _ src dst _ beats _ _ => okNode src && okNode dst && !beats.isEmpty
  | .grtAckTimeout _ _ => true
  | .arbiterGrant _ _ _ => true
  | .watchdogBite _ _ core => okCore core
  | .grtCntClr => true
  | .hostLinkUp port _ lanes _ => okHostPort port && okLanes lanes
  | .hostLinkDown port => okHostPort port
  | .l0pEnter port => okHostPort port
  | .l0pExit port => okHostPort port
  | .l1Enter port _ _ => okHostPort port
  | .l1Exit port => okHostPort port
  | .creditWaitExceeded port _ => okHostPort port
  | .msixUnmask port pf vec => okHostPort port && okPf pf && okVec vec
  | .hostMmioRequest port pf _ _ _ _ => okHostPort port && okPf pf
  | .hpWinCommit port => okHostPort port
  | .winRetireDone port => okHostPort port
  | .atsInvalidationRequest port pf _ _ _ => okHostPort port && okPf pf
  | .atsInvalidationComplete port pf => okHostPort port && okPf pf
  | .pageRequestResponse port pf _ _ _ _ => okHostPort port && okPf pf
  | .hostReadCompletion port _ _ _ _ => okHostPort port
  | .completionTimeout port _ => okHostPort port
  | .bmeClear port pf => okHostPort port && okPf pf
  | .bmeSet port pf _ _ _ => okHostPort port && okPf pf
  | .flr port pf => okHostPort port && okPf pf
  | .flrComplete port pf => okHostPort port && okPf pf
  | .pasidEnableClear port pf => okHostPort port && okPf pf
  | .dpcTrigger port => okHostPort port
  | .dpcRelease port => okHostPort port
  | .rootPortEnumerate port _ _ _ _ => okHostPort port
  | .rootPresenceChange port _ => okHostPort port
  | .cxlAttach port _ _ _ => okHostPort port
  | .hpRetrain port => okHostPort port
  | .hpLinkDisable port _ => okHostPort port
  | .hpObsClr port => okHostPort port
  | .perstAssert port => okHostPort port
  | .perstDeassert port => okHostPort port
  | .mbxClaim sheet _ who => okSheet sheet && okParty who
  | .mbxBell sheet _ who => okSheet sheet && okParty who
  | .mbxAck sheet _ who => okSheet sheet && okParty who
  | .mbxClaimTimeout sheet _ => okSheet sheet
  | .reshape ring => okRing ring
  | .sheetEnable ring => okRing ring
  | .sheetDisable ring => okRing ring
  | .sheetDisableDone sheet => okSheet sheet
  | .sheetDebug ring => okRing ring
  | .sheetQuery ring => okRing ring
  | .cadOpCreate sheet => okSheet sheet
  | .cadOpEnable sheet => okSheet sheet
  | .cadOpDestroy sheet => okSheet sheet
  | .sheetDestroyDone sheet => okSheet sheet
  | .doorbellWrite sheet _ _ _ => okSheet sheet
  | .entryFetch ring _ => okRing ring
  | .coalTimerExpiry ring => okRing ring
  | .ringNop ring => okRing ring
  | .ringOpen ring _ => okRing ring
  | .ringEnable ring => okRing ring
  | .ringDisable ring => okRing ring
  | .ringQuiesceEnd ring _ => okRing ring
  | .ringIdle ring => okRing ring
  | .ringClose ring => okRing ring
  | .ringQuery ring => okRing ring
  | .ringTune ring => okRing ring
  | .adminRingOpen sheet _ _ => okSheet sheet
  | .adminRingEnable sheet => okSheet sheet
  | .adminRingClose sheet => okSheet sheet
  | .rngDbDropClear => true
  | .txPkt ring _ => okRing ring
  | .txThrottleRelease ring _ => okRing ring
  | .rxBuf ring => okRing ring
  | .copy ring _ => okRing ring
  | .fill ring _ => okRing ring
  | .netModeWrite port _ => okNetPort port
  | .netPortEnable port => okNetPort port
  | .netPortDisable port => okNetPort port
  | .netHeadroomConfigWrite port _ _ => okNetPort port
  | .netPrbsTest port _ _ _ => okNetPort port
  | .netCntClr port => okNetPort port
  | .netRetrain port => okNetPort port
  | .netRestore port => okNetPort port
  | .pfcFrameReceive port _ _ _ => okNetPort port
  | .rxPauseExpiry port cls => okNetPort port && okPrio cls
  | .pfcRefresh port => okNetPort port
  | .pauseLimitExpiry port => okNetPort port
  | .modulePresenceDebounced cage _ _ _ => okCage cage
  | .moduleReady cage _ _ => okCage cage
  | .dataPathActivated port => okNetPort port
  | .moduleInitTimeout port => okNetPort port
  | .mgmtBusAccessFail cage => okCage cage
  | .moduleRemove cage => okCage cage
  | .moduleInterrupt cage report => okCage cage && decide (1 ≤ report.mstate) && decide (report.mstate ≤ 5)
  | .cageAccess cage _ => okCage cage
  | .cageAccessDone cage _ _ => okCage cage
  | .linkLockAcquired port => okNetPort port
  | .calibrationDone port => okNetPort port
  | .linkLossOfLock port _ => okNetPort port
  | .bncProfCommit => true
  | .profRetireDone => true
  | .bncDefaultWrite inlet _ => okSide inlet
  | .bucketMove bucket dest _ => okBucket bucket && okBench dest
  | .drainMarkerPass inlet => okSide inlet
  | .benchFault bench => okBench bench
  | .tblInsert ring _ => okRing ring
  | .tblUpdate ring _ => okRing ring
  | .tblDelete ring _ => okRing ring
  | .tblLookup ring => okRing ring
  | .lpmAdd ring _ => okRing ring
  | .lpmDel ring _ => okRing ring
  | .lpmLookup ring => okRing ring
  | .learnFlush ring => okRing ring
  | .tblProgWrite _ _ _ => true
  | .tblDescWrite _ _ => true
  | .tblLearnCfgWrite _ => true
  | .learnInsert bench => okBench bench
  | .learnAge bench => okBench bench
  | .actWrite ring => okRing ring
  | .actRead ring => okRing ring
  | .tmplWrite ring => okRing ring
  | .psetWrite ring => okRing ring
  | .mcgWrite ring => okRing ring
  | .voqQuery ring => okRing ring
  | .bankGroupFault group => okGroup group
  | .bankGroupDrained => true
  | .swcAltWrite outlet _ => okSide outlet
  | .swcUnpin outlet => okSide outlet
  | .unpinMarkerServed voq => okVoq voq
  | .keyInstall ring _ _ => okRing ring
  | .keyRetire ring => okRing ring
  | .saRetireDone sa => okSa sa
  | .keyRekey ring _ => okRing ring
  | .saQuery ring => okRing ring
  | .entropyRead ring _ => okRing ring
  | .noiseSourceFail _ => true
  | .drbgReseed => true
  | .keyCacheError => true
  | .rewrapDone => true
  | .connOpen ring _ _ => okRing ring
  | .connClose ring => okRing ring
  | .closeDrainEnd conn => okConn conn
  | .connQuery ring => okRing ring
  | .connPath ring => okRing ring
  | .msgSend ring _ => okRing ring
  | .msgRecv ring => okRing ring
  | .dataReceive _ => true
  | .recvComplete conn _ => okConn conn
  | .ackReceive => true
  | .nakReceive => true
  | .rereqReceive => true
  | .pollReceive => true
  | .probeReceive => true
  | .probeAckReceive => true
  | .closeReceive => true
  | .probeTimer conn path => okConn conn && okPath path
  | .openTimeout conn => okConn conn
  | .pathDownTimeout conn path => okConn conn && okPath path
  | .pathsDownTimeout conn => okConn conn
  | .reasmTimerExpiry conn _ => okConn conn
  | .pollTimerExpiry conn _ => okConn conn
  | .ackTimerExpiry conn path => okConn conn && okPath path
  | .rnrRetryExpiry conn _ => okConn conn
  | .pacingRelease conn _ => okConn conn
  | .rateIncrease conn path => okConn conn && okPath path
  | .regOpen ring _ => okRing ring
  | .regRevoke ring => okRing ring
  | .revokeDone region => okRegion region
  | .regMode ring => okRing ring
  | .regQuery ring => okRing ring
  | .ccQuery ring => okRing ring
  | .odpWaitTimeout port pf _ _ => okHostPort port && okPf pf
  | .sqFetch ctrl _ _ => okCtrl ctrl
  | .storageCommandStart _ => true
  | .rangeLockRelease => true
  | .nvmeRead _ _ _ => true
  | .nvmeWrite _ _ _ => true
  | .nvmeFlush _ => true
  | .nvmeWriteZeroes _ => true
  | .nvmeDatasetManagement _ => true
  | .nvmeCreateIoSq _ _ => true
  | .nvmeCreateIoCq _ _ => true
  | .nvmeDeleteIoSq _ => true
  | .nvmeDeleteIoCq _ => true
  | .nvmeIdentify _ => true
  | .nvmeGetLogPage _ _ => true
  | .nvmeAbort _ => true
  | .nvmeSetFeatures _ => true
  | .nvmeGetFeatures _ => true
  | .nvmeAsyncEventRequest _ => true
  | .nvmeUnsupportedOpcode _ => true
  | .powerStateEntryEnd ctrl => okCtrl ctrl
  | .backendCompletion _ _ _ => true
  | .backendTimeout _ => true
  | .writeBack _ _ _ _ => true
  | .remoteResponse => true
  | .ctrlCreate ring _ _ _ => okRing ring
  | .ctrlEnable ring => okRing ring
  | .ctrlShutdownNormal ring => okRing ring
  | .ctrlShutdownAbrupt ring => okRing ring
  | .ctrlShutdownDone ctrl => okCtrl ctrl
  | .ctrlReset ring => okRing ring
  | .ctrlResetDone ctrl => okCtrl ctrl
  | .ctrlDestroy ring => okRing ring
  | .volCreate ring _ _ => okRing ring
  | .volDestroy ring => okRing ring
  | .volBind ring => okRing ring
  | .nsAttach ring => okRing ring
  | .nsDetach ring => okRing ring
  | .stoQuery ring => okRing ring
  | .pnWfe thread rd _ => okThread thread && okReg rd
  | .wfeWake thread => okThread thread
  | .pnEvsend thread _ => okThread thread
  | .pnGrsv thread rd _ => okThread thread && okReg rd
  | .pnGseal thread rd _ => okThread thread && okReg rd
  | .pnGtake thread rd _ => okThread thread && okReg rd
  | .pnGfree thread _ => okThread thread
  | .pnDtime thread rd => okThread thread && okReg rd
  | .penlithIllegalInstruction thread _ => okThread thread
  | .threadTimerExpiry thread => okThread thread
  | .waitDeadlock cluster group => okCluster cluster && okGroup group
  | .deadlockSnapshotClear cluster => okCluster cluster
  | .gallerySend cluster gallery => okCluster cluster && okGallery gallery
  | .galleryDelivery cluster => okCluster cluster
  | .galleryEnable cluster gallery _ => okCluster cluster && okGallery gallery
  | .threadStart thread => okThread thread
  | .threadStop thread => okThread thread
  | .threadHalt thread => okThread thread
  | .threadResume thread => okThread thread
  | .threadKick thread => okThread thread
  | .galleryAbandon cluster thread gallery => okCluster cluster && okLocal thread && okGallery gallery
  | .threadMigrate cluster t u => okCluster cluster && okLocal t && okLocal u
  | .migrateDone cluster => okCluster cluster
  | .clusterFreqWrite cluster _ => okCluster cluster
  | .cairnClaim cluster t who => okCluster cluster && okLocal t && okParty who
  | .cairnComplete cluster source => okCluster cluster && okSource source
  | .cairnRaise cluster source => okCluster cluster && okSource source
  | .coreFault core => okCore core
  | .powerOnReset _ => true
  | .sysReset => true
  | .imageChunkWritten cls _ => okClass cls
  | .imageTagCheck cls _ => okClass cls
  | .unitReady cls _ _ => okClass cls
  | .unitReadyTimeout cls _ => okClass cls
  | .holdRegionWriteFault cls who _ => okClass cls && okParty who
  | .minimalRetry => true
  | .svyCommit cls => okClass cls
  | .commitTimeUpdate => true
  | .packageSubmit who => okParty who
  | .imagePackageInstall _ => true
  | .epochAdvance _ => true
  | .ownerSlotRevoke => true
  | .noticeAck => true
  | .hbmRowRepair _ _ _ => true
  | .uncorrectableError _ _ => true
  | .memoryScrub _ => true
  | .lockstepMismatch => true
  | .surveyorRestartDone => true
  | .healthCoalExpiry port => okHostPort port
  | .protLogPop => true
  | .surveyReadAdvance _ => true
  | .wearSample _ _ => true
  | .consumablesSave => true
  | .hltSnapshot ring _ => okRing ring
  | .surveyDrain ring _ => okRing ring
  | .mctpControl b _ _ _ => okBinding b
  | .i3cAddressAssign _ _ => true
  | .mctpNotReady b _ _ => okBinding b
  | .theivoRegRead b _ => okBinding b
  | .theivoRegWrite b _ _ => okBinding b
  | .theivoDpRead b _ _ => okBinding b
  | .theivoDpWrite b _ _ => okBinding b
  | .pldmGetPdr b _ => okBinding b
  | .pldmGetSensorReading b _ => okBinding b
  | .pldmGetStateSensorReadings b _ => okBinding b
  | .pldmSetEventReceiver b _ _ => okBinding b
  | .pldmEventRetry _ _ => true
  | .pldmBaseRequest b _ _ => okBinding b
  | .requestUpdate b cls _ => okBinding b && okClass cls
  | .firmwareDataReceive b _ => okBinding b
  | .firmwareVerifyApply b _ => okBinding b
  | .activateFirmware b _ => okBinding b
  | .cancelUpdate b => okBinding b
  | .updateIdleTimeout => true
  | .spdmNegotiate b _ _ _ _ => okBinding b
  | .spdmGetCertificate b _ _ _ _ => okBinding b
  | .spdmChallenge b _ _ => okBinding b
  | .spdmGetMeasurements b _ _ _ => okBinding b
  | .dpLockClaim who => okParty who
  | .dpRelease who => okParty who
  | .dpIdleTimeout => true
  | .dpApertureAccess who _ _ _ => okParty who
  | .dpDump who => okParty who
  | .dumpDone => true
  | .debugNonceNew => true
  | .debugTokenSubmit => true
  | .debugTokenCheckDone => true
  | .debugLock => true
  | .supplyFault => true
  | .thermalTrip => true
  | .sensorSample _ _ => true
  | .avsStepAck rail => okRail rail
  | .avsTimeout rail _ => okRail rail
  | .refclkLoss clock => okClock clock
  | .aerErrorMessage port severity => okHostPort port && okSeverity severity
  | .atsPriEnableChange port pf _ _ => okHostPort port && okPf pf
  | .interruptCoalescingExpiry ctrl _ => okCtrl ctrl
  | .powerStateExitEnd ctrl => okCtrl ctrl
  | .ralushMalformedDiscard => true
  | .mctpMessageDiscard => true
  | .tapInstructionLoad _ => true
  | .refclkReturn clock => okClock clock

end Sys2Proof
end

