-- ==== Sys2Proof/Certificates/Slice0/Obligations.lean ====
section
/-! DEFINITION. The statements. Each holds for every state and operands that meet its hypotheses. -/

open Sys2Proof Sys2Proof.Machine

/-! ## Control space, packets between inlet and outlet (chapters 1, 2, 7, 8, 9, 11, 12) -/

/-- Control-space accesses complete. REGISTER_WRITE: an aligned write of 4 or 8 bytes to a register of that width, which its party
reaches and whose island is released, writes that register, or is held while the island is in reset. ISLAND_RESET_END: the delay of
the island is measured over the round trip, a bench's mask generators are seeded, and the held accesses are performed in order.
FLIGHT_SLOT_WAIT_START: the waiting ring takes a slot and may start. UNDEFINED_OPCODE: the ring's next entry completes with 0x0101,
or 0x0102 when another ring kind takes its opcode. -/
def Obligations.ControlAccessesComplete : Prop :=
  (∀ (who : Party) (a n v : Nat) (s : State), s.reaches who a = true → s.unreleased a = false → s.outputOf who a = none →
      s.heldBy a = none → placeOf a = .registers → (n = 4 ∨ n = 8) → a % n = 0 → regBytes a = n →
      exec (.registerWrite who a n v) s = .next (writeReg who a (BitVec.ofNat 64 (v % 2 ^ (8 * n))) s))
  ∧ (∀ (who : Party) (a n v k : Nat) (s : State), s.outputOf who a = none → s.heldBy a = some k → (n = 4 ∨ n = 8) → a % n = 0 →
      exec (.registerWrite who a n v) s
        = .next (s.setIsland k { s.island k with held := (s.island k).held ++ [⟨who, true, a, n, v, 0⟩] }))
  ∧ (∀ (node rt : Nat) (s : State), (s.island node).released = true → (s.island node).inReset = true →
      s.staysInReset node = false → (node ≠ datumNode ∨ s.dtm.restarting = false) →
      exec (.islandResetEnd node rt) s = .next (
        let x := s.island node
        let t := s.setIsland node { x with inReset := false, held := [], delayPs := spineDelay node rt, slewFs := 0 }
        let u := if 0x70 ≤ node ∧ node < 0x82 then reseedBench (node - 0x70) t else t
        refreshPressure (serveStorage (x.held.foldl (fun w h => access h w) u))))
  ∧ (∀ (g : Nat) (r : Ring) (s : State), s.ring? g = some r → r.slotWait = true → r.state = .running →
      s.flight.room (waitKind r) = true →
      exec (.flightSlotWaitStart g) s
        = .next ((s.takeSlot (waitKind r)).setRing g { r with slotWait := false, slotHeld := true }))
  ∧ (∀ (g : Nat) (r : Ring) (j : Job) (s : State), s.ring? g = some r → nextJob r.fences true r.jobs = some j →
      r.state = .running →
      (opcodeDefined (opcode j.first) = false → exec (.undefinedOpcode g) s = .next (endJob g j.idx 0x0101 [] s))
      ∧ (opcodeDefined (opcode j.first) = true → kindAccepts r.kind (opcode j.first) = false →
          exec (.undefinedOpcode g) s = .next (endJob g j.idx 0x0102 [] s)))

/-- Packets move from inlet to bench to store. NETWORK_FRAME_RECEIVE: a good frame of an allowed length that is no MAC control
frame is counted, with the codewords its lanes corrected, stamped, and handed without its FCS to the selector. BUDGET_TOKEN_RELEASE:
the waiting packet takes its tokens and is sent. BENCH_ENQUEUE: a packet of a running bench that order lets go is acted on: one that
the act stage delivers enters dress, one that it spoils leaves the bench; a packet whose key was loaded is finished. KEY_LOAD_DONE:
the packet that waits in dress goes on with its key loaded, or without it when it was lost. -/
def Obligations.BenchPathCompletes : Prop :=
  (∀ (p cor unc : Nat) (frame : Bytes) (s : State), s.Wf → (s.island p).inReset = false → s.sendsPfc p = true → 64 ≤ frame.length →
      frame.length ≤ s.rd (NET_PORT_CFG_MAX_FRAME p) → isMacControl frame = false → p < 64 →
      exec (.networkFrameReceive p frame ⟨true, cor, unc⟩) s =
        .next (let v := (s.count (NET_FEC_CORR_CW p) cor).count (NET_FEC_UNCORR_CW p) unc
          let u := (v.count (NET_RX_FRAMES p) 1).count (NET_RX_BYTES p) frame.length
          enterBench (u.newFlying p (frame.take (frame.length - 4)) (u.ingressStamp p)) u))
  ∧ (∀ (i : Nat) (f : Flying) (s : State), s.pipe.waiting.find? (fun x => x.inlet == i && x.waited) = some f →
      s.maySend f = true → s.budgetHolds f = true → s.behindReplay f = false →
      exec (.budgetTokenRelease i) s = .next (let u := { s with pipe := { s.pipe with waiting := s.pipe.waiting.erase f } }
        refreshPressure (sendToBench f (takeBudget f u))))
  ∧ (∀ (k : Nat) (f : Flying) (s : State), s.pipe.flying[k]? = some f → s.benchRuns f.bench = true →
      s.orderWaits f (s.pipe.flying.take k) = false → f.acted = none → f.replayed = false →
      exec (.benchEnqueue k) s = .next (match actStage f s with
        | (.inr x, t) => spoilActed f x t
        | (.inl a, t) => dressPacket f a false (if t.keyReady a then t else t.count CPH_KEY_MISS 1)))
  ∧ (∀ (k : Nat) (f : Flying) (a : Acted) (s : State), s.pipe.flying[k]? = some f → s.benchRuns f.bench = true →
      s.orderWaits f (s.pipe.flying.take k) = false → f.acted = some a → a.key = .loaded →
      exec (.benchEnqueue k) s = .next (finishPacket f a true s))
  ∧ (∀ (k : Nat) (f : Flying) (a : Acted) (s : State), s.pipe.flying[k]? = some f → f.acted = some a → a.key = .waiting →
      s.benchRuns f.bench = true →
      exec (.keyLoadDone k true) s = .next (dressPacket f a (s.orderWaits f (s.pipe.flying.take k)) (loadSa a s))
      ∧ exec (.keyLoadDone k false) s = .next (passDress f a false (s.orderWaits f (s.pipe.flying.take k)) s))

/-- Packets leave the store. OUTLET_UNIT_SERVE: a serving outlet hands over the unit its scheduler chooses, and the storage engine
takes what reached it. FRAME_EGRESS: the frame that the MAC sends next leaves with its FCS and timestamps, is counted, and completes
its TX_PKT entry with the egress stamp. RX_PLACEMENT: the oldest packet handed over for a RUNNING ring is placed into the run of
posted entries that holds it. -/
def Obligations.EgressCompletes : Prop :=
  (∀ (o : Nat) (h : Head) (sc : Sched) (s : State), (markStopped o s).outletServes o = true →
      (markStopped o s).chooseUnit o = some (h, sc) →
      exec (.outletUnitServe o) s = .next (let u := markStopped o s
        acceptBlocks (refreshPressure (handUnit o h { u with swc := { u.swc with scheds := tblPut u.swc.scheds o sc } }))))
  ∧ (∀ (p : Nat) (x : Packet) (rest : List Packet) (s : State), tblGetD [] s.swc.mac p = x :: rest → s.macSends p x = true →
      exec (.frameEgress p) s = .next (
        let stamp := s.egressStamp p
        let t := (({ s with swc := { s.swc with mac := setQueue s.swc.mac p rest } } : State).count (NET_TX_FRAMES p) 1).count
          (NET_TX_BYTES p) (frameBytes x)
        let u := t.emit (.frame p (withFcs (egressFrame x stamp)))
        let v := countLate x (u.fabricOf x) u
        match x.tx with
        | some (g, idx) => endTx g idx 0 (stamp % 2 ^ 64) x.bytes.length (cipherBody 26 x.cipher) v
        | none => v))
  ∧ (∀ (g : Nat) (r : Ring) (p : Packet) (used : List Job) (s : State), s.ring? g = some r → r.state = .running →
      s.hostWritable r.sheet = true → s.handedFor g r = some p → findRun p.bytes.length r.jobs = some used →
      (r.slotHeld = true ∨ s.flight.room .dma = true) →
      exec (.rxPlacement g true) s = .next (placePacket g r p used s))

/-! ## Datum (chapter 2) -/

/-- Discipline of Datum. A PPS edge counts, a good one after those before it (R40); a servo sample with a new SEQ joins its window
(R43); a lost source that was not selected is no longer qualified (R41), REF_10M loss does so to source 0 when REF_AID is set (R40);
a source that waited to restore is selected (R42); HOLDOVER becomes HOLDOVER_LIMIT (R45); a step request whose conditions hold steps
Datum by the remaining offset and acquires (R37). -/
def Obligations.DatumDisciplineCompletes : Prop :=
  (∀ s : State, s.datumUp = true →
      exec .ppsInEdge s = .next (
        let good : Bool := match (s.source 0).lastEdge with
          | some p => decide (((s.datum.toNat : Int) - p.toNat - 65536000000000).natAbs ≤ 65536000)
          | none => false
        let n := if good then (s.source 0).good + 1 else 1
        takeSample 0 n (s.setSource 0 { s.source 0 with good := n, lastEdge := some s.datum, offset := ppsOffset s.datum })))
  ∧ (∀ (b : Bool) (value : BitVec 64) (n : Nat) (s : State), s.datumUp = true → n = (if b then 2 else 1) →
      (s.source n).lastSeq ≠ some (BitVec.ofNat 8 (getField value 48 8)) →
      exec (.servoSampleWrite b value) s =
        .next (let w := (signed 48 (getField value 0 48) :: (s.source n).window).take 16
          takeSample n (if windowGood w then 16 else 0) (s.setSource n { s.source n with
            lastSeq := some (BitVec.ofNat 8 (getField value 48 8)), offset := signed 48 (getField value 0 48), window := w })))
  ∧ (∀ (n : Nat) (s : State), s.Wf → n < 3 → s.qualified n = true → s.selected ≠ some n →
      Answers (.sourceDisqualify n) s (fun t => t.qualified n = false ∧ t.rd DTM_STATUS_SRC = s.rd DTM_STATUS_SRC))
  ∧ (∀ s : State, s.Wf → s.bit (DTM_SRC_CFG_REF_AID 0) = true → s.qualified 0 = true → s.selected ≠ some 0 →
      Answers .ref10mLoss s (fun t => t.qualified 0 = false ∧ t.rd DTM_STATUS_SRC = s.rd DTM_STATUS_SRC))
  ∧ (∀ (n k : Nat) (s : State), s.selected = some k → s.dtm.wtr.contains n = true → s.qualified n = true →
      s.bit DTM_CTRL_REVERT = true → s.rd (DTM_SRC_CFG_PRIO n) < s.rd (DTM_SRC_CFG_PRIO k) →
      exec (.waitToRestoreExpiry n) s = .next (switchSource n { s with dtm := { s.dtm with wtr := s.dtm.wtr.filter (· != n) } }))
  ∧ (∀ s : State, s.rd DTM_STATUS_STATE = 3 → exec .holdoverLimitExpiry s = .next (
      let t := { s with dtm := { s.dtm with inRange := 0, outRange := 0 } }
      raise DTM_EVENT_STATE ((breakMeasuring t).wr DTM_STATUS_STATE 4)))
  ∧ (∀ (n : Nat) (s : State), s.datumUp = true → s.selected = some n → s.dtm.justQualified = some n →
      oneUs.natAbs < (remainingOffset n s).natAbs → s.contractHeld = false →
      exec .dtmStepRequest s = .next (acquire (datumStep (remainingOffset n s) s)))

/-- The spine and the timing outputs of Datum. SPINE_MEASURE: an island in service takes the delay measured, its replica slewing over
the difference (R47); SPINE_PATH_FAIL moves it to its second path (R51); DATUM_RESTART forgets the samples, marks the restart and logs
the fault, a reset of the island among them (R50); DATUM_RESUME ends it without a step (R50); an enabled PPS output drives its active
level within 1 ns of its instant (R57); an enabled SyncE output that squelches is held low and reported (R58); a port correction holds
from then on (R60); DTM_NOW answers Datum nanoseconds and latches the fraction (R59). -/
def Obligations.DatumSpineCompletes : Prop :=
  (∀ (n rt : Nat) (s : State), (s.island n).released = true → (s.island n).inReset = false → s.dtm.restarting = false →
      exec (.spineMeasure n rt) s = .next (s.setIsland n { s.island n with
        delayPs := spineDelay n rt
        slewFs := (s.island n).slewFs + 1000 * ((spineDelay n rt : Int) - (s.island n).delayPs) }))
  ∧ (∀ (firmware : Bool) (s : State), s.dtm.restarting = false →
      exec (.datumRestart firmware) s = .next (
        let t := forgetSamples { s with dtm := { s.dtm with restarting := true } }
        logFault 0x0A 0 false false false
          (if firmware then t else t.setIsland datumNode { t.island datumNode with inReset := true })))
  ∧ (∀ s : State, s.dtm.restarting = true → (s.island datumNode).inReset = false →
      exec .datumResume s = .next { s with dtm := { s.dtm with restarting := false } })
  ∧ (∀ s : State, s.dtm.restarting = true → (s.island datumNode).inReset = true →
      exec .datumResume s = .next (endIslandReset datumNode s.draw.toNat
        ({ s with dtm := { s.dtm with restarting := false } } : State).drawn))
  ∧ (∀ (n rt : Nat) (s : State), (s.island n).released = true → (s.island n).path = 1 →
      exec (.spinePathFail n rt) s = .next (logFault 0x09 n false false false
        (raise DTM_EVENT_SPINE (s.setIsland n { s.island n with
          path := 2
          delayPs := spineDelay n rt
          slewFs := (s.island n).slewFs + 1000 * ((spineDelay n rt : Int) - (s.island n).delayPs) }))))
  ∧ (∀ (n : Nat) (s : State), n < 4 → s.bit (DTM_PPS_CFG_EN n) = true →
      (s.ppsSince n ≤ 1 ∨ (ppsPeriod (s.rd (DTM_PPS_CFG_RATE n)) : Int) - 1 ≤ s.ppsSince n) →
      exec (.ppsOutEdge n) s = .next (({ s with dtm := { s.dtm with pulsing := n :: s.dtm.pulsing.filter (· != n) } } : State).emit
        (.pps n (if s.bit (DTM_PPS_CFG_POL n) then 0 else 1))))
  ∧ (∀ (n : Nat) (s : State), n < 2 → s.bit (DTM_SYNCE_CFG_EN n) = true → s.bit (DTM_SYNCE_CFG_SQUELCH n) = true →
      s.dtm.squelched.contains n = false →
      exec (.synceLos n) s = .next (raise DTM_EVENT_SYNCE_LOS
        (({ s with dtm := { s.dtm with squelched := n :: s.dtm.squelched.filter (· != n) } } : State).emit (.synce n none))))
  ∧ (∀ (p : Nat) (v : BitVec 32) (s : State), s.Wf → s.datumUp = true → p < 64 →
      Answers (.dtmPortCorrWrite p v) s (fun t => t.rd (DTM_PORT_CORR_RX_PS p) = v.toNat % 2 ^ 16
        ∧ t.rd (DTM_PORT_CORR_TX_PS p) = v.toNat / 2 ^ 16))
  ∧ (∀ (who : Party) (s : State), s.Wf → s.datumUp = true → s.reaches who DTM_NOW = true → s.outputOf who DTM_NOW = none →
      Answers (.dtmNowRead who) s (fun t => t.rd DTM_NOW_FRAC_FRAC = s.datum.toNat % 65536
        ∧ t.outs = s.outs ++ [.reply who (leBytes 8 (s.ns % 2 ^ 64))] ∧ t.datum = s.datum))

/-! ## The delivery promise and the graticule (chapters 3, 4) -/

/-- Admission commands complete. ADMIT with a passing check admits a full-bucket contract to the ring's sheet and increments
ADM_GEN (R84, R85); CHECK answers the check's verdict and changes nothing (R84); MODIFY replaces the parameters, queued packets
keeping their deadlines (R86); QUERY answers
F and slack (R81); WITHDRAW leaves its entry waiting (R87), and the end of the drain frees the contract and completes it (R87);
STAGE_DUMP writes the dump (R88); a checked write that every affected contract survives is applied (R78). -/
def Obligations.AdmissionCompletes : Prop :=
  (∀ (g pick : Nat) (r : Ring) (j : Job) (s u : State), s.bit ADM_STATUS_READY = true → s.Starts g 0x10 r j u →
      (u.checkContract r.sheet r.sheet (entryParams j.first) none).status = 0 →
      exec (.admitContract g pick) s = .next (let p := entryParams j.first
        let id := u.freeContractId pick
        let t := settlePath p (bumpGen (u.setContract id
          ⟨u.passedState r.sheet, r.sheet, p, fullTokens p, u.datum.toNat, 0, none, 0, 0, [], none⟩))
        done g j 0 (admBody t id (t.passedState r.sheet).code (u.checkContract r.sheet r.sheet p none) 0) t))
  ∧ (∀ (g : Nat) (r : Ring) (j : Job) (s u : State), s.bit ADM_STATUS_READY = true → s.Starts g 0x13 r j u →
      exec (.check g) s = .next (let v := u.checkContract r.sheet r.sheet (entryParams j.first) none
        done g j v.status (admBody u 0xFFFF 0 v 0) u))
  ∧ (∀ (g id : Nat) (c : Contract) (r : Ring) (j : Job) (s u : State), s.bit ADM_STATUS_READY = true → s.Starts g 0x12 r j u →
      u.nameRefusal r.sheet (eN j.first 8 2) = .inl (id, c) → c.state = .admitted →
      (u.checkContract r.sheet c.sheet (entryParams j.first) (some (id, c.par))).status = 0 →
      exec (.modify g) s = .next (let p := entryParams j.first
        let w := keepDeadlines p (keepDeadlines c.par u)
        let t := settlePath p (settlePath c.par (bumpGen (w.setContract id (c.modified p (u.passedState c.sheet) w))))
        done g j 0 (admBody t id (u.passedState c.sheet).code (u.checkContract r.sheet c.sheet p (some (id, c.par))) 0) t))
  ∧ (∀ (g id : Nat) (c : Contract) (r : Ring) (j : Job) (s u : State), s.bit ADM_STATUS_READY = true → s.Starts g 0x14 r j u →
      u.nameRefusal r.sheet (eN j.first 8 2) = .inl (id, c) →
      exec (.admissionQuery g) s = .next (done g j 0 (admBody u id c.state.code ⟨0, 0, 0, 0, u.fixedPart c.par,
        edfSlack (u.capacity c.par.dst) (u.lBlk c.par.dst) (u.edfItems c.par (u.others (some id)))⟩ c.nonconf) u))
  ∧ (∀ (g id : Nat) (c : Contract) (r : Ring) (j : Job) (s u : State), s.bit ADM_STATUS_READY = true → s.Starts g 0x11 r j u →
      u.nameRefusal r.sheet (eN j.first 8 2) = .inl (id, c) →
      exec (.withdraw g) s = .next (flushRing g (withdrawContract id (some (g, j.idx)) 0 u)))
  ∧ (∀ (id g idx : Nat) (c : Contract) (s : State), s.contract? id = some c → c.state = .withdrawing → s.drainEnded id c = true →
      c.waiter = some (g, idx) →
      exec (.withdrawDrainEnd id) s = .next (let t := freeContract id (fallbackQueued id s)
        endJob g idx 0 (admBody t id 0 (.early 0) 0) t))
  ∧ (∀ (g : Nat) (r : Ring) (j : Job) (s u : State), s.bit ADM_STATUS_READY = true → s.Starts g 0x15 r j u →
      u.managerSheet r.sheet = true → u.stageDump.length ≤ eN j.first 56 4 →
      exec (.stageDump g) s = .next (let t := sheetWrite r.sheet (eN j.first 48 8) u.stageDump u
        done g j 0 (admBody t 0xFFFF 0 (.early 0) 0) t))
  ∧ (∀ (a : Nat) (o : Option Nat) (v : BitVec 64) (s : State), checkedReg a = some o →
      (∀ n, o = some n → s.outletExists n = true) →
      (a = ADM_RES_SHARE → (s.plainWrite a (admMask a v)).rd ADM_RES_SHARE_BENCH ≤ 0xB7) →
      needsCheck a s (s.plainWrite a (admMask a v)) = true → (s.plainWrite a (admMask a v)).configFits o = true →
      exec (.admConfigWrite a v) s = .next (settleOutlet o
        (sizeShares a (bumpGen ((s.plainWrite a (admMask a v)).wr ADM_STATUS_CFG_REJECT 0)))))

/-- The graticule. A transfer of at least one beat, ended at its eighth, on a link that is not lost, is held by its sender until it is
acknowledged; when every beat passes and it is the next in order it is applied whole (R94, R95, R100). A first link failure moves the
link to its reserve path, which carries the transfers not acknowledged again in order (R96); an arbiter grants the first raised
request after the index just served and stamps the grant (R98); a transfer not accepted 1 us after its grant is bitten (R103); CNT_CLR
clears both counters (R105). -/
def Obligations.GraticuleCompletes : Prop :=
  (∀ (l src dst : Nat) (seq : BitVec 8) (beats : List Beat) (ok : Bool) (fate : Fate) (cut : List Nat) (s : State),
      0 < beats.length → tblGet s.grt.links l ≠ some 2 → (beats.take 8).all (fun b => b.2) = true → fate ≠ .lost →
      nextInOrder (tblGet s.grt.applied (pairKey src dst)) seq = true →
      alreadyApplied (tblGet s.grt.applied (pairKey src dst)) seq = false →
      exec (.grtTransferReceive l src dst seq beats ⟨ok, fate⟩ cut) s = .next (
        let t : Transfer := ⟨l, src, dst, seq, (beats.take 8).map (fun b => b.1)⟩
        let u := applyTransfer t (holdTransfer t s)
        if fate = .acked then dropTransfer t u else u))
  ∧ (∀ (l : Nat) (cut : List Nat) (s : State), tblGet s.grt.links l = none →
      exec (.grtAckTimeout l cut) s = .next (
        let u := { s with grt := { s.grt with links := tblPut s.grt.links l 1 } }
        let v := raise GRT_EVENT_RESERVE (u.wr GRT_STATUS_LINKS_RESERVE (s.rd GRT_STATUS_LINKS_RESERVE + 1))
        let w := (v.grt.sent.filter (fun t => t.link == l)).foldl (fun x t => receiveTransfer t true x) v
        spareConsumed (logFault 0x01 l true false true w)))
  ∧ (∀ (kind inst raised i : Nat) (s : State), inst < targets kind →
      s.nextGrant kind inst raised (s.arbiter kind inst).last = some i →
      exec (.arbiterGrant kind inst raised) s
        = .next ((s.setArbiter kind inst ⟨i, some (i, s.dshort)⟩).emit (.granted kind inst i)))
  ∧ (∀ (kind inst core i : Nat) (t : BitVec 64) (s : State), (s.arbiter kind inst).granted = some (i, t) → inst < targets kind →
      1000 ≤ s.elapsed t → exec (.watchdogBite kind inst core) s = .next (bite kind inst i core s))
  ∧ (∀ s : State, s.Wf → Answers .grtCntClr s (fun t => t.rd GRT_BITE_CNT_COUNT = 0 ∧ t.rd GRT_RETRY_CNT_COUNT = 0
      ∧ t.grt = s.grt ∧ t.contracts = s.contracts))

/-! ## Host ports (chapter 5) -/

/-- Links of host ports. A present port that nothing holds down trains: its status shows the link up, at the lower of what was trained
and configured; an endpoint port samples its functions and reports the partner (R110, R118); a lost endpoint link shows no partner and
gives its functions FLR handling (R137); RETRAIN of a link that is up samples the functions anew and loses no link (R118; the model's
reading, log entry 54); LINK_DIS takes the link down, and cleared lets it train again (R124, R145); PERST_N low takes an endpoint port
down, and high lets it train again (R531); OBS_CLR clears the credit observation (Table 5.6). -/
def Obligations.HostLinksComplete : Prop :=
  (∀ (p sp w : Nat) (flit inf : Bool) (s : State), s.Wf → s.mayTrain p = true → s.portIsRoot p = true →
      sp = s.rd (HP_PORT_CFG_MAX_SPEED p) → 0 < sp → w = s.portWidth p → 0 < w → (flit = true ∨ sp = 6) →
      Answers (.hostLinkUp p sp w ⟨flit, inf⟩) s (fun t => t.linkUp p = true ∧ t.rd (HP_PORT_STATUS_SPEED p) = sp
        ∧ t.rd (HP_PORT_STATUS_DEGRADED p) = 0 ∧ (t.port p).infCredit = inf))
  ∧ (∀ (p sp w : Nat) (flit inf : Bool) (s : State), s.Wf → s.mayTrain p = true → s.portIsRoot p = false → s.linkUp p = false →
      0 < sp → 0 < w →
      exec (.hostLinkUp p sp w ⟨flit, inf⟩) s = .next (
        let sp' := min sp (s.rd (HP_PORT_CFG_MAX_SPEED p))
        let w' := min w (s.portWidth p)
        let u := refreshPressure (resizePool (raise (HP_EVENT_LINK p) (showLink p sp' w' (flit || sp' == 6) inf s)))
        judgeLink p sp' w' (flit || sp' == 6) (surveyRec 0 1 p (sp' + w' * 16) [] 0 (sampleFuncs p u))))
  ∧ (∀ (p : Nat) (s : State), s.portIsEndpoint p = true → s.linkUp p = true →
      exec (.hostLinkDown p) s = .next (
        let u := (portDown p s).wr (HP_PORT_STATUS_PRESENT p) 0
        let v := (presentFuncs s p).foldl (fun t f => flrFunction p f 3 t) u
        surveyRec 0 2 p 0 [] 0 (dropAsker p (failReads p v))))
  ∧ (∀ (p : Nat) (s : State), s.portIsEndpoint p = true → s.linkUp p = true → exec (.hpRetrain p) s = .next (sampleFuncs p s))
  ∧ (∀ (p : Nat) (s : State), s.Wf → s.portPresent p = true → s.portIsRoot p = false →
      exec (.hpLinkDisable p true) s = .next (endpointLost p (s.wr (HP_PORT_CFG_LINK_DIS p) 1)))
  ∧ (∀ (p : Nat) (s : State), s.Wf → s.portPresent p = true → s.portIsRoot p = true → s.linkUp p = true →
      exec (.hpLinkDisable p true) s
        = .next (failReads p (portDown p ((s.wr (HP_PORT_CFG_LINK_DIS p) 1).emit (.ball 3 p 0)))))
  ∧ (∀ (p : Nat) (s : State), s.Wf → s.portPresent p = true → Answers (.hpLinkDisable p false) s (fun t =>
      t.rd (HP_PORT_CFG_LINK_DIS p) = 0 ∧ t.ports = s.ports ∧ t.funcs = s.funcs ∧ t.mem = s.mem))
  ∧ (∀ (p : Nat) (s : State), s.Wf → p < 48 → Answers (.hpObsClr p) s (fun t => t.rd (HP_CREDIT_OBS_MAX_NS p) = 0
      ∧ t.ports = s.ports ∧ t.outs = s.outs))
  ∧ (∀ (p : Nat) (s : State), s.portIsEndpoint p = true →
      exec (.perstAssert p) s = .next (endpointLost p (s.setPort p { s.port p with perst := true })))
  ∧ (∀ (p : Nat) (s : State), s.Wf → Answers (.perstDeassert p) s (fun t => (t.port p).perst = false ∧ t.regs = s.regs
      ∧ t.funcs = s.funcs))

/-- Power states of a host link: L0p and L1 are entered under the conditions of R112 and R77, and left when traffic needs the link
(R113); a wait for posted credit is recorded, and one beyond CREDIT_NS raises CREDIT (R116). -/
def Obligations.HostPowerStatesComplete : Prop :=
  (∀ (p : Nat) (s : State), s.Wf → p < 48 → s.linkUp p = true → s.bit (HP_PORT_STATUS_FLIT p) = true →
      s.rd (HP_PORT_STATUS_PM p) = 0 → s.minLanes p < s.portWidth p → s.pmPermits p 1 = true →
      Answers (.l0pEnter p) s (fun t => t.rd (HP_PORT_STATUS_PM p) = 1 ∧ t.ports = s.ports ∧ t.contracts = s.contracts))
  ∧ (∀ (p : Nat) (s : State), s.Wf → p < 48 → s.rd (HP_PORT_STATUS_PM p) = 1 →
      Answers (.l0pExit p) s (fun t => t.rd (HP_PORT_STATUS_PM p) = 0 ∧ t.ports = s.ports ∧ t.contracts = s.contracts))
  ∧ (∀ (p level : Nat) (e : Bool) (s : State), s.Wf → p < 48 → s.linkUp p = true → 1 ≤ level → level ≤ 3 →
      s.l1Enabled p level e = true → s.rd (HP_PORT_STATUS_PM p) ≠ 2 → (s.portTags p).isEmpty = true →
      s.outletQueued (64 + p) = false → s.pmPermits p (if level = 1 then 2 else 3) = true →
      Answers (.l1Enter p level e) s (fun t => t.rd (HP_PORT_STATUS_PM p) = 2 ∧ (t.port p).l1 = level
        ∧ t.outs = s.outs ++ [.portMessage p 1 level] ∧ t.contracts = s.contracts))
  ∧ (∀ (p : Nat) (s : State), s.Wf → p < 48 → s.rd (HP_PORT_STATUS_PM p) = 2 →
      Answers (.l1Exit p) s (fun t => t.rd (HP_PORT_STATUS_PM p) = 0 ∧ t.ports = s.ports ∧ t.contracts = s.contracts))
  ∧ (∀ (p ns : Nat) (s : State), s.Wf → p < 48 → s.rd (ADM_OUT_CFG_CREDIT_NS (64 + p)) < ns → ns < 2 ^ 20 →
      s.rd (HP_CREDIT_OBS_MAX_NS p) ≤ ns → Answers (.creditWaitExceeded p ns) s (fun t =>
        t.rd (HP_CREDIT_OBS_MAX_NS p) = ns ∧ t.bit (HP_EVENT_CREDIT p) = true))

/-- Functions of endpoint ports and what a host asks of them. Unmasking a vector clears its mask and sends it when it is pending and
masked by nothing else (R119); a request in a control window performs its access at the translated address, with the generation of the
windows (R122, R127); a configuration write of a function that answers takes effect: Bus Master Enable cleared and set (R135), FLR
(R136), PASID Enable cleared, which disables the function's sheets of nonzero PASID (R156), ATS and PRI enables (R133); FLR completes
(R136); an ATS invalidation drops the entries it meets at once (R132), and its completion is sent when no read under them is out
(R132). -/
def Obligations.HostFunctionsComplete : Prop :=
  (∀ (p f v : Nat) (s : State), (s.func p f).present = true → v ≤ (s.func p f).msixN →
      exec (.msixUnmask p f v) s = .next (sendPending p f v (s.setVec p f v { s.vec p f v with mask := false })))
  ∧ (∀ (p f bar off n : Nat) (w : Win) (s : State), s.linkUp p = true → (s.func p f).present = true → bar ≤ 1 → 0 < n →
      off + n ≤ s.barSize p f bar → (bar = 0 → off < s.barSize p f bar - 65536) → s.windowAt p f bar off = some w →
      off + n ≤ w.offset + 2 ^ w.sizeLog2 → (w.kind = 1 ∨ w.kind = 2) →
      (s.rd SVY_BOOT_STATUS_STATE = 4 → w = s.window true p 0 0) →
      exec (.hostMmioRequest p f bar off n none) s = .next
        (access ⟨.host p f, false, w.target + (off - w.offset), n, 0, s.rd (HP_WIN_STATUS_GEN p)⟩ s))
  ∧ (∀ (p f bar off : Nat) (bs : Bytes) (w : Win) (s : State), s.linkUp p = true → (s.func p f).present = true → bar ≤ 1 →
      0 < bs.length → off + bs.length ≤ s.barSize p f bar → (bar = 0 → off < s.barSize p f bar - 65536) →
      s.windowAt p f bar off = some w → off + bs.length ≤ w.offset + 2 ^ w.sizeLog2 → w.wrDis = false → (w.kind = 1 ∨ w.kind = 2) →
      (s.rd SVY_BOOT_STATUS_STATE = 4 → w = s.window true p 0 0) →
      exec (.hostMmioRequest p f bar off 0 (some bs)) s = .next
        (access ⟨.host p f, true, w.target + (off - w.offset), bs.length, ofLe bs, s.rd (HP_WIN_STATUS_GEN p)⟩ s))
  ∧ (∀ (p f : Nat) (s : State), s.configOpen p f = true → (s.func p f).bme = true →
      exec (.bmeClear p f) s = .next (disableFunction p f 1 (quarantine p f (s.setFunc p f { s.func p f with bme := false }))))
  ∧ (∀ (p f range : Nat) (pe ro fm : Bool) (s : State), s.configOpen p f = true →
      exec (.bmeSet p f pe fm ⟨ro, range⟩) s = .next (sendAllPending p f (s.setFunc p f { s.func p f with
        bme := true
        pasidEn := (s.func p f).pasidEn || pe
        roEn := ro
        fmask := fm
        cplTo := range % 16 })))
  ∧ (∀ (p f : Nat) (s : State), s.configOpen p f = true →
      exec (.flr p f) s = .next (let u := flrFunction p f 2 s
        surveyRec 1 4 (p * 8 + f) 0 [] 0 (u.setFunc p f { u.func p f with flr := true })))
  ∧ (∀ (p f : Nat) (s : State), s.Wf → (s.func p f).flr = true → Answers (.flrComplete p f) s (fun t =>
      t.func p f = { s.func p f with flr := false } ∧ t.regs = s.regs ∧ t.sheets = s.sheets ∧ t.outs = s.outs))
  ∧ (∀ (p f : Nat) (s : State), s.configOpen p f = true →
      exec (.pasidEnableClear p f) s = .next (
        let u := s.setFunc p f { s.func p f with pasidEn := false }
        (s.funcSheets p f).foldl (fun t n => if t.rd (CAD_ID_PASID n) = 0 then t else disableSheet n 4 t) u))
  ∧ (∀ (p f pasid page k : Nat) (s : State), s.Wf → (s.func p f).present = true →
      Answers (.atsInvalidationRequest p f pasid page k) s (fun t =>
        (∀ e ∈ (t.func p f).ats, atsOverlap e pasid page k = false)
        ∧ (t.func p f).invalidating = (s.func p f).invalidating ++ [(pasid, page, k)]
        ∧ t.regs = s.regs ∧ t.outs = s.outs))
  ∧ (∀ (p f x page k : Nat) (rest : List (Nat × Nat × Nat)) (s : State), (s.func p f).invalidating = (x, page, k) :: rest →
      s.readUnder p f x page k = false →
      exec (.atsInvalidationComplete p f) s
        = .next ((s.setFunc p f { s.func p f with invalidating := rest }).emit (.portMessage p 2 page)))
  ∧ (∀ (p f : Nat) (ats pri : Bool) (s : State), s.Wf → s.configOpen p f = true →
      Answers (.atsPriEnableChange p f ats pri) s (fun t => (t.func p f).atsEn = ats ∧ (t.func p f).priEn = pri
        ∧ (ats = false → (t.func p f).ats = []) ∧ (pri = true → (s.func p f).priEn = false → (t.func p f).priStopped = false)
        ∧ t.regs = s.regs ∧ t.outs = s.outs))
  ∧ (∀ (p f : Nat) (s : State), (s.func p f).present = true → (s.func p f).flr = true →
      exec (.flr p f) s = .next (s.emit (.portMessage p 6 f)) ∧ exec (.bmeClear p f) s = .next (s.emit (.portMessage p 6 f)))

/-- Windows and the device's own reads. COMMIT activates a bank that passes (R125); its retirement ends when no request of an older
generation is left (R127); a page that was granted lets the packets stalled on it go on (R133, R382); data of an entry read is taken
in and the next read issued (R176), that of a forwarded read goes to the host that asked (R124); a read without a completion ends, and
a quarantined one holds nothing more (R134, R135). -/
def Obligations.WindowsAndReadsComplete : Prop :=
  (∀ (p : Nat) (s : State), s.portPresent p = true → s.bit (HP_WIN_STATUS_RETIRING p) = false → s.firstBadWin p = none →
      exec (.hpWinCommit p) s = .next (let u := copyBank p true s
        let v := (u.wr (HP_WIN_STATUS_ERR p) 0).wr (HP_WIN_STATUS_GEN p) (u.rd (HP_WIN_STATUS_GEN p) + 1)
        v.wr (HP_WIN_STATUS_RETIRING p) 1))
  ∧ (∀ (p : Nat) (s : State), s.bit (HP_WIN_STATUS_RETIRING p) = true → s.oldRequests p = false →
      exec (.winRetireDone p) s
        = .next (raise (HP_EVENT_WIN_DONE p) (copyBank p false (s.wr (HP_WIN_STATUS_RETIRING p) 0))))
  ∧ (∀ (p f pasid page : Nat) (absent : List Nat) (q : PageReq) (s : State), s.pageReq p f pasid page = some q →
      exec (.pageRequestResponse p f pasid page 0 absent) s = .next (resumeStalls absent (dropRequest q s)))
  ∧ (∀ (p tag g : Nat) (r : ReadTag) (entries : List Entry) (bytes : Bytes) (s : State), s.readTag p tag = some r →
      r.quarantined = false → r.use = .fetch g →
      exec (.hostReadCompletion p tag true entries bytes) s = .next (issueFetch g (fetchArrive g entries (endRead p tag s))))
  ∧ (∀ (p tag q f gen n : Nat) (r : ReadTag) (entries : List Entry) (bytes : Bytes) (s : State), s.readTag p tag = some r →
      r.quarantined = false → r.use = .peer q f gen n →
      exec (.hostReadCompletion p tag true entries bytes) s = .next ((endRead p tag s).emit (.reply (.host q f) (bytes.take n))))
  ∧ (∀ (p tag g : Nat) (r : ReadTag) (s : State), s.readTag p tag = some r → r.quarantined = false → r.use = .fetch g →
      exec (.completionTimeout p tag) s = .next (fetchFault g (endRead p tag s)))
  ∧ (∀ (p tag : Nat) (r : ReadTag) (s : State), s.readTag p tag = some r → r.quarantined = true →
      exec (.completionTimeout p tag) s = .next (endRead p tag s))

/-- Root ports. Containment (R139) and its release, enumeration and binding of an NVMe device (R140, R141), arrival (R142), attachment
of an expander that fits the aperture (R28, R143), and error messages (R140). -/
def Obligations.RootPortsComplete : Prop :=
  (∀ (p : Nat) (s : State), exec (.dpcTrigger p) s = .next (containPort p s))
  ∧ (∀ (p : Nat) (s : State), s.Wf → p < 48 → Answers (.dpcRelease p) s (fun t => t.bit (HP_PORT_STATUS_DPC p) = false
      ∧ t.ports = s.ports ∧ t.outs = s.outs))
  ∧ (∀ (p mps bits ven : Nat) (cxl : Bool) (f : FoundFunc) (rest : List FoundFunc) (ser : Bytes) (s : State),
      s.portIsRoot p = true → s.linkUp p = true → (s.port p).enumerating = true → f.classCode = 0x010802 →
      exec (.rootPortEnumerate p ⟨cxl, mps, bits⟩ (f :: rest) ven ser) s = .next (
        let u := s.setPort p { s.port p with
          comp := .nvme
          enumerating := false
          serial := ser
          classCode := 0x010802
          vendor := ven
          aspm := 0 }
        let v := settleAspm p (configureFuncs p (cxl && s.cxlLink p) .nvme mps bits ven ser 0 (f :: rest) u)
        consArrive (32 + p) 2 ser ven (surveyRec 2 1 p 0x010802 ser ven v)))
  ∧ (∀ (p : Nat) (s : State), s.Wf → s.portIsRoot p = true → Answers (.rootPresenceChange p true) s (fun t =>
      t.rd (HP_PORT_STATUS_PRESENT p) = 1 ∧ t.bit (HP_EVENT_PRESENCE p) = true ∧ t.ports = s.ports ∧ t.mem = s.mem))
  ∧ (∀ (p cap cc ven base nxt : Nat) (free : List (Nat × Nat)) (s : State), (s.port p).comp = .cxl → (s.port p).cxlSize = 0 →
      s.linkUp p = true → s.cxlLink p = true → 0 < cap → s.cxlAttached + cap ≤ 2 ^ 41 →
      s.cxlPlace cap = some (base, free, nxt) →
      exec (.cxlAttach p cap cc ven) s = .next (
        let t := programHdm p base cap { s with
          cxlFree := free
          cxlNext := nxt }
        let u := t.setPort p { s.port p with
          cxlBase := base
          cxlSize := cap }
        consArrive (32 + p) 3 (s.port p).serial ven (surveyRec 2 1 p cc (s.port p).serial ven
          (attachCache p cap (u.wr (HP_PORT_STATUS_CXL p) 1)))))
  ∧ (∀ (p : Nat) (s : State), s.Wf → s.portIsRoot p = true → Answers (.aerErrorMessage p 0) s (fun t =>
      (t.port p).aerCorr = (s.port p).aerCorr + 1 ∧ t.regs = s.regs ∧ t.outs = s.outs))
  ∧ (∀ (p : Nat) (s : State), s.portIsRoot p = true → exec (.aerErrorMessage p 1) s = .next (s.emit (.portMessage p 4 1))
      ∧ exec (.aerErrorMessage p 2) s = .next (containPort p s))

/-! ## Sheets, mailboxes and rings (chapters 6, 7) -/

/-- Mailbox slots of a sheet that is not FREE, by a party on the slot's side whose reach covers the page (R148). A claim read of an
EMPTY slot with nothing queued answers 1 and claims it; BELL makes a CLAIMED slot FULL with its SEQ, and sends the reader's vector; ACK
makes a FULL slot EMPTY with its bytes kept, or lets a queued message in; a CLAIMED slot that times out is EMPTY, its bytes discarded:
what they then read is free (R153, R154). -/
def Obligations.MailboxCompletes : Prop :=
  (∀ (n : Nat) (up : Bool) (who : Party) (s : State), n < 4096 → s.islandRuns 0xA9 = true → (s.sheet n).state ≠ .free →
      actsOn s n who up = true → s.reaches who (mailReg n (if up then 0x84 else 0x90)) = true →
      s.outputOf who (mailReg n (if up then 0x84 else 0x90)) = none →
      ((s.sheet n).slot up).state = .empty → ((s.sheet n).slot up).queue = [] →
      exec (.mbxClaim n up who) s = .next ((s.setSheet n ((s.sheet n).withSlot up
        { (s.sheet n).slot up with state := .claimed })).emit (.reply who [1, 0, 0, 0])))
  ∧ (∀ (n : Nat) (up : Bool) (who : Party) (s : State), n < 4096 → s.islandRuns 0xA9 = true → (s.sheet n).state ≠ .free →
      actsOn s n who up = true → s.reaches who (mailReg n (if up then 0x88 else 0x94)) = true →
      s.outputOf who (mailReg n (if up then 0x88 else 0x94)) = none → ((s.sheet n).slot up).state = .claimed →
      exec (.mbxBell n up who) s = .next (let sl := (s.sheet n).slot up
        mailVector n up (s.setSheet n ((s.sheet n).withSlot up
          { sl with
            state := .full
            fills := sl.fills + 1
            bytes := bellMsg sl.bytes (sl.fills + 1) }))))
  ∧ (∀ (n : Nat) (up : Bool) (who : Party) (s : State), n < 4096 → s.islandRuns 0xA9 = true → (s.sheet n).state ≠ .free →
      actsOn s n who (!up) = true → s.reaches who (mailReg n (if up then 0x8C else 0x98)) = true →
      s.outputOf who (mailReg n (if up then 0x8C else 0x98)) = none → ((s.sheet n).slot up).state = .full →
      exec (.mbxAck n up who) s = .next (match ((s.sheet n).slot up).queue with
        | [] => s.setSheet n ((s.sheet n).withSlot up { (s.sheet n).slot up with state := .empty })
        | m :: rest => mailVector n up (s.setSheet n ((s.sheet n).withSlot up
            (({ (s.sheet n).slot up with
              state := .empty
              queue := rest } : MailSlot).deliver m)))))
  ∧ (∀ (n : Nat) (up : Bool) (s : State), ((s.sheet n).slot up).state = .claimed → ((s.sheet n).slot up).queue = [] →
      exec (.mbxClaimTimeout n up) s = .next (s.drawnEntry.setSheet n ((s.sheet n).withSlot up
        { (s.sheet n).slot up with
          state := .empty
          bytes := s.drawEntry })))

/-- Sheet commands. RESHAPE takes effect as a whole (R162); ENABLE, DISABLE, its end, and DEBUG move the sheet through its states
(R79, R157, R161, R164, R165); QUERY reports it (R158); on the manager's page CREATE makes a FREE sheet DISABLED, ENABLE acts as the
command does, DESTROY starts and ends the sheet (R163). -/
def Obligations.SheetsComplete : Prop :=
  (∀ (g : Nat) (r : Ring) (j : Job) (s u : State), s.Starts g 0x08 r j u → u.sheetRefusal r.sheet (eN j.first 8 2) 0x0401 false = none →
      (u.sheet (eN j.first 8 2)).destroying = false →
      u.reshapeRefusal (eN j.first 8 2) (eN j.first 10 2) (eN j.first 16 40) = none →
      exec (.reshape g) s = .next (let n := eN j.first 8 2
        let v := u.setShareRecord n (mergeShares (u.shareRecord n) (eN j.first 16 40) (eN j.first 10 2))
        let x := { v.sheet n with pendingMask := v.pendingBits n }
        let y := if (eN j.first 10 2).testBit 2 then { x with
            tokens := fullBench
            refilled := v.datum.toNat } else x
        let t := postShares n (v.setSheet n y)
        done g j 0 (sheetBody t n 0xFF (t.shareRecord n)) t))
  ∧ (∀ (g : Nat) (r : Ring) (j : Job) (s u : State), s.Starts g 0x09 r j u → u.sheetRefusal r.sheet (eN j.first 8 2) 0x0104 false = none →
      (u.sheet (eN j.first 8 2)).state = .disabled → (u.sheet (eN j.first 8 2)).destroying = false →
      (u.sheetFunc (eN j.first 8 2)).present = true → (u.sheetFunc (eN j.first 8 2)).bme = true →
      (u.rd (CAD_ID_PASID (eN j.first 8 2)) = 0 ∨ (u.sheetFunc (eN j.first 8 2)).pasidEn = true) →
      exec (.sheetEnable g) s = .next (let n := eN j.first 8 2
        let v := postSheetState n 1 2 0 (u.setSheet n { u.sheet n with state := .active })
        let t := (v.sheetRings n).foldl (fun t g => issueFetch g t) v
        done g j 0 (sheetBody t n 0xFF (t.shareRecord n)) t))
  ∧ (∀ (g : Nat) (r : Ring) (j : Job) (s u : State), s.Starts g 0x0A r j u → u.sheetRefusal r.sheet (eN j.first 8 2) 0x0401 false = none →
      eN j.first 8 2 ≠ r.sheet → (u.sheet (eN j.first 8 2)).destroying = false → (u.sheet (eN j.first 8 2)).state = .active →
      exec (.sheetDisable g) s = .next (let n := eN j.first 8 2
        let t := disableSheet n 0 u
        flushRing g (t.setSheet n { t.sheet n with waiters := (t.sheet n).waiters ++ [(g, j.idx)] })))
  ∧ (∀ (n : Nat) (s : State), (s.sheet n).state = .disabling → s.sheetDrained n = true →
      exec (.sheetDisableDone n) s = .next (
        let u := s.setSheet n { s.sheet n with
          state := .disabled
          waiters := [] }
        (s.sheet n).waiters.foldl (fun t w => endJob w.1 w.2 0 (sheetBody t n 0xFF (t.shareRecord n)) t)
          (resolveShrinks n (postSheetState n 4 1 (s.sheet n).cause u))))
  ∧ (∀ (g : Nat) (r : Ring) (j : Job) (s u : State), s.Starts g 0x0B r j u → u.sheetRefusal r.sheet (eN j.first 8 2) 0x0401 false = none →
      (u.sheet (eN j.first 8 2)).state = .active → eBits j.first 12 0 1 = 1 →
      exec (.sheetDebug g) s = .next (let n := eN j.first 8 2
        let t := suspendSheet n true (postSheetState n 2 3 0 (u.setSheet n { u.sheet n with state := .debug }))
        done g j 0 (sheetBody t n 0xFF (t.shareRecord n)) t))
  ∧ (∀ (g : Nat) (r : Ring) (j : Job) (s u : State), s.Starts g 0x0B r j u → u.sheetRefusal r.sheet (eN j.first 8 2) 0x0401 false = none →
      (u.sheet (eN j.first 8 2)).state = .debug → eBits j.first 12 0 1 = 0 →
      exec (.sheetDebug g) s = .next (let n := eN j.first 8 2
        let t := suspendSheet n false (postSheetState n 3 2 0 (u.setSheet n { u.sheet n with state := .active }))
        done g j 0 (sheetBody t n 0xFF (t.shareRecord n)) t))
  ∧ (∀ (g : Nat) (r : Ring) (j : Job) (s u : State), s.Starts g 0x0C r j u → eN j.first 8 2 ≠ 0xFFFF →
      u.sheetRefusal r.sheet (eN j.first 8 2) 0x0401 true = none →
      exec (.sheetQuery g) s
        = .next (done g j 0 (sheetBody u (eN j.first 8 2) 0xFF (u.usageRecord (eN j.first 8 2))) u))
  ∧ (∀ (n : Nat) (s : State), s.bit (CAD_OP_STATUS_BUSY n) = false → s.createRefusal n = none →
      exec (.cadOpCreate n) s = .next (opStatus n 0 0xFF (s.setSheet n
        { Sheet.free with state := .disabled, tokens := fullBench, refilled := s.datum.toNat, record := s.shareWords n })))
  ∧ (∀ (n : Nat) (s : State), s.bit (CAD_OP_STATUS_BUSY n) = false → (s.sheetPort n).isSome = true →
      (s.sheet n).state = .disabled → (s.sheet n).destroying = false → (s.sheetFunc n).present = true →
      (s.sheetFunc n).bme = true →
      (s.rd (CAD_ID_PASID n) = 0 ∨ (s.sheetFunc n).pasidEn = true) →
      exec (.cadOpEnable n) s = .next (
        let v := postSheetState n 1 2 0 (s.setSheet n { s.sheet n with state := .active })
        opStatus n 0 0xFF ((v.sheetRings n).foldl (fun t g => issueFetch g t) v)))
  ∧ (∀ (n : Nat) (s : State), s.bit (CAD_OP_STATUS_BUSY n) = false → (s.sheetPort n).isSome = true →
      (s.sheet n).state = .disabled →
      exec (.cadOpDestroy n) s
        = .next ((s.setSheet n { s.sheet n with destroying := true }).wr (CAD_OP_STATUS_BUSY n) 1))
  ∧ (∀ (n : Nat) (s : State), (s.sheet n).destroying = true →
      exec (.sheetDestroyDone n) s = .next (let u := removeUnits n s
        let v := (tblKeys (fun _ (r : Ring) => r.sheet == n) u.rings).foldl (fun t g => forgetFetch g t)
          { u with rings := u.rings.filter (fun r => r.2.sheet != n) }
        (opStatus n 0 0xFF ((restoreShares n v).setSheet n Sheet.free)).wr (CAD_OP_STATUS_BUSY n) 0))

/-- Ring commands (R200-R202) and the ends they lead to: OPEN, ENABLE, DISABLE, its quiesce and IDLE (R190, R191), CLOSE, QUERY,
TUNE, NOP, each with what it leaves in the ring and its completion. -/
def Obligations.RingCommandsComplete : Prop :=
  (∀ (g pick : Nat) (c : Option Nat) (r : Ring) (j : Job) (s u : State), s.Starts g 0x01 r j u → namedSheet r.sheet j.first = r.sheet →
      eN j.first 10 2 ≠ 0 → u.findRing r.sheet (eN j.first 10 2) = none → u.localReserved r.sheet (eN j.first 10 2) = false →
      openFieldsOk u r.sheet j.first = true →
      (if eBits j.first 12 0 3 = 1 then u.ringContract r.sheet (eN j.first 18 2) else .inl none) = .inl c → u.usage r.sheet 0 < u.limit r.sheet 0 →
      exec (.ringOpen g pick) s = .next (let e := j.first
        let t := placeRing (u.freeGlobal pick) (openedRing r.sheet (eN e 10 2) (eBits e 12 0 3) (eBits e 13 0 5) (eBits e 13 5 1 == 1)
          (eBits e 14 0 11) (eN e 16 1) (eN e 17 1) c (eN e 32 8) (eN e 40 8) (eN e 20 4) (eN e 24 4)) u
        done g j 0 (ringBody t r.sheet (eN e 10 2) (u.freeGlobal pick) (eN e 32 8) (eN e 40 8)) t))
  ∧ (∀ (g k : Nat) (r x : Ring) (j : Job) (s u : State), s.Starts g 0x02 r j u → u.namedRing r.sheet j.first = .inl (k, x) →
      x.state = .disabled →
      exec (.ringEnable g) s = .next (let t := restartRing k x (eN j.first 20 4) (eN j.first 24 4) u
        done g j 0 (openRingBody t k x) t))
  ∧ (∀ (g k : Nat) (r x y : Ring) (j : Job) (s u : State), s.Starts g 0x03 r j u → u.namedRing r.sheet j.first = .inl (k, x) →
      k ≠ g → x.localNo ≠ 0 → x.state = .running → (quiesceMessages k (stopRing k 0 u)).ring? k = some y →
      exec (.ringDisable g) s = .next (flushRing g
        ((quiesceMessages k (stopRing k 0 u)).setRing k { y with waiters := y.waiters ++ [(g, j.idx)] })))
  ∧ (∀ (g : Nat) (left : Bool) (r : Ring) (s : State), (flushRing g s).ring? g = some r → r.state = .disabling →
      startedJobs r.jobs = [] →
      exec (.ringQuiesceEnd g left) s = .next (
        let idle : Bool := left && (flushRing g s).ringQuiet g r
        let t := announce g ((flushRing g s).setRing g { r with
          state := .disabled
          head := quiescedHead r
          fetch := quiescedHead r
          jobs := []
          chain := none
          idle := idle })
        if idle then endWaiters g t else t))
  ∧ (∀ (g : Nat) (r : Ring) (s : State), s.ring? g = some r → r.state = .disabled → r.idle = false →
      s.ringQuiet g r = true →
      exec (.ringIdle g) s = .next (endWaiters g (s.setRing g { r with idle := true })))
  ∧ (∀ (g k : Nat) (r x : Ring) (j : Job) (s u : State), s.Starts g 0x04 r j u → u.namedRing r.sheet j.first = .inl (k, x) →
      x.state = .disabled → x.idle = true →
      exec (.ringClose g) s = .next (let t := closeRing k x u; done g j 0 (openRingBody t k x) t))
  ∧ (∀ (g k : Nat) (r x : Ring) (j : Job) (s u : State), s.Starts g 0x05 r j u → u.namedRing r.sheet j.first = .inl (k, x) →
      exec (.ringQuery g) s = .next (done g j 0 (openRingBody u k x) u))
  ∧ (∀ (g k : Nat) (c : Option Nat) (r x : Ring) (j : Job) (s u : State), s.Starts g 0x06 r j u → u.namedRing r.sheet j.first = .inl (k, x) →
      eBits j.first 14 0 11 ≤ (u.sheetFunc x.sheet).msixN →
      (if x.kind = 1 then u.ringContract x.sheet (eN j.first 18 2) else .inl none) = .inl c →
      exec (.ringTune g) s = .next (let t := u.setRing k { x with
          vec := eBits j.first 14 0 11, coalN := eN j.first 16 1, coalUs := eN j.first 17 1, contract := c }
        done g j 0 (openRingBody t k x) t))
  ∧ (∀ (g : Nat) (r : Ring) (j : Job) (s u : State), s.Starts g 0x00 r j u → exec (.ringNop g) s = .next (done g j 0 [] u))

/-- Doorbells, entry reads and admin rings. An accepted producer index is stored and a read issued (R173, R174, R176); a read is
issued while the ring may fetch (R176); the COAL_US timer announces (R187); admin rings open, restart and close (R209); a write clears
the drop count (Table 7.14). -/
def Obligations.DoorbellsAndAdminRingsComplete : Prop :=
  (∀ (n loc pi g : Nat) (r : Ring) (s : State), n < 4096 → loc < 65536 → pi < 2 ^ 32 → (s.sheet n).state = .active →
      s.findRing n loc = some (g, r) → r.piAccepted pi = true →
      exec (.doorbellWrite n loc pi false) s
        = .next (wakeCtrl g (issueFetch g (s.setRing g { r with pi := BitVec.ofNat 32 pi }))))
  ∧ (∀ (g : Nat) (r : Ring) (s : State), s.ring? g = some r → s.mayFetch r = true → s.flight.room .rd = true →
      (s.portTags (s.sheetPortD r.sheet)).length < 4096 →
      exec (.entryFetch g none) s = .next (
        issueRead (s.sheetReq r.sheet (r.slotAddr r.fetch.toNat) false) (64 * r.readLength) (.fetch g)
          (s.setRing g { r with reading := r.readLength })))
  ∧ (∀ (g : Nat) (r : Ring) (s : State), s.ring? g = some r → r.timer = true → 0 < r.unannounced →
      exec (.coalTimerExpiry g) s = .next (announce g s))
  ∧ (∀ (n pick : Nat) (one : Bool) (s : State), (s.sheet n).state ≠ .free → s.findRing n 0 = none →
      s.rd (RNG_ADMIN_CFG_VEC n) ≤ (s.sheetFunc n).msixN → s.usage n 0 < s.limit n 0 →
      exec (.adminRingOpen n pick one) s = .next (adminStatus n 0 (placeRing (s.freeGlobal pick)
        (openedRing n 0 0 (s.rd (RNG_ADMIN_CFG_SIZE_LOG2 n)) one (s.rd (RNG_ADMIN_CFG_VEC n)) (s.rd (RNG_ADMIN_CFG_COAL_N n))
          (s.rd (RNG_ADMIN_CFG_COAL_US n)) none (s.rd (RNG_ADMIN_BASE_BASE n) * 4096) (s.rd (RNG_ADMIN_HEAD_HEAD_ADDR n) * 8)
          (s.rd (RNG_ADMIN_START_START n)) (s.rd (RNG_ADMIN_START_START n))) s)))
  ∧ (∀ (n g : Nat) (r : Ring) (s : State), (s.sheet n).state ≠ .free → s.descRing n 0 = some (g, r) → r.state = .disabled →
      exec (.adminRingEnable n) s = .next (adminStatus n 0
        (restartRing g r (s.rd (RNG_ADMIN_START_START n)) (s.rd (RNG_ADMIN_START_START n)) s)))
  ∧ (∀ (n g : Nat) (r : Ring) (s : State), (s.sheet n).state ≠ .free → s.descRing n 0 = some (g, r) → r.state = .disabled →
      r.idle = true → exec (.adminRingClose n) s = .next (adminStatus n 0 (closeRing g r s)))
  ∧ (∀ s : State, s.Wf → Answers .rngDbDropClear s (fun t => t.rd RNG_DB_DROP_COUNT = 0 ∧ t.rings = s.rings ∧ t.sheets = s.sheets))

/-- Entries that move data. TX_PKT reads its packet, takes bench tokens and sends it (R204), also when its throttle ends (R195);
RX_BUF posts a free buffer (R205); COPY and FILL write host memory and report the bytes (R203, R206). -/
def Obligations.DataEntriesComplete : Prop :=
  (∀ (g : Nat) (bs : Bytes) (r : Ring) (j : Job) (s u : State),
      s.Starts g 0x80 r j u → s.throttled r j = false → s.flight.room .rd = true → txLenOk j = true →
      exec (.txPkt g (.ok bs)) s = .next (sendTx g r j bs (readSegments r j (takeBench r.sheet (txLen j) u)))
      ∧ exec (.txThrottleRelease g (.ok bs)) s = .next (sendTx g r j bs (readSegments r j (takeBench r.sheet (txLen j) u))))
  ∧ (∀ (g : Nat) (r : Ring) (j : Job) (s : State), s.startable g (· == 0x81) = some (r, j) → 256 ≤ eN j.first 16 4 →
      eN j.first 16 4 ≤ 16384 → exec (.rxBuf g) s
        = .next (sheetAts r.sheet (eN j.first 8 8) (s.setRing g { r with jobs := markJob j.idx .posted r.jobs })))
  ∧ (∀ (g : Nat) (bs : Bytes) (r : Ring) (j : Job) (s u : State), s.flight.room .rd = true → s.Starts g 0x88 r j u → 0 < eN j.first 24 4 →
      eN j.first 24 4 ≤ 16777216 →
      exec (.copy g (.ok bs)) s = .next (let v := sheetRead r.sheet (eN j.first 8 8) (eN j.first 24 4) u
        let t := sheetWrite r.sheet (eN j.first 16 8) (bs.take (eN j.first 24 4)) v
        done g j 0 (moveBody (eN j.first 24 4)) t))
  ∧ (∀ (g : Nat) (bs : Bytes) (r : Ring) (j : Job) (s u : State), s.Starts g 0x89 r j u → eN j.first 8 8 % 8 = 0 →
      eN j.first 24 4 % 8 = 0 → 8 ≤ eN j.first 24 4 → eN j.first 24 4 ≤ 16777216 →
      exec (.fill g (.ok bs)) s = .next (
        let t := sheetWrite r.sheet (eN j.first 8 8) (patternBytes (eN j.first 16 8) (eN j.first 24 4)) u
        done g j 0 (moveBody (eN j.first 24 4)) t))

/-! ## Network ports and benches (chapters 8, 9) -/

/-- Configuration of a network port. A write of NET_PORT_CFG whose MODE fits (R211), that does not disable a port a contract names
(R225), whose headroom fits (R221) and whose contracts pass a larger MAX_FRAME (R221) is applied, and starts or stops the port as ENABLE
says (R224); so is one of NET_HEAD_CFG or NET_PRIO_MAP whose headroom fits (R221); a PRBS test selects the pattern and counts the errors
of an OFF port that transmits one (R213); CNT_CLR clears every counter (R232). -/
def Obligations.NetConfigurationCompletes : Prop :=
  (∀ (p m : Nat) (v : BitVec 64) (s t u : State),
      (s.cfgMode p v = s.rd (NET_PORT_CFG_MODE p) ∨ s.modeFits p (s.cfgMode p v) = true) →
      (s.bit (NET_PORT_CFG_ENABLE p) = true → (s.cfgWritten p v).bit (NET_PORT_CFG_ENABLE p) = false → s.portNamed p = false) →
      (s.netState p ≠ 0 → (s.cfgWritten p v).headroomChange p = true) →
      (s.rd (NET_PORT_CFG_MAX_FRAME p) < (s.cfgWritten p v).rd (NET_PORT_CFG_MAX_FRAME p) →
        (s.cfgWritten p v).portRecheck p = true) →
      u = applyHeadroom p (grownFrame p s ((s.cfgWritten p v).wr (NET_PORT_STATUS_CFG_ERR p) 0)) →
      t = followPrbs p s (if u.bit (NET_PORT_CFG_ENABLE p) then startPort p u
          else if s.netState p = 0 then u else moveNet p 0 0 u) →
      (v = putField (s.reg (NET_PORT_CFG p)) 0 5 m → exec (.netModeWrite p m) s = .next t)
      ∧ (v = putField (s.reg (NET_PORT_CFG p)) 6 14 m → exec (.netHeadroomConfigWrite p 0 m) s = .next t)
      ∧ (v = putField (s.reg (NET_PORT_CFG p)) 5 1 1 → exec (.netPortEnable p) s = .next t)
      ∧ (v = putField (s.reg (NET_PORT_CFG p)) 5 1 0 → exec (.netPortDisable p) s = .next t))
  ∧ (∀ (p reg v a : Nat) (s : State), (reg = 1 ∧ a = NET_HEAD_CFG p) ∨ (reg = 2 ∧ a = NET_PRIO_MAP p) →
      (s.netState p ≠ 0 → (s.plainWrite a (BitVec.ofNat 64 v)).headroomChange p = true) →
      exec (.netHeadroomConfigWrite p reg v) s = .next (refreshPressure
        (applyHeadroom p ((s.plainWrite a (BitVec.ofNat 64 v)).wr (NET_PORT_STATUS_CFG_ERR p) 0))))
  ∧ (∀ (p test rate errors : Nat) (s : State), exec (.netPrbsTest p test rate errors) s = .next (
      let u := netCfgWrite p (putField (putField (s.reg (NET_PORT_CFG p)) 20 3 test) 23 3 rate) s
      if (u.prbsOf p).1 = 0 then u else u.count (NET_TEST_ERR_COUNT p) errors))
  ∧ (∀ (p : Nat) (s : State), exec (.netCntClr p) s = .next ((netCounters p).foldl (fun t f => t.wr f 0) s))

/-- States of a network port (Table 8.4). RETRAIN of a port in service goes to MODULE_INIT (R227); RESTORE returns a PAUSE_FAILED port
to UP (R223); lock moves TRAINING to CALIBRATING, calibration with headroom to UP (R221), loss of lock to TRAINING (R226), a pause held
too long to PAUSE_FAILED (R222); the data path's activation moves MODULE_INIT to TRAINING and its time-out to FAULT (R228). -/
def Obligations.NetStatesComplete : Prop :=
  (∀ (p : Nat) (s : State), s.netState p ≠ 0 → s.netState p ≠ 1 →
      exec (.netRetrain p) s = .next (moveNet p 2 0 (match s.cageOf p with
        | some k => { s with net := { s.net with
            ready := s.net.ready.filter (· != p)
            busFails := tblDel s.net.busFails k } }
        | none => s)))
  ∧ (∀ (p : Nat) (s : State), s.netState p = 6 → s.pausedClasses p = [] →
      exec (.netRestore p) s = .next (moveNet p 5 0 (s.wr (NET_PORT_STATUS_CFG_ERR p) 0)))
  ∧ (∀ (p : Nat) (s : State), s.netState p = 3 → s.lanesClocked p = true →
      exec (.linkLockAcquired p) s = .next (moveNet p 4 0 s))
  ∧ (∀ (p : Nat) (s : State), s.netState p = 4 → (reserveHeadroom p s).headroomFits = true →
      exec (.calibrationDone p) s = .next (moveNet p 5 0 (resizePool (reserveHeadroom p s))))
  ∧ (∀ (p n : Nat) (s : State), (s.count (NET_FEC_UNCORR_CW p) n).netState p = 5 →
      exec (.linkLossOfLock p n) s = .next (moveNet p 3 7 (s.count (NET_FEC_UNCORR_CW p) n)))
  ∧ (∀ (p : Nat) (s : State), s.netState p = 5 →
      (s.pausedClasses p).any (fun c => (s.rd (NET_PFC_CFG_RX_PFC_EN p)).testBit c) = true →
      exec (.pauseLimitExpiry p) s = .next (raise (NET_EVENT_PAUSE_FAIL p) (moveNet p 6 6 s)))
  ∧ (∀ (p : Nat) (s : State), s.netState p = 2 → s.net.ready.contains p = true →
      exec (.dataPathActivated p) s
        = .next (moveNet p 3 0 (accessWorked p { s with net := { s.net with ready := s.net.ready.filter (· != p) } })))
  ∧ (∀ (p : Nat) (s : State), s.netState p = 2 → exec (.moduleInitTimeout p) s = .next (initFailed p 3 s))

/-- Flow control. A PFC frame pauses the classes of its enabled priorities (R216, R219), a PAUSE frame every class in RX_PFC_EN when
RX_PAUSE_EN is 1, another MAC control frame is counted (R216); a received pause ends (R219); a pause sent is refreshed (R217). -/
def Obligations.FlowControlCompletes : Prop :=
  (∀ (p en : Nat) (q : List Nat) (s : State), s.sendsPfc p = true → (s.island p).inReset = false →
      exec (.pfcFrameReceive p 0x0101 en q) s = .next (showPaused p ((List.range 8).foldl
        (fun t k => if en.testBit k then pausePrio p k (q.getD k 0) t else t) (s.count (NET_RX_PFC p) 1))))
  ∧ (∀ (p en : Nat) (q : List Nat) (s : State), s.sendsPfc p = true → (s.island p).inReset = false →
      (s.count (NET_RX_PFC p) 1).bit (NET_PFC_CFG_RX_PAUSE_EN p) = true →
      exec (.pfcFrameReceive p 0x0001 en q) s = .next (let u := s.count (NET_RX_PFC p) 1
        showPaused p (((List.range 8).filter (fun c => (u.rd (NET_PFC_CFG_RX_PFC_EN p)).testBit c)).foldl
          (fun t c => if q.getD 0 0 = 0 then pauseClass p c 0 t else markPaused p c (pauseClass p c (q.getD 0 0) t)) u)))
  ∧ (∀ (p op en : Nat) (q : List Nat) (s : State), s.sendsPfc p = true → (s.island p).inReset = false → op ≠ 0x0101 → op ≠ 0x0001 →
      exec (.pfcFrameReceive p op en q) s = .next (s.count (NET_RX_CTRL_OTHER p) 1))
  ∧ (∀ (p c : Nat) (s : State), tblWf s.net.pause = true → Answers (.rxPauseExpiry p c) s (fun t =>
      tblGet t.net.pause (pauseKey p c) = none ∧ t.voqs = s.voqs ∧ t.contracts = s.contracts ∧ t.mem = s.mem))
  ∧ (∀ (p : Nat) (s : State), s.sendsPfc p = true → s.rd (NET_PORT_STATUS_TX_XOFF p) ≠ 0 →
      exec (.pfcRefresh p) s = .next ((s.emit (.pfc p (s.rd (NET_SRC_MAC_MAC p)) (s.rd (NET_PORT_STATUS_TX_XOFF p))
        (maskOf (s.priosInUse p)))).count (NET_TX_PFC p) 1))

/-- The module manager. A module that stays present is recorded, reported, and starts the waiting ports (R228, R229); a ready module
within its power gives the ports it matches to their data path (R228); a failed access is repeated, and the third in a row takes the
cage's ports to FAULT (R228); removal takes its ports to NO_MODULE (R229); flags are recorded with ALARM (R230); a page access starts,
and completes with its bytes or, failed, with free ones (R231). -/
def Obligations.ModulesComplete : Prop :=
  (∀ (k ven : Nat) (i3c : Bool) (ser : Bytes) (s : State), s.cagePresent k = true → s.bit (NET_CAGE_STATUS_PRESENT k) = false →
      exec (.modulePresenceDebounced k i3c ser ven) s = .next (
        let a := (s.wr (NET_CAGE_STATUS_PRESENT k) 1).wr (NET_CAGE_STATUS_I3C k) (if i3c then 1 else 0)
        let b := (a.wr (NET_CAGE_STATUS_MSTATE k) (lowPowerState (a.net.powered.contains k))).emit (.ball 5 k 1)
        let c := consArrive k 1 ser ven { b with net := { b.net with busFails := tblDel b.net.busFails k } }
        let d := raise (NET_CAGE_EVENT_PRESENCE k) (surveyRec 3 1 k 0 ser ven c)
        (d.cagePortsIn k [1, 7]).foldl (fun t p => moveNet p 2 0 t) d))
  ∧ (∀ (k pw : Nat) (ports : List Nat) (s u : State), s.bit (NET_CAGE_STATUS_PRESENT k) = true →
      u = (let a := s.wr (NET_CAGE_STATUS_MSTATE k) 3; { a with net := { a.net with busFails := tblDel a.net.busFails k } }) →
      pw ≤ u.rd (NET_CAGE_CFG_MAX_POWER k) → (∀ p ∈ u.cagePortsIn k [2], ports.contains p = true) →
      Answers (.moduleReady k pw ports) s (fun t => (∀ p ∈ u.cagePortsIn k [2], p ∈ t.net.ready) ∧ t.regs = u.regs
        ∧ t.contracts = s.contracts ∧ t.voqs = s.voqs))
  ∧ (∀ (k : Nat) (s : State), s.cagePortsIn k [2] ≠ [] → tblGetD 0 s.net.busFails k < 2 →
      exec (.mgmtBusAccessFail k) s
        = .next { s with net := { s.net with busFails := tblPut s.net.busFails k (tblGetD 0 s.net.busFails k + 1) } })
  ∧ (∀ (k : Nat) (s : State), s.cagePortsIn k [2] ≠ [] → tblGetD 0 s.net.busFails k = 2 →
      exec (.mgmtBusAccessFail k) s = .next ((s.cagePortsIn k [2]).foldl (fun t p => initFailed p 4 t)
        { s with net := { s.net with busFails := tblDel s.net.busFails k } }))
  ∧ (∀ (k : Nat) (s : State), s.bit (NET_CAGE_STATUS_PRESENT k) = true →
      exec (.moduleRemove k) s = .next (let c := tblGetD Consumable.fresh s.health.cons k
        let u := ((s.wr (NET_CAGE_STATUS_PRESENT k) 0).wr (NET_CAGE_STATUS_MSTATE k) 0).wr (NET_CAGE_STATUS_I3C k) 0
        let v := (u.cagePortsIn k [2, 3, 4, 5, 6, 7]).foldl (fun t p => moveNet p 1 8 t) u
        let w := { v with net := { v.net with ready := v.net.ready.filter (fun p => !v.laneInCage k p) } }
        raise (NET_CAGE_EVENT_PRESENCE k) (consLeave k (surveyRec 3 2 k 0 c.serial c.vendor w))))
  ∧ (∀ (k fl st : Nat) (s : State), s.bit (NET_CAGE_STATUS_PRESENT k) = true →
      exec (.moduleInterrupt k ⟨fl, st⟩) s = .next (
        let u := { s with health := { s.health with
          cons := tblPut s.health.cons k { tblGetD Consumable.fresh s.health.cons k with flags := fl } } }
        raise (NET_CAGE_EVENT_ALARM k) (u.wr (NET_CAGE_STATUS_MSTATE k) st)))
  ∧ (∀ (k v : Nat) (a : CageAccess) (s : State), s.bit (NET_CAGE_STATUS_ACC_BUSY k) = false → v.testBit 27 = true →
      a = ⟨v % 256, v / 2 ^ 8 % 256, v / 2 ^ 16 % 256, v / 2 ^ 24 % 4 + 1, v.testBit 26⟩ →
      (a.isWrite = true → 128 ≤ a.offset ∧ a.page ≠ 0x10) →
      exec (.cageAccess k v) s = .next (
        let u := s.wr (NET_CAGE_STATUS_ACC_BUSY k) 1
        let w := { u with net := { u.net with access := tblPut u.net.access k a } }
        w.emit (.cage k (v % 2 ^ 27) (if a.isWrite then w.rd (NET_CAGE_DATA_DATA k) % 2 ^ (8 * a.len) else 0))))
  ∧ (∀ (k data : Nat) (a : CageAccess) (s : State), tblGet s.net.access k = some a →
      exec (.cageAccessDone k true data) s = .next (
        let u := ({ s with net := { s.net with access := tblDel s.net.access k } } : State).wr (NET_CAGE_STATUS_ACC_BUSY k) 0
        let v := u.wr (NET_CAGE_STATUS_ACC_ERR k) 0
        raise (NET_CAGE_EVENT_ACC_DONE k) (if a.isWrite then v else v.wr (NET_CAGE_DATA_DATA k) (data % 2 ^ (8 * a.len))))
      ∧ exec (.cageAccessDone k false data) s = .next (
        let u := ({ s with net := { s.net with access := tblDel s.net.access k } } : State).wr (NET_CAGE_STATUS_ACC_BUSY k) 0
        let v := u.wr (NET_CAGE_STATUS_ACC_ERR k) 1
        raise (NET_CAGE_EVENT_ACC_DONE k) (v.wr (NET_CAGE_DATA_DATA k) v.draw.toNat).drawn))

/-- Benches. A profile set that passes its check becomes active and the old generation retires (R240); its last packet ends that
(R240); a default action that names what exists is stored (R245); a move that its tests allow starts (R249), a marker that passes
lets the held packets of its inlet go, and the last one ends the move (R250); a failed bench is swapped to a spare, or, with none left,
its contracts break (R254). -/
def Obligations.BenchCommandsComplete : Prop :=
  (∀ s : State, s.bit (BNC_PROF_STATUS_RETIRING 0) = false → s.firstBadProfile = none →
      exec .bncProfCommit s = .next (let u := activateProfiles s
        ((u.wr (BNC_PROF_STATUS_GEN 0) (u.rd (BNC_PROF_STATUS_GEN 0) + 1)).wr (BNC_PROF_STATUS_RETIRING 0) 1).wr
          (BNC_PROF_STATUS_ERR 0) 0))
  ∧ (∀ s : State, s.bit (BNC_PROF_STATUS_RETIRING 0) = true →
      s.pipe.flying.any (fun f => f.gen != s.rd (BNC_PROF_STATUS_GEN 0)) = false →
      s.pipe.waiting.any (fun f => f.gen != s.rd (BNC_PROF_STATUS_GEN 0)) = false →
      exec .profRetireDone s = .next (raise (BNC_EVENT_PROF_DONE 0) (s.wr (BNC_PROF_STATUS_RETIRING 0) 0)))
  ∧ (∀ (i : Nat) (v : BitVec 64) (s : State), (getField v 0 2 = 1 → s.outletExists (getField v 2 7) = true) →
      (getField v 0 2 = 2 → 112 ≤ getField v 2 7 ∧ getField v 2 7 ≤ 119) →
      exec (.bncDefaultWrite i v) s = .next (s.plainWrite (BNC_DEFAULT i) v))
  ∧ (∀ (b dest : Nat) (force : Bool) (s : State), s.bit BNC_MOVE_STATUS_BUSY = false → s.moveStatus b dest force = 0 →
      exec (.bucketMove b dest force) s = .next (let u := (remapBucket dest b s).wr (BNC_MAP_MOVING b) 1
        let v := { u with pipe := { u.pipe with
          move := some ⟨b, s.benchOf b, dest, s.rd (BNC_MAP_EPOCH b), (List.range 123).filter u.outletExists⟩ } }
        pumpInlets (v.wr BNC_MOVE_STATUS_BUSY 1)))
  ∧ (∀ (i : Nat) (m : Move) (s : State), s.pipe.move = some m → m.markers.contains i = true →
      s.pipe.flying.any (fun f => f.inlet == i && f.bucket == m.bucket && f.epoch == m.oldEpoch) = false →
      exec (.drainMarkerPass i) s = .next (let u := s.count (BNC_MARKERS (if s.benchServes m.old then m.old else m.new)) 1
        let v := releaseHeld (some i) m.bucket
          { u with pipe := { u.pipe with move := some { m with markers := m.markers.filter (· != i) } } }
        if m.markers.filter (· != i) = [] then endMove 0 v else refreshPressure v))
  ∧ (∀ (k : Nat) (s : State), s.rd (BNC_STATUS_STATE k) = 1 →
      exec (.benchFault k) s = .next (logFault 0x05 (benchNode k) true false true (consumeBench (setBench k 3 (holdBench k s)))))
  ∧ (∀ (k sp : Nat) (s : State), s.benchServes k = true → (holdBench k s).spareFor k = some sp →
      exec (.benchFault k) s = .next (
        let u := consumeBench ((setBench sp 2 (holdBench k s)).wr (BNC_STATUS_REPLACES sp) k)
        let v := (s.bucketsOf k).foldl (fun t b => remapBucket sp b t) (fillBudget sp u)
        let w := replayBench k [k] (failMoveTo k v)
        refreshPressure (logFault 0x05 (benchNode k) true false true
          (replaysDone { w with pipe := { w.pipe with replays := w.pipe.replays ++ [k] } }))))
  ∧ (∀ (k : Nat) (s : State), s.benchServes k = true → (holdBench k s).spareFor k = none →
      exec (.benchFault k) s = .next (
        let u := breakWhere ((holdBench k s).onBench k) 2 (holdBench k s)
        let v := (s.bucketsOf k).foldl (fun t b => mapBucket 0x1F b t) u
        refreshPressure (beyondModel 3 (logFault 0x05 (benchNode k) false true true
          (setBench k 3 (replayBench k [] (failMoveTo k v)))))))

/-! ## Forwarding tables and the switch core (chapters 10, 11) -/

/-- Exact-match table commands of the manager on a table of their types, while no bench that they reach is in reset (R264, R266, R273,
R275). INSERT of an absent key with room for it places it; UPDATE replaces the result of a present key; DELETE removes it; LOOKUP
reports it, or that it is absent. -/
def Obligations.ExactMatchCompletes : Prop :=
  (∀ (g t : Nat) (hb : Bool) (key : Bytes) (r : Ring) (j : Job) (e : TEntry) (pl : Placed) (q : Partition) (s u : State),
      s.tableHeld g 0x20 = false → s.Starts g 0x20 r j u → u.managerSheet r.sheet = true → t = tblTable j.first →
      [1, 2].contains (u.rd (TBL_DESC_TYPE t)) = true → key = tblKey j.first (u.keyLen t) → e = ⟨t, key, tblResult j.first, 0, 0⟩ →
      (hb = false ∨ u.inHbm t = false) → (u.partition (u.inHbm t)).lookup t key = none →
      (u.partition (u.inHbm t)).used + e.weight ≤ u.entryLimit (u.inHbm t) →
      (u.partition (u.inHbm t)).insert (u.shape (u.inHbm t)) e = (pl, q) → pl ≠ .failed →
      exec (.tblInsert g hb) s = .next (let w := u.setPartition (u.inHbm t) q
        done g j 0 (tblBody w t (placedReply (u.shape (u.inHbm t)) pl)) w))
  ∧ (∀ (g t : Nat) (hb : Bool) (key : Bytes) (r : Ring) (j : Job) (old : TEntry) (s u : State),
      s.tableHeld g 0x21 = false → s.Starts g 0x21 r j u → u.managerSheet r.sheet = true → t = tblTable j.first →
      [1, 2].contains (u.rd (TBL_DESC_TYPE t)) = true → key = tblKey j.first (u.keyLen t) →
      (hb = false ∨ u.inHbm t = false) → (u.partition (u.inHbm t)).lookup t key = some old →
      exec (.tblUpdate g hb) s = .next (
        let w := u.setPartition (u.inHbm t)
          ((u.partition (u.inHbm t)).update t key (fun x => { x with result := tblResult j.first }))
        done g j 0 (tblBody w t (foundReply u (u.inHbm t) t key 0 old.result)) w))
  ∧ (∀ (g t : Nat) (hb : Bool) (key : Bytes) (r : Ring) (j : Job) (s u : State),
      s.tableHeld g 0x22 = false → s.Starts g 0x22 r j u → u.managerSheet r.sheet = true → t = tblTable j.first →
      [1, 2].contains (u.rd (TBL_DESC_TYPE t)) = true → key = tblKey j.first (u.keyLen t) →
      (hb = false ∨ u.inHbm t = false) → (u.partition (u.inHbm t)).lookup t key ≠ none →
      exec (.tblDelete g hb) s = .next (
        let w := u.setPartition (u.inHbm t)
          ((u.partition (u.inHbm t)).remove (u.shape (u.inHbm t)) (fun x => x.matches t key))
        done g j 0 (tblBody w t .none) w))
  ∧ (∀ (g t : Nat) (key : Bytes) (r : Ring) (j : Job) (s u : State), s.Starts g 0x23 r j u → u.managerSheet r.sheet = true →
      t = tblTable j.first → [1, 2].contains (u.rd (TBL_DESC_TYPE t)) = true → key = tblKey j.first (u.keyLen t) →
      exec (.tblLookup g) s = .next (done g j 0 (tblBody u t (match (u.partition (u.inHbm t)).lookup t key with
        | none => .none
        | some x => foundReply u (u.inHbm t) t key 1 x.result)) u))

/-- Longest-prefix match commands of the manager on an LPM table, while no bench is in reset (R267-R270, R273, R275): a new prefix of at
most 16 bits is added while prefixes are below the limit, a longer one inserted into the HBM tier when its slice has room for its
length; an existing one gets its new result, or is removed; an address is looked up. -/
def Obligations.LpmCompletes : Prop :=
  (∀ (g t n : Nat) (hb : Bool) (addr : Bytes) (r : Ring) (j : Job) (s u : State), s.tableHeld g 0x24 = false →
      s.Starts g 0x24 r j u → u.managerSheet r.sheet = true → t = tblTable j.first → n = tblPlen j.first →
      u.rd (TBL_DESC_TYPE t) = 3 → plenOk u j.first = true → n ≤ 16 → addr = clearBeyond n (tblKey j.first (u.keyLen t)) →
      u.tables.shorts.find? (fun x => x.table == t && x.plen == n && x.addr == addr) = none → u.prefixes < 8388608 →
      exec (.lpmAdd g hb) s = .next (
        let w := { u with tables := { u.tables with shorts := u.tables.shorts ++ [⟨t, n, addr, tblResult j.first⟩] } }
        done g j 0 (tblBody w t .none) w))
  ∧ (∀ (g t n : Nat) (hb : Bool) (addr : Bytes) (old : ShortPrefix) (r : Ring) (j : Job) (s u : State), s.tableHeld g 0x24 = false →
      s.Starts g 0x24 r j u → u.managerSheet r.sheet = true → t = tblTable j.first → n = tblPlen j.first →
      u.rd (TBL_DESC_TYPE t) = 3 → plenOk u j.first = true → n ≤ 16 → addr = clearBeyond n (tblKey j.first (u.keyLen t)) →
      u.tables.shorts.find? (fun x => x.table == t && x.plen == n && x.addr == addr) = some old →
      exec (.lpmAdd g hb) s = .next (
        let l := u.tables.shorts.map (fun x =>
          if x.table == t && x.plen == n && x.addr == addr then { x with result := tblResult j.first } else x)
        let w := { u with tables := { u.tables with shorts := l } }
        done g j 0 (tblBody w t ⟨2, 0, 0, old.result, 0⟩) w))
  ∧ (∀ (g t n : Nat) (hb : Bool) (addr : Bytes) (r : Ring) (j : Job) (s u : State), s.tableHeld g 0x25 = false →
      s.Starts g 0x25 r j u → u.managerSheet r.sheet = true → t = tblTable j.first → n = tblPlen j.first →
      u.rd (TBL_DESC_TYPE t) = 3 → plenOk u j.first = true → n ≤ 16 → addr = clearBeyond n (tblKey j.first (u.keyLen t)) →
      u.tables.shorts.any (fun x => x.table == t && x.plen == n && x.addr == addr) = true →
      exec (.lpmDel g hb) s = .next (
        let l := u.tables.shorts.filter (fun x => !(x.table == t && x.plen == n && x.addr == addr))
        let w := { u with tables := { u.tables with shorts := l } }
        done g j 0 (tblBody w t .none) w))
  ∧ (∀ (g t n : Nat) (addr : Bytes) (r : Ring) (j : Job) (s u : State), s.tableHeld g 0x24 = false →
      s.Starts g 0x24 r j u → u.managerSheet r.sheet = true → t = tblTable j.first → n = tblPlen j.first →
      u.rd (TBL_DESC_TYPE t) = 3 → plenOk u j.first = true → 16 < n → addr = clearBeyond n (tblKey j.first (u.keyLen t)) →
      u.tables.hbm.lookup t (prefixKey n addr) = none → u.prefixes < 8388608 →
      ((u.sliceLengths t (sliceOf addr)).contains n = true ∨ (u.sliceLengths t (sliceOf addr)).length ≤ u.rd (TBL_DESC_LEN_MAX t)) →
      exec (.lpmAdd g false) s = .next (let x := insertEntry true ⟨t, prefixKey n addr, tblResult j.first, 0, 0⟩ u
        done g j x.2.1 (tblBody x.1 t x.2.2) x.1))
  ∧ (∀ (g t n : Nat) (addr : Bytes) (old : TEntry) (r : Ring) (j : Job) (s u : State), s.tableHeld g 0x24 = false →
      s.Starts g 0x24 r j u → u.managerSheet r.sheet = true → t = tblTable j.first → n = tblPlen j.first →
      u.rd (TBL_DESC_TYPE t) = 3 → plenOk u j.first = true → 16 < n → addr = clearBeyond n (tblKey j.first (u.keyLen t)) →
      u.tables.hbm.lookup t (prefixKey n addr) = some old →
      exec (.lpmAdd g false) s = .next (
        let w := u.setPartition true (u.tables.hbm.update t (prefixKey n addr) (fun x => { x with result := tblResult j.first }))
        done g j 0 (tblBody w t (foundReply u true t (prefixKey n addr) 2 old.result)) w))
  ∧ (∀ (g t n : Nat) (addr : Bytes) (r : Ring) (j : Job) (s u : State), s.tableHeld g 0x25 = false →
      s.Starts g 0x25 r j u → u.managerSheet r.sheet = true → t = tblTable j.first → n = tblPlen j.first →
      u.rd (TBL_DESC_TYPE t) = 3 → plenOk u j.first = true → 16 < n → addr = clearBeyond n (tblKey j.first (u.keyLen t)) →
      u.tables.hbm.lookup t (prefixKey n addr) ≠ none →
      exec (.lpmDel g false) s = .next (
        let w := u.setPartition true (u.tables.hbm.remove hbmShape (fun x => x.matches t (prefixKey n addr)))
        done g j 0 (tblBody w t .none) w))
  ∧ (∀ (g t : Nat) (r : Ring) (j : Job) (s u : State), s.Starts g 0x26 r j u → u.managerSheet r.sheet = true →
      t = tblTable j.first → u.rd (TBL_DESC_TYPE t) = 3 →
      exec (.lpmLookup g) s = .next (done g j 0 (tblBody u t (match u.lpmLookup t (tblKey j.first (u.keyLen t)) with
        | none => .none
        | some (res, n) => ⟨1, 0, n, res, 0⟩)) u))

/-- Learning and the checked table registers. FLUSH removes a table's learned entries, of all inlets or of one, from the benches named
(R275); a program step and a table descriptor that pass their checks are stored (R260, Table 10.6), SLOTS while the configured partition
is empty (Table 10.9); a bench makes its oldest queued insertion and removes its old entries (R272, R274). -/
def Obligations.LearningCompletes : Prop :=
  (∀ (g : Nat) (r : Ring) (j : Job) (s u : State), s.tableHeld g 0x27 = false → s.Starts g 0x27 r j u →
      u.managerSheet r.sheet = true → u.rd (TBL_DESC_TYPE (tblTable j.first)) ≠ 0 → u.bit (TBL_DESC_LEARN (tblTable j.first)) = true →
      eBits j.first 12 0 18 ≠ 0 →
      exec (.learnFlush g) s = .next (
        let inlet := if eBits j.first 16 7 1 = 1 then some (eBits j.first 16 0 7) else none
        let x := ((List.range 18).filter (fun k => (eBits j.first 12 0 18).testBit k)).foldl
          (fun x k => flushBench (tblTable j.first) inlet k x) (0, u)
        done g j 0 [(8, 1, tblTable j.first), (20, 4, x.1)] x.2))
  ∧ (∀ (n k : Nat) (v : BitVec 64) (s w : State), n ≠ 0 → w = s.plainWrite (TBL_PROG n k) v → w.progH n ≤ 8 →
      ((w.rd (TBL_PROG_KIND n k) = 1 ∨ w.rd (TBL_PROG_KIND n k) = 2) →
        w.rd (TBL_PROG_KOFF n k) + w.keyLen (w.rd (TBL_PROG_TABLE n k)) ≤ 64) →
      (w.rd (TBL_PROG_KIND n k) = 2 → w.bit (TBL_DESC_LEARN (w.rd (TBL_PROG_TABLE n k))) = true) →
      exec (.tblProgWrite n k v) s = .next w)
  ∧ (∀ (t : Nat) (v : BitVec 64) (s : State), s.Wf → t < 64 → s.tableEntries t = 0 →
      (getField v 0 2 = 1 ∨ getField v 0 2 = 2 → getField v 2 6 ≠ 0 ∧ getField v 2 6 ≤ 48) →
      (getField v 0 2 = 3 → s.lpmTables t < 4) → (getField v 11 1 = 1 → getField v 0 2 = 1) →
      Answers (.tblDescWrite t v) s (fun x => x.rd (TBL_DESC_TYPE t) = getField v 0 2
        ∧ x.rd (TBL_DESC_KEY_LEN t) = getField v 2 6 ∧ x.rd (TBL_DESC_FAMILY t) = getField v 8 1
        ∧ x.rd (TBL_DESC_LEN_MAX t) = getField v 9 2 ∧ x.rd (TBL_DESC_LEARN t) = getField v 11 1
        ∧ x.rd (TBL_DESC_LEARN_RESULT t) = getField v 32 32 ∧ x.tables = s.tables))
  ∧ (∀ (v : BitVec 64) (s : State), s.Wf → s.tables.die.used = 0 → getField v 0 2 ≠ s.rd TBL_LEARN_CFG_SLOTS →
      Answers (.tblLearnCfgWrite v) s (fun x => x.rd TBL_LEARN_CFG_SLOTS = getField v 0 2
        ∧ x.rd TBL_LEARN_CFG_AGE_LIMIT = getField v 2 15 ∧ x.tables = { s.tables with learned := [] }))
  ∧ (∀ (k : Nat) (q : LearnReq) (rest : List LearnReq) (pl : Placed) (p : Partition) (s u : State),
      tblGetD [] s.tables.queue k = q :: rest →
      u = { s with tables := { s.tables with queue := tblSet [] s.tables.queue k rest } } →
      (u.learned k).lookup q.table q.key = none → u.learnFull k ⟨q.table, q.key, 0, 0, q.inlet⟩ = false →
      (u.learned k).insert u.learnShape ⟨q.table, q.key, u.learnResult q.table q.inlet, seenOf (q.stamp.toNat / 65536), q.inlet⟩
        = (pl, p) → pl ≠ .failed →
      exec (.learnInsert k) s = .next (let w := (u.setLearned k p).count (TBL_LEARNED k) 1
        if 6 ≤ p.stash.length then raise TBL_EVENT_STASH w else w))
  ∧ (∀ (k : Nat) (s : State), ((s.learned k).entries.filter s.aged).length ≠ 0 →
      exec (.learnAge k) s = .next ((s.setLearned k ((s.learned k).remove s.learnShape s.aged)).count (TBL_AGED k)
        ((s.learned k).entries.filter s.aged).length))

/-- Switch-core commands of the manager, the writes while no bench is in reset (R312). ACT_WRITE stores a checked action record and ACT_READ reads it; TMPL_WRITE, PSET_WRITE and
MCG_WRITE store their part (R281, R303, R304, R314); VOQ_QUERY reports setts and back pressure (Table 11.9). -/
def Obligations.SwitchCommandsComplete : Prop :=
  (∀ (g : Nat) (r : Ring) (j : Job) (s u : State), s.writeHeld 0x30 = false → s.Starts g 0x30 r j u → u.managerSheet r.sheet = true →
      swIndex j.first ≤ 4095 → swIndex j.first ≠ 0 → actionOk (cleanAction (swData j.first)) = true →
      u.actionNames (cleanAction (swData j.first)) = true →
      u.actionReach (u.sheetPortD r.sheet) (cleanAction (swData j.first)) = true →
      exec (.actWrite g) s = .next (done g j 0 [(8, 2, swIndex j.first), (10, 1, swPart j.first)]
        { u with tables := { u.tables with
          actions := tblSet actionReset u.tables.actions (swIndex j.first) (cleanAction (swData j.first)) } }))
  ∧ (∀ (g : Nat) (r : Ring) (j : Job) (s u : State), s.Starts g 0x31 r j u → u.managerSheet r.sheet = true →
      swIndex j.first ≤ 4095 →
      exec (.actRead g) s = .next (done g j 0 [(8, 2, swIndex j.first), (10, 1, swPart j.first),
        (16, 32, (u.action (swIndex j.first)).toNat)] u))
  ∧ (∀ (g : Nat) (r : Ring) (j : Job) (s u : State), s.writeHeld 0x32 = false → s.Starts g 0x32 r j u → u.managerSheet r.sheet = true →
      swIndex j.first ≤ 2047 → swPart j.first ≤ 3 →
      exec (.tmplWrite g) s = .next (done g j 0 [(8, 2, swIndex j.first), (10, 1, swPart j.first)]
        { u with tables := { u.tables with
          templates := tblSet 0 u.tables.templates (swIndex j.first)
            (writeTemplate (tblGetD 0 u.tables.templates (swIndex j.first)) (swPart j.first) (swData j.first)) } }))
  ∧ (∀ (g : Nat) (r : Ring) (j : Job) (s u : State), s.writeHeld 0x33 = false → s.Starts g 0x33 r j u → u.managerSheet r.sheet = true →
      swIndex j.first ≤ 63 → swPart j.first ≤ 7 →
      (List.range 32).any (fun k => psMember j.first k != 0x7F && !u.netPresent (psMember j.first k)) = false →
      exec (.psetWrite g) s = .next (done g j 0 [(8, 2, swIndex j.first), (10, 1, swPart j.first)]
        { u with tables := { u.tables with
          members := (List.range 32).foldl (fun t k =>
            tblSet 0x7F t (swIndex j.first * 256 + 32 * swPart j.first + k) (psMember j.first k)) u.tables.members } }))
  ∧ (∀ (g : Nat) (r : Ring) (j : Job) (s u : State), s.writeHeld 0x34 = false → s.Starts g 0x34 r j u → u.managerSheet r.sheet = true →
      swIndex j.first ≤ 4095 →
      (List.range 128).any (fun o => (BitVec.ofNat 128 (eN j.first 16 16)).getLsbD o && !u.outletExists o) = false →
      exec (.mcgWrite g) s = .next (done g j 0 [(8, 2, swIndex j.first), (10, 1, swPart j.first)]
        { u with tables := { u.tables with
          groups := tblSet 0 u.tables.groups (swIndex j.first) (BitVec.ofNat 128 (eN j.first 16 16)) } }))
  ∧ (∀ (g : Nat) (r : Ring) (j : Job) (s u : State), s.Starts g 0x35 r j u → u.managerSheet r.sheet = true →
      swIndex j.first ≤ 127 →
      exec (.voqQuery g) s = .next (done g j 0 ([(8, 2, swIndex j.first), (10, 1, swPart j.first)]
        ++ ((List.range 8).map (fun c => (16 + 4 * c, 4, u.voqSetts (voqIndex (swIndex j.first) (swPart j.first % 128) c)))
        ++ [(48, 1, maskOf ((List.range 8).filter (u.pressed (swIndex j.first))))])) u))

/-- Bank groups and alternates. A group's fault with a spare lowers the store's capacity and consumes the spare, one without a
spare breaks every contract (R289, R76), and a group that no sett lies in any more leaves service (R289); an alternate that exists is taken (R305); UNPIN of a pinned outlet that is UP places markers
(R308; TARGET then being the outlet's own port is the model's reading, log entry 59), and a marker that is served releases what it held (R308). -/
def Obligations.StoreAndAlternatesComplete : Prop :=
  (∀ (k : Nat) (s u : State), k ≤ 15 → u = raise SWC_EVENT_STORE_FAULT { s with swc := { s.swc with
        draining := if s.activeGroups.contains k then s.swc.draining ++ [k] else s.swc.draining } } →
      (u.rd HLT_SPARE_GROUP = 1 → exec (.bankGroupFault k) s
        = .next (refreshPressure (resizePool (logFault 0x06 k true false true (spareConsumed (u.wr HLT_SPARE_GROUP 0))))))
      ∧ (u.rd HLT_SPARE_GROUP ≠ 1 → exec (.bankGroupFault k) s
        = .next (beyondModel 3 (breakWhere (fun _ => true) 2 (logFault 0x06 k false true true u)))))
  ∧ (∀ (k : Nat) (s : State), s.swc.draining.find? (fun g => !s.groupHolds g) = some k →
      exec .bankGroupDrained s = .next (
        let u := { s with swc := { s.swc with
          draining := s.swc.draining.filter (· != k)
          outGroups := k :: s.swc.outGroups } }
        u.wr SWC_STATUS_GROUPS (u.rd SWC_STATUS_GROUPS - 1)))
  ∧ (∀ (o : Nat) (v : BitVec 64) (s : State), o ≤ 63 → s.altRefused o v = false → getField v 7 1 = 0 →
      exec (.swcAltWrite o v) s
        = .next (refreshPressure (spoilDead o ((s.wr (SWC_ALT_ALT o) (getField v 0 6)).wr (SWC_ALT_EN o) (getField v 6 1)))))
  ∧ (∀ (o : Nat) (s : State), o ≤ 63 → s.bit (SWC_ALT_PINNED o) = true → s.netState o = 5 →
      exec (.swcUnpin o) s = .next (let vs := s.repinnedVoqs (s.rd (SWC_ALT_TARGET o))
        let u := vs.foldl (fun t v => placeMarker o v t) s
        let w := { u with swc := { u.swc with unpinHeld := u.swc.unpinHeld ++ vs.flatMap (u.correspond o) } }
        endUnpin o (((w.wr (SWC_ALT_PINNED o) 0).wr (SWC_ALT_TARGET o) o).wr (SWC_ALT_UNPINNING o) 1)))
  ∧ (∀ (v o : Nat) (p : Packet) (rest : List Packet) (s : State), tblGetD [] s.voqs v = p :: rest → p.marker = some o →
      exec (.unpinMarkerServed v) s = .next (refreshPressure (endUnpin o { s with
        voqs := setQueue s.voqs v rest
        swc := { s.swc with unpinHeld := s.swc.unpinHeld.filter (fun x => !(s.correspond o v).contains x) } })))

/-! ## The cipher (chapter 12) -/

/-- Cipher commands on a sheet in the ring's reach. KEY_INSTALL with parameters that are allowed reads the key block and creates an ACTIVE
SA at the present epoch (R345, R346); KEY_RETIRE makes an SA that nothing names RETIRING, and waits (R338); the end of the drain erases it
and completes the entry (R338); KEY_REKEY replaces the key, keeps what packets in flight use, and makes it ACTIVE (R334, R345); SA_QUERY
reports (Table 12.9); ENTROPY_READ writes LEN bytes of the DRBG (R345). That key block and buffer lie in the ring's own sheet's memory is
the model's reading (log entry 60). -/
def Obligations.CipherCommandsComplete : Prop :=
  (∀ (g pick n : Nat) (bs : Bytes) (r : Ring) (j : Job) (s u : State), s.Starts g 0x40 r j u →
      u.namedSheet r.sheet (eN j.first 8 2) = some n → u.paramsOk (BitVec.ofNat 32 (eN j.first 16 4)) = true →
      eN j.first 24 8 % 64 = 0 → u.usage n 3 < u.limit n 3 → u.drbgRuns = true →
      exec (.keyInstall g pick (.ok bs)) s = .next (
        let par : BitVec 32 := BitVec.ofNat 32 (eN j.first 16 4)
        let w := sheetRead r.sheet (eN j.first 24 8) 64 u
        let x : SA := {
          state := .active, sheet := n, par := par, key := blockKey par 0 bs (eN j.first 20 3), older := [], next := [], lease := [],
          epoch := w.epoch, waiter := none }
        done g j 0 (cipherFields n (some (w.freeSa pick)) (some x)) { w with sas := tblPut w.sas (w.freeSa pick) x }))
  ∧ (∀ (g n : Nat) (r : Ring) (j : Job) (x : SA) (s u : State), s.Starts g 0x41 r j u →
      u.namedSheet r.sheet (eN j.first 8 2) = some n → tblGet u.sas (saNumber j.first) = some x → x.sheet = n →
      x.state ≠ .retiring → u.saUsers (saNumber j.first) = 0 →
      exec (.keyRetire g) s = .next (
        let y := { x with
          state := .retiring
          waiter := some (g, j.idx) }
        flushRing g { u with sas := tblPut u.sas (saNumber j.first) y }))
  ∧ (∀ (k : Nat) (x : SA) (s : State), tblGet s.sas k = some x → x.state = .retiring → s.saPrepared k = false →
      exec (.saRetireDone k) s = .next (
        let w := resolveShrinks x.sheet (eraseKeys [k] { s with sas := tblDel s.sas k })
        match x.waiter with
        | some (g, idx) => endJob g idx 0 (cipherFields x.sheet (some k) none) w
        | none => w))
  ∧ (∀ (g n : Nat) (bs : Bytes) (r : Ring) (j : Job) (x : SA) (s u : State), s.Starts g 0x42 r j u →
      u.namedSheet r.sheet (eN j.first 8 2) = some n → tblGet u.sas (saNumber j.first) = some x → x.sheet = n →
      x.state ≠ .retiring → eN j.first 24 8 % 64 = 0 → u.drbgRuns = true →
      exec (.keyRekey g (.ok bs)) s = .next (
        let id := saNumber j.first
        let w := sheetRead r.sheet (eN j.first 24 8) 64 u
        let older := w.versionsInUse id (x.key :: x.older)
        let keep : Nat × Nat → Bool := fun k => older.any (fun o => o.version == k.1 / 32)
        let y := { x with
          state := .active
          key := blockKey x.par (x.key.version + 1) bs (eN j.first 20 3)
          older := older
          next := x.next.filter keep
          lease := x.lease.filter keep
          epoch := w.epoch }
        done g j 0 (cipherFields n (some id) (some y)) { w with
          sas := tblPut w.sas id y
          cipher := { w.cipher with cache := w.cipher.cache.filter (· != id) } }))
  ∧ (∀ (g n : Nat) (r : Ring) (j : Job) (x : SA) (s u : State), s.Starts g 0x43 r j u →
      u.namedSheet r.sheet (eN j.first 8 2) = some n → tblGet u.sas (saNumber j.first) = some x → x.sheet = n →
      exec (.saQuery g) s = .next (done g j 0 (cipherFields n (some (saNumber j.first)) (some x)
        ++ [(24, 8, x.highest), (32, 4, u.saUsers (saNumber j.first)), (36, 4, x.par.toNat)]) u))
  ∧ (∀ (g n : Nat) (bs : Bytes) (r : Ring) (j : Job) (s u : State), s.Starts g 0x44 r j u →
      u.namedSheet r.sheet (eN j.first 8 2) = some n → eN j.first 24 8 % 64 = 0 → eN j.first 32 4 % 64 = 0 → 64 ≤ eN j.first 32 4 →
      eN j.first 32 4 ≤ 4096 → u.drbgRuns = true →
      exec (.entropyRead g (.ok bs)) s = .next (
        let d := drawBytes (eN j.first 32 4 / 8) (generate u)
        done g j 0 (cipherFields n none none) (sheetWrite r.sheet (eN j.first 24 8) d.1 d.2)))

/-- Entropy and keys. A noise source that fails leaves the other to reseed (ES_SINGLE) or stops the DRBG, with the event ENTROPY
(R321); a reseed restarts both limits (R321); an error of the key cache is recorded and reloaded (R325); the end of the re-wrap puts
every SA at the new EPOCH and destroys the old wrapping keys (R323). -/
def Obligations.EntropyAndKeysComplete : Prop :=
  (∀ (k : Nat) (s : State), s.cipher.sources.contains k = true → s.cipher.sources.filter (· != k) = [] →
      exec (.noiseSourceFail k) s = .next (raise CPH_EVENT_ENTROPY
        ((logFault 0x08 k false false false { s with cipher := { s.cipher with sources := [] } }).wr CPH_STATUS_DRBG_OK 0)))
  ∧ (∀ (k : Nat) (s u : State), s.cipher.sources.contains k = true → s.cipher.sources.filter (· != k) ≠ [] →
      u = (logFault 0x08 k false false false { s with
        cipher := { s.cipher with sources := s.cipher.sources.filter (· != k) } }).wr CPH_STATUS_ES_SINGLE 1 →
      exec (.noiseSourceFail k) s
        = .next (raise CPH_EVENT_ENTROPY { u with cipher := { u.cipher with generated := 0, reseededAt := u.ns } }))
  ∧ (∀ s : State, s.cipher.sources ≠ [] →
      exec .drbgReseed s = .next { s with cipher := { s.cipher with generated := 0, reseededAt := s.ns } })
  ∧ (∀ s : State, exec .keyCacheError s = .next (raise CPH_EVENT_KC_FAULT (logFault 0x07 0xA3 false false false s)))
  ∧ (∀ s : State, s.bit CPH_STATUS_REWRAP = true → exec .rewrapDone s = .next (
      let w := { s with
        sas := tblMap (fun _ (x : SA) => { x with epoch := s.epoch }) s.sas
        cipher := { s.cipher with wrapKeys := s.cipher.wrapKeys.filter (fun k => k.1 == s.epoch) } }
      raise CPH_EVENT_EPOCH (w.wr CPH_STATUS_REWRAP 0)))


/-! ## Ralush messaging (chapters 13, 14) -/

/-- Connection commands. CONN_OPEN creates an ARMED connection with its two SA records (R357, R358); CONN_CLOSE refuses what has not
started, and waits (R355); the end of the drain sends CLOSE and frees it (R355); CONN_QUERY reports (Table 13.6); CONN_PATH sets a path
(R359); CC_QUERY reports rates and alpha (Table 14.5). -/
def Obligations.ConnectionCommandsComplete : Prop :=
  (∀ (g pick n sr rr : Nat) (bs : Bytes) (r : Ring) (j : Job) (s u : State), s.bit RLT_STATUS_READY = true → s.Starts g 0x50 r j u →
      u.namedSheet r.sheet (eN j.first 8 2) = some n → eBits j.first 10 1 3 ≤ 4 → eN j.first 20 2 ≠ 0 → eN j.first 22 2 ≠ 0 →
      eN j.first 24 8 % 64 = 0 → u.messageRing n (eN j.first 16 2) = some sr → u.messageRing n (eN j.first 18 2) = some rr →
      u.usage n 4 < u.limit n 4 →
      exec (.connOpen g pick (.ok bs)) s = .next (
        let v := sheetRead r.sheet (eN j.first 24 8) 128 u
        let c := v.freeConnNo pick
        let t := v.setConn c (v.newConn n sr rr j.first)
        let tx := connSa n (v.connGen c) v.epoch false bs ((bs.drop 64).take 3)
        let rx := connSa n (v.connGen c) v.epoch true (bs.drop 32) []
        let w := { t with sas := tblPut (tblPut t.sas (0x40000 + 2 * c) tx) (0x40001 + 2 * c) rx }
        done g j 0 (connFields n (w.connHandle c) 1 0) w))
  ∧ (∀ (g n c : Nat) (r : Ring) (j : Job) (x y : Conn) (s u : State), s.bit RLT_STATUS_READY = true → s.Starts g 0x51 r j u →
      u.namedSheet r.sheet (eN j.first 8 2) = some n → u.namedConn n (eN j.first 12 4) = .inl (c, x) →
      y = { x with closers := x.closers ++ [(g, j.idx)] } →
      exec (.connClose g) s
        = .next (flushRing g (if x.state = .closing then u.setConn c y else closeConn c y (u.setConn c y))))
  ∧ (∀ (c : Nat) (x : Conn) (s : State), s.conn? c = some x → x.state = .closing → x.sends = [] →
      exec (.closeDrainEnd c) s
        = .next (freeConn c (sendClose c 0 (endAllRecvs c 0x0502 (dropStalled c (fun _ => true) s)))))
  ∧ (∀ (g n c : Nat) (r : Ring) (j : Job) (x : Conn) (s u : State), s.bit RLT_STATUS_READY = true → s.Starts g 0x52 r j u →
      u.namedSheet r.sheet (eN j.first 8 2) = some n → u.namedConn n (eN j.first 12 4) = .inl (c, x) →
      exec (.connQuery g) s = .next (done g j 0 (connFields n (eN j.first 12 4) x.state.code x.cause
        ++ [(16, 2, pathMask (fun p => (x.path p).enabled)), (18, 2, pathMask (fun p => (x.path p).enabled && !(x.path p).up)),
          (24, 4, x.nextMsn.toNat), (28, 4, x.msnDone.toNat)]
        ++ (List.range 16).map (fun p => (32 + 2 * p, 2, (x.path p).bucket))) u))
  ∧ (∀ (g n c : Nat) (r : Ring) (j : Job) (x : Conn) (s u : State), s.bit RLT_STATUS_READY = true → s.Starts g 0x53 r j u →
      u.namedSheet r.sheet (eN j.first 8 2) = some n → u.namedConn n (eN j.first 12 4) = .inl (c, x) → eN j.first 18 2 ≠ 0 →
      (eBits j.first 16 4 1 = 1 →
        ∀ k, k < 16 → k ≠ eBits j.first 16 0 4 → (x.path k).enabled = true → (x.path k).sport ≠ eN j.first 18 2) →
      u.pathContract n (eN j.first 20 2) = none →
      (eBits j.first 16 4 1 = 1 ∨ (x.path (eBits j.first 16 0 4)).enabled = false
        ∨ ∃ k, k < 16 ∧ k ≠ eBits j.first 16 0 4 ∧ (x.path k).enabled = true) →
      exec (.connPath g) s = .next (done g j 0 (connFields n (eN j.first 12 4) x.state.code x.cause)
        (u.setConn c (x.withPath (eBits j.first 16 0 4) (u.setPath (x.path (eBits j.first 16 0 4)) (eBits j.first 16 4 1 == 1)
          (eN j.first 18 2) (if eN j.first 20 2 = 0xFFFF then none else some (eN j.first 20 2)))))))
  ∧ (∀ (g n c : Nat) (r : Ring) (j : Job) (x : Conn) (s u : State), s.bit RLT_STATUS_READY = true → s.Starts g 0x5C r j u →
      u.namedSheet r.sheet (eN j.first 8 2) = some n → u.namedConn n (eN j.first 12 4) = .inl (c, x) →
      exec (.ccQuery g) s = .next (
        let path := fun (i : Nat) => x.path (8 * eBits j.first 10 0 1 + i)
        done g j 0 ([(8, 2, n), (12, 4, eN j.first 12 4)]
          ++ (List.range 8).map (fun i => (16 + 4 * i, 4, if (path i).enabled then (path i).rate / 1000000 else 0))
          ++ (List.range 8).map (fun i => (48 + i, 1, min 255 ((path i).alpha / 4)))) u))

/-- Sending. A SEND on an OPEN connection with room and a path starts a message with its packet 0 (R361, R363); a release sends the
packet that waits first (R361, R394); a path without a contract gains INC_RATE (R392); a retry queues the packets concerned again
(R365, R382); a poll is sent while tries remain (R367). A probe goes out on path 0 of an ARMED connection or on a DOWN path (R354, R360);
OPEN_MS ends an ARMED one with cause 3 (R354); a path whose packets are not seen goes DOWN (R360); with every enabled path DOWN an OPEN
connection ends with cause 5 (R354). -/
def Obligations.SendingAndPathTimersComplete : Prop :=
  (∀ (g c path : Nat) (data : MemResult) (bs : Bytes) (r : Ring) (j : Job) (x : Conn) (m : SendMsg) (s u : State),
      s.startable g isSend = some (r, j) → s.messageRefusal g r j true = .inl (c, x) → x.state = .opened → s.releasePath x = some path →
      x.sendCount < 64 → x.queue = [] → s.dataStopped x path = false → beginJob g isSend (some .msg) s = (some (r, j), u) →
      m = ⟨x.nextMsn, some (g, j.idx), eN j.first 12 4, 0, 0, 0, [], none, [], eN j.first 16 8⟩ →
      payloadFor x.mtu m 0 data = .inl bs →
      exec (.msgSend g data) s = .next (startMessage c path m bs (readPayload x m 0 u)))
  ∧ (∀ (c path : Nat) (data : MemResult) (bs : Bytes) (k : OutPkt) (rest : List OutPkt) (x : Conn) (m : SendMsg) (s : State),
      s.conn? c = some x → x.queue = k :: rest → s.releasePath x = some path → x.active = true →
      s.dataStopped x path = false → x.sending k.msn = some m → payloadFor x.mtu m k.idx data = .inl bs →
      exec (.pacingRelease c data) s
        = .next (releaseData c path m k.idx k.retx bs (readPayload x m k.idx (s.setConn c { x with queue := rest }))))
  ∧ (∀ (c path : Nat) (x : Conn) (s : State), s.conn? c = some x → (x.path path).enabled = true → (x.path path).contract = none →
      exec (.rateIncrease c path) s = .next (s.setConn c (x.withPath path { x.path path with
        rate := min (s.rd RLT_CC_MAX_RATE_MAX) ((x.path path).rate / 1000000 + s.rd RLT_CC_INC_RATE_INC) * 1000000
        incAt := s.ns })))
  ∧ (∀ (c msn : Nat) (x : Conn) (m : SendMsg) (s : State), s.conn? c = some x → x.sending (BitVec.ofNat 32 msn) = some m →
      exec (.rnrRetryExpiry c msn) s = .next (queueRetx c (BitVec.ofNat 32 msn) m.retry
        (withSend c (BitVec.ofNat 32 msn) (fun w => { w with retry := [] }) s)))
  ∧ (∀ (c msn : Nat) (x : Conn) (m : SendMsg) (s : State), s.conn? c = some x → x.sending (BitVec.ofNat 32 msn) = some m →
      x.active = true → x.queue.any (fun q => q.msn == BitVec.ofNat 32 msn) = false → m.retry = [] →
      m.polls < s.rd RLT_TIMERS_POLL_TRIES →
      exec (.pollTimerExpiry c msn) s = .next (
        let t := withSend c (BitVec.ofNat 32 msn) (fun w => { w with polls := w.polls + 1 }) s
        sendOwn c .poll x.nextPath msn (beBytes 4 msn) (t.count RLT_POLL 1)))
  ∧ (∀ (c path : Nat) (x : Conn) (s : State), s.conn? c = some x →
      (x.state = .armed ∧ path = 0 ∨ x.active = true ∧ (x.path path).enabled = true ∧ (x.path path).up = false) →
      exec (.probeTimer c path) s = .next (sendOwn c .probe path 0 (beBytes 8 s.dshort.toNat) s))
  ∧ (∀ (c : Nat) (x : Conn) (s : State), s.conn? c = some x → x.state = .armed → exec (.openTimeout c) s = .next (connError c 3 s))
  ∧ (∀ (c path : Nat) (x : Conn) (s : State), s.conn? c = some x → x.active = true → (x.path path).enabled = true →
      (x.path path).up = true → (x.path path).psn ≠ (x.path path).seen + 1 →
      exec (.pathDownTimeout c path) s = .next (s.setConn c (x.withPath path { x.path path with up := false })))
  ∧ (∀ (c : Nat) (x : Conn) (s : State), s.conn? c = some x → x.state = .opened →
      (∀ t ∈ x.paths, t.2.enabled = true → t.2.up = false) → exec (.pathsDownTimeout c) s = .next (connError c 5 s))

/-- The peer's control packets that name a connection which accepts them. ACK completes the SENDs below MSN_DONE (R365, R392); NAK with
CODE 2 ends its SEND with 0x0304 (R365); REREQ queues the packets it lists (R366); PROBE is answered with PROBE_ACK and opens an ARMED
connection (R354); PROBE_ACK opens an ARMED connection (R354) and takes a DOWN path up again
with its rate (R360); CLOSE takes an ARMED or OPEN one to ERROR with cause 2 (R354). -/
def Obligations.ControlPacketsComplete : Prop :=
  (∀ (c : Nat) (x y : Conn) (h : RltHdr) (s u v : State), s.Hands .ack c x h u → v = restartPolls c (fun _ => true) u →
      v.conn? c = some y →
      exec .ackReceive s = .next (
        let m := v.marksOf (y.path h.path) (BitVec.ofNat 32 (word32 h.body 4)) (BitVec.ofNat 32 (word32 h.body 8))
        let w := v.setConn c (y.withPath h.path m.1)
        ackSends c (BitVec.ofNat 32 (word32 h.body 0)) (if m.2 then w.count RLT_RATE_CUT 1 else w)))
  ∧ (∀ (c : Nat) (x : Conn) (h : RltHdr) (m : SendMsg) (s u : State), s.Hands .nak c x h u →
      x.sending (BitVec.ofNat 32 (word32 h.body 0)) = some m → byteAt h.body 4 = 2 →
      exec .nakReceive s = .next (endSend c (BitVec.ofNat 32 (word32 h.body 0)) 0x0304
        (withSend c (BitVec.ofNat 32 (word32 h.body 0)) (fun k => { k with nak := 2, polls := 0 }) u)))
  ∧ (∀ (c : Nat) (x : Conn) (h : RltHdr) (m : SendMsg) (s u : State), s.Hands .rereq c x h u →
      x.sending (BitVec.ofNat 32 (word32 h.body 0)) = some m →
      exec .rereqReceive s = .next (queueRetx c (BitVec.ofNat 32 (word32 h.body 0)) (rereqIndices (packetsOf x.mtu m.len) h.body)
        (restartPolls c (fun k => k.msn == BitVec.ofNat 32 (word32 h.body 0)) u)))
  ∧ (∀ (c : Nat) (x : Conn) (h : RltHdr) (s u : State), s.Hands .probe c x h u →
      exec .probeReceive s
        = .next (openConn c (sendAnswer c .probeAck h.path 0 (h.body.take 8 ++ beBytes 8 u.dshort.toNat) u)))
  ∧ (∀ (c : Nat) (x y : Conn) (h : RltHdr) (s u : State), s.Hands .probeAck c x h u → u.conn? c = some y → y.state = .armed →
      exec .probeAckReceive s = .next (openConn c u))
  ∧ (∀ (c : Nat) (x y : Conn) (h : RltHdr) (s u : State), s.Hands .probeAck c x h u → u.conn? c = some y → y.state ≠ .armed →
      (y.path h.path).enabled = true → (y.path h.path).up = false →
      exec .probeAckReceive s = .next (u.setConn c (y.withPath h.path (u.returnedRate (y.path h.path)))))
  ∧ (∀ (c : Nat) (x : Conn) (h : RltHdr) (s u : State), s.Hands .close c x h u → (x.state = .armed ∨ x.state = .opened) →
      exec .closeReceive s = .next (connError c 2 u))

/-- Receiving. A RECV that passes its checks is bound to the lowest unbound MSN (R363, R378); a DATA packet of an accepted connection is
marked, handled by Table 13.8 and acknowledged with every eighth (R364, R368); a full message ends its RECV with an ACK (R364); a poll
of a message that has ended draws an ACK (R367); a reassembly timer asks for what is missing (R366); an ACK timer answers (R368); a
packet of a wrong VER or TYPE is discarded and counted (R349). -/
def Obligations.MessageReceivingCompletes : Prop :=
  (∀ (g c : Nat) (r : Ring) (j : Job) (x : Conn) (s : State), s.startable g isRecv = some (r, j) →
      s.messageRefusal g r j false = .inl (c, x) → (x.state = .armed ∨ x.state = .opened) →
      s.regionRefusal r.sheet (eN j.first 16 4) (eN j.first 24 8) (eN j.first 12 4) = none →
      exec (.msgRecv g) s = .next (
        let m : RecvMsg := ⟨x.freeMsn, some (g, j.idx), eN j.first 12 4, eN j.first 16 4, eN j.first 24 8, 0, none, 0, 0, 0, 0, 0,
          false, false, false, none, []⟩
        (s.setConn c { x with recvs := x.recvs ++ [m] }).setRing g { r with jobs := markJob j.idx .running r.jobs }))
  ∧ (∀ (absent : List Nat) (c : Nat) (p : Packet) (x : Conn) (h : RltHdr) (s : State), s.frontRlt = some p → h = parseRlt p.bytes →
      h.ver = 1 → h.type = 1 → s.handled h.dconn = some (c, x) → p.cipher.status = 2 → x.state ≠ .error → s.slotLacks c h = false →
      exec (.dataReceive absent) s
        = .next (ackEight c h.path (arriveData c absent p (postCapsule c h.msn (markRx c h s)))))
  ∧ (∀ (c msn : Nat) (x : Conn) (m : RecvMsg) (s : State), s.conn? c = some x → x.bound (BitVec.ofNat 32 msn) = some m →
      m.full = true → m.ended = none → x.active = true → m.job ≠ none →
      exec (.recvComplete c msn) s = .next (sendAck c m.lastPath (endRecv c (BitVec.ofNat 32 msn) 0 s)))
  ∧ (∀ (c : Nat) (x : Conn) (h : RltHdr) (s u : State), s.Hands .poll c x h u →
      x.stalled ≠ [] ∨ before (BitVec.ofNat 32 (word32 h.body 0)) x.msnDone = true →
      exec .pollReceive s = .next (sendAck c h.path u))
  ∧ (∀ (c msn : Nat) (x : Conn) (m : RecvMsg) (s : State), s.conn? c = some x → x.bound (BitVec.ofNat 32 msn) = some m →
      m.timer = true → m.ended = none → x.stalledMsg (BitVec.ofNat 32 msn) = false → m.full = false →
      m.tries + 1 < s.rd RLT_TIMERS_REASM_TRIES →
      exec (.reasmTimerExpiry c msn) s = .next (sendRereq c m.lastPath (BitVec.ofNat 32 msn) m.missing
        (withRecv c (BitVec.ofNat 32 msn) (fun w => { w with tries := w.tries + 1 }) s)))
  ∧ (∀ (c path : Nat) (x : Conn) (s : State), s.conn? c = some x → 0 < (x.rxPath path).unacked → x.state ≠ .error →
      exec (.ackTimerExpiry c path) s = .next (sendAck c path s))
  ∧ (∀ (p : Packet) (s : State), s.frontRlt = some p →
      (parseRlt p.bytes).ver ≠ 1 ∨ (parseRlt p.bytes).type = 0 ∨ 9 ≤ (parseRlt p.bytes).type →
      exec .ralushMalformedDiscard s = .next (dropRlt RLT_BAD_HDR p s))

/-- Regions and on-demand pages. REG_OPEN creates an ACTIVE region (R373, R377); REG_REVOKE takes the fence and waits (R385); the end of
the last message in progress frees the region (R385); REG_MODE sets its MODE (R384) and REG_QUERY reports (Table 14.5); a Page Request
without a response fails its messages (R383). -/
def Obligations.RegionCommandsComplete : Prop :=
  (∀ (g pick n : Nat) (r : Ring) (j : Job) (s u : State), s.bit RLT_STATUS_READY = true → s.Starts g 0x58 r j u →
      u.namedSheet r.sheet (eN j.first 8 2) = some n → eN j.first 16 8 % 4096 = 0 → eN j.first 24 8 % 4096 = 0 →
      4096 ≤ eN j.first 24 8 → eN j.first 24 8 ≤ 2 ^ 40 → eBits j.first 10 0 2 ≠ 3 → u.modeServed n (eBits j.first 10 0 2) = true →
      u.portRegions (u.sheetPort n) < 16777216 / u.endpoints.length →
      exec (.regOpen g pick) s = .next (
        let k := u.freeRegionNo pick
        let t := u.setRegion k ⟨false, n, eBits j.first 10 0 2, eN j.first 16 8, eN j.first 24 8, none, 0, 0, []⟩
        done g j 0 (regionFields n (t.regionKey k) (eBits j.first 10 0 2) 1) t))
  ∧ (∀ (g n k : Nat) (r : Ring) (j : Job) (x : Region) (s u : State), s.bit RLT_STATUS_READY = true → s.Starts g 0x59 r j u →
      u.namedSheet r.sheet (eN j.first 8 2) = some n → u.namedRegion n (eN j.first 12 4) = .inl (k, x) → x.draining = false →
      exec (.regRevoke g) s = .next (
        let t := withdrawBound (eN j.first 12 4) (u.inProgress (eN j.first 12 4)) u
        flushRing g (t.setRegion k { x with
          draining := true
          revoker := some (g, j.idx)
          fenced := u.inProgress (eN j.first 12 4)
          withdrawn := t.withdrawnCount (eN j.first 12 4) })))
  ∧ (∀ (k : Nat) (x : Region) (s : State), tblGet s.rlt.regions k = some x → x.draining = true → x.fenced = [] →
      (s.sheet x.sheet).state ≠ .disabling →
      exec (.revokeDone k) s = .next (
        let t := raise RLT_MEM_EVENT_REVOKE_DONE (freeRegion k s)
        match x.revoker with
        | none => t
        | some (g, idx) => endJob g idx 0 (regionFields x.sheet (s.regionKey k) x.mode 0
            ++ [(16, 4, x.completed), (20, 4, x.withdrawn)]) t))
  ∧ (∀ (g n k : Nat) (r : Ring) (j : Job) (x : Region) (s u : State), s.bit RLT_STATUS_READY = true → s.Starts g 0x5A r j u →
      u.namedSheet r.sheet (eN j.first 8 2) = some n → u.namedRegion n (eN j.first 12 4) = .inl (k, x) → eBits j.first 10 0 2 ≠ 3 →
      x.draining = false → u.modeServed n (eBits j.first 10 0 2) = true →
      exec (.regMode g) s = .next (done g j 0 (regionFields n (eN j.first 12 4) (eBits j.first 10 0 2) 1)
        (u.setRegion k { x with mode := eBits j.first 10 0 2 })))
  ∧ (∀ (g n k : Nat) (r : Ring) (j : Job) (x : Region) (s u : State), s.bit RLT_STATUS_READY = true → s.Starts g 0x5B r j u →
      u.namedSheet r.sheet (eN j.first 8 2) = some n → u.namedRegion n (eN j.first 12 4) = .inl (k, x) →
      exec (.regQuery g) s = .next (done g j 0 (regionFields n (eN j.first 12 4) x.mode x.code
        ++ [(16, 8, x.base), (24, 8, x.len), (32, 4, (u.inProgress (eN j.first 12 4)).length)]) u))
  ∧ (∀ (port pf pasid page : Nat) (q : PageReq) (s : State), s.pageReq port pf pasid page = some q →
      exec (.odpWaitTimeout port pf pasid page) s = .next (resumeStalls [] (failRequest q 0x0702 (dropRequest q s))))


/-! ## Presented storage (chapter 15) -/

/-- Controllers. CTRL_CREATE makes a DISABLED controller with its admin queue (R399, R400); CTRL_SET enables, shuts down or resets it
(R403), and each change completes when its end is reached (R403); CTRL_DESTROY frees a DISABLED one (R403). -/
def Obligations.ControllersComplete : Prop :=
  (∀ (g pick sq cq n : Nat) (r : Ring) (j : Job) (s u : State), s.Starts g 0x60 r j u →
      u.namedSheet r.sheet (eN j.first 8 2) = some n → u.ctrlFieldsOk n j.first = true →
      u.rangeUsed n (eN j.first 18 2) (eN j.first 17 1 + 1) = false → u.usage n 5 < u.limit n 5 → u.usage n 0 + 2 ≤ u.limit n 0 →
      exec (.ctrlCreate g pick sq cq) s = .next (
        let k := u.freeCtrlNo pick
        let vec := eBits j.first 21 0 13
        let a := u.freeGlobal sq
        let t := u.setRing a (storageQueue n (eN j.first 18 2) 8 (eBits j.first 40 0 4 + 4) vec (eN j.first 24 8) .closed)
        let b := t.freeGlobal cq
        let w := t.setRing b (storageQueue n (eN j.first 18 2 + 1) 9 (eBits j.first 41 0 4 + 4) vec (eN j.first 32 8) .closed)
        let x := w.setCtrl k (newCtrl n (eN j.first 18 2) (eN j.first 17 1 + 1) a b vec)
        done g j 0 (stoFields x n (some k) none) x))
  ∧ (∀ (g n k : Nat) (r : Ring) (j : Job) (c : Ctrl) (s u : State), s.bit STO_STATUS_READY = true → s.Starts g 0x61 r j u →
      u.namedSheet r.sheet (eN j.first 8 2) = some n → u.namedCtrl n (ctrlNo j.first) = .inl (k, c) → eN j.first 16 1 = 1 →
      c.state = .disabled → ((u.sheet c.sheet).state = .active ∨ (u.sheet c.sheet).state = .debug) →
      exec (.ctrlEnable g) s = .next (
        let t := (c.rings.foldl (fun t q => resetQueue q .running t) u).setCtrl k { c with state := .ready }
        done g j 0 (stoFields t n (some k) none) t))
  ∧ (∀ (g n k : Nat) (r : Ring) (j : Job) (c : Ctrl) (s u : State), s.Starts g 0x61 r j u →
      u.namedSheet r.sheet (eN j.first 8 2) = some n → u.namedCtrl n (ctrlNo j.first) = .inl (k, c) → c.state = .ready →
      (eN j.first 16 1 = 2 → exec (.ctrlShutdownNormal g) s
        = .next (flushRing g (u.setCtrl k { c with state := .shutting, normal := true, setter := some (g, j.idx) })))
      ∧ (eN j.first 16 1 = 3 → exec (.ctrlShutdownAbrupt g) s
        = .next (flushRing g (u.setCtrl k { c with state := .shutting, normal := false, setter := some (g, j.idx) }))))
  ∧ (∀ (g n k : Nat) (r : Ring) (j : Job) (c d : Ctrl) (s u : State), s.Starts g 0x61 r j u →
      u.namedSheet r.sheet (eN j.first 8 2) = some n → u.namedCtrl n (ctrlNo j.first) = .inl (k, c) → eN j.first 16 1 = 4 →
      (c.state = .ready ∨ c.state = .shutting ∨ c.state = .shut) → (resetCtrl k u).ctrl? k = some d →
      exec (.ctrlReset g) s = .next (flushRing g ((resetCtrl k u).setCtrl k { d with setter := some (g, j.idx) })))
  ∧ (∀ (k : Nat) (c : Ctrl) (s : State), s.ctrl? k = some c → c.state = .shutting → s.startedCmds k c = [] →
      (c.normal = false ∨ s.ownDirty k c = false) →
      exec (.ctrlShutdownDone k) s = .next (endSetter k 0 (abandonCmds k (s.setCtrl k { c with state := .shut, aers := [] }))))
  ∧ (∀ (k : Nat) (c : Ctrl) (s : State), s.ctrl? k = some c → c.state = .resetting → s.ctrlCmds k = [] →
      Answers (.ctrlResetDone k) s (fun t => ∃ (v : State) (d : Ctrl), t = endSetter k 0 (resolveShrinks c.sheet v) ∧ v.ctrl? k = some d
        ∧ d.state = .disabled ∧ d.sheet = c.sheet ∧ d.attach = c.attach ∧ d.log = c.log ∧ d.feats = [] ∧ d.ps = 0 ∧ d.aers = []
        ∧ (∀ q ∈ d.sqs, q.1 = 0) ∧ (∀ q ∈ d.cqs, q.1 = 0) ∧ v.regs = s.regs ∧ v.mem = s.mem ∧ v.sheets = s.sheets
        ∧ v.contracts = s.contracts ∧ v.sto = s.sto))
  ∧ (∀ (g n k : Nat) (r : Ring) (j : Job) (c : Ctrl) (s u : State), s.Starts g 0x62 r j u →
      u.namedSheet r.sheet (eN j.first 8 2) = some n → u.namedCtrl n (ctrlNo j.first) = .inl (k, c) → c.state = .disabled →
      exec (.ctrlDestroy g) s = .next (let t := freeCtrl k u; done g j 0 (stoFields t n (some k) none) t))

/-- Volumes and attachments. VOL_CREATE makes a volume that its backend holds (R398, R414, R415, R417); VOL_DESTROY removes one that
nothing presents, with its dirty blocks (R418); VOL_BIND gives a REMOTE volume another connection (R410); NS_ATTACH presents one under
a free NSID (R399); NS_DETACH waits for its commands (R418); STO_QUERY reports. -/
def Obligations.VolumesComplete : Prop :=
  (∀ (g pick n : Nat) (ident : Identified) (r : Ring) (j : Job) (out inn : Option Nat) (s u : State), s.Starts g 0x63 r j u →
      u.managerSheet r.sheet = true → u.namedSheet r.sheet (eN j.first 8 2) = some n → eN j.first 24 8 ≠ 0 →
      eN j.first 24 8 ≤ 2 ^ 48 → eBits j.first 16 1 2 ≠ 3 → u.timed (eBits j.first 17 0 3) = false →
      u.volContract r.sheet (eN j.first 52 2) 6 = .inl out → u.volContract r.sheet (eN j.first 54 2) 7 = .inl inn →
      u.portVols (u.sheetPortD r.sheet) < 16384 / u.endpoints.length →
      u.backendRefusal (u.sheetPortD r.sheet) j.first ident = none →
      exec (.volCreate g pick ident) s = .next (
        let v := u.freeVol pick
        let t := u.setVol v (newVolume u (u.sheetPortD r.sheet) out inn j.first)
        done g j 0 (stoFields t n none (some v)) t))
  ∧ (∀ (g n v : Nat) (r : Ring) (j : Job) (x : Volume) (s u : State), s.Starts g 0x64 r j u → u.managerSheet r.sheet = true →
      u.namedSheet r.sheet (eN j.first 8 2) = some n → u.namedVol r.sheet (volNo j.first) = .inl (v, x) → u.attachments v = [] →
      exec (.volDestroy g) s = .next (
        let t := dropCache v u
        let w := { t with sto := { t.sto with
          vols := tblDel t.sto.vols v
          reqs := t.sto.reqs.filter (fun b => b.2.vol != v) } }
        done g j 0 [(8, 2, n), (10, 2, 0xFFFF), (12, 4, v), (24, 8, (u.dirtyBlocks v).length), (56, 8, w.dshort.toNat)] w))
  ∧ (∀ (g n v : Nat) (r : Ring) (j : Job) (x : Volume) (s u : State), s.Starts g 0x65 r j u → u.managerSheet r.sheet = true →
      u.namedSheet r.sheet (eN j.first 8 2) = some n → u.namedVol r.sheet (volNo j.first) = .inl (v, x) → x.remote = true →
      u.volConn x.port (eN j.first 48 4) = true →
      exec (.volBind g) s = .next (
        let t := u.setVol v { x with conn := eN j.first 48 4 % 2 ^ 28 }
        done g j 0 (stoFields t n none (some v)) t))
  ∧ (∀ (g n k v : Nat) (r : Ring) (j : Job) (c : Ctrl) (x : Volume) (s u : State), s.Starts g 0x66 r j u →
      u.managerSheet r.sheet = true → u.namedSheet r.sheet (eN j.first 8 2) = some n →
      u.portCtrl r.sheet (ctrlNo j.first) = .inl (k, c) → u.namedVol r.sheet (volNo j.first) = .inl (v, x) →
      1 ≤ eN j.first 20 4 → eN j.first 20 4 ≤ 256 → tblGet c.attach (eN j.first 20 4) = none →
      (((u.attachments v).map (fun a => a.1)).dedup.length < 16 ∨ (u.attachments v).any (fun a => a.1 == k) = true) →
      exec (.nsAttach g) s = .next (
        let t := u.setCtrl k { c with attach := tblPut c.attach (eN j.first 20 4) ⟨v, eBits j.first 16 0 1 == 1, false, none⟩ }
        done g j 0 (stoFields t n (some k) (some v)) t))
  ∧ (∀ (g n k : Nat) (r : Ring) (j : Job) (c : Ctrl) (a : Attach) (s u : State), s.Starts g 0x67 r j u →
      u.managerSheet r.sheet = true → u.namedSheet r.sheet (eN j.first 8 2) = some n →
      u.portCtrl r.sheet (ctrlNo j.first) = .inl (k, c) → tblGet c.attach (eN j.first 20 4) = some a → a.waiter = none →
      exec (.nsDetach g) s = .next (flushRing g (detachDone k (eN j.first 20 4)
        (u.setCtrl k { c with attach := tblPut c.attach (eN j.first 20 4) { a with waiter := some (g, j.idx) } }))))
  ∧ (∀ (g n k : Nat) (r : Ring) (j : Job) (c : Ctrl) (s u : State), s.Starts g 0x68 r j u →
      u.namedSheet r.sheet (eN j.first 8 2) = some n → eBits j.first 16 0 1 = 0 → u.namedCtrl n (ctrlNo j.first) = .inl (k, c) →
      exec (.stoQuery g) s = .next (done g j 0 (stoFields u n (some k) none) u))
  ∧ (∀ (g n v : Nat) (r : Ring) (j : Job) (x : Volume) (s u : State), s.Starts g 0x68 r j u → u.managerSheet r.sheet = true →
      u.namedSheet r.sheet (eN j.first 8 2) = some n → eBits j.first 16 0 1 = 1 → u.namedVol r.sheet (volNo j.first) = .inl (v, x) →
      exec (.stoQuery g) s = .next (done g j 0 (stoFields u n none (some v)) u))

/-- Presented I/O commands. Entries are fetched at most eight at a time (R401); arbitration starts a command (R404); stalled commands
that nothing holds proceed (R406); a Read of cached blocks places them (R407); a Write that is not cached goes to the backend (R407);
Flush completes when nothing waits (R407); Write Zeroes and Deallocate go to the backend, and a Dataset Management without Deallocate
does nothing (R399); completions, timeouts and capsules end requests (R407, R408, R410, R415); dirty blocks are written back (R407). -/
def Obligations.PresentedIoCompletes : Prop :=
  (∀ (n q : Nat) (es : List Entry) (c : Ctrl) (r : Ring) (s : State), s.ctrl? n = some c → c.fetches q = true →
      (tblGet c.sqs q).bind (fun k => s.ring? k.ring) = some r →
      exec (.sqFetch n q es) s = .next (
        let t := (es.take (min 8 (64 - r.fetch.toNat % 64))).foldl (fun t e => takeSqe n q e t) s
        sheetRead c.sheet (r.base + r.fetch.toNat % r.size * 64) (64 * t.fetchedSince c q r) t))
  ∧ (∀ (n q i : Nat) (ranges : List (Nat × Nat)) (c c' : Ctrl) (m : NvmeCmd) (s t : State), s.chooseCtrl = some (n, t) →
      t.ctrl? n = some c → t.chooseSq n c = some (q, c') → t.oldest n q = some (i, m) →
      exec (.storageCommandStart ranges) s = .next (startCmd i m ranges (
        let u := t.setCtrl n c'
        if q ≠ 0 ∧ nvOp m.sqe = 9 then sheetRead c.sheet (eN m.sqe 24 8) (16 * (eN m.sqe 40 1 + 1)) u else u)))
  ∧ (∀ (l : List (Nat × NvmeCmd)) (s : State),
      l = sortBy (fun x => x.2.order) (s.sto.cmds.filter (fun x => x.2.phase == .stalled)) →
      exec .rangeLockRelease s
        = .next (l.foldl (fun t x => if t.locked x.2 then t else t.setCmd x.1 { x.2 with phase := .started }) s))
  ∧ (∀ (i vol : Nat) (pages : List Nat) (a : Attach) (x y : Volume) (m : NvmeCmd) (s : State), s.ioStarted i 2 = some m →
      s.namespace? m = .inl (vol, a, x) → blocksRefused x m.sqe true = none →
      prpPieces m.sqe pages (nvBlocks m.sqe * x.blockSize) ≠ none → s.vol? vol = some y →
      meetsLost (nvSlba m.sqe) (nvBlocks m.sqe) y.lost = false →
      (∀ b ∈ blockRange (nvSlba m.sqe) (nvBlocks m.sqe), s.cached vol b ≠ none) →
      Answers (.nvmeRead i pages []) s (fun t => ∃ k : NvmeCmd, k.pages = pages ∧ k.sqe = m.sqe ∧ k.ctrl = m.ctrl
        ∧ k.got = (blockRange (nvSlba m.sqe) (nvBlocks m.sqe)).filterMap (fun b => (s.cached vol b).map (fun z => (b, z.data)))
        ∧ t = endRead' i k ((s.setCmd i { k with touched := true }).count STO_CACHE_HIT (nvBlocks m.sqe))))
  ∧ (∀ (i vol b : Nat) (rest pages : List Nat) (a : Attach) (x y : Volume) (m : NvmeCmd) (s : State), s.ioStarted i 2 = some m →
      s.namespace? m = .inl (vol, a, x) → blocksRefused x m.sqe true = none →
      prpPieces m.sqe pages (nvBlocks m.sqe * x.blockSize) ≠ none → s.vol? vol = some y →
      meetsLost (nvSlba m.sqe) (nvBlocks m.sqe) y.lost = false →
      (blockRange (nvSlba m.sqe) (nvBlocks m.sqe)).filter (fun b => (s.cached vol b).isNone) = b :: rest →
      s.volDown x = false → s.backendTakes x 0 = true →
      exec (.nvmeRead i pages []) s = .next (
        let got := (blockRange (nvSlba m.sqe) (nvBlocks m.sqe)).filterMap (fun b => (s.cached vol b).map (fun z => (b, z.data)))
        issueBackend vol x (some i) 0 b ((b :: rest).getLastD b - b + 1) [] 0
          ((s.setCmd i { m with got := got, pages := pages }).count STO_CACHE_HIT got.length)))
  ∧ (∀ (i vol : Nat) (pages : List Nat) (l : List (Nat × Nat)) (bs : Bytes) (a : Attach) (x : Volume) (m : NvmeCmd) (s t : State),
      s.ioStarted i 1 = some m → s.namespace? m = .inl (vol, a, x) → blocksRefused x m.sqe true = none → a.readOnly = false →
      prpPieces m.sqe pages (nvBlocks m.sqe * x.blockSize) = some l → bs.length = nvBlocks m.sqe * x.blockSize →
      t = fetchPieces (s.cmdSheet m) m.sqe l s → t.copies x m = 0 → t.volDown x = false → t.backendTakes x 1 = true →
      exec (.nvmeWrite i pages (.ok bs)) s = .next (issueBackend vol x (some i) 1 (nvSlba m.sqe) (nvBlocks m.sqe) bs 0 t))
  ∧ (∀ (i vol k : Nat) (pages : List Nat) (l : List (Nat × Nat)) (bs : Bytes) (a : Attach) (x : Volume) (m : NvmeCmd) (s t u : State),
      s.ioStarted i 1 = some m → s.namespace? m = .inl (vol, a, x) → blocksRefused x m.sqe true = none → a.readOnly = false →
      prpPieces m.sqe pages (nvBlocks m.sqe * x.blockSize) = some l → bs.length = nvBlocks m.sqe * x.blockSize →
      t = fetchPieces (s.cmdSheet m) m.sqe l s → t.copies x m = k + 1 →
      cacheBlocks vol x (k + 1) (nvSlba m.sqe) bs (nvBlocks m.sqe) t = some u →
      exec (.nvmeWrite i pages (.ok bs)) s
        = .next (finishCmd i 0 0 (followDirty (coverLost vol (nvSlba m.sqe) (nvBlocks m.sqe) u))))
  ∧ (∀ (i : Nat) (v : Nat × Attach × Volume) (m : NvmeCmd) (s : State), s.ioStarted i 0 = some m → s.namespace? m = .inl v →
      exec (.nvmeFlush i) s = .next (if s.stillDirty m.waits = [] then finishCmd i 0 0 s else s.setCmd i { m with phase := .running }))
  ∧ (∀ (i vol : Nat) (a : Attach) (x : Volume) (m : NvmeCmd) (s : State), s.ioStarted i 8 = some m →
      s.namespace? m = .inl (vol, a, x) → a.readOnly = false → nvSlba m.sqe + nvBlocks m.sqe ≤ x.blocks → s.volDown x = false →
      s.backendTakes x 3 = true →
      exec (.nvmeWriteZeroes i) s = .next (issueBackend vol x (some i) 3 (nvSlba m.sqe) (nvBlocks m.sqe) [] 0
        (s.setCmd i { m with ranges := [] })))
  ∧ (∀ (i vol : Nat) (r : Nat × Nat) (rest : List (Nat × Nat)) (a : Attach) (x : Volume) (m : NvmeCmd) (s : State),
      s.ioStarted i 9 = some m → s.namespace? m = .inl (vol, a, x) → eBits m.sqe 44 2 1 = 1 → a.readOnly = false →
      m.ranges = r :: rest → (∀ k ∈ m.ranges, k.1 + k.2 ≤ x.blocks) → s.volDown x = false → s.backendTakes x 4 = true →
      exec (.nvmeDatasetManagement i) s = .next (issueBackend vol x (some i) 4 r.1 r.2 [] 0 (s.setCmd i { m with ranges := rest })))
  ∧ (∀ (i : Nat) (v : Nat × Attach × Volume) (m : NvmeCmd) (s : State), s.ioStarted i 9 = some m →
      s.namespace? m = .inl v → eBits m.sqe 44 2 1 = 0 → exec (.nvmeDatasetManagement i) s = .next (finishCmd i 0 0 s))
  ∧ (∀ (k st : Nat) (bs : Bytes) (b : BackReq) (x : Volume) (s : State), tblGet s.sto.reqs k = some b → s.vol? b.vol = some x →
      x.remote = false → b.replied = false →
      exec (.backendCompletion k st bs) s = .next (
        if b.op = 0 ∧ st = 0 then
          (replyBlocks x b.lo bs b.n).foldl (sendReply x k)
            { s with sto := { s.sto with reqs := tblPut s.sto.reqs k { b with replied := true } } }
        else backendDone b x st [] (dropReq k s)))
  ∧ (∀ (k i : Nat) (b : BackReq) (x : Volume) (m : NvmeCmd) (s : State), tblGet s.sto.reqs k = some b →
      ((dropReq k s).count STO_BACKEND_TO 1).vol? b.vol = some x → b.op ≠ 5 → b.cmd = some i →
      ((dropReq k s).count STO_BACKEND_TO 1).cmd? i = some m → m.phase = .running →
      exec (.backendTimeout k) s = .next (finishCmd i 0x21 0 ((dropReq k s).count STO_BACKEND_TO 1)))
  ∧ (∀ (k : Nat) (b : BackReq) (x : Volume) (s t : State), tblGet s.sto.reqs k = some b →
      t = (dropReq k s).count STO_BACKEND_TO 1 → t.vol? b.vol = some x → b.op = 5 →
      exec (.backendTimeout k) s = .next (
        if b.tries ≠ 0 then writeBackFailed b.vol b.lo b.n t
        else if t.volDown x then t
        else issueBackend b.vol x none 5 b.lo b.n b.data 1 t))
  ∧ (∀ (vol lo n : Nat) (x : Volume) (s : State), s.vol? vol = some x → n ≠ 0 →
      (∀ b ∈ blockRange lo n, s.blockDirty vol b = true) → s.requestOver vol lo n = false → s.volDown x = false →
      s.backendTakes x 5 = true →
      exec (.writeBack vol lo n []) s = .next (issueBackend vol x none 5 lo n
        ((blockRange lo n).filterMap (fun b => (s.cached vol b).map (fun k => k.data))).flatten 0 s))
  ∧ (∀ (c req : Nat) (bs : Bytes) (rest : List (Nat × Bytes)) (s t : State), s.sto.inbox = (c, bs) :: rest →
      t = { s with sto := { s.sto with inbox := rest } } → t.requestOf c (ofLe ((bs.drop 12).take 2)) = some req →
      exec .remoteResponse s = .next (endRequest req (ofLe ((bs.drop 14).take 2) / 2)
        (fun b x => replyBlocks x b.lo (bs.drop 16) b.n) t))

/-- Admin commands of a presented controller: queues are created and deleted (R400), identify data and log pages placed (R399, R408),
an abort catches what had no effect (R413), features are set and read (R399, R411), an event request is held (R399), an opcode that is
not implemented is refused (R399). The power state's entry and exit end (R412), and a coalescing timer announces (R402). -/
def Obligations.PresentedAdminCompletes : Prop :=
  (∀ (i pick n : Nat) (m : NvmeCmd) (c : Ctrl) (s : State), s.adminStarted i 5 = some (m, c) → badFields m.sqe = false →
      1 ≤ qidOf m.sqe → qidOf m.sqe ≤ c.nq → tblGet c.cqs (qidOf m.sqe) = none → queueSize m.sqe = some n →
      eN m.sqe 46 2 ≤ (s.sheetFunc c.sheet).msixN → eN m.sqe 24 8 % 4096 = 0 → s.usage c.sheet 0 < s.limit c.sheet 0 →
      exec (.nvmeCreateIoCq i pick) s = .next (finishCmd i 0 0 (
        let g := s.freeGlobal pick
        let t := s.setRing g (storageQueue c.sheet (c.localBase + 2 * qidOf m.sqe + 1) 9 n (eN m.sqe 46 2) (eN m.sqe 24 8) .running)
        t.setCtrl m.ctrl { c with cqs := tblPut c.cqs (qidOf m.sqe) ⟨g, eN m.sqe 46 2, eBits m.sqe 44 1 1 == 1, 0⟩ })))
  ∧ (∀ (i pick n : Nat) (k : CompQueue) (m : NvmeCmd) (c : Ctrl) (s : State), s.adminStarted i 1 = some (m, c) →
      badFields m.sqe = false → 1 ≤ qidOf m.sqe → qidOf m.sqe ≤ c.nq → tblGet c.sqs (qidOf m.sqe) = none → eN m.sqe 46 2 ≠ 0 →
      tblGet c.cqs (eN m.sqe 46 2) = some k → queueSize m.sqe = some n → eN m.sqe 24 8 % 4096 = 0 →
      s.portSqs (s.sheetPortD c.sheet) < 65536 / s.endpoints.length → s.usage c.sheet 0 < s.limit c.sheet 0 →
      exec (.nvmeCreateIoSq i pick) s = .next (finishCmd i 0 0 (
        let g := s.freeGlobal pick
        let t := s.setRing g (storageQueue c.sheet (c.localBase + 2 * qidOf m.sqe) 8 n k.vec (eN m.sqe 24 8) .running)
        t.setCtrl m.ctrl { c with sqs := tblPut c.sqs (qidOf m.sqe) ⟨g, eN m.sqe 46 2, eBits m.sqe 44 1 2⟩ })))
  ∧ (∀ (i : Nat) (k : SubQueue) (m : NvmeCmd) (c d : Ctrl) (s u : State), s.adminStarted i 0 = some (m, c) →
      badFields m.sqe = false → qidOf m.sqe ≠ 0 → tblGet c.sqs (qidOf m.sqe) = some k →
      u = catchSq m.ctrl (qidOf m.sqe) (closeSq k s) →
      u.sqCmds m.ctrl (qidOf m.sqe) = [] → u.ctrl? m.ctrl = some d →
      exec (.nvmeDeleteIoSq i) s = .next (finishCmd i 0 0 (freeQueue d.sheet k.ring
        (u.setCtrl m.ctrl { d with sqs := tblDel d.sqs (qidOf m.sqe) }))))
  ∧ (∀ (i : Nat) (k : CompQueue) (m : NvmeCmd) (c : Ctrl) (s : State), s.adminStarted i 4 = some (m, c) → badFields m.sqe = false →
      qidOf m.sqe ≠ 0 → tblGet c.cqs (qidOf m.sqe) = some k → c.sqs.any (fun x => x.2.cq == qidOf m.sqe) = false →
      exec (.nvmeDeleteIoCq i) s = .next (finishCmd i 0 0 (freeQueue c.sheet k.ring
        (s.setCtrl m.ctrl { c with cqs := tblDel c.cqs (qidOf m.sqe) }))))
  ∧ (∀ (i cns : Nat) (l : List (Nat × Nat)) (bs : Bytes) (m : NvmeCmd) (c : Ctrl) (a : Attach) (x : Volume) (s t : State),
      s.adminStarted i 6 = some (m, c) → badFields m.sqe = false → cns = eN m.sqe 40 1 →
      (cns = 0 ∧ t = s ∧ 1 ≤ nvNsid m.sqe ∧ nvNsid m.sqe ≤ 256 ∧ tblGet c.attach (nvNsid m.sqe) = some a ∧ s.vol? a.vol = some x
          ∧ bs = identifyNs x a
        ∨ cns = 0 ∧ t = s ∧ 1 ≤ nvNsid m.sqe ∧ nvNsid m.sqe ≤ 256 ∧ tblGet c.attach (nvNsid m.sqe) = none ∧ bs = pageOf []
        ∨ cns = 1 ∧ (bs, t) = identifyCtrl m.ctrl s
        ∨ cns = 2 ∧ t = s ∧ nvNsid m.sqe < 0xFFFFFFFE ∧ bs = nsList c (nvNsid m.sqe)
        ∨ cns = 3 ∧ tblGet c.attach (nvNsid m.sqe) = some a ∧ s.vol? a.vol = some x ∧ t = (drawBytes 2 s).2
          ∧ bs = pageOf [(0, [3, 16, 0, 0] ++ (drawBytes 2 s).1)]) →
      prpPieces m.sqe [] bs.length = some l →
      exec (.nvmeIdentify i) s = .next (finishCmd i 0 0 (placePieces c.sheet l bs t)))
  ∧ (∀ (i : Nat) (pages : List Nat) (l : List (Nat × Nat)) (bs : Bytes) (m : NvmeCmd) (c : Ctrl) (s : State),
      s.adminStarted i 2 = some (m, c) → badFields m.sqe = false → eN m.sqe 40 1 = 0xC0 →
      bs = fitTo (4 * (eN m.sqe 42 2 + 1)) (lostPage c) → prpPieces m.sqe pages bs.length = some l →
      exec (.nvmeGetLogPage i pages) s = .next (finishCmd i 0 0 (
        let t := placePieces c.sheet l bs s
        if eBits m.sqe 41 0 1 = 1 then t
        else t.setCtrl m.ctrl { c with log := c.log.drop ((4 * (eN m.sqe 42 2 + 1) - 16) / 32), overflow := false })))
  ∧ (∀ (i : Nat) (pages : List Nat) (l : List (Nat × Nat)) (bs : Bytes) (m : NvmeCmd) (c : Ctrl) (s t : State),
      s.adminStarted i 2 = some (m, c) → badFields m.sqe = false → 1 ≤ eN m.sqe 40 1 → eN m.sqe 40 1 ≤ 3 →
      drawBytes ((4 * (eN m.sqe 42 2 + 1) + 7) / 8) s = (bs, t) →
      prpPieces m.sqe pages (bs.take (4 * (eN m.sqe 42 2 + 1))).length = some l →
      exec (.nvmeGetLogPage i pages) s = .next (finishCmd i 0 0 (placePieces c.sheet l (bs.take (4 * (eN m.sqe 42 2 + 1))) t)))
  ∧ (∀ (i k : Nat) (m x : NvmeCmd) (c : Ctrl) (s : State), s.adminStarted i 8 = some (m, c) → badFields m.sqe = false →
      s.abortsOut m.ctrl m.order < 4 → s.abortTarget i m.ctrl (eN m.sqe 40 2) (eN m.sqe 42 2) = some (k, x) → x.caught = true →
      (∀ e, c.entering = some e → e.2 ≠ k) →
      exec (.nvmeAbort i) s = .next (finishCmd i 0 0 ((finishNow k x 0x07 0 s).count STO_ABORT_CAUGHT 1)))
  ∧ (∀ (i : Nat) (m : NvmeCmd) (c : Ctrl) (s : State), s.adminStarted i 8 = some (m, c) → badFields m.sqe = false →
      s.abortsOut m.ctrl m.order < 4 →
      (∀ k, s.abortTarget i m.ctrl (eN m.sqe 40 2) (eN m.sqe 42 2) = some k → k.2.caught = false) →
      exec (.nvmeAbort i) s = .next (finishCmd i 0 1 s))
  ∧ (∀ (i fid : Nat) (m : NvmeCmd) (c : Ctrl) (s : State), s.adminStarted i 9 = some (m, c) → badFields m.sqe = false →
      eBits m.sqe 43 7 1 = 0 → fid = eN m.sqe 40 1 → (fid = 1 ∨ fid = 6 ∨ fid = 8 ∨ fid = 0x0B) →
      exec (.nvmeSetFeatures i) s = .next (finishCmd i 0 0 (s.setCtrl m.ctrl (c.setFeature fid (eN m.sqe 44 4)))))
  ∧ (∀ (i : Nat) (m : NvmeCmd) (c : Ctrl) (s : State), s.adminStarted i 9 = some (m, c) → badFields m.sqe = false →
      eBits m.sqe 43 7 1 = 0 → eN m.sqe 40 1 = 2 → eN m.sqe 44 4 % 32 ≤ 2 → c.entering = none → c.leaving = false →
      exec (.nvmeSetFeatures i) s
        = .next ((s.setCmd i { m with phase := .running }).setCtrl m.ctrl { c with entering := some (eN m.sqe 44 4 % 32, i) }))
  ∧ (∀ (i : Nat) (m : NvmeCmd) (c : Ctrl) (s : State), s.adminStarted i 9 = some (m, c) → badFields m.sqe = false →
      eBits m.sqe 43 7 1 = 0 → eN m.sqe 40 1 = 7 → (∀ q ∈ c.sqs, q.1 = 0) → (∀ q ∈ c.cqs, q.1 = 0) →
      eN m.sqe 44 4 % 65536 ≠ 65535 → eN m.sqe 44 4 / 65536 ≠ 65535 →
      exec (.nvmeSetFeatures i) s = .next (finishCmd i 0 ((c.nq - 1) * 65537) s))
  ∧ (∀ (i fid : Nat) (m : NvmeCmd) (c : Ctrl) (s : State), s.adminStarted i 0x0A = some (m, c) → badFields m.sqe = false →
      fid = eN m.sqe 40 1 → (fid = 1 ∨ fid = 2 ∨ fid = 6 ∨ fid = 7 ∨ fid = 8 ∨ fid = 0x0B) →
      exec (.nvmeGetFeatures i) s
        = .next (finishCmd i 0 (if fid = 2 then c.ps else if fid = 7 then (c.nq - 1) * 65537 else c.feature fid) s))
  ∧ (∀ (i : Nat) (m : NvmeCmd) (c : Ctrl) (s : State), s.adminStarted i 0x0C = some (m, c) → c.aers.length < 4 →
      exec (.nvmeAsyncEventRequest i) s
        = .next ((s.setCmd i { m with phase := .running }).setCtrl m.ctrl { c with aers := c.aers ++ [i] }))
  ∧ (∀ (i : Nat) (m : NvmeCmd) (s : State), s.cmd? i = some m → m.phase = .started → opImplemented m.sq (nvOp m.sqe) = false →
      exec (.nvmeUnsupportedOpcode i) s = .next (finishCmd i 0x01 0 s))
  ∧ (∀ (n ps k : Nat) (m : NvmeCmd) (c : Ctrl) (s : State), s.ctrl? n = some c → c.entering = some (ps, k) → s.cmd? k = some m →
      s.startedBefore n c m.order = false →
      exec (.powerStateEntryEnd n) s = .next (
        let leave : Bool := decide (ps = 2) && ((s.ctrlCmds n).any (fun i => decide (k < i)) || s.ioPosted c)
        let t := finishNow k m 0 0 (s.setCtrl n { c with
          ps := ps
          lastOp := if ps = 2 then c.lastOp else ps
          entering := none
          leaving := leave })
        if leave then t else postHeld n t))
  ∧ (∀ (n : Nat) (c : Ctrl) (s : State), s.ctrl? n = some c → c.leaving = true →
      exec (.powerStateExitEnd n) s = .next (postHeld n (s.setCtrl n { c with ps := c.lastOp, leaving := false })))
  ∧ (∀ (n q : Nat) (k : CompQueue) (c : Ctrl) (s : State), s.ctrl? n = some c → tblGet c.cqs q = some k → k.unannounced ≠ 0 →
      exec (.interruptCoalescingExpiry n q) s
        = .next ((s.setCtrl n { c with cqs := tblPut c.cqs q { k with unannounced := 0 } }).sendVector
            (s.sheetPortD c.sheet) (s.sheetPf c.sheet) k.vec))


/-! ## Penlith clusters and cairns (chapter 16) -/

/-- Penlith instructions of a thread that runs. PN.WFE returns the armed latch bits and clears them, or waits (R430); a bit that a waiting
thread armed wakes it (R430); PN.EVSEND sets GROUP or FOREIGN (Table 16.4); PN.GRSV reserves the lowest FREE slot (R435); PN.GSEAL seals
a slot of the thread (R435); PN.GTAKE takes the slot sealed earliest (R435); PN.GFREE frees a TAKEN one (R424); PN.DTIME reads Datum
short (R424); other words of custom-0 and custom-1 raise exception 2 (R424). -/
def Obligations.PenlithInstructionsComplete : Prop :=
  (∀ (t rd hit : Nat) (v : BitVec 64) (s : State), s.runs t = true →
      hit = (BitVec.ofNat 7 (s.latch t) &&& v.setWidth 7).toNat →
      exec (.pnWfe t rd v) s = .next (
        if hit ≠ 0 then finishPn t rd (BitVec.ofNat 64 hit) (clearLatch t hit s)
        else undeclare t ((s.setThread t { s.thread t with armed := some (v.toNat % 128, rd % 32) }).setThreadState t 2)))
  ∧ (∀ (t rd mask hit : Nat) (s : State), (s.thread t).armed = some (mask, rd) → s.threadState t = 2 →
      hit = (BitVec.ofNat 7 (s.latch t) &&& BitVec.ofNat 7 mask).toNat → hit ≠ 0 →
      exec (.wfeWake t) s = .next (finishPn t rd (BitVec.ofNat 64 hit)
        (clearLatch t hit ((s.setThread t { s.thread t with armed := none }).setThreadState t 1))))
  ∧ (∀ (t u : Nat) (v : BitVec 64) (s : State), s.runs t = true → u = v.toNat % 256 →
      exec (.pnEvsend t v) s = .next (finishPn t 0 0 (setLatch u
        (if u / 32 = t / 32 ∧ s.waitGroup u = s.waitGroup t ∧ s.waitGroup u ≠ 15 then 4 else 5) s)))
  ∧ (∀ (t rd k g i : Nat) (v : BitVec 64) (s : State), s.runs t = true → k = v.toNat / 64 % 8 → g = v.toNat % 64 →
      s.bit (PNL_GAL_EN k g) = true → s.rd (PNL_GAL_KIND k g) ≠ 2 → s.freeSlotOf k g = some i →
      exec (.pnGrsv t rd v) s = .next (finishPn t rd (BitVec.ofNat 64 (s.slotAddr k g i)) { s with pnl := { s.pnl with
        slots := tblPut s.pnl.slots (slotKey k g i) (.reserved t)
        lost := s.pnl.lost.filter (· != (slotKey k g i, t)) } }))
  ∧ (∀ (t rd k g i : Nat) (v : BitVec 64) (s : State), s.runs t = true → s.slotAt v.toNat = some (k, g, i) →
      tblGet s.pnl.slots (slotKey k g i) = some (.reserved t) →
      exec (.pnGseal t rd v) s = .next (finishPn t rd 0 (sealSlot k g i s)))
  ∧ (∀ (t rd g i : Nat) (v : BitVec 64) (s : State), s.runs t = true → v.toNat / 64 % 8 = t / 32 → g = v.toNat % 64 →
      s.bit (PNL_GAL_EN (t / 32) g) = true → s.rd (PNL_GAL_KIND (t / 32) g) ≠ 1 → s.oldestSealed (t / 32) g = some i →
      exec (.pnGtake t rd v) s = .next (finishPn t rd (BitVec.ofNat 64 (s.slotAddr (t / 32) g i)) { s with pnl := { s.pnl with
        slots := tblPut s.pnl.slots (slotKey (t / 32) g i) (.taken (t / 32)) } }))
  ∧ (∀ (t k g i c : Nat) (v : BitVec 64) (s : State), s.runs t = true → s.slotAt v.toNat = some (k, g, i) →
      tblGet s.pnl.slots (slotKey k g i) = some (.taken c) → s.rd (PNL_GAL_KIND k g) ≠ 1 →
      exec (.pnGfree t v) s = .next (finishPn t 0 0 (freeSlotKey (slotKey k g i) s)))
  ∧ (∀ (t rd : Nat) (s : State), s.runs t = true → exec (.pnDtime t rd) s = .next (finishPn t rd s.dshort s))
  ∧ (∀ (t : Nat) (w : BitVec 32) (s : State), s.runs t = true → illegalWord w = true →
      Answers (.penlithIllegalInstruction t w) s (fun r => ∃ tval, (tval = w.toNat ∨ tval = 0)
        ∧ r = undeclare t (trap t 2 tval s.drawn)))

/-- Waits, and the control of threads. An armed timer that is due sets TIMER (R429); a group that holds the conditions of R432 is
declared, and its lowest thread wakes with exception 24 (R433); START, STOP, HALT, RESUME and KICK act (Table 16.9, R438, R441);
ABANDON frees the slots of a thread HALTED long enough (R442); a migration stops both threads and then exchanges their contexts
(R446); a refused configuration of a cluster raises CFG_ERR, another one is written (R427). -/
def Obligations.ThreadControlCompletes : Prop :=
  (∀ (t : Nat) (s : State), t < 256 → s.bit (PNL_THR_STAT_TIMER_ARMED (t / 32) (t % 32)) = true →
      s.reached (s.reg (PNL_THR_TIMER (t / 32) (t % 32))) = true →
      exec (.threadTimerExpiry t) s = .next (setLatch t 3 (s.wr (PNL_THR_STAT_TIMER_ARMED (t / 32) (t % 32)) 0)))
  ∧ (∀ (k g t : Nat) (rest : List Nat) (s : State), k < 8 → g < 15 → s.groupThreads k g = t :: rest →
      (∀ u ∈ t :: rest, s.stuck (32 * k + u) = true) → s.pnl.declared.contains (k * 16 + g) = false →
      exec (.waitDeadlock k g) s = .next (let u := raisePnl k (PNL_EVENT_DEADLOCK k) (snapshot k g s)
        trapM (32 * k + t) 24 g (State.setThreadState { u with pnl := { u.pnl with
          declared := (k * 16 + g) :: u.pnl.declared } } (32 * k + t) 1)))
  ∧ (∀ (k : Nat) (s : State), k < 8 → exec (.deadlockSnapshotClear k) s = .next (s.wr (PNL_DLK_GRP_VALID k) 0))
  ∧ (∀ (t : Nat) (s : State), t < 256 → s.threadState t = 0 → (s.rd SVY_RELEASE_CLUSTER).testBit (t / 32) = true →
      s.health.coresFailed.contains (s.coreOf t) = false → exec (.threadStart t) s = .next (s.setThreadState t 1))
  ∧ (∀ (t : Nat) (s u : State), t < 256 → u = abandonSlots t (s.reservedBy t none) s →
      (u.setThread t { u.thread t with armed := none }).threadState t ≠ 4 →
      exec (.threadStop t) s = .next ((u.setThread t { u.thread t with armed := none }).setThreadState t 0))
  ∧ (∀ (t : Nat) (s : State), t < 256 → (s.threadState t = 1 ∨ s.threadState t = 2) → s.haltRefused t = false →
      exec (.threadHalt t) s = .next (((s.setThread t { s.thread t with haltedAt := s.ns, resumeTo := s.threadState t }).setThreadState
        t 3).wr (PNL_DBG_STATUS_REFUSED (t / 32)) 0))
  ∧ (∀ (t : Nat) (s : State), t < 256 → s.threadState t = 3 →
      exec (.threadResume t) s = .next (setLatch t 6 (s.setThreadState t (s.thread t).resumeTo)))
  ∧ (∀ (t : Nat) (s : State), t < 256 → exec (.threadKick t) s = .next (setLatch t 5 s))
  ∧ (∀ (k t g : Nat) (s : State), k < 8 → t < 32 → g < 64 → s.threadState (32 * k + t) = 3 →
      (s.thread (32 * k + t)).haltedAt + s.rd (PNL_DBG_CFG_ABANDON_MS k) * 1000000 ≤ s.ns →
      exec (.galleryAbandon k t g) s = .next (raisePnl k (PNL_EVENT_ABANDON k)
        ((abandonSlots (32 * k + t) (s.reservedBy (32 * k + t) (some (k * 64 + g))) s).wr (PNL_DBG_STATUS_REFUSED k) 0)))
  ∧ (∀ (k t u : Nat) (s : State), k < 8 → t < 32 → u < 32 → s.bit (PNL_MIGRATE_STATUS_BUSY k) = false →
      s.coreOf (32 * k + t) ≠ s.coreOf (32 * k + u) →
      exec (.threadMigrate k t u) s = .next (
        let m := (t, u, s.threadState (32 * k + t), s.threadState (32 * k + u))
        let v : State := { s with pnl := { s.pnl with moving := tblPut s.pnl.moving k m } }
        stopForMove (32 * k + u) (stopForMove (32 * k + t)
          ((v.wr (PNL_MIGRATE_STATUS_BUSY k) 1).wr (PNL_MIGRATE_STATUS_ERR k) 0))))
  ∧ (∀ (k t u st su : Nat) (s : State), tblGet s.pnl.moving k = some (t, u, st, su) →
      exec (.migrateDone k) s = .next (
        let v := endMoveOf (32 * k + u) su (endMoveOf (32 * k + t) st (swapContexts (32 * k + t) (32 * k + u) s))
        let w : State := { v with pnl := { v.pnl with moving := tblDel v.pnl.moving k } }
        raisePnl k (PNL_EVENT_MIGRATE_DONE k) (w.wr (PNL_MIGRATE_STATUS_BUSY k) 0)))
  ∧ (∀ (k : Nat) (v : BitVec 32) (s : State), k < 8 →
      exec (.clusterFreqWrite k v) s = .next (
        if (List.range 32).any (fun t => s.bit (PNL_THR_CFG_TIMED k t) && s.threadState (32 * k + t) != 0) then
          raisePnl k (PNL_EVENT_CFG_ERR k) s
        else s.plainWrite (PNL_CLU_CFG k) (v.setWidth 64)))

/-- Galleries and cairns. A send gallery's oldest slot becomes a packet of the cluster's inlet (R291, R436); the cluster's outlet
delivers a packet into a FREE slot of its class's gallery and seals it (R437); a write enables a gallery that fits (R447); a core that
fails is counted, its threads moved to reserves or stopped (R479); cairns are claimed, completed and raised (R443, R444). -/
def Obligations.GalleriesAndCairnsComplete : Prop :=
  (∀ (k g i len cls : Nat) (s : State), k < 8 → g < 64 → s.galIs k g 1 = true → s.oldestSealed k g = some i →
      len = ofLe (s.cluRead (s.slotAddr k g i) 2) → cls = ofLe (s.cluRead (s.slotAddr k g i + 2) 1) % 8 → 14 ≤ len → len ≤ 9216 →
      len + 16 ≤ s.slotSize k g → s.creditUsed (112 + k) + setts len ≤ 1024 → s.stopped (112 + k) cls = false →
      exec (.gallerySend k g) s = .next (
        let u : State := { s with pnl := { s.pnl with slots := tblPut s.pnl.slots (slotKey k g i) (.taken k) } }
        let f := u.newFlying (112 + k) (u.cluRead (s.slotAddr k g i + 16) len) u.dshort
        enterBench { f with txCls := some cls, gallery := some (slotKey k g i) } u))
  ∧ (∀ (k g i : Nat) (p : Packet) (s : State), k < 8 → (tblGetD [] s.swc.handed (112 + k)).find? (s.cluTakes k) = some p →
      s.deliveryGallery k p.cls = some g → s.freeSlotOf k g = some i →
      exec (.galleryDelivery k) s = .next (
        let d := p.bytes.take (s.slotSize k g - 32)
        let u := cluWrite (s.slotAddr k g i) (deliveryHeader p d.length ++ d) (unhand (112 + k) p s)
        refreshPressure (releaseSetts p.id (sealSlot k g i u))))
  ∧ (∀ (k g : Nat) (v w : BitVec 64) (s : State), k < 8 → g < 64 → s.bit (PNL_GAL_EN k g) = false →
      w = (if getField (putField v 30 34 0) 1 2 = 2 then putField (putField v 30 34 0) 10 4 15 else putField v 30 34 0) →
      getField w 0 1 = 1 → galFieldsOk w = true → s.galFits k g w = true →
      exec (.galleryEnable k g v) s = .next (galEvent k g 2 (s.setReg (PNL_GAL k g) w)))
  ∧ (∀ (c : Nat) (on : List Nat) (s : State), c < 64 → s.health.coresFailed.contains c = false →
      on = ((List.range 32).map (fun t => 32 * (c / 8) + t)).filter (fun t => s.coreOf t == c && s.threadState t != 0) →
      exec (.coreFault c) s = .next (
        let m := on.foldl (fun x t => moveOff c t x) (false, s)
        let u := { m.2 with health := { m.2.health with coresFailed := c :: m.2.health.coresFailed } }
        let w := logFault 0x0C c true m.1 true (u.count HLT_SPARE_CORES_FAILED 1)
        if m.1 then beyondModel 6 w else updateHealth w))
  ∧ (∀ (k t n : Nat) (who : Party) (s : State), k < 8 → t < 32 → s.islandRuns (0x90 + k) = true →
      s.reaches who (CRN_CLAIM k t) = true → s.outputOf who (CRN_CLAIM k t) = none → s.cairnSource k t = some n →
      exec (.cairnClaim k t who) s
        = .next (State.emit { s with cairns := tblPut s.cairns (k * 1024 + n) ⟨false, true⟩ } (.reply who (leBytes 4 n))))
  ∧ (∀ (k n : Nat) (c : CairnSrc) (s : State), k < 8 → n < 1024 → tblGet s.cairns (k * 1024 + n) = some c → c.inserv = true →
      exec (.cairnComplete k n) s = .next { s with cairns := tblPut s.cairns (k * 1024 + n) { c with inserv := false } })
  ∧ (∀ (k n : Nat) (s : State), k < 8 → 512 ≤ n → n < 1024 → exec (.cairnRaise k n) s = .next (cairnEventIn k n s))


/-! ## Boot and images (chapter 17) -/

/-- Boot. A power-on reset clears strikes and starts on what the ROM finds (R461, R529); SYS_RESET is a device reset that keeps STRIKES
and TRIPPED (R461, R530); a chunk lands in the hold region, and the one with ENTRY starts the units (R453); a tag that matches runs the
class, and one that does not fails the attempt with reason 4 (R453, R454); a unit reports ready, and the last of a class lets boot go on (R457), or fails the attempt with reason
8 (R456); a write to a locked hold region is latched and fails it with reason 7 (R455); minimal mode tries once more (R462). -/
def Obligations.BootCompletes : Prop :=
  (∀ (f : BootFound) (s : State), exec (.powerOnReset f) s = .next (deviceReset 0 false false
      ((State.emit { s with boot := { s.boot with found := f } } (.ball 2 0 1)).emit (.ball 0 0 1))))
  ∧ (∀ s : State, s.power.inReset = false → s.power.tripped = false →
      exec .sysReset s = .next (
        let t := if s.boot.installing = 1 then saveRecord (failInstall s) else s
        deviceReset (t.rd SVY_BOOT_STATUS_STRIKES) (t.bit SVY_THERM_STATUS_TRIPPED) (t.bit SVY_CTRL_FORCE_MIN)
          (t.emit (.ball 0 0 1))))
  ∧ (∀ (c : Nat) (x : Load) (s : State), s.load? c = some x → x.matched = false → x.chunks * 65536 < hdrLen (s.header c x.copy) →
      exec (.imageChunkWritten c true) s = .next (
        let starts := !x.started && decide (hdrEntry (s.header c x.copy) < (x.chunks + 1) * 65536)
        let t := s.setLoad c { x with chunks := x.chunks + 1, started := x.started || starts }
        if starts then startUnits c (hdrEntry (s.header c x.copy)) t else t))
  ∧ (∀ (c : Nat) (x : Load) (s : State), s.load? c = some x → x.matched = false → x.started = true →
      hdrLen (s.header c x.copy) ≤ x.chunks * 65536 →
      exec (.imageTagCheck c false) s = .next (attemptFails c 4 s)
      ∧ (c < 2 → exec (.imageTagCheck c true) s = .next (classRuns c x s))
      ∧ (2 ≤ c → c ≠ 5 → exec (.imageTagCheck c true) s = .next (loadNext (classRuns c x s)))
      ∧ (c = 5 → exec (.imageTagCheck c true) s
          = .next (loadNext ((List.range 8).foldl (fun t k => releaseOutputs k t) (classRuns c x s)))))
  ∧ (∀ (c k : Nat) (x : Load) (s : State), s.load? c = some x → x.matched = true → k < unitsOf c → x.ready.contains k = false →
      (s.setLoad c { x with ready := k :: x.ready }).classReady c = false →
      exec (.unitReady c k true) s = .next (s.setLoad c { x with ready := k :: x.ready }))
  ∧ (∀ (c k : Nat) (x : Load) (s t : State), s.load? c = some x → x.matched = true → k < unitsOf c → x.ready.contains k = false →
      t = s.setLoad c { x with ready := k :: x.ready } → t.classReady c = true →
      (2 ≤ c → exec (.unitReady c k true) s = .next (fullService (stepSeven (loadNext t))))
      ∧ (c = 1 → t.classReady 0 = true → exec (.unitReady c k true) s = .next (privilegedReady t))
      ∧ (c = 0 → t.imgState 1 ≠ 0 → t.imgState 1 ≠ 4 → t.classReady 1 = true →
          exec (.unitReady c k true) s = .next (privilegedReady t))
      ∧ (c = 0 → t.imgState 1 = 0 ∨ t.imgState 1 = 4 → (loadClass 1 t).1 = true →
          exec (.unitReady c k true) s = .next (loadClass 1 t).2))
  ∧ (∀ (c k : Nat) (x : Load) (s : State), s.load? c = some x → x.matched = true → k < unitsOf c → x.ready.contains k = false →
      exec (.unitReadyTimeout c k) s = .next (attemptFails c 8
        (if c = 4 then surveyRec 5 7 k 0 [] 0 s else if c = 5 then surveyRec 5 7 (0x100 + k) 0 [] 0 s else s)))
  ∧ (∀ (c a : Nat) (who : Party) (x : Load) (s : State), s.load? c = some x → x.chunks ≠ 0 →
      exec (.holdRegionWriteFault c who a) s
        = .next (attemptFails c 7 (protEvent who a true none (s.wr (SVY_IMG_STATUS_HOLD_FAULT c) 1))))
  ∧ (∀ (c : Nat) (s : State), s.rd SVY_BOOT_STATUS_STATE = 4 → s.boot.found.cause = 0 → s.boot.found.accepted = true →
      [0, 1].find? (fun k => s.imgState k != 1 && !s.classReady k) = some c → (loadClass c s).1 = true →
      exec .minimalRetry s = .next (loadClass c s).2)

/-- Commits, packages, epochs and owner keys. A commit of a running TRIAL copy makes it COMMITTED and restarts its running time, any
other sets COMMIT_ERR (R466); running times are added to the boot record (R466); SUBMIT by the party that holds the data port checks the
package (R470); an image that passed is installed and RESULT posted, or 0x09 when the flash write failed (R465); an epoch advance writes
the fuses and starts the re-wrap (R323, R468); a revocation blows the slot's fuse (R469); a notice is acknowledged (R473). -/
def Obligations.PackagesComplete : Prop :=
  (∀ (c : Nat) (x : Load) (s : State), s.load? c = some x → x.matched = true → s.copyState c x.copy = 2 →
      exec (.svyCommit c) s = .next (let t := saveRecord (setCopy c x.copy 0 s)
        { t with boot := { t.boot with
          runTime := tblPut t.boot.runTime c 0
          runSince := tblPut t.boot.runSince c t.ns } }))
  ∧ (∀ (c : Nat) (s : State), s.load? c = none → exec (.svyCommit c) s = .next (s.wr SVY_BOOT_STATUS_COMMIT_ERR 1))
  ∧ (∀ s : State, s.health.restarting = false → s.boot.runSince ≠ [] →
      exec .commitTimeUpdate s = .next (saveRecord (s.boot.runSince.foldl (fun t x => addRunTime x.1 x.2 t) s)))
  ∧ (∀ (who : Party) (s : State), s.holdsPort who = true → s.mgmt.update = none → s.bit SVY_RECOV_STATUS_BUSY = false →
      exec (.packageSubmit who) s = .next (checkPackage (s.rd SVY_RECOV_LEN_LEN) s))
  ∧ (∀ s : State, s.boot.installing = 1 → s.mgmt.update = none →
      exec (.imagePackageInstall true) s = .next (endPackage 0 (installImage s))
      ∧ exec (.imagePackageInstall false) s = .next (endPackage 0x09 (failInstall s)))
  ∧ (∀ s : State, s.boot.installing = 2 → exec (.epochAdvance true) s = .next (
      let t := (List.range (s.pkgN 28 4 - s.epoch)).foldl (fun t _ => saveRecord t) s
      let u : State := { t with
        boot := { t.boot with fuses := (putField (t.boot.fuses.setWidth 64) 0 6 (s.pkgN 28 4)).setWidth 32 }
        cipher := { t.cipher with wrapKeys := tblPut t.cipher.wrapKeys (s.pkgN 28 4) (Config.wrapKey (s.pkgN 28 4)) } }
      endPackage 0 (u.wr CPH_STATUS_REWRAP 1))
    ∧ exec (.epochAdvance false) s = .next (endPackage 0x09 s))
  ∧ (∀ s : State, s.boot.installing = 3 → exec .ownerSlotRevoke s = .next (endPackage 0 { s with boot := { s.boot with
      fuses := s.boot.fuses ||| BitVec.ofNat 32 (2 ^ (6 + s.pkgN 7 1)) } }))
  ∧ (∀ s : State, exec .noticeAck s = .next { s with boot := { s.boot with noticeOpen := false } })

/-! ## Health (chapter 18) -/

/-- Faults and logs. A row repair is counted, redirected, logged and raised (R478), the eighth of a bank as permanent; an uncorrectable error poisons its lines, is logged,
breaks every contract and is beyond the model (R76, R478); a scrub pass is counted (R477); a lockstep mismatch in full service restarts
the Surveyor island, which then resumes, the third within an hour being beyond the model, and one during boot ends the start (R481); a held health message is sent (R486); the protection log gives up its oldest entry
(R488). -/
def Obligations.FaultsAndLogsComplete : Prop :=
  (∀ (ch bank row b used : Nat) (s : State), b = bankKey ch bank → used = tblGetD 0 s.health.repairs b → used < 8 →
      exec (.hbmRowRepair ch bank row) s = .next (
        let t : State := { s with health := { s.health with
          repairs := tblPut s.health.repairs b (used + 1)
          redirected := (b, row, used) :: s.health.redirected.filter (fun x => x.1 != b || x.2.1 != row) } }
        updateHealth (raise HLT_EVENT_HBM_REPAIR (logFault 0x0B (ch % 64) true false (used + 1 == 8)
          (if used + 1 == 8 then t.wr HLT_SPARE_HBM_LOW 1 else t)))))
  ∧ (∀ (ch : Option Nat) (lines : List Nat) (s u : State),
      u = { s with health := { s.health with
        poisoned := lines.foldl (fun l a => if l.contains a then l else a :: l) s.health.poisoned } } →
      exec (.uncorrectableError ch lines) s
        = .next (beyondModel 4 (breakWhere (fun _ => true) 2 (logFault 0x0E (memUnit ch) false true false u))))
  ∧ (∀ (n : Nat) (s : State), exec (.memoryScrub n) s = .next { s with health := { s.health with scrubbed := s.health.scrubbed + n } })
  ∧ (∀ (recent : List Nat) (s u : State), s.rd SVY_BOOT_STATUS_STATE = 3 →
      recent = s.ns / 1000000000 :: s.health.mismatches.filter (fun t => decide (s.ns / 1000000000 < t + 3600)) →
      u = logFault 0x0D 0xA2 false (decide (3 ≤ recent.length)) false { s with health := { s.health with mismatches := recent } } →
      exec .lockstepMismatch s = .next (
        let v := if 3 ≤ recent.length then beyondModel 5 u else u
        if v.health.restarting then v else restartSurveyor v))
  ∧ (∀ s : State, (s.rd SVY_BOOT_STATUS_STATE = 1 ∨ s.rd SVY_BOOT_STATUS_STATE = 2) →
      exec .lockstepMismatch s = .next (startFails 5 0 (logFault 0x0D 0xA2 false false false s)))
  ∧ (∀ s : State, s.health.restarting = true → s.classReady 0 = true →
      exec .surveyorRestartDone s = .next (saveRecord ((State.wr { s with
        health := { s.health with restarting := false, consSaved := s.health.cons } } ADM_STATUS_READY 1).wr MGT_STATUS_READY 1)))
  ∧ (∀ (p : Nat) (held : Bool) (s : State), tblGet s.health.coal p = some held →
      exec (.healthCoalExpiry p) s = .next (let t : State := { s with health := { s.health with coal := tblDel s.health.coal p } }
        if held then notifyPort p t else t))
  ∧ (∀ s : State, exec .protLogPop s
      = .next (showProt { s with health := { s.health with protLog := s.health.protLog.drop 1 } }))

/-- Survey, wear and the health commands. HLT_SURV_RD moves to a written record's number, or to HLT_SURV_WR (R490); a wear sample is
taken into its record (R493, R494); the boot record takes the consumables (R495); HLT_SNAPSHOT writes 5,696 bytes (R497); SURVEY_DRAIN
writes what fits and moves HLT_SURV_RD (R498). -/
def Obligations.SurveyAndHealthCommandsComplete : Prop :=
  (∀ (v : Nat) (s : State), s.Wf → v < 2 ^ 32 → Answers (.surveyReadAdvance v) s (fun t =>
      t.rd HLT_SURV_RD_COUNT = (if (v + 2 ^ 32 - s.rd HLT_SURV_RD_COUNT) % 2 ^ 32 ≤ s.unreadSurvey then v else s.rd HLT_SURV_WR_COUNT)
        ∧ t.health = s.health ∧ t.mem = s.mem))
  ∧ (∀ (i used units : Nat) (c : Consumable) (s : State), tblGetD Consumable.fresh s.health.cons i = c → c.present = true →
      c.kind = 2 → Answers (.wearSample i (.nvme used units)) s (fun t => ∃ d : Consumable, tblGet t.health.cons i = some d
        ∧ d.wear = min used 100 ∧ d.metric = units ∧ (∃ l, d.samples = (s.ns / 1000000000, min used 100) :: l)
        ∧ (min used 100 = 100 → d.soon = true) ∧ t.mem = s.mem ∧ t.contracts = s.contracts))
  ∧ (∀ (i : Nat) (reading : WearReading) (c d : Consumable) (s : State), tblGetD Consumable.fresh s.health.cons i = c →
      c.present = true → readingFits c.kind reading = true → d = sampleWear c reading s →
      exec (.wearSample i reading) s = .next (
        let t : State := { s with health := { s.health with cons := tblPut s.health.cons i d } }
        let u := drawReading reading t
        if d.soon = true ∧ c.soon = false then raise HLT_EVENT_CONS u else u))
  ∧ (∀ s : State, s.health.restarting = false → exec .consumablesSave s = .next (saveRecord { s with health := { s.health with
      cons := tblMap (fun _ (c : Consumable) => c.upTo s.ns) s.health.cons
      consSaved := tblMap (fun _ (c : Consumable) => c.upTo s.ns) s.health.cons } }))
  ∧ (∀ (g : Nat) (r : Ring) (j : Job) (s u : State), s.health.restarting = false → s.Starts g 0x70 r j u → u.sheetPf r.sheet = 0 →
      eN j.first 8 8 % 64 = 0 → 5696 ≤ eN j.first 16 4 →
      exec (.hltSnapshot g true) s = .next (let t := sheetWrite r.sheet (eN j.first 8 8) u.snapshot u
        done g j 0 [(16, 4, 5696), (56, 8, u.dshort.toNat)] t))
  ∧ (∀ (g n : Nat) (r : Ring) (j : Job) (s u : State), s.health.restarting = false → s.Starts g 0x71 r j u → u.sheetPf r.sheet = 0 →
      eN j.first 8 8 % 64 = 0 → 0 < eN j.first 20 4 → eN j.first 20 4 ≤ 256 → 64 ≤ eN j.first 16 4 →
      n = min (min (eN j.first 20 4) (eN j.first 16 4 / 64)) u.unreadSurvey →
      exec (.surveyDrain g true) s = .next (
        let bs := (List.range n).flatMap (fun k => u.surveyBytes (u.rd HLT_SURV_RD_COUNT + k))
        let w := if n = 0 then u else sheetWrite r.sheet (eN j.first 8 8) bs u
        let t := w.wr HLT_SURV_RD_COUNT (u.rd HLT_SURV_RD_COUNT + n)
        done g j 0 [(16, 4, 64 * n), (20, 4, n), (24, 4, t.rd HLT_SURV_RD_COUNT), (28, 4, t.rd HLT_SURV_LOST_COUNT),
          (56, 8, t.dshort.toNat)] t))

/-! ## Management and debug (chapter 19) -/

/-- MCTP, PLDM and register messages on a binding of the device that is served. An EID is set and answered (R503); an I3C address is
assigned (R501); a request that is not served is answered as not ready (R505); a discarded message has no effect (R503); registers and
the data port are read and written (R506); PLDM records and sensors are read (R507); events go to a receiver and are repeated (R508). -/
def Obligations.ManagementMessagesComplete : Prop :=
  (∀ (b op eid : Nat) (s : State), s.hasBinding b = true → op ≤ 1 → 8 ≤ eid → eid ≤ 254 →
      exec (.mctpControl b 1 op eid) s = .next (respond b 0 1 ([0, 0] ++ leBytes 1 eid ++ [0]) (setEid b eid s)))
  ∧ (∀ (b op eid : Nat) (s : State), s.hasBinding b = true →
      exec (.mctpControl b 2 op eid) s = .next (respond b 0 2 ([0x00] ++ leBytes 1 (s.eid b) ++ [0x00, 0x00]) s)
      ∧ exec (.mctpControl b 4 op eid) s = .next (respond b 0 4 [0x00, 0x01, 0xF1, 0xF3, 0xF1, 0x00] s)
      ∧ exec (.mctpControl b 5 op eid) s = .next (respond b 0 5 [0x00, 0x04, 0x00, 0x01, 0x05, 0x7E] s))
  ∧ (∀ (static : Option Nat) (a : Nat) (s : State), (static = none ∨ static = s.mgmt.i3cStatic) →
      exec (.i3cAddressAssign static a) s = .next { s with mgmt := { s.mgmt with i3cDynamic := some a } })
  ∧ (∀ (b code : Nat) (s : State), s.hasBinding b = true → s.mgmtReady b = false →
      exec (.mctpNotReady b 1 code) s = .next (respond b 1 code [0x04] s)
      ∧ exec (.mctpNotReady b 5 code) s = .next (respond b 5 0x7F [0x03, 0] s)
      ∧ exec (.mctpNotReady b 0x7E code) s = .next (respond b 0x7E code [0x01] s))
  ∧ (∀ s : State, exec .mctpMessageDiscard s = .next s)
  ∧ (∀ (b a : Nat) (s : State), s.hasBinding b = true → s.mgmtReady b = true → a % regBytes a = 0 → bmcReach a = true →
      (isAperture a = true → s.holdsPort .bmc = true) →
      exec (.theivoRegRead b a) s = .next (let r := readSpace .bmc a (regBytes a) s
        respond b 0x7E 1 ([0x00] ++ r.1) r.2))
  ∧ (∀ (b a : Nat) (d : Bytes) (s : State), s.hasBinding b = true → s.mgmtReady b = true → bmcReach a = true →
      s.bmcStatus a d.length ≠ 3 →
      exec (.theivoRegWrite b a d) s
        = .next (respond b 0x7E 2 (leBytes 1 (s.bmcStatus a d.length)) (writeSpace .bmc a d s)))
  ∧ (∀ (b off n : Nat) (s : State), s.hasBinding b = true → s.mgmtReady b = true → s.dpStatus off n = 0 →
      exec (.theivoDpRead b off n) s = .next (let r := dpRead .bmc off n s
        respond b 0x7E 3 ([0x00] ++ r.1) r.2))
  ∧ (∀ (b off : Nat) (d : Bytes) (s : State), s.hasBinding b = true → s.mgmtReady b = true → s.dpStatus off d.length = 0 →
      exec (.theivoDpWrite b off d) s = .next (respond b 0x7E 4 [0x00] (dpWrite .bmc off d s)))
  ∧ (∀ (b h : Nat) (s : State), s.hasBinding b = true → s.mgmtReady b = true → exec (.pldmGetPdr b h) s
      = .next (respond b 1 0x51 (if Config.pdr h = [] then [0x82] else [0x00] ++ Config.pdr h) s))
  ∧ (∀ (b k : Nat) (v : Int) (s : State), s.hasBinding b = true → s.mgmtReady b = true → s.numericSensor k = some v →
      exec (.pldmGetSensorReading b k) s = .next (respond b 1 0x11
        ([0x00, 0x03, 0x00, 0x00] ++ leBytes 1 (s.sensorState k v) ++ [0x00, 0x00] ++ leBytes 2 (unsigned 16 v)) s))
  ∧ (∀ (b k v : Nat) (s : State), s.hasBinding b = true → s.mgmtReady b = true → s.stateSensor k = some v →
      exec (.pldmGetStateSensorReadings b k) s
        = .next (respond b 1 0x21 ([0x00, 0x01, 0x00] ++ leBytes 1 v ++ [0x00, 0x00]) s))
  ∧ (∀ (b eid en : Nat) (s : State), s.hasBinding b = true → s.mgmtReady b = true →
      exec (.pldmSetEventReceiver b eid en) s = .next (respond b 1 0x04 [0x00] { s with
        mgmt := { s.mgmt with receiver := if en = 0 then none else some (b, eid) } }))
  ∧ (∀ (k v sent b eid : Nat) (rest : List (Nat × Nat × Nat)) (s : State), s.mgmt.unacked = (k, v, sent) :: rest →
      (∀ x ∈ rest, x.1 ≠ k) → s.mgmt.receiver = some (b, eid) →
      exec (.pldmEventRetry k true) s = .next { s with mgmt := { s.mgmt with unacked := rest } }
      ∧ (sent < 4 → Answers (.pldmEventRetry k false) s (fun t => t.mgmt.unacked = rest ++ [(k, v, sent + 1)]
          ∧ t.outs = (respond b 1 k (leBytes 2 v ++ leBytes 1 eid) s).outs)))
  ∧ (∀ (b tid : Nat) (s : State), s.hasBinding b = true → s.mgmtReady b = true → tid ≠ 0 → tid ≠ 0xFF →
      exec (.pldmBaseRequest b 1 tid) s = .next (respond b 1 1 [0x00] { s with mgmt := { s.mgmt with tid := tid } }))
  ∧ (∀ (b arg : Nat) (s : State), s.hasBinding b = true → s.mgmtReady b = true →
      exec (.pldmBaseRequest b 2 arg) s = .next (respond b 1 2 ([0x00] ++ leBytes 1 s.mgmt.tid) s)
      ∧ exec (.pldmBaseRequest b 4 arg) s = .next (respond b 1 4 ([0x00, 0x25] ++ List.replicate 7 0) s)
      ∧ (pldmCommands arg ≠ [] → exec (.pldmBaseRequest b 5 arg) s = .next (respond b 1 5
          ([0x00] ++ leBytes 32 ((pldmCommands arg).foldl (fun m c => m + 2 ^ c) 0)) s)))

/-- Firmware update and attestation. An update takes the staging buffer and asks for its first piece (R509, R510); a piece is stored
(R509); the check reports, and applies what passes (R509); activation and cancelling end the update (R509, R510), as do 60 s without
a request (R510); version negotiation restarts a binding's session (R511); the chain, a challenge and measurements are answered
(R512, R513). -/
def Obligations.UpdateAndAttestationComplete : Prop :=
  (∀ (b c len : Nat) (s : State), s.hasBinding b = true → s.mgmtReady b = true → s.mgmt.update = none →
      s.rd SVY_DP_LOCK_OWNER ≠ 1 → s.bit SVY_RECOV_STATUS_BUSY = false → c < 6 → len ≠ 0 → len ≤ s.stagingSize →
      exec (.requestUpdate b c len) s = .next (requestPiece b 0 len (respond b 1 0x10 [0x00] (touchUpdate { s with
        mgmt := { s.mgmt with update := some (c, len, 0), updateResult := none, cancel := none }
        boot := { s.boot with staging := [] } }))))
  ∧ (∀ (b c len got : Nat) (d : Bytes) (s u : State), s.hasBinding b = true → s.mgmtReady b = true →
      s.mgmt.update = some (c, len, got) → got < len → d.length = min 1024 (len - got) →
      u = touchUpdate { s with
        boot := { s.boot with staging := memWrite s.boot.staging got d }
        mgmt := { s.mgmt with update := some (c, len, got + d.length) } } →
      exec (.firmwareDataReceive b d) s = .next (
        if got + d.length = len then respond b 1 0x16 [0x00] (u.wr SVY_RECOV_STATUS_BUSY 1) else requestPiece b (got + d.length) len u))
  ∧ (∀ (b c len r : Nat) (ok : Bool) (s u : State), s.mgmt.update = some (c, len, len) → s.mgmt.updateResult = none →
      r = s.updateCheck c len → u = respond b 1 0x17 (if r = 0 then [0x00] else leBytes 1 (0x90 + r % 0x20)) s →
      exec (.firmwareVerifyApply b ok) s = .next (
        let result := if r ≠ 0 then r else if ok then 0 else 0x09
        let t := if r ≠ 0 then u else if ok then respond b 1 0x18 [0x00] (installImage u)
          else respond b 1 0x18 [0x02] (failInstall u)
        answerCancel { endPackage result t with mgmt := { t.mgmt with updateResult := some result } }))
  ∧ (∀ (b c len got : Nat) (s : State), s.hasBinding b = true → s.mgmtReady b = true → s.mgmt.update = some (c, len, got) →
      s.mgmt.updateResult = some 0 →
      exec (.activateFirmware b false) s = .next (respond b 1 0x1A
        (if s.copyState c 0 = 1 ∨ s.copyState c 1 = 1 then [0x00] else [0x8B])
        { s with mgmt := { s.mgmt with update := none, updateResult := none } }))
  ∧ (∀ (b c len got : Nat) (s : State), s.hasBinding b = true → s.mgmtReady b = true → s.mgmt.update = some (c, len, got) →
      (got ≠ len ∨ s.mgmt.updateResult ≠ none) → exec (.cancelUpdate b) s
        = .next (respond b 1 0x1D [0x00] { s with mgmt := { s.mgmt with update := none, updateResult := none } }))
  ∧ (∀ (b c len : Nat) (s : State), s.hasBinding b = true → s.mgmtReady b = true → s.mgmt.update = some (c, len, len) →
      s.mgmt.updateResult = none → exec (.cancelUpdate b) s = .next { s with mgmt := { s.mgmt with
        cancel := some b
        outstanding := tblPut s.mgmt.outstanding b (tblGetD 0 s.mgmt.outstanding b + 1) } })
  ∧ (∀ s : State, s.mgmt.update ≠ none → s.mgmt.updateTouched + 60000000000 ≤ s.ns →
      exec .updateIdleTimeout s = .next (dropUpdate s))
  ∧ (∀ (b v : Nat) (o : Bool) (q : Bytes) (s u : State), s.hasBinding b = true → s.mgmtReady b = true →
      u = setSpdmStep b 1 { s with mgmt := { s.mgmt with
        spdmVersion := tblDel s.mgmt.spdmVersion b
        spdmLog := tblDel s.mgmt.spdmLog b } } →
      exec (.spdmNegotiate b 0x84 v o q) s = .next (spdmRespond b 0x04 q [0, 0, 0, 0x02, 0, 0x12, 0, 0x13] u))
  ∧ (∀ (b v : Nat) (o : Bool) (q : Bytes) (s u : State), s.hasBinding b = true → s.mgmtReady b = true → s.spdmStep b ≠ 0 →
      (v = 0x12 ∨ v = 0x13) → u = setSpdmStep b 2 { s with mgmt := { s.mgmt with spdmVersion := tblPut s.mgmt.spdmVersion b v } } →
      exec (.spdmNegotiate b 0xE1 v o q) s = .next (spdmRespond b 0x61 q
        ([0, 0, 0] ++ leBytes 1 u.draw.toNat ++ [0, 0] ++ leBytes 4 0x16 ++ leBytes 4 4224 ++ leBytes 4 4224) u.drawn))
  ∧ (∀ (b v : Nat) (q : Bytes) (s : State), s.hasBinding b = true → s.mgmtReady b = true → 2 ≤ s.spdmStep b →
      exec (.spdmNegotiate b 0xE3 v true q) s = .next (spdmRespond b 0x63 q ([0, 0] ++ leBytes 2 36 ++ [0x01, 0] ++ leBytes 4 4
        ++ leBytes 4 0x80 ++ leBytes 4 2 ++ List.replicate 12 0 ++ [0, 0, 0, 0]) (setSpdmStep b 3 s)))
  ∧ (∀ (b off len : Nat) (q part : Bytes) (s : State), s.hasBinding b = true → s.mgmtReady b = true → 3 ≤ s.spdmStep b →
      part = (Config.certChain.drop off).take (min len 4096) →
      exec (.spdmGetCertificate b 0 off len q) s = .next (if Config.certChain.length ≤ off then spdmError b 0x01 s
        else spdmRespond b 0x02 q ([0, 0] ++ leBytes 2 part.length ++ leBytes 2 (Config.certChain.length - off - part.length) ++ part) s))
  ∧ (∀ (b : Nat) (q body : Bytes) (s : State), s.hasBinding b = true → s.mgmtReady b = true → 3 ≤ s.spdmStep b →
      body = [0x00, 0x01] ++ leBytes 48 (Config.sha384 Config.certChain).toNat ++ (drawBytes 4 s).1 ++ [0x00, 0x00] →
      exec (.spdmChallenge b 0 q) s
        = .next (spdmRespond b 0x03 q (body ++ (drawBytes 4 s).2.spdmSign b q body 0) (drawBytes 4 s).2))
  ∧ (∀ (b i : Nat) (l : List Nat) (sg : Bool) (q body : Bytes) (s : State), s.hasBinding b = true → s.mgmtReady b = true →
      3 ≤ s.spdmStep b → (i = 0 ∨ i = 0xFF ∨ s.measurement i ≠ none) → l = (if i = 0 then [] else measureList i) →
      body = leBytes 1 (if i = 0 then 10 else 0) ++ [0x00] ++ leBytes 1 l.length ++ leBytes 3 (l.flatMap s.measureBlock).length
        ++ l.flatMap s.measureBlock ++ (drawBytes 4 s).1 ++ [0x00, 0x00] →
      exec (.spdmGetMeasurements b i sg q) s = .next (spdmRespond b 0x60 q
        (if sg then body ++ (drawBytes 4 s).2.spdmSign b q body 1 else body) (drawBytes 4 s).2))

/-- The data port and debug. A read of the lock claims a free port (R514), the owner's RELEASE and 1 s without an access free it (R514);
the owner reads and writes through the aperture (R515, R516) and starts a dump (R517), which is then captured; a nonce is drawn, a token
submitted and checked (R519), and debug locked; an instruction of the TAP runs within LEVEL (R518). -/
def Obligations.DataPortAndDebugComplete : Prop :=
  (∀ (p : Nat) (s : State), s.rd SVY_DP_LOCK_OWNER = 0 →
      exec (.dpLockClaim (.host p 0)) s = .next (
        let t := dpTouch (.host p 0) ((s.wr SVY_DP_LOCK_OWNER 1).wr SVY_DP_LOCK_PORT p)
        t.emit (.reply (.host p 0) (leBytes 4 (t.dpLock (.host p 0)))))
      ∧ exec (.dpLockClaim .bmc) s = .next (
        let t := dpTouch .bmc ((s.wr SVY_DP_LOCK_OWNER 2).wr SVY_DP_LOCK_PORT 0)
        t.emit (.reply .bmc (leBytes 4 (t.dpLock .bmc)))))
  ∧ (∀ (who : Party) (s : State), s.holdsPort who = true →
      exec (.dpRelease who) s = .next ((s.wr SVY_DP_LOCK_OWNER 0).wr SVY_DP_LOCK_PORT 0))
  ∧ (∀ s : State, s.rd SVY_DP_LOCK_OWNER ≠ 0 → s.mgmt.dpTouched + 1000000000 ≤ s.ns →
      exec .dpIdleTimeout s = .next ((s.wr SVY_DP_LOCK_OWNER 0).wr SVY_DP_LOCK_PORT 0))
  ∧ (∀ (who : Party) (off n : Nat) (s u : State), s.holdsPort who = true → dpAligned off n = true → u = dpTouch who s →
      exec (.dpApertureAccess who off n none) s = .next (
        let a := u.rd SVY_DP_ADDR_ADDR + off
        let space := u.rd SVY_DP_CTRL_SPACE
        (dpAdvance off n (dpMark who space a n u)).emit
          (.reply who ((List.range n).map (fun i => u.dpByte who space (a + i))))))
  ∧ (∀ (who : Party) (off n : Nat) (bs : Bytes) (s : State), s.holdsPort who = true → dpAligned off bs.length = true →
      exec (.dpApertureAccess who off n (some bs)) s = .next (dpWrite who off bs s))
  ∧ (∀ (who : Party) (s : State), s.holdsPort who = true →
      exec (.dpDump who) s = .next ((dpTouch who s).wr SVY_DP_STATUS_DUMP_BUSY 1))
  ∧ (∀ s : State, s.bit SVY_DP_STATUS_DUMP_BUSY = true → exec .dumpDone s = .next
      ((State.wr { s with mgmt := { s.mgmt with dump := s.dumpBytes } } SVY_DP_STATUS_DUMP_LEN s.dumpBytes.length).wr
        SVY_DP_STATUS_DUMP_BUSY 0))
  ∧ (∀ s : State, exec .debugNonceNew s = .next (
      let d := drawBytes 4 s
      let t := (List.range 8).foldl (fun t k =>
        t.setReg (MGT_DBG_NONCE k) (BitVec.ofNat 64 (ofLe ((d.1.drop (4 * k)).take 4)))) d.2
      { t with mgmt := { t.mgmt with nonceSet := true } }))
  ∧ (∀ s : State, exec .debugTokenSubmit s = .next (s.wr MGT_DBG_STATUS_BUSY 1))
  ∧ (∀ (r : Nat) (s t : State), s.bit MGT_DBG_STATUS_BUSY = true → r = s.tokenResult →
      t = (let u := (s.wr MGT_DBG_STATUS_BUSY 0).wr MGT_DBG_STATUS_RESULT r; { u with mgmt := { u.mgmt with nonceSet := false } }) →
      exec .debugTokenCheckDone s = .next (if r = 0 then t.wr MGT_DBG_STATUS_LEVEL (t.tokenN 6 1)
        else t.wr MGT_DBG_STATUS_FAILS (min 8 (t.rd MGT_DBG_STATUS_FAILS + 1))))
  ∧ (∀ s : State, exec .debugLock s = .next (s.wr MGT_DBG_STATUS_LEVEL 0))
  ∧ (∀ (k : Nat) (s : State), tapLevel k ≤ s.rd MGT_DBG_STATUS_LEVEL →
      exec (.tapInstructionLoad k) s = .next (State.emit { s with mgmt := { s.mgmt with tap := k } }
        (.tap k (if k = 0 then idcode else 0))))

/-! ## Power, clocks, temperature (chapter 20) -/

/-- Supply, thermal and clock events. A supply fault holds the device with THERMTRIP_N low (R529), a trip also sets TRIPPED (R533); a
sample within limits is read into its registers (R538, R539); a step of voltage is acknowledged and the next sent, or repeated with ERR
(R526, R527); a lost reference clock takes its links or lanes down, and returns (R532). -/
def Obligations.PowerAndClocksComplete : Prop :=
  (∀ s : State, exec .supplyFault s = .next (heldDown true 0 s))
  ∧ (∀ s : State, s.power.inReset = false → exec .thermalTrip s = .next (heldDown true 1 s))
  ∧ (∀ (temps : List Int) (power : Nat) (s : State), s.Wf → s.power.inReset = false → temps.length = 24 →
      (∀ n, n < 24 → -2048 ≤ temps.getD n 0 ∧ temps.getD n 0 ≤ 2047) → (∀ n, 20 ≤ n → n < 24 → temps.getD n 0 < 840) →
      Answers (.sensorSample temps power) s (fun t => (∀ n, n < 24 → t.temp n = temps.getD n 0)
        ∧ t.rd SVY_POWER_PKG = min power 8191 ∧ t.contracts = s.contracts ∧ t.mem = s.mem))
  ∧ (∀ (rail mv : Nat) (s : State), tblGet s.power.avsAsked rail = some mv →
      exec (.avsStepAck rail) s = .next (stepAvs rail (State.wr { s with
        power := { s.power with avsAsked := tblDel s.power.avsAsked rail } } (SVY_AVS_STATUS_VOUT_MV rail) mv))
      ∧ exec (.avsTimeout rail true) s = .next ((s.wr (SVY_AVS_STATUS_ERR rail) 1).emit (.avs rail mv)))
  ∧ (∀ (c : Nat) (s : State), c < 12 → exec (.refclkLoss c) s = .next ([0, 1, 2, 3].foldl (fun t k =>
      if t.portPresent (4 * c + k) then linkLost (4 * c + k) t else t) (setStationClock c true s))
      ∧ exec (.refclkReturn c) s = .next (setStationClock c false s))
  ∧ (∀ (m : Nat) (s t : State), m < 8 → t = { s with power := { s.power with
      netClkLost := if s.power.netClkLost.contains m then s.power.netClkLost else m :: s.power.netClkLost } } →
      exec (.refclkLoss (12 + m)) s = .next ((t.clockedPorts m).foldl (fun u p => nextOr u (execLinkLossOfLock p 0 u)) t))
  ∧ (∀ s : State, exec (.refclkLoss 20) s = .next { s with power := { s.power with sysClkLost := true } }
      ∧ exec (.refclkReturn 20) s = .next { s with power := { s.power with sysClkLost := false } })
  ∧ (∀ (m : Nat) (s : State), m < 8 → exec (.refclkReturn (12 + m)) s = .next { s with power := { s.power with
      netClkLost := s.power.netClkLost.filter (· != m) } })


/-! ## The whole device -/

/-- The command at the front of the queue runs with the rest of the queue. -/
def Obligations.StepRunsTheFrontCommand : Prop :=
  ∀ (c : Instr) (s : State) (rest : List Instr), s.pending = c :: rest → step s = exec c { s with pending := rest }

/-- On an empty queue a nanosecond of the reference passes (the model's choice, log entry 1): Datum counts it, what slewing adds stays
within SLEW_LIMIT parts per million, the remainder being carried (R35, R36), and in holdover the learned error of the oscillator is
corrected (R43); spine delays slew, and an oscillator may be measured. Nothing else changes, and nothing at all in power-on reset. -/
def Obligations.IdleStepCountsDatum : Prop :=
  (∀ s : State, s.pending = [] → s.power.inReset = true → step s = .next s)
  ∧ (∀ s : State, s.pending = [] → s.power.inReset = false → ∃ (c h : Int) (acc hacc : Nat) (o : Tbl Oscillator) (k : Nat),
      step s = .next { s with
        datum := s.datum + BitVec.ofInt 80 (65536 + c + h)
        dtm := { s.dtm with
          slew := s.dtm.slew - c
          slewAcc := acc
          holdAcc := hacc
          osc := o }
        islands := tblMap (fun _ x => x.slewed) s.islands
        fresh := k }
      ∧ c.natAbs * 1000000 ≤ s.dtm.slewAcc + s.rd DTM_CTRL_SLEW_LIMIT * 65536 ∧ c.natAbs ≤ s.dtm.slew.natAbs ∧ acc < 1000000
      ∧ h * 1000000000000 + hacc = s.dtm.holdAcc - 65536 * s.holdError ∧ hacc < 1000000000000)

/-- After reset every register holds the reset value of its register map, Datum stands at 0 (R35), no sheet, ring, contract, connection or
security association exists, the flight table is empty, and no command waits. -/
def Obligations.ResetLeavesRegisterMaps : Prop :=
  (∀ a : Nat, State.reset.reg a = regReset a) ∧ State.reset.datum = 0 ∧ State.reset.pending = [] ∧ State.reset.sheets = []
    ∧ State.reset.rings = [] ∧ State.reset.contracts = [] ∧ State.reset.conns = [] ∧ State.reset.sas = [] ∧ State.reset.voqs = []
    ∧ State.reset.flight = ⟨0, 0, 0, 0⟩ ∧ State.reset.rd DTM_CTRL_SLEW_LIMIT = 20 ∧ State.reset.rd DTM_STATUS_STATE = 0
    ∧ State.reset.rd SVY_BOOT_STATUS_STATE = 0 ∧ State.reset.rd MGT_DBG_STATUS_LEVEL = 0

/-- The state after reset is in canonical form. -/
def Obligations.ResetIsCanonical : Prop := State.reset.Wf

/-- Every step keeps the canonical form of every table, register file and memory, from every state that has it. -/
def Obligations.StepKeepsCanonicalForm : Prop := ∀ s t : State, s.Wf → step s = .next t → t.Wf

/-- Every command answers a next state from every state, and leaves the queue of waiting commands as it is. -/
def Obligations.EveryCommandAnswersAndKeepsTheQueue : Prop :=
  ∀ (c : Instr) (s : State), Answers c s (fun t => t.pending = s.pending)

/-- Only requests of hosts and register accesses put data into internal memory, at once, when an island that held them leaves reset, or
when a tag releases held outputs: under any other well-formed command each byte stays, or reads 0 from then on because its expander left
or the device was reset. Only an epoch advance, an owner slot revocation, or a boot that finds an advance unfinished changes the fuses
(R468, R469). -/
def Obligations.MemoryAndFusesChangeByTheirCommandsOnly : Prop :=
  (∀ (c : Instr) (s t : State), c.wf = true → (∀ p f bar off n data, c ≠ .hostMmioRequest p f bar off n data) →
      (∀ who a n v, c ≠ .registerWrite who a n v) → (∀ n ps, c ≠ .islandResetEnd n ps) → c ≠ .datumResume →
      (∀ k ok, c ≠ .imageTagCheck k ok) → exec c s = .next t → ∀ a, memGet t.mem a = memGet s.mem a ∨ memGet t.mem a = 0)
  ∧ (∀ (c : Instr) (s t : State), (∀ ok, c ≠ .epochAdvance ok) → c ≠ .ownerSlotRevoke → (∀ f, c ≠ .powerOnReset f) →
      s.boot.found.nextEpoch = false → exec c s = .next t → t.boot.fuses = s.boot.fuses)

/-- A host's write through a window onto memory changes no byte outside the bytes it writes, at the window's target plus the offset in
the window (R122); those bytes hold the data, unless the memory firewall keeps the region (R30). -/
def Obligations.HostMemoryWriteChangesItsBytesOnly : Prop :=
  ∀ (p f bar off a : Nat) (bs : Bytes) (w : Win) (s : State), s.Wf → s.linkUp p = true → (s.func p f).present = true → bar ≤ 1 →
    bs ≠ [] → off + bs.length ≤ s.barSize p f bar → (bar = 1 ∨ off < s.barSize p f bar - 65536) →
    s.windowAt p f bar off = some w → off + bs.length ≤ w.offset + 2 ^ w.sizeLog2 → w.wrDis = false →
    s.rd SVY_BOOT_STATUS_STATE ≠ 4 → (w.kind = 4 ∨ w.kind = 5) → a = w.target + (off - w.offset) → s.lockedHold a = none →
    s.memThere a = true →
    Answers (.hostMmioRequest p f bar off 0 (some bs)) s (fun t =>
      (∀ x, x < a ∨ a + bs.length ≤ x → memGet t.mem x = memGet s.mem x)
      ∧ (if s.firewalled a then t.mem = s.mem else ∀ i, i < bs.length → memGet t.mem (a + i) = bs.getD i 0)
      ∧ t.regs.filter (fun r => r.1 / 0x1000000 != 0x10) = s.regs.filter (fun r => r.1 / 0x1000000 != 0x10)
      ∧ t.contracts = s.contracts ∧ t.rings = s.rings ∧ t.sheets = s.sheets)

/-- A write of a register by its fields' access codes, Table 0.5 (R9): each field holds what its code says, with a "stored as" rule of
its map applied to what software writes; a bit of no field keeps its value (R10); no other register changes. Commands that write
registers go through this write. -/
def Obligations.RegisterWriteFollowsAccessCodes : Prop :=
  ∀ (a b : Nat) (v : BitVec 64) (r : RegSpec) (s : State), findReg a = some (r, b) →
    (∀ f ∈ r.fields, getField ((s.plainWrite a v).reg b) f.lo f.width
      = fieldAfter f (s.bit SVY_BOOT_STATUS_SEALED) (getField (s.reg b) f.lo f.width) (getField v f.lo f.width))
    ∧ (∀ i, i < 64 → (∀ f ∈ r.fields, i < f.lo ∨ f.lo + f.width ≤ i) → ((s.plainWrite a v).reg b).getLsbD i = (s.reg b).getLsbD i)
    ∧ (∀ c, canonAddr c ≠ canonAddr b → (s.plainWrite a v).reg c = s.reg c)

/-- A DB_PRODUCE write (R174): the ring's PI takes PI_new exactly when the ring is RUNNING, (PI_new - HEAD) mod 2^32 is at most SIZE
and (PI_new - PI) mod 2^32 lies in 1 to 2^31 - 1; PI_new = PI has no effect; every other write, and one that names no open ring, is
counted in RNG_DB_DROP and raises DB_BAD. Of a sheet that is ACTIVE or in DEBUG (Table 6.7). -/
def Obligations.DoorbellAcceptsOrCounts : Prop :=
  ∀ (n loc pi : Nat) (s : State), n < 4096 → loc < 65536 → pi < 2 ^ 32 →
    ((s.sheet n).state = .active ∨ (s.sheet n).state = .debug) →
    (s.findRing n loc = none →
      exec (.doorbellWrite n loc pi false) s = .next (raise RNG_EVENT_DB_BAD (s.count RNG_DB_DROP_COUNT 1)))
    ∧ (∀ (g : Nat) (r : Ring), s.findRing n loc = some (g, r) → s.ring? g = some r →
        (pi = r.pi.toNat → exec (.doorbellWrite n loc pi false) s = .next s)
        ∧ (r.state = .running ∧ (pi + 2 ^ 32 - r.head.toNat) % 2 ^ 32 ≤ 2 ^ r.sizeLog2 ∧ 1 ≤ (pi + 2 ^ 32 - r.pi.toNat) % 2 ^ 32
            ∧ (pi + 2 ^ 32 - r.pi.toNat) % 2 ^ 32 ≤ 2 ^ 31 - 1 →
          Answers (.doorbellWrite n loc pi false) s (fun t => ∃ q : Ring, t.ring? g = some q ∧ q.pi.toNat = pi ∧ q.head = r.head
            ∧ q.fetch = r.fetch ∧ q.jobs = r.jobs ∧ q.state = .running ∧ (∀ k, k ≠ g → t.ring? k = s.ring? k) ∧ t.regs = s.regs))
        ∧ (pi ≠ r.pi.toNat → ¬ (r.state = .running
            ∧ (pi + 2 ^ 32 - r.head.toNat) % 2 ^ 32 ≤ 2 ^ r.sizeLog2 ∧ 1 ≤ (pi + 2 ^ 32 - r.pi.toNat) % 2 ^ 32
            ∧ (pi + 2 ^ 32 - r.pi.toNat) % 2 ^ 32 ≤ 2 ^ 31 - 1) →
          exec (.doorbellWrite n loc pi false) s = .next (raise RNG_EVENT_DB_BAD (s.count RNG_DB_DROP_COUNT 1))))

/-- FENCE (R181): an entry with FENCE = 1 of an admin (kind 0) or DMA (kind 3) ring starts only when every earlier entry of the ring has
completed and its completion is written; an entry after a fenced one that runs may start before it completes. -/
def Obligations.FenceWaitsForEarlierEntries : Prop :=
  (∀ (g : Nat) (ops : Nat → Bool) (r : Ring) (j : Job) (s : State), s.startable g ops = some (r, j) → (r.kind = 0 ∨ r.kind = 3) →
      fenceBit j.first = true → ∃ earlier later, r.jobs = earlier ++ j :: later ∧ ∀ k ∈ earlier, k.phase = .written)
  ∧ (∀ (g : Nat) (ops : Nat → Bool) (r : Ring) (j k : Job) (earlier later : List Job) (s : State), s.ring? g = some r →
      r.state = .running → (s.sheet r.sheet).state = .active → r.jobs = earlier ++ j :: k :: later →
      (∀ x ∈ earlier, x.phase = .written) → fenceBit j.first = true → j.phase = .running → k.phase = .fetched →
      fenceBit k.first = false → ops (opcode k.first) = true → kindAccepts r.kind (opcode k.first) = true →
      s.startable g ops = some (r, k))
end

