-- ==== Sys2Proof/Laws/State.lean ====
section
/-! SUPPORT. What each update of the state leaves: one lemma for each update and each field it does not write. -/

namespace Sys2Proof.Machine

/-! ## State.setReg: writes regs -/

@[simp] theorem State.setReg_pending (s : State) (a : Nat) (v : BitVec 64) : (s.setReg a v).pending = s.pending := rfl
@[simp] theorem State.setReg_outs (s : State) (a : Nat) (v : BitVec 64) : (s.setReg a v).outs = s.outs := rfl
@[simp] theorem State.setReg_fresh (s : State) (a : Nat) (v : BitVec 64) : (s.setReg a v).fresh = s.fresh := rfl
@[simp] theorem State.setReg_datum (s : State) (a : Nat) (v : BitVec 64) : (s.setReg a v).datum = s.datum := rfl
@[simp] theorem State.setReg_mem (s : State) (a : Nat) (v : BitVec 64) : (s.setReg a v).mem = s.mem := rfl
@[simp] theorem State.setReg_dtm (s : State) (a : Nat) (v : BitVec 64) : (s.setReg a v).dtm = s.dtm := rfl
@[simp] theorem State.setReg_contracts (s : State) (a : Nat) (v : BitVec 64) : (s.setReg a v).contracts = s.contracts := rfl
@[simp] theorem State.setReg_grt (s : State) (a : Nat) (v : BitVec 64) : (s.setReg a v).grt = s.grt := rfl
@[simp] theorem State.setReg_islands (s : State) (a : Nat) (v : BitVec 64) : (s.setReg a v).islands = s.islands := rfl
@[simp] theorem State.setReg_ports (s : State) (a : Nat) (v : BitVec 64) : (s.setReg a v).ports = s.ports := rfl
@[simp] theorem State.setReg_funcs (s : State) (a : Nat) (v : BitVec 64) : (s.setReg a v).funcs = s.funcs := rfl
@[simp] theorem State.setReg_vectors (s : State) (a : Nat) (v : BitVec 64) : (s.setReg a v).vectors = s.vectors := rfl
@[simp] theorem State.setReg_reads (s : State) (a : Nat) (v : BitVec 64) : (s.setReg a v).reads = s.reads := rfl
@[simp] theorem State.setReg_flight (s : State) (a : Nat) (v : BitVec 64) : (s.setReg a v).flight = s.flight := rfl
@[simp] theorem State.setReg_cxlNext (s : State) (a : Nat) (v : BitVec 64) : (s.setReg a v).cxlNext = s.cxlNext := rfl
@[simp] theorem State.setReg_cxlFree (s : State) (a : Nat) (v : BitVec 64) : (s.setReg a v).cxlFree = s.cxlFree := rfl
@[simp] theorem State.setReg_sheets (s : State) (a : Nat) (v : BitVec 64) : (s.setReg a v).sheets = s.sheets := rfl
@[simp] theorem State.setReg_rings (s : State) (a : Nat) (v : BitVec 64) : (s.setReg a v).rings = s.rings := rfl
@[simp] theorem State.setReg_cairns (s : State) (a : Nat) (v : BitVec 64) : (s.setReg a v).cairns = s.cairns := rfl
@[simp] theorem State.setReg_health (s : State) (a : Nat) (v : BitVec 64) : (s.setReg a v).health = s.health := rfl
@[simp] theorem State.setReg_mgmt (s : State) (a : Nat) (v : BitVec 64) : (s.setReg a v).mgmt = s.mgmt := rfl
@[simp] theorem State.setReg_power (s : State) (a : Nat) (v : BitVec 64) : (s.setReg a v).power = s.power := rfl
@[simp] theorem State.setReg_voqs (s : State) (a : Nat) (v : BitVec 64) : (s.setReg a v).voqs = s.voqs := rfl
@[simp] theorem State.setReg_sas (s : State) (a : Nat) (v : BitVec 64) : (s.setReg a v).sas = s.sas := rfl
@[simp] theorem State.setReg_net (s : State) (a : Nat) (v : BitVec 64) : (s.setReg a v).net = s.net := rfl
@[simp] theorem State.setReg_pipe (s : State) (a : Nat) (v : BitVec 64) : (s.setReg a v).pipe = s.pipe := rfl
@[simp] theorem State.setReg_swc (s : State) (a : Nat) (v : BitVec 64) : (s.setReg a v).swc = s.swc := rfl
@[simp] theorem State.setReg_tables (s : State) (a : Nat) (v : BitVec 64) : (s.setReg a v).tables = s.tables := rfl
@[simp] theorem State.setReg_cipher (s : State) (a : Nat) (v : BitVec 64) : (s.setReg a v).cipher = s.cipher := rfl
@[simp] theorem State.setReg_conns (s : State) (a : Nat) (v : BitVec 64) : (s.setReg a v).conns = s.conns := rfl
@[simp] theorem State.setReg_ctrls (s : State) (a : Nat) (v : BitVec 64) : (s.setReg a v).ctrls = s.ctrls := rfl
@[simp] theorem State.setReg_rlt (s : State) (a : Nat) (v : BitVec 64) : (s.setReg a v).rlt = s.rlt := rfl
@[simp] theorem State.setReg_sto (s : State) (a : Nat) (v : BitVec 64) : (s.setReg a v).sto = s.sto := rfl
@[simp] theorem State.setReg_pnl (s : State) (a : Nat) (v : BitVec 64) : (s.setReg a v).pnl = s.pnl := rfl
@[simp] theorem State.setReg_boot (s : State) (a : Nat) (v : BitVec 64) : (s.setReg a v).boot = s.boot := rfl

/-! ## State.wr: writes regs -/

@[simp] theorem State.wr_pending (s : State) (f : Fld) (x : Nat) : (s.wr f x).pending = s.pending := rfl
@[simp] theorem State.wr_outs (s : State) (f : Fld) (x : Nat) : (s.wr f x).outs = s.outs := rfl
@[simp] theorem State.wr_fresh (s : State) (f : Fld) (x : Nat) : (s.wr f x).fresh = s.fresh := rfl
@[simp] theorem State.wr_datum (s : State) (f : Fld) (x : Nat) : (s.wr f x).datum = s.datum := rfl
@[simp] theorem State.wr_mem (s : State) (f : Fld) (x : Nat) : (s.wr f x).mem = s.mem := rfl
@[simp] theorem State.wr_dtm (s : State) (f : Fld) (x : Nat) : (s.wr f x).dtm = s.dtm := rfl
@[simp] theorem State.wr_contracts (s : State) (f : Fld) (x : Nat) : (s.wr f x).contracts = s.contracts := rfl
@[simp] theorem State.wr_grt (s : State) (f : Fld) (x : Nat) : (s.wr f x).grt = s.grt := rfl
@[simp] theorem State.wr_islands (s : State) (f : Fld) (x : Nat) : (s.wr f x).islands = s.islands := rfl
@[simp] theorem State.wr_ports (s : State) (f : Fld) (x : Nat) : (s.wr f x).ports = s.ports := rfl
@[simp] theorem State.wr_funcs (s : State) (f : Fld) (x : Nat) : (s.wr f x).funcs = s.funcs := rfl
@[simp] theorem State.wr_vectors (s : State) (f : Fld) (x : Nat) : (s.wr f x).vectors = s.vectors := rfl
@[simp] theorem State.wr_reads (s : State) (f : Fld) (x : Nat) : (s.wr f x).reads = s.reads := rfl
@[simp] theorem State.wr_flight (s : State) (f : Fld) (x : Nat) : (s.wr f x).flight = s.flight := rfl
@[simp] theorem State.wr_cxlNext (s : State) (f : Fld) (x : Nat) : (s.wr f x).cxlNext = s.cxlNext := rfl
@[simp] theorem State.wr_cxlFree (s : State) (f : Fld) (x : Nat) : (s.wr f x).cxlFree = s.cxlFree := rfl
@[simp] theorem State.wr_sheets (s : State) (f : Fld) (x : Nat) : (s.wr f x).sheets = s.sheets := rfl
@[simp] theorem State.wr_rings (s : State) (f : Fld) (x : Nat) : (s.wr f x).rings = s.rings := rfl
@[simp] theorem State.wr_cairns (s : State) (f : Fld) (x : Nat) : (s.wr f x).cairns = s.cairns := rfl
@[simp] theorem State.wr_health (s : State) (f : Fld) (x : Nat) : (s.wr f x).health = s.health := rfl
@[simp] theorem State.wr_mgmt (s : State) (f : Fld) (x : Nat) : (s.wr f x).mgmt = s.mgmt := rfl
@[simp] theorem State.wr_power (s : State) (f : Fld) (x : Nat) : (s.wr f x).power = s.power := rfl
@[simp] theorem State.wr_voqs (s : State) (f : Fld) (x : Nat) : (s.wr f x).voqs = s.voqs := rfl
@[simp] theorem State.wr_sas (s : State) (f : Fld) (x : Nat) : (s.wr f x).sas = s.sas := rfl
@[simp] theorem State.wr_net (s : State) (f : Fld) (x : Nat) : (s.wr f x).net = s.net := rfl
@[simp] theorem State.wr_pipe (s : State) (f : Fld) (x : Nat) : (s.wr f x).pipe = s.pipe := rfl
@[simp] theorem State.wr_swc (s : State) (f : Fld) (x : Nat) : (s.wr f x).swc = s.swc := rfl
@[simp] theorem State.wr_tables (s : State) (f : Fld) (x : Nat) : (s.wr f x).tables = s.tables := rfl
@[simp] theorem State.wr_cipher (s : State) (f : Fld) (x : Nat) : (s.wr f x).cipher = s.cipher := rfl
@[simp] theorem State.wr_conns (s : State) (f : Fld) (x : Nat) : (s.wr f x).conns = s.conns := rfl
@[simp] theorem State.wr_ctrls (s : State) (f : Fld) (x : Nat) : (s.wr f x).ctrls = s.ctrls := rfl
@[simp] theorem State.wr_rlt (s : State) (f : Fld) (x : Nat) : (s.wr f x).rlt = s.rlt := rfl
@[simp] theorem State.wr_sto (s : State) (f : Fld) (x : Nat) : (s.wr f x).sto = s.sto := rfl
@[simp] theorem State.wr_pnl (s : State) (f : Fld) (x : Nat) : (s.wr f x).pnl = s.pnl := rfl
@[simp] theorem State.wr_boot (s : State) (f : Fld) (x : Nat) : (s.wr f x).boot = s.boot := rfl

/-! ## State.count: writes regs -/

@[simp] theorem State.count_pending (s : State) (f : Fld) (n : Nat) : (s.count f n).pending = s.pending := rfl
@[simp] theorem State.count_outs (s : State) (f : Fld) (n : Nat) : (s.count f n).outs = s.outs := rfl
@[simp] theorem State.count_fresh (s : State) (f : Fld) (n : Nat) : (s.count f n).fresh = s.fresh := rfl
@[simp] theorem State.count_datum (s : State) (f : Fld) (n : Nat) : (s.count f n).datum = s.datum := rfl
@[simp] theorem State.count_mem (s : State) (f : Fld) (n : Nat) : (s.count f n).mem = s.mem := rfl
@[simp] theorem State.count_dtm (s : State) (f : Fld) (n : Nat) : (s.count f n).dtm = s.dtm := rfl
@[simp] theorem State.count_contracts (s : State) (f : Fld) (n : Nat) : (s.count f n).contracts = s.contracts := rfl
@[simp] theorem State.count_grt (s : State) (f : Fld) (n : Nat) : (s.count f n).grt = s.grt := rfl
@[simp] theorem State.count_islands (s : State) (f : Fld) (n : Nat) : (s.count f n).islands = s.islands := rfl
@[simp] theorem State.count_ports (s : State) (f : Fld) (n : Nat) : (s.count f n).ports = s.ports := rfl
@[simp] theorem State.count_funcs (s : State) (f : Fld) (n : Nat) : (s.count f n).funcs = s.funcs := rfl
@[simp] theorem State.count_vectors (s : State) (f : Fld) (n : Nat) : (s.count f n).vectors = s.vectors := rfl
@[simp] theorem State.count_reads (s : State) (f : Fld) (n : Nat) : (s.count f n).reads = s.reads := rfl
@[simp] theorem State.count_flight (s : State) (f : Fld) (n : Nat) : (s.count f n).flight = s.flight := rfl
@[simp] theorem State.count_cxlNext (s : State) (f : Fld) (n : Nat) : (s.count f n).cxlNext = s.cxlNext := rfl
@[simp] theorem State.count_cxlFree (s : State) (f : Fld) (n : Nat) : (s.count f n).cxlFree = s.cxlFree := rfl
@[simp] theorem State.count_sheets (s : State) (f : Fld) (n : Nat) : (s.count f n).sheets = s.sheets := rfl
@[simp] theorem State.count_rings (s : State) (f : Fld) (n : Nat) : (s.count f n).rings = s.rings := rfl
@[simp] theorem State.count_cairns (s : State) (f : Fld) (n : Nat) : (s.count f n).cairns = s.cairns := rfl
@[simp] theorem State.count_health (s : State) (f : Fld) (n : Nat) : (s.count f n).health = s.health := rfl
@[simp] theorem State.count_mgmt (s : State) (f : Fld) (n : Nat) : (s.count f n).mgmt = s.mgmt := rfl
@[simp] theorem State.count_power (s : State) (f : Fld) (n : Nat) : (s.count f n).power = s.power := rfl
@[simp] theorem State.count_voqs (s : State) (f : Fld) (n : Nat) : (s.count f n).voqs = s.voqs := rfl
@[simp] theorem State.count_sas (s : State) (f : Fld) (n : Nat) : (s.count f n).sas = s.sas := rfl
@[simp] theorem State.count_net (s : State) (f : Fld) (n : Nat) : (s.count f n).net = s.net := rfl
@[simp] theorem State.count_pipe (s : State) (f : Fld) (n : Nat) : (s.count f n).pipe = s.pipe := rfl
@[simp] theorem State.count_swc (s : State) (f : Fld) (n : Nat) : (s.count f n).swc = s.swc := rfl
@[simp] theorem State.count_tables (s : State) (f : Fld) (n : Nat) : (s.count f n).tables = s.tables := rfl
@[simp] theorem State.count_cipher (s : State) (f : Fld) (n : Nat) : (s.count f n).cipher = s.cipher := rfl
@[simp] theorem State.count_conns (s : State) (f : Fld) (n : Nat) : (s.count f n).conns = s.conns := rfl
@[simp] theorem State.count_ctrls (s : State) (f : Fld) (n : Nat) : (s.count f n).ctrls = s.ctrls := rfl
@[simp] theorem State.count_rlt (s : State) (f : Fld) (n : Nat) : (s.count f n).rlt = s.rlt := rfl
@[simp] theorem State.count_sto (s : State) (f : Fld) (n : Nat) : (s.count f n).sto = s.sto := rfl
@[simp] theorem State.count_pnl (s : State) (f : Fld) (n : Nat) : (s.count f n).pnl = s.pnl := rfl
@[simp] theorem State.count_boot (s : State) (f : Fld) (n : Nat) : (s.count f n).boot = s.boot := rfl

/-! ## State.emit: writes outs -/

@[simp] theorem State.emit_pending (s : State) (o : Out) : (s.emit o).pending = s.pending := rfl
@[simp] theorem State.emit_fresh (s : State) (o : Out) : (s.emit o).fresh = s.fresh := rfl
@[simp] theorem State.emit_datum (s : State) (o : Out) : (s.emit o).datum = s.datum := rfl
@[simp] theorem State.emit_regs (s : State) (o : Out) : (s.emit o).regs = s.regs := rfl
@[simp] theorem State.emit_mem (s : State) (o : Out) : (s.emit o).mem = s.mem := rfl
@[simp] theorem State.emit_dtm (s : State) (o : Out) : (s.emit o).dtm = s.dtm := rfl
@[simp] theorem State.emit_contracts (s : State) (o : Out) : (s.emit o).contracts = s.contracts := rfl
@[simp] theorem State.emit_grt (s : State) (o : Out) : (s.emit o).grt = s.grt := rfl
@[simp] theorem State.emit_islands (s : State) (o : Out) : (s.emit o).islands = s.islands := rfl
@[simp] theorem State.emit_ports (s : State) (o : Out) : (s.emit o).ports = s.ports := rfl
@[simp] theorem State.emit_funcs (s : State) (o : Out) : (s.emit o).funcs = s.funcs := rfl
@[simp] theorem State.emit_vectors (s : State) (o : Out) : (s.emit o).vectors = s.vectors := rfl
@[simp] theorem State.emit_reads (s : State) (o : Out) : (s.emit o).reads = s.reads := rfl
@[simp] theorem State.emit_flight (s : State) (o : Out) : (s.emit o).flight = s.flight := rfl
@[simp] theorem State.emit_cxlNext (s : State) (o : Out) : (s.emit o).cxlNext = s.cxlNext := rfl
@[simp] theorem State.emit_cxlFree (s : State) (o : Out) : (s.emit o).cxlFree = s.cxlFree := rfl
@[simp] theorem State.emit_sheets (s : State) (o : Out) : (s.emit o).sheets = s.sheets := rfl
@[simp] theorem State.emit_rings (s : State) (o : Out) : (s.emit o).rings = s.rings := rfl
@[simp] theorem State.emit_cairns (s : State) (o : Out) : (s.emit o).cairns = s.cairns := rfl
@[simp] theorem State.emit_health (s : State) (o : Out) : (s.emit o).health = s.health := rfl
@[simp] theorem State.emit_mgmt (s : State) (o : Out) : (s.emit o).mgmt = s.mgmt := rfl
@[simp] theorem State.emit_power (s : State) (o : Out) : (s.emit o).power = s.power := rfl
@[simp] theorem State.emit_voqs (s : State) (o : Out) : (s.emit o).voqs = s.voqs := rfl
@[simp] theorem State.emit_sas (s : State) (o : Out) : (s.emit o).sas = s.sas := rfl
@[simp] theorem State.emit_net (s : State) (o : Out) : (s.emit o).net = s.net := rfl
@[simp] theorem State.emit_pipe (s : State) (o : Out) : (s.emit o).pipe = s.pipe := rfl
@[simp] theorem State.emit_swc (s : State) (o : Out) : (s.emit o).swc = s.swc := rfl
@[simp] theorem State.emit_tables (s : State) (o : Out) : (s.emit o).tables = s.tables := rfl
@[simp] theorem State.emit_cipher (s : State) (o : Out) : (s.emit o).cipher = s.cipher := rfl
@[simp] theorem State.emit_conns (s : State) (o : Out) : (s.emit o).conns = s.conns := rfl
@[simp] theorem State.emit_ctrls (s : State) (o : Out) : (s.emit o).ctrls = s.ctrls := rfl
@[simp] theorem State.emit_rlt (s : State) (o : Out) : (s.emit o).rlt = s.rlt := rfl
@[simp] theorem State.emit_sto (s : State) (o : Out) : (s.emit o).sto = s.sto := rfl
@[simp] theorem State.emit_pnl (s : State) (o : Out) : (s.emit o).pnl = s.pnl := rfl
@[simp] theorem State.emit_boot (s : State) (o : Out) : (s.emit o).boot = s.boot := rfl
@[simp] theorem State.emit_reg (s : State) (o : Out) (addr : Nat) : (s.emit o).reg addr = s.reg addr := rfl
@[simp] theorem State.emit_rd (s : State) (o : Out) (fld : Fld) : (s.emit o).rd fld = s.rd fld := rfl
@[simp] theorem State.emit_bit (s : State) (o : Out) (fld : Fld) : (s.emit o).bit fld = s.bit fld := rfl

/-! ## State.drawn: writes fresh -/

@[simp] theorem State.drawn_pending (s : State) : (s.drawn).pending = s.pending := rfl
@[simp] theorem State.drawn_outs (s : State) : (s.drawn).outs = s.outs := rfl
@[simp] theorem State.drawn_datum (s : State) : (s.drawn).datum = s.datum := rfl
@[simp] theorem State.drawn_regs (s : State) : (s.drawn).regs = s.regs := rfl
@[simp] theorem State.drawn_mem (s : State) : (s.drawn).mem = s.mem := rfl
@[simp] theorem State.drawn_dtm (s : State) : (s.drawn).dtm = s.dtm := rfl
@[simp] theorem State.drawn_contracts (s : State) : (s.drawn).contracts = s.contracts := rfl
@[simp] theorem State.drawn_grt (s : State) : (s.drawn).grt = s.grt := rfl
@[simp] theorem State.drawn_islands (s : State) : (s.drawn).islands = s.islands := rfl
@[simp] theorem State.drawn_ports (s : State) : (s.drawn).ports = s.ports := rfl
@[simp] theorem State.drawn_funcs (s : State) : (s.drawn).funcs = s.funcs := rfl
@[simp] theorem State.drawn_vectors (s : State) : (s.drawn).vectors = s.vectors := rfl
@[simp] theorem State.drawn_reads (s : State) : (s.drawn).reads = s.reads := rfl
@[simp] theorem State.drawn_flight (s : State) : (s.drawn).flight = s.flight := rfl
@[simp] theorem State.drawn_cxlNext (s : State) : (s.drawn).cxlNext = s.cxlNext := rfl
@[simp] theorem State.drawn_cxlFree (s : State) : (s.drawn).cxlFree = s.cxlFree := rfl
@[simp] theorem State.drawn_sheets (s : State) : (s.drawn).sheets = s.sheets := rfl
@[simp] theorem State.drawn_rings (s : State) : (s.drawn).rings = s.rings := rfl
@[simp] theorem State.drawn_cairns (s : State) : (s.drawn).cairns = s.cairns := rfl
@[simp] theorem State.drawn_health (s : State) : (s.drawn).health = s.health := rfl
@[simp] theorem State.drawn_mgmt (s : State) : (s.drawn).mgmt = s.mgmt := rfl
@[simp] theorem State.drawn_power (s : State) : (s.drawn).power = s.power := rfl
@[simp] theorem State.drawn_voqs (s : State) : (s.drawn).voqs = s.voqs := rfl
@[simp] theorem State.drawn_sas (s : State) : (s.drawn).sas = s.sas := rfl
@[simp] theorem State.drawn_net (s : State) : (s.drawn).net = s.net := rfl
@[simp] theorem State.drawn_pipe (s : State) : (s.drawn).pipe = s.pipe := rfl
@[simp] theorem State.drawn_swc (s : State) : (s.drawn).swc = s.swc := rfl
@[simp] theorem State.drawn_tables (s : State) : (s.drawn).tables = s.tables := rfl
@[simp] theorem State.drawn_cipher (s : State) : (s.drawn).cipher = s.cipher := rfl
@[simp] theorem State.drawn_conns (s : State) : (s.drawn).conns = s.conns := rfl
@[simp] theorem State.drawn_ctrls (s : State) : (s.drawn).ctrls = s.ctrls := rfl
@[simp] theorem State.drawn_rlt (s : State) : (s.drawn).rlt = s.rlt := rfl
@[simp] theorem State.drawn_sto (s : State) : (s.drawn).sto = s.sto := rfl
@[simp] theorem State.drawn_pnl (s : State) : (s.drawn).pnl = s.pnl := rfl
@[simp] theorem State.drawn_boot (s : State) : (s.drawn).boot = s.boot := rfl
@[simp] theorem State.drawn_reg (s : State) (addr : Nat) : (s.drawn).reg addr = s.reg addr := rfl
@[simp] theorem State.drawn_rd (s : State) (fld : Fld) : (s.drawn).rd fld = s.rd fld := rfl
@[simp] theorem State.drawn_bit (s : State) (fld : Fld) : (s.drawn).bit fld = s.bit fld := rfl

/-! ## State.setPort: writes ports -/

@[simp] theorem State.setPort_pending (s : State) (p : Nat) (x : HostPort) : (s.setPort p x).pending = s.pending := rfl
@[simp] theorem State.setPort_outs (s : State) (p : Nat) (x : HostPort) : (s.setPort p x).outs = s.outs := rfl
@[simp] theorem State.setPort_fresh (s : State) (p : Nat) (x : HostPort) : (s.setPort p x).fresh = s.fresh := rfl
@[simp] theorem State.setPort_datum (s : State) (p : Nat) (x : HostPort) : (s.setPort p x).datum = s.datum := rfl
@[simp] theorem State.setPort_regs (s : State) (p : Nat) (x : HostPort) : (s.setPort p x).regs = s.regs := rfl
@[simp] theorem State.setPort_mem (s : State) (p : Nat) (x : HostPort) : (s.setPort p x).mem = s.mem := rfl
@[simp] theorem State.setPort_dtm (s : State) (p : Nat) (x : HostPort) : (s.setPort p x).dtm = s.dtm := rfl
@[simp] theorem State.setPort_contracts (s : State) (p : Nat) (x : HostPort) : (s.setPort p x).contracts = s.contracts := rfl
@[simp] theorem State.setPort_grt (s : State) (p : Nat) (x : HostPort) : (s.setPort p x).grt = s.grt := rfl
@[simp] theorem State.setPort_islands (s : State) (p : Nat) (x : HostPort) : (s.setPort p x).islands = s.islands := rfl
@[simp] theorem State.setPort_funcs (s : State) (p : Nat) (x : HostPort) : (s.setPort p x).funcs = s.funcs := rfl
@[simp] theorem State.setPort_vectors (s : State) (p : Nat) (x : HostPort) : (s.setPort p x).vectors = s.vectors := rfl
@[simp] theorem State.setPort_reads (s : State) (p : Nat) (x : HostPort) : (s.setPort p x).reads = s.reads := rfl
@[simp] theorem State.setPort_flight (s : State) (p : Nat) (x : HostPort) : (s.setPort p x).flight = s.flight := rfl
@[simp] theorem State.setPort_cxlNext (s : State) (p : Nat) (x : HostPort) : (s.setPort p x).cxlNext = s.cxlNext := rfl
@[simp] theorem State.setPort_cxlFree (s : State) (p : Nat) (x : HostPort) : (s.setPort p x).cxlFree = s.cxlFree := rfl
@[simp] theorem State.setPort_sheets (s : State) (p : Nat) (x : HostPort) : (s.setPort p x).sheets = s.sheets := rfl
@[simp] theorem State.setPort_rings (s : State) (p : Nat) (x : HostPort) : (s.setPort p x).rings = s.rings := rfl
@[simp] theorem State.setPort_cairns (s : State) (p : Nat) (x : HostPort) : (s.setPort p x).cairns = s.cairns := rfl
@[simp] theorem State.setPort_health (s : State) (p : Nat) (x : HostPort) : (s.setPort p x).health = s.health := rfl
@[simp] theorem State.setPort_mgmt (s : State) (p : Nat) (x : HostPort) : (s.setPort p x).mgmt = s.mgmt := rfl
@[simp] theorem State.setPort_power (s : State) (p : Nat) (x : HostPort) : (s.setPort p x).power = s.power := rfl
@[simp] theorem State.setPort_voqs (s : State) (p : Nat) (x : HostPort) : (s.setPort p x).voqs = s.voqs := rfl
@[simp] theorem State.setPort_sas (s : State) (p : Nat) (x : HostPort) : (s.setPort p x).sas = s.sas := rfl
@[simp] theorem State.setPort_net (s : State) (p : Nat) (x : HostPort) : (s.setPort p x).net = s.net := rfl
@[simp] theorem State.setPort_pipe (s : State) (p : Nat) (x : HostPort) : (s.setPort p x).pipe = s.pipe := rfl
@[simp] theorem State.setPort_swc (s : State) (p : Nat) (x : HostPort) : (s.setPort p x).swc = s.swc := rfl
@[simp] theorem State.setPort_tables (s : State) (p : Nat) (x : HostPort) : (s.setPort p x).tables = s.tables := rfl
@[simp] theorem State.setPort_cipher (s : State) (p : Nat) (x : HostPort) : (s.setPort p x).cipher = s.cipher := rfl
@[simp] theorem State.setPort_conns (s : State) (p : Nat) (x : HostPort) : (s.setPort p x).conns = s.conns := rfl
@[simp] theorem State.setPort_ctrls (s : State) (p : Nat) (x : HostPort) : (s.setPort p x).ctrls = s.ctrls := rfl
@[simp] theorem State.setPort_rlt (s : State) (p : Nat) (x : HostPort) : (s.setPort p x).rlt = s.rlt := rfl
@[simp] theorem State.setPort_sto (s : State) (p : Nat) (x : HostPort) : (s.setPort p x).sto = s.sto := rfl
@[simp] theorem State.setPort_pnl (s : State) (p : Nat) (x : HostPort) : (s.setPort p x).pnl = s.pnl := rfl
@[simp] theorem State.setPort_boot (s : State) (p : Nat) (x : HostPort) : (s.setPort p x).boot = s.boot := rfl
@[simp] theorem State.setPort_reg (s : State) (p : Nat) (x : HostPort) (addr : Nat) : (s.setPort p x).reg addr = s.reg addr := rfl
@[simp] theorem State.setPort_rd (s : State) (p : Nat) (x : HostPort) (fld : Fld) : (s.setPort p x).rd fld = s.rd fld := rfl
@[simp] theorem State.setPort_bit (s : State) (p : Nat) (x : HostPort) (fld : Fld) : (s.setPort p x).bit fld = s.bit fld := rfl

/-! ## State.setFunc: writes funcs -/

@[simp] theorem State.setFunc_pending (s : State) (p f : Nat) (x : Func) : (s.setFunc p f x).pending = s.pending := rfl
@[simp] theorem State.setFunc_outs (s : State) (p f : Nat) (x : Func) : (s.setFunc p f x).outs = s.outs := rfl
@[simp] theorem State.setFunc_fresh (s : State) (p f : Nat) (x : Func) : (s.setFunc p f x).fresh = s.fresh := rfl
@[simp] theorem State.setFunc_datum (s : State) (p f : Nat) (x : Func) : (s.setFunc p f x).datum = s.datum := rfl
@[simp] theorem State.setFunc_regs (s : State) (p f : Nat) (x : Func) : (s.setFunc p f x).regs = s.regs := rfl
@[simp] theorem State.setFunc_mem (s : State) (p f : Nat) (x : Func) : (s.setFunc p f x).mem = s.mem := rfl
@[simp] theorem State.setFunc_dtm (s : State) (p f : Nat) (x : Func) : (s.setFunc p f x).dtm = s.dtm := rfl
@[simp] theorem State.setFunc_contracts (s : State) (p f : Nat) (x : Func) : (s.setFunc p f x).contracts = s.contracts := rfl
@[simp] theorem State.setFunc_grt (s : State) (p f : Nat) (x : Func) : (s.setFunc p f x).grt = s.grt := rfl
@[simp] theorem State.setFunc_islands (s : State) (p f : Nat) (x : Func) : (s.setFunc p f x).islands = s.islands := rfl
@[simp] theorem State.setFunc_ports (s : State) (p f : Nat) (x : Func) : (s.setFunc p f x).ports = s.ports := rfl
@[simp] theorem State.setFunc_vectors (s : State) (p f : Nat) (x : Func) : (s.setFunc p f x).vectors = s.vectors := rfl
@[simp] theorem State.setFunc_reads (s : State) (p f : Nat) (x : Func) : (s.setFunc p f x).reads = s.reads := rfl
@[simp] theorem State.setFunc_flight (s : State) (p f : Nat) (x : Func) : (s.setFunc p f x).flight = s.flight := rfl
@[simp] theorem State.setFunc_cxlNext (s : State) (p f : Nat) (x : Func) : (s.setFunc p f x).cxlNext = s.cxlNext := rfl
@[simp] theorem State.setFunc_cxlFree (s : State) (p f : Nat) (x : Func) : (s.setFunc p f x).cxlFree = s.cxlFree := rfl
@[simp] theorem State.setFunc_sheets (s : State) (p f : Nat) (x : Func) : (s.setFunc p f x).sheets = s.sheets := rfl
@[simp] theorem State.setFunc_rings (s : State) (p f : Nat) (x : Func) : (s.setFunc p f x).rings = s.rings := rfl
@[simp] theorem State.setFunc_cairns (s : State) (p f : Nat) (x : Func) : (s.setFunc p f x).cairns = s.cairns := rfl
@[simp] theorem State.setFunc_health (s : State) (p f : Nat) (x : Func) : (s.setFunc p f x).health = s.health := rfl
@[simp] theorem State.setFunc_mgmt (s : State) (p f : Nat) (x : Func) : (s.setFunc p f x).mgmt = s.mgmt := rfl
@[simp] theorem State.setFunc_power (s : State) (p f : Nat) (x : Func) : (s.setFunc p f x).power = s.power := rfl
@[simp] theorem State.setFunc_voqs (s : State) (p f : Nat) (x : Func) : (s.setFunc p f x).voqs = s.voqs := rfl
@[simp] theorem State.setFunc_sas (s : State) (p f : Nat) (x : Func) : (s.setFunc p f x).sas = s.sas := rfl
@[simp] theorem State.setFunc_net (s : State) (p f : Nat) (x : Func) : (s.setFunc p f x).net = s.net := rfl
@[simp] theorem State.setFunc_pipe (s : State) (p f : Nat) (x : Func) : (s.setFunc p f x).pipe = s.pipe := rfl
@[simp] theorem State.setFunc_swc (s : State) (p f : Nat) (x : Func) : (s.setFunc p f x).swc = s.swc := rfl
@[simp] theorem State.setFunc_tables (s : State) (p f : Nat) (x : Func) : (s.setFunc p f x).tables = s.tables := rfl
@[simp] theorem State.setFunc_cipher (s : State) (p f : Nat) (x : Func) : (s.setFunc p f x).cipher = s.cipher := rfl
@[simp] theorem State.setFunc_conns (s : State) (p f : Nat) (x : Func) : (s.setFunc p f x).conns = s.conns := rfl
@[simp] theorem State.setFunc_ctrls (s : State) (p f : Nat) (x : Func) : (s.setFunc p f x).ctrls = s.ctrls := rfl
@[simp] theorem State.setFunc_rlt (s : State) (p f : Nat) (x : Func) : (s.setFunc p f x).rlt = s.rlt := rfl
@[simp] theorem State.setFunc_sto (s : State) (p f : Nat) (x : Func) : (s.setFunc p f x).sto = s.sto := rfl
@[simp] theorem State.setFunc_pnl (s : State) (p f : Nat) (x : Func) : (s.setFunc p f x).pnl = s.pnl := rfl
@[simp] theorem State.setFunc_boot (s : State) (p f : Nat) (x : Func) : (s.setFunc p f x).boot = s.boot := rfl
@[simp] theorem State.setFunc_reg (s : State) (p f : Nat) (x : Func) (addr : Nat) : (s.setFunc p f x).reg addr = s.reg addr := rfl
@[simp] theorem State.setFunc_rd (s : State) (p f : Nat) (x : Func) (fld : Fld) : (s.setFunc p f x).rd fld = s.rd fld := rfl
@[simp] theorem State.setFunc_bit (s : State) (p f : Nat) (x : Func) (fld : Fld) : (s.setFunc p f x).bit fld = s.bit fld := rfl

/-! ## State.setVec: writes vectors -/

@[simp] theorem State.setVec_pending (s : State) (p f v : Nat) (x : MsixVec) : (s.setVec p f v x).pending = s.pending := rfl
@[simp] theorem State.setVec_outs (s : State) (p f v : Nat) (x : MsixVec) : (s.setVec p f v x).outs = s.outs := rfl
@[simp] theorem State.setVec_fresh (s : State) (p f v : Nat) (x : MsixVec) : (s.setVec p f v x).fresh = s.fresh := rfl
@[simp] theorem State.setVec_datum (s : State) (p f v : Nat) (x : MsixVec) : (s.setVec p f v x).datum = s.datum := rfl
@[simp] theorem State.setVec_regs (s : State) (p f v : Nat) (x : MsixVec) : (s.setVec p f v x).regs = s.regs := rfl
@[simp] theorem State.setVec_mem (s : State) (p f v : Nat) (x : MsixVec) : (s.setVec p f v x).mem = s.mem := rfl
@[simp] theorem State.setVec_dtm (s : State) (p f v : Nat) (x : MsixVec) : (s.setVec p f v x).dtm = s.dtm := rfl
@[simp] theorem State.setVec_contracts (s : State) (p f v : Nat) (x : MsixVec) : (s.setVec p f v x).contracts = s.contracts := rfl
@[simp] theorem State.setVec_grt (s : State) (p f v : Nat) (x : MsixVec) : (s.setVec p f v x).grt = s.grt := rfl
@[simp] theorem State.setVec_islands (s : State) (p f v : Nat) (x : MsixVec) : (s.setVec p f v x).islands = s.islands := rfl
@[simp] theorem State.setVec_ports (s : State) (p f v : Nat) (x : MsixVec) : (s.setVec p f v x).ports = s.ports := rfl
@[simp] theorem State.setVec_funcs (s : State) (p f v : Nat) (x : MsixVec) : (s.setVec p f v x).funcs = s.funcs := rfl
@[simp] theorem State.setVec_reads (s : State) (p f v : Nat) (x : MsixVec) : (s.setVec p f v x).reads = s.reads := rfl
@[simp] theorem State.setVec_flight (s : State) (p f v : Nat) (x : MsixVec) : (s.setVec p f v x).flight = s.flight := rfl
@[simp] theorem State.setVec_cxlNext (s : State) (p f v : Nat) (x : MsixVec) : (s.setVec p f v x).cxlNext = s.cxlNext := rfl
@[simp] theorem State.setVec_cxlFree (s : State) (p f v : Nat) (x : MsixVec) : (s.setVec p f v x).cxlFree = s.cxlFree := rfl
@[simp] theorem State.setVec_sheets (s : State) (p f v : Nat) (x : MsixVec) : (s.setVec p f v x).sheets = s.sheets := rfl
@[simp] theorem State.setVec_rings (s : State) (p f v : Nat) (x : MsixVec) : (s.setVec p f v x).rings = s.rings := rfl
@[simp] theorem State.setVec_cairns (s : State) (p f v : Nat) (x : MsixVec) : (s.setVec p f v x).cairns = s.cairns := rfl
@[simp] theorem State.setVec_health (s : State) (p f v : Nat) (x : MsixVec) : (s.setVec p f v x).health = s.health := rfl
@[simp] theorem State.setVec_mgmt (s : State) (p f v : Nat) (x : MsixVec) : (s.setVec p f v x).mgmt = s.mgmt := rfl
@[simp] theorem State.setVec_power (s : State) (p f v : Nat) (x : MsixVec) : (s.setVec p f v x).power = s.power := rfl
@[simp] theorem State.setVec_voqs (s : State) (p f v : Nat) (x : MsixVec) : (s.setVec p f v x).voqs = s.voqs := rfl
@[simp] theorem State.setVec_sas (s : State) (p f v : Nat) (x : MsixVec) : (s.setVec p f v x).sas = s.sas := rfl
@[simp] theorem State.setVec_net (s : State) (p f v : Nat) (x : MsixVec) : (s.setVec p f v x).net = s.net := rfl
@[simp] theorem State.setVec_pipe (s : State) (p f v : Nat) (x : MsixVec) : (s.setVec p f v x).pipe = s.pipe := rfl
@[simp] theorem State.setVec_swc (s : State) (p f v : Nat) (x : MsixVec) : (s.setVec p f v x).swc = s.swc := rfl
@[simp] theorem State.setVec_tables (s : State) (p f v : Nat) (x : MsixVec) : (s.setVec p f v x).tables = s.tables := rfl
@[simp] theorem State.setVec_cipher (s : State) (p f v : Nat) (x : MsixVec) : (s.setVec p f v x).cipher = s.cipher := rfl
@[simp] theorem State.setVec_conns (s : State) (p f v : Nat) (x : MsixVec) : (s.setVec p f v x).conns = s.conns := rfl
@[simp] theorem State.setVec_ctrls (s : State) (p f v : Nat) (x : MsixVec) : (s.setVec p f v x).ctrls = s.ctrls := rfl
@[simp] theorem State.setVec_rlt (s : State) (p f v : Nat) (x : MsixVec) : (s.setVec p f v x).rlt = s.rlt := rfl
@[simp] theorem State.setVec_sto (s : State) (p f v : Nat) (x : MsixVec) : (s.setVec p f v x).sto = s.sto := rfl
@[simp] theorem State.setVec_pnl (s : State) (p f v : Nat) (x : MsixVec) : (s.setVec p f v x).pnl = s.pnl := rfl
@[simp] theorem State.setVec_boot (s : State) (p f v : Nat) (x : MsixVec) : (s.setVec p f v x).boot = s.boot := rfl
@[simp] theorem State.setVec_reg (s : State) (p f v : Nat) (x : MsixVec) (addr : Nat) : (s.setVec p f v x).reg addr = s.reg addr := rfl
@[simp] theorem State.setVec_rd (s : State) (p f v : Nat) (x : MsixVec) (fld : Fld) : (s.setVec p f v x).rd fld = s.rd fld := rfl
@[simp] theorem State.setVec_bit (s : State) (p f v : Nat) (x : MsixVec) (fld : Fld) : (s.setVec p f v x).bit fld = s.bit fld := rfl

/-! ## State.setIsland: writes islands -/

@[simp] theorem State.setIsland_pending (s : State) (n : Nat) (x : Island) : (s.setIsland n x).pending = s.pending := rfl
@[simp] theorem State.setIsland_outs (s : State) (n : Nat) (x : Island) : (s.setIsland n x).outs = s.outs := rfl
@[simp] theorem State.setIsland_fresh (s : State) (n : Nat) (x : Island) : (s.setIsland n x).fresh = s.fresh := rfl
@[simp] theorem State.setIsland_datum (s : State) (n : Nat) (x : Island) : (s.setIsland n x).datum = s.datum := rfl
@[simp] theorem State.setIsland_regs (s : State) (n : Nat) (x : Island) : (s.setIsland n x).regs = s.regs := rfl
@[simp] theorem State.setIsland_mem (s : State) (n : Nat) (x : Island) : (s.setIsland n x).mem = s.mem := rfl
@[simp] theorem State.setIsland_dtm (s : State) (n : Nat) (x : Island) : (s.setIsland n x).dtm = s.dtm := rfl
@[simp] theorem State.setIsland_contracts (s : State) (n : Nat) (x : Island) : (s.setIsland n x).contracts = s.contracts := rfl
@[simp] theorem State.setIsland_grt (s : State) (n : Nat) (x : Island) : (s.setIsland n x).grt = s.grt := rfl
@[simp] theorem State.setIsland_ports (s : State) (n : Nat) (x : Island) : (s.setIsland n x).ports = s.ports := rfl
@[simp] theorem State.setIsland_funcs (s : State) (n : Nat) (x : Island) : (s.setIsland n x).funcs = s.funcs := rfl
@[simp] theorem State.setIsland_vectors (s : State) (n : Nat) (x : Island) : (s.setIsland n x).vectors = s.vectors := rfl
@[simp] theorem State.setIsland_reads (s : State) (n : Nat) (x : Island) : (s.setIsland n x).reads = s.reads := rfl
@[simp] theorem State.setIsland_flight (s : State) (n : Nat) (x : Island) : (s.setIsland n x).flight = s.flight := rfl
@[simp] theorem State.setIsland_cxlNext (s : State) (n : Nat) (x : Island) : (s.setIsland n x).cxlNext = s.cxlNext := rfl
@[simp] theorem State.setIsland_cxlFree (s : State) (n : Nat) (x : Island) : (s.setIsland n x).cxlFree = s.cxlFree := rfl
@[simp] theorem State.setIsland_sheets (s : State) (n : Nat) (x : Island) : (s.setIsland n x).sheets = s.sheets := rfl
@[simp] theorem State.setIsland_rings (s : State) (n : Nat) (x : Island) : (s.setIsland n x).rings = s.rings := rfl
@[simp] theorem State.setIsland_cairns (s : State) (n : Nat) (x : Island) : (s.setIsland n x).cairns = s.cairns := rfl
@[simp] theorem State.setIsland_health (s : State) (n : Nat) (x : Island) : (s.setIsland n x).health = s.health := rfl
@[simp] theorem State.setIsland_mgmt (s : State) (n : Nat) (x : Island) : (s.setIsland n x).mgmt = s.mgmt := rfl
@[simp] theorem State.setIsland_power (s : State) (n : Nat) (x : Island) : (s.setIsland n x).power = s.power := rfl
@[simp] theorem State.setIsland_voqs (s : State) (n : Nat) (x : Island) : (s.setIsland n x).voqs = s.voqs := rfl
@[simp] theorem State.setIsland_sas (s : State) (n : Nat) (x : Island) : (s.setIsland n x).sas = s.sas := rfl
@[simp] theorem State.setIsland_net (s : State) (n : Nat) (x : Island) : (s.setIsland n x).net = s.net := rfl
@[simp] theorem State.setIsland_pipe (s : State) (n : Nat) (x : Island) : (s.setIsland n x).pipe = s.pipe := rfl
@[simp] theorem State.setIsland_swc (s : State) (n : Nat) (x : Island) : (s.setIsland n x).swc = s.swc := rfl
@[simp] theorem State.setIsland_tables (s : State) (n : Nat) (x : Island) : (s.setIsland n x).tables = s.tables := rfl
@[simp] theorem State.setIsland_cipher (s : State) (n : Nat) (x : Island) : (s.setIsland n x).cipher = s.cipher := rfl
@[simp] theorem State.setIsland_conns (s : State) (n : Nat) (x : Island) : (s.setIsland n x).conns = s.conns := rfl
@[simp] theorem State.setIsland_ctrls (s : State) (n : Nat) (x : Island) : (s.setIsland n x).ctrls = s.ctrls := rfl
@[simp] theorem State.setIsland_rlt (s : State) (n : Nat) (x : Island) : (s.setIsland n x).rlt = s.rlt := rfl
@[simp] theorem State.setIsland_sto (s : State) (n : Nat) (x : Island) : (s.setIsland n x).sto = s.sto := rfl
@[simp] theorem State.setIsland_pnl (s : State) (n : Nat) (x : Island) : (s.setIsland n x).pnl = s.pnl := rfl
@[simp] theorem State.setIsland_boot (s : State) (n : Nat) (x : Island) : (s.setIsland n x).boot = s.boot := rfl
@[simp] theorem State.setIsland_reg (s : State) (n : Nat) (x : Island) (addr : Nat) : (s.setIsland n x).reg addr = s.reg addr := rfl
@[simp] theorem State.setIsland_rd (s : State) (n : Nat) (x : Island) (fld : Fld) : (s.setIsland n x).rd fld = s.rd fld := rfl
@[simp] theorem State.setIsland_bit (s : State) (n : Nat) (x : Island) (fld : Fld) : (s.setIsland n x).bit fld = s.bit fld := rfl

/-! ## State.setSheet: writes sheets -/

@[simp] theorem State.setSheet_pending (s : State) (n : Nat) (x : Sheet) : (s.setSheet n x).pending = s.pending := rfl
@[simp] theorem State.setSheet_outs (s : State) (n : Nat) (x : Sheet) : (s.setSheet n x).outs = s.outs := rfl
@[simp] theorem State.setSheet_fresh (s : State) (n : Nat) (x : Sheet) : (s.setSheet n x).fresh = s.fresh := rfl
@[simp] theorem State.setSheet_datum (s : State) (n : Nat) (x : Sheet) : (s.setSheet n x).datum = s.datum := rfl
@[simp] theorem State.setSheet_regs (s : State) (n : Nat) (x : Sheet) : (s.setSheet n x).regs = s.regs := rfl
@[simp] theorem State.setSheet_mem (s : State) (n : Nat) (x : Sheet) : (s.setSheet n x).mem = s.mem := rfl
@[simp] theorem State.setSheet_dtm (s : State) (n : Nat) (x : Sheet) : (s.setSheet n x).dtm = s.dtm := rfl
@[simp] theorem State.setSheet_contracts (s : State) (n : Nat) (x : Sheet) : (s.setSheet n x).contracts = s.contracts := rfl
@[simp] theorem State.setSheet_grt (s : State) (n : Nat) (x : Sheet) : (s.setSheet n x).grt = s.grt := rfl
@[simp] theorem State.setSheet_islands (s : State) (n : Nat) (x : Sheet) : (s.setSheet n x).islands = s.islands := rfl
@[simp] theorem State.setSheet_ports (s : State) (n : Nat) (x : Sheet) : (s.setSheet n x).ports = s.ports := rfl
@[simp] theorem State.setSheet_funcs (s : State) (n : Nat) (x : Sheet) : (s.setSheet n x).funcs = s.funcs := rfl
@[simp] theorem State.setSheet_vectors (s : State) (n : Nat) (x : Sheet) : (s.setSheet n x).vectors = s.vectors := rfl
@[simp] theorem State.setSheet_reads (s : State) (n : Nat) (x : Sheet) : (s.setSheet n x).reads = s.reads := rfl
@[simp] theorem State.setSheet_flight (s : State) (n : Nat) (x : Sheet) : (s.setSheet n x).flight = s.flight := rfl
@[simp] theorem State.setSheet_cxlNext (s : State) (n : Nat) (x : Sheet) : (s.setSheet n x).cxlNext = s.cxlNext := rfl
@[simp] theorem State.setSheet_cxlFree (s : State) (n : Nat) (x : Sheet) : (s.setSheet n x).cxlFree = s.cxlFree := rfl
@[simp] theorem State.setSheet_rings (s : State) (n : Nat) (x : Sheet) : (s.setSheet n x).rings = s.rings := rfl
@[simp] theorem State.setSheet_cairns (s : State) (n : Nat) (x : Sheet) : (s.setSheet n x).cairns = s.cairns := rfl
@[simp] theorem State.setSheet_health (s : State) (n : Nat) (x : Sheet) : (s.setSheet n x).health = s.health := rfl
@[simp] theorem State.setSheet_mgmt (s : State) (n : Nat) (x : Sheet) : (s.setSheet n x).mgmt = s.mgmt := rfl
@[simp] theorem State.setSheet_power (s : State) (n : Nat) (x : Sheet) : (s.setSheet n x).power = s.power := rfl
@[simp] theorem State.setSheet_voqs (s : State) (n : Nat) (x : Sheet) : (s.setSheet n x).voqs = s.voqs := rfl
@[simp] theorem State.setSheet_sas (s : State) (n : Nat) (x : Sheet) : (s.setSheet n x).sas = s.sas := rfl
@[simp] theorem State.setSheet_net (s : State) (n : Nat) (x : Sheet) : (s.setSheet n x).net = s.net := rfl
@[simp] theorem State.setSheet_pipe (s : State) (n : Nat) (x : Sheet) : (s.setSheet n x).pipe = s.pipe := rfl
@[simp] theorem State.setSheet_swc (s : State) (n : Nat) (x : Sheet) : (s.setSheet n x).swc = s.swc := rfl
@[simp] theorem State.setSheet_tables (s : State) (n : Nat) (x : Sheet) : (s.setSheet n x).tables = s.tables := rfl
@[simp] theorem State.setSheet_cipher (s : State) (n : Nat) (x : Sheet) : (s.setSheet n x).cipher = s.cipher := rfl
@[simp] theorem State.setSheet_conns (s : State) (n : Nat) (x : Sheet) : (s.setSheet n x).conns = s.conns := rfl
@[simp] theorem State.setSheet_ctrls (s : State) (n : Nat) (x : Sheet) : (s.setSheet n x).ctrls = s.ctrls := rfl
@[simp] theorem State.setSheet_rlt (s : State) (n : Nat) (x : Sheet) : (s.setSheet n x).rlt = s.rlt := rfl
@[simp] theorem State.setSheet_sto (s : State) (n : Nat) (x : Sheet) : (s.setSheet n x).sto = s.sto := rfl
@[simp] theorem State.setSheet_pnl (s : State) (n : Nat) (x : Sheet) : (s.setSheet n x).pnl = s.pnl := rfl
@[simp] theorem State.setSheet_boot (s : State) (n : Nat) (x : Sheet) : (s.setSheet n x).boot = s.boot := rfl
@[simp] theorem State.setSheet_reg (s : State) (n : Nat) (x : Sheet) (addr : Nat) : (s.setSheet n x).reg addr = s.reg addr := rfl
@[simp] theorem State.setSheet_rd (s : State) (n : Nat) (x : Sheet) (fld : Fld) : (s.setSheet n x).rd fld = s.rd fld := rfl
@[simp] theorem State.setSheet_bit (s : State) (n : Nat) (x : Sheet) (fld : Fld) : (s.setSheet n x).bit fld = s.bit fld := rfl

/-! ## State.setRing: writes rings -/

@[simp] theorem State.setRing_pending (s : State) (g : Nat) (x : Ring) : (s.setRing g x).pending = s.pending := rfl
@[simp] theorem State.setRing_outs (s : State) (g : Nat) (x : Ring) : (s.setRing g x).outs = s.outs := rfl
@[simp] theorem State.setRing_fresh (s : State) (g : Nat) (x : Ring) : (s.setRing g x).fresh = s.fresh := rfl
@[simp] theorem State.setRing_datum (s : State) (g : Nat) (x : Ring) : (s.setRing g x).datum = s.datum := rfl
@[simp] theorem State.setRing_regs (s : State) (g : Nat) (x : Ring) : (s.setRing g x).regs = s.regs := rfl
@[simp] theorem State.setRing_mem (s : State) (g : Nat) (x : Ring) : (s.setRing g x).mem = s.mem := rfl
@[simp] theorem State.setRing_dtm (s : State) (g : Nat) (x : Ring) : (s.setRing g x).dtm = s.dtm := rfl
@[simp] theorem State.setRing_contracts (s : State) (g : Nat) (x : Ring) : (s.setRing g x).contracts = s.contracts := rfl
@[simp] theorem State.setRing_grt (s : State) (g : Nat) (x : Ring) : (s.setRing g x).grt = s.grt := rfl
@[simp] theorem State.setRing_islands (s : State) (g : Nat) (x : Ring) : (s.setRing g x).islands = s.islands := rfl
@[simp] theorem State.setRing_ports (s : State) (g : Nat) (x : Ring) : (s.setRing g x).ports = s.ports := rfl
@[simp] theorem State.setRing_funcs (s : State) (g : Nat) (x : Ring) : (s.setRing g x).funcs = s.funcs := rfl
@[simp] theorem State.setRing_vectors (s : State) (g : Nat) (x : Ring) : (s.setRing g x).vectors = s.vectors := rfl
@[simp] theorem State.setRing_reads (s : State) (g : Nat) (x : Ring) : (s.setRing g x).reads = s.reads := rfl
@[simp] theorem State.setRing_flight (s : State) (g : Nat) (x : Ring) : (s.setRing g x).flight = s.flight := rfl
@[simp] theorem State.setRing_cxlNext (s : State) (g : Nat) (x : Ring) : (s.setRing g x).cxlNext = s.cxlNext := rfl
@[simp] theorem State.setRing_cxlFree (s : State) (g : Nat) (x : Ring) : (s.setRing g x).cxlFree = s.cxlFree := rfl
@[simp] theorem State.setRing_sheets (s : State) (g : Nat) (x : Ring) : (s.setRing g x).sheets = s.sheets := rfl
@[simp] theorem State.setRing_cairns (s : State) (g : Nat) (x : Ring) : (s.setRing g x).cairns = s.cairns := rfl
@[simp] theorem State.setRing_health (s : State) (g : Nat) (x : Ring) : (s.setRing g x).health = s.health := rfl
@[simp] theorem State.setRing_mgmt (s : State) (g : Nat) (x : Ring) : (s.setRing g x).mgmt = s.mgmt := rfl
@[simp] theorem State.setRing_power (s : State) (g : Nat) (x : Ring) : (s.setRing g x).power = s.power := rfl
@[simp] theorem State.setRing_voqs (s : State) (g : Nat) (x : Ring) : (s.setRing g x).voqs = s.voqs := rfl
@[simp] theorem State.setRing_sas (s : State) (g : Nat) (x : Ring) : (s.setRing g x).sas = s.sas := rfl
@[simp] theorem State.setRing_net (s : State) (g : Nat) (x : Ring) : (s.setRing g x).net = s.net := rfl
@[simp] theorem State.setRing_pipe (s : State) (g : Nat) (x : Ring) : (s.setRing g x).pipe = s.pipe := rfl
@[simp] theorem State.setRing_swc (s : State) (g : Nat) (x : Ring) : (s.setRing g x).swc = s.swc := rfl
@[simp] theorem State.setRing_tables (s : State) (g : Nat) (x : Ring) : (s.setRing g x).tables = s.tables := rfl
@[simp] theorem State.setRing_cipher (s : State) (g : Nat) (x : Ring) : (s.setRing g x).cipher = s.cipher := rfl
@[simp] theorem State.setRing_conns (s : State) (g : Nat) (x : Ring) : (s.setRing g x).conns = s.conns := rfl
@[simp] theorem State.setRing_ctrls (s : State) (g : Nat) (x : Ring) : (s.setRing g x).ctrls = s.ctrls := rfl
@[simp] theorem State.setRing_rlt (s : State) (g : Nat) (x : Ring) : (s.setRing g x).rlt = s.rlt := rfl
@[simp] theorem State.setRing_sto (s : State) (g : Nat) (x : Ring) : (s.setRing g x).sto = s.sto := rfl
@[simp] theorem State.setRing_pnl (s : State) (g : Nat) (x : Ring) : (s.setRing g x).pnl = s.pnl := rfl
@[simp] theorem State.setRing_boot (s : State) (g : Nat) (x : Ring) : (s.setRing g x).boot = s.boot := rfl
@[simp] theorem State.setRing_reg (s : State) (g : Nat) (x : Ring) (addr : Nat) : (s.setRing g x).reg addr = s.reg addr := rfl
@[simp] theorem State.setRing_rd (s : State) (g : Nat) (x : Ring) (fld : Fld) : (s.setRing g x).rd fld = s.rd fld := rfl
@[simp] theorem State.setRing_bit (s : State) (g : Nat) (x : Ring) (fld : Fld) : (s.setRing g x).bit fld = s.bit fld := rfl

/-! ## State.setContract: writes contracts -/

@[simp] theorem State.setContract_pending (s : State) (c : Nat) (x : Contract) : (s.setContract c x).pending = s.pending := rfl
@[simp] theorem State.setContract_outs (s : State) (c : Nat) (x : Contract) : (s.setContract c x).outs = s.outs := rfl
@[simp] theorem State.setContract_fresh (s : State) (c : Nat) (x : Contract) : (s.setContract c x).fresh = s.fresh := rfl
@[simp] theorem State.setContract_datum (s : State) (c : Nat) (x : Contract) : (s.setContract c x).datum = s.datum := rfl
@[simp] theorem State.setContract_regs (s : State) (c : Nat) (x : Contract) : (s.setContract c x).regs = s.regs := rfl
@[simp] theorem State.setContract_mem (s : State) (c : Nat) (x : Contract) : (s.setContract c x).mem = s.mem := rfl
@[simp] theorem State.setContract_dtm (s : State) (c : Nat) (x : Contract) : (s.setContract c x).dtm = s.dtm := rfl
@[simp] theorem State.setContract_grt (s : State) (c : Nat) (x : Contract) : (s.setContract c x).grt = s.grt := rfl
@[simp] theorem State.setContract_islands (s : State) (c : Nat) (x : Contract) : (s.setContract c x).islands = s.islands := rfl
@[simp] theorem State.setContract_ports (s : State) (c : Nat) (x : Contract) : (s.setContract c x).ports = s.ports := rfl
@[simp] theorem State.setContract_funcs (s : State) (c : Nat) (x : Contract) : (s.setContract c x).funcs = s.funcs := rfl
@[simp] theorem State.setContract_vectors (s : State) (c : Nat) (x : Contract) : (s.setContract c x).vectors = s.vectors := rfl
@[simp] theorem State.setContract_reads (s : State) (c : Nat) (x : Contract) : (s.setContract c x).reads = s.reads := rfl
@[simp] theorem State.setContract_flight (s : State) (c : Nat) (x : Contract) : (s.setContract c x).flight = s.flight := rfl
@[simp] theorem State.setContract_cxlNext (s : State) (c : Nat) (x : Contract) : (s.setContract c x).cxlNext = s.cxlNext := rfl
@[simp] theorem State.setContract_cxlFree (s : State) (c : Nat) (x : Contract) : (s.setContract c x).cxlFree = s.cxlFree := rfl
@[simp] theorem State.setContract_sheets (s : State) (c : Nat) (x : Contract) : (s.setContract c x).sheets = s.sheets := rfl
@[simp] theorem State.setContract_rings (s : State) (c : Nat) (x : Contract) : (s.setContract c x).rings = s.rings := rfl
@[simp] theorem State.setContract_cairns (s : State) (c : Nat) (x : Contract) : (s.setContract c x).cairns = s.cairns := rfl
@[simp] theorem State.setContract_health (s : State) (c : Nat) (x : Contract) : (s.setContract c x).health = s.health := rfl
@[simp] theorem State.setContract_mgmt (s : State) (c : Nat) (x : Contract) : (s.setContract c x).mgmt = s.mgmt := rfl
@[simp] theorem State.setContract_power (s : State) (c : Nat) (x : Contract) : (s.setContract c x).power = s.power := rfl
@[simp] theorem State.setContract_voqs (s : State) (c : Nat) (x : Contract) : (s.setContract c x).voqs = s.voqs := rfl
@[simp] theorem State.setContract_sas (s : State) (c : Nat) (x : Contract) : (s.setContract c x).sas = s.sas := rfl
@[simp] theorem State.setContract_net (s : State) (c : Nat) (x : Contract) : (s.setContract c x).net = s.net := rfl
@[simp] theorem State.setContract_pipe (s : State) (c : Nat) (x : Contract) : (s.setContract c x).pipe = s.pipe := rfl
@[simp] theorem State.setContract_swc (s : State) (c : Nat) (x : Contract) : (s.setContract c x).swc = s.swc := rfl
@[simp] theorem State.setContract_tables (s : State) (c : Nat) (x : Contract) : (s.setContract c x).tables = s.tables := rfl
@[simp] theorem State.setContract_cipher (s : State) (c : Nat) (x : Contract) : (s.setContract c x).cipher = s.cipher := rfl
@[simp] theorem State.setContract_conns (s : State) (c : Nat) (x : Contract) : (s.setContract c x).conns = s.conns := rfl
@[simp] theorem State.setContract_ctrls (s : State) (c : Nat) (x : Contract) : (s.setContract c x).ctrls = s.ctrls := rfl
@[simp] theorem State.setContract_rlt (s : State) (c : Nat) (x : Contract) : (s.setContract c x).rlt = s.rlt := rfl
@[simp] theorem State.setContract_sto (s : State) (c : Nat) (x : Contract) : (s.setContract c x).sto = s.sto := rfl
@[simp] theorem State.setContract_pnl (s : State) (c : Nat) (x : Contract) : (s.setContract c x).pnl = s.pnl := rfl
@[simp] theorem State.setContract_boot (s : State) (c : Nat) (x : Contract) : (s.setContract c x).boot = s.boot := rfl
@[simp] theorem State.setContract_reg (s : State) (c : Nat) (x : Contract) (addr : Nat) : (s.setContract c x).reg addr = s.reg addr := rfl
@[simp] theorem State.setContract_rd (s : State) (c : Nat) (x : Contract) (fld : Fld) : (s.setContract c x).rd fld = s.rd fld := rfl
@[simp] theorem State.setContract_bit (s : State) (c : Nat) (x : Contract) (fld : Fld) : (s.setContract c x).bit fld = s.bit fld := rfl

/-! ## State.takeSlot: writes flight -/

@[simp] theorem State.takeSlot_pending (s : State) (k : SlotKind) : (s.takeSlot k).pending = s.pending := rfl
@[simp] theorem State.takeSlot_outs (s : State) (k : SlotKind) : (s.takeSlot k).outs = s.outs := rfl
@[simp] theorem State.takeSlot_fresh (s : State) (k : SlotKind) : (s.takeSlot k).fresh = s.fresh := rfl
@[simp] theorem State.takeSlot_datum (s : State) (k : SlotKind) : (s.takeSlot k).datum = s.datum := rfl
@[simp] theorem State.takeSlot_regs (s : State) (k : SlotKind) : (s.takeSlot k).regs = s.regs := rfl
@[simp] theorem State.takeSlot_mem (s : State) (k : SlotKind) : (s.takeSlot k).mem = s.mem := rfl
@[simp] theorem State.takeSlot_dtm (s : State) (k : SlotKind) : (s.takeSlot k).dtm = s.dtm := rfl
@[simp] theorem State.takeSlot_contracts (s : State) (k : SlotKind) : (s.takeSlot k).contracts = s.contracts := rfl
@[simp] theorem State.takeSlot_grt (s : State) (k : SlotKind) : (s.takeSlot k).grt = s.grt := rfl
@[simp] theorem State.takeSlot_islands (s : State) (k : SlotKind) : (s.takeSlot k).islands = s.islands := rfl
@[simp] theorem State.takeSlot_ports (s : State) (k : SlotKind) : (s.takeSlot k).ports = s.ports := rfl
@[simp] theorem State.takeSlot_funcs (s : State) (k : SlotKind) : (s.takeSlot k).funcs = s.funcs := rfl
@[simp] theorem State.takeSlot_vectors (s : State) (k : SlotKind) : (s.takeSlot k).vectors = s.vectors := rfl
@[simp] theorem State.takeSlot_reads (s : State) (k : SlotKind) : (s.takeSlot k).reads = s.reads := rfl
@[simp] theorem State.takeSlot_cxlNext (s : State) (k : SlotKind) : (s.takeSlot k).cxlNext = s.cxlNext := rfl
@[simp] theorem State.takeSlot_cxlFree (s : State) (k : SlotKind) : (s.takeSlot k).cxlFree = s.cxlFree := rfl
@[simp] theorem State.takeSlot_sheets (s : State) (k : SlotKind) : (s.takeSlot k).sheets = s.sheets := rfl
@[simp] theorem State.takeSlot_rings (s : State) (k : SlotKind) : (s.takeSlot k).rings = s.rings := rfl
@[simp] theorem State.takeSlot_cairns (s : State) (k : SlotKind) : (s.takeSlot k).cairns = s.cairns := rfl
@[simp] theorem State.takeSlot_health (s : State) (k : SlotKind) : (s.takeSlot k).health = s.health := rfl
@[simp] theorem State.takeSlot_mgmt (s : State) (k : SlotKind) : (s.takeSlot k).mgmt = s.mgmt := rfl
@[simp] theorem State.takeSlot_power (s : State) (k : SlotKind) : (s.takeSlot k).power = s.power := rfl
@[simp] theorem State.takeSlot_voqs (s : State) (k : SlotKind) : (s.takeSlot k).voqs = s.voqs := rfl
@[simp] theorem State.takeSlot_sas (s : State) (k : SlotKind) : (s.takeSlot k).sas = s.sas := rfl
@[simp] theorem State.takeSlot_net (s : State) (k : SlotKind) : (s.takeSlot k).net = s.net := rfl
@[simp] theorem State.takeSlot_pipe (s : State) (k : SlotKind) : (s.takeSlot k).pipe = s.pipe := rfl
@[simp] theorem State.takeSlot_swc (s : State) (k : SlotKind) : (s.takeSlot k).swc = s.swc := rfl
@[simp] theorem State.takeSlot_tables (s : State) (k : SlotKind) : (s.takeSlot k).tables = s.tables := rfl
@[simp] theorem State.takeSlot_cipher (s : State) (k : SlotKind) : (s.takeSlot k).cipher = s.cipher := rfl
@[simp] theorem State.takeSlot_conns (s : State) (k : SlotKind) : (s.takeSlot k).conns = s.conns := rfl
@[simp] theorem State.takeSlot_ctrls (s : State) (k : SlotKind) : (s.takeSlot k).ctrls = s.ctrls := rfl
@[simp] theorem State.takeSlot_rlt (s : State) (k : SlotKind) : (s.takeSlot k).rlt = s.rlt := rfl
@[simp] theorem State.takeSlot_sto (s : State) (k : SlotKind) : (s.takeSlot k).sto = s.sto := rfl
@[simp] theorem State.takeSlot_pnl (s : State) (k : SlotKind) : (s.takeSlot k).pnl = s.pnl := rfl
@[simp] theorem State.takeSlot_boot (s : State) (k : SlotKind) : (s.takeSlot k).boot = s.boot := rfl
@[simp] theorem State.takeSlot_reg (s : State) (k : SlotKind) (addr : Nat) : (s.takeSlot k).reg addr = s.reg addr := rfl
@[simp] theorem State.takeSlot_rd (s : State) (k : SlotKind) (fld : Fld) : (s.takeSlot k).rd fld = s.rd fld := rfl
@[simp] theorem State.takeSlot_bit (s : State) (k : SlotKind) (fld : Fld) : (s.takeSlot k).bit fld = s.bit fld := rfl

/-! ## State.freeSlot: writes flight -/

@[simp] theorem State.freeSlot_pending (s : State) (k : SlotKind) : (s.freeSlot k).pending = s.pending := rfl
@[simp] theorem State.freeSlot_outs (s : State) (k : SlotKind) : (s.freeSlot k).outs = s.outs := rfl
@[simp] theorem State.freeSlot_fresh (s : State) (k : SlotKind) : (s.freeSlot k).fresh = s.fresh := rfl
@[simp] theorem State.freeSlot_datum (s : State) (k : SlotKind) : (s.freeSlot k).datum = s.datum := rfl
@[simp] theorem State.freeSlot_regs (s : State) (k : SlotKind) : (s.freeSlot k).regs = s.regs := rfl
@[simp] theorem State.freeSlot_mem (s : State) (k : SlotKind) : (s.freeSlot k).mem = s.mem := rfl
@[simp] theorem State.freeSlot_dtm (s : State) (k : SlotKind) : (s.freeSlot k).dtm = s.dtm := rfl
@[simp] theorem State.freeSlot_contracts (s : State) (k : SlotKind) : (s.freeSlot k).contracts = s.contracts := rfl
@[simp] theorem State.freeSlot_grt (s : State) (k : SlotKind) : (s.freeSlot k).grt = s.grt := rfl
@[simp] theorem State.freeSlot_islands (s : State) (k : SlotKind) : (s.freeSlot k).islands = s.islands := rfl
@[simp] theorem State.freeSlot_ports (s : State) (k : SlotKind) : (s.freeSlot k).ports = s.ports := rfl
@[simp] theorem State.freeSlot_funcs (s : State) (k : SlotKind) : (s.freeSlot k).funcs = s.funcs := rfl
@[simp] theorem State.freeSlot_vectors (s : State) (k : SlotKind) : (s.freeSlot k).vectors = s.vectors := rfl
@[simp] theorem State.freeSlot_reads (s : State) (k : SlotKind) : (s.freeSlot k).reads = s.reads := rfl
@[simp] theorem State.freeSlot_cxlNext (s : State) (k : SlotKind) : (s.freeSlot k).cxlNext = s.cxlNext := rfl
@[simp] theorem State.freeSlot_cxlFree (s : State) (k : SlotKind) : (s.freeSlot k).cxlFree = s.cxlFree := rfl
@[simp] theorem State.freeSlot_sheets (s : State) (k : SlotKind) : (s.freeSlot k).sheets = s.sheets := rfl
@[simp] theorem State.freeSlot_rings (s : State) (k : SlotKind) : (s.freeSlot k).rings = s.rings := rfl
@[simp] theorem State.freeSlot_cairns (s : State) (k : SlotKind) : (s.freeSlot k).cairns = s.cairns := rfl
@[simp] theorem State.freeSlot_health (s : State) (k : SlotKind) : (s.freeSlot k).health = s.health := rfl
@[simp] theorem State.freeSlot_mgmt (s : State) (k : SlotKind) : (s.freeSlot k).mgmt = s.mgmt := rfl
@[simp] theorem State.freeSlot_power (s : State) (k : SlotKind) : (s.freeSlot k).power = s.power := rfl
@[simp] theorem State.freeSlot_voqs (s : State) (k : SlotKind) : (s.freeSlot k).voqs = s.voqs := rfl
@[simp] theorem State.freeSlot_sas (s : State) (k : SlotKind) : (s.freeSlot k).sas = s.sas := rfl
@[simp] theorem State.freeSlot_net (s : State) (k : SlotKind) : (s.freeSlot k).net = s.net := rfl
@[simp] theorem State.freeSlot_pipe (s : State) (k : SlotKind) : (s.freeSlot k).pipe = s.pipe := rfl
@[simp] theorem State.freeSlot_swc (s : State) (k : SlotKind) : (s.freeSlot k).swc = s.swc := rfl
@[simp] theorem State.freeSlot_tables (s : State) (k : SlotKind) : (s.freeSlot k).tables = s.tables := rfl
@[simp] theorem State.freeSlot_cipher (s : State) (k : SlotKind) : (s.freeSlot k).cipher = s.cipher := rfl
@[simp] theorem State.freeSlot_conns (s : State) (k : SlotKind) : (s.freeSlot k).conns = s.conns := rfl
@[simp] theorem State.freeSlot_ctrls (s : State) (k : SlotKind) : (s.freeSlot k).ctrls = s.ctrls := rfl
@[simp] theorem State.freeSlot_rlt (s : State) (k : SlotKind) : (s.freeSlot k).rlt = s.rlt := rfl
@[simp] theorem State.freeSlot_sto (s : State) (k : SlotKind) : (s.freeSlot k).sto = s.sto := rfl
@[simp] theorem State.freeSlot_pnl (s : State) (k : SlotKind) : (s.freeSlot k).pnl = s.pnl := rfl
@[simp] theorem State.freeSlot_boot (s : State) (k : SlotKind) : (s.freeSlot k).boot = s.boot := rfl
@[simp] theorem State.freeSlot_reg (s : State) (k : SlotKind) (addr : Nat) : (s.freeSlot k).reg addr = s.reg addr := rfl
@[simp] theorem State.freeSlot_rd (s : State) (k : SlotKind) (fld : Fld) : (s.freeSlot k).rd fld = s.rd fld := rfl
@[simp] theorem State.freeSlot_bit (s : State) (k : SlotKind) (fld : Fld) : (s.freeSlot k).bit fld = s.bit fld := rfl

/-! ## State.setConn: writes conns -/

@[simp] theorem State.setConn_pending (s : State) (n : Nat) (x : Conn) : (s.setConn n x).pending = s.pending := rfl
@[simp] theorem State.setConn_outs (s : State) (n : Nat) (x : Conn) : (s.setConn n x).outs = s.outs := rfl
@[simp] theorem State.setConn_fresh (s : State) (n : Nat) (x : Conn) : (s.setConn n x).fresh = s.fresh := rfl
@[simp] theorem State.setConn_datum (s : State) (n : Nat) (x : Conn) : (s.setConn n x).datum = s.datum := rfl
@[simp] theorem State.setConn_regs (s : State) (n : Nat) (x : Conn) : (s.setConn n x).regs = s.regs := rfl
@[simp] theorem State.setConn_mem (s : State) (n : Nat) (x : Conn) : (s.setConn n x).mem = s.mem := rfl
@[simp] theorem State.setConn_dtm (s : State) (n : Nat) (x : Conn) : (s.setConn n x).dtm = s.dtm := rfl
@[simp] theorem State.setConn_contracts (s : State) (n : Nat) (x : Conn) : (s.setConn n x).contracts = s.contracts := rfl
@[simp] theorem State.setConn_grt (s : State) (n : Nat) (x : Conn) : (s.setConn n x).grt = s.grt := rfl
@[simp] theorem State.setConn_islands (s : State) (n : Nat) (x : Conn) : (s.setConn n x).islands = s.islands := rfl
@[simp] theorem State.setConn_ports (s : State) (n : Nat) (x : Conn) : (s.setConn n x).ports = s.ports := rfl
@[simp] theorem State.setConn_funcs (s : State) (n : Nat) (x : Conn) : (s.setConn n x).funcs = s.funcs := rfl
@[simp] theorem State.setConn_vectors (s : State) (n : Nat) (x : Conn) : (s.setConn n x).vectors = s.vectors := rfl
@[simp] theorem State.setConn_reads (s : State) (n : Nat) (x : Conn) : (s.setConn n x).reads = s.reads := rfl
@[simp] theorem State.setConn_flight (s : State) (n : Nat) (x : Conn) : (s.setConn n x).flight = s.flight := rfl
@[simp] theorem State.setConn_cxlNext (s : State) (n : Nat) (x : Conn) : (s.setConn n x).cxlNext = s.cxlNext := rfl
@[simp] theorem State.setConn_cxlFree (s : State) (n : Nat) (x : Conn) : (s.setConn n x).cxlFree = s.cxlFree := rfl
@[simp] theorem State.setConn_sheets (s : State) (n : Nat) (x : Conn) : (s.setConn n x).sheets = s.sheets := rfl
@[simp] theorem State.setConn_rings (s : State) (n : Nat) (x : Conn) : (s.setConn n x).rings = s.rings := rfl
@[simp] theorem State.setConn_cairns (s : State) (n : Nat) (x : Conn) : (s.setConn n x).cairns = s.cairns := rfl
@[simp] theorem State.setConn_health (s : State) (n : Nat) (x : Conn) : (s.setConn n x).health = s.health := rfl
@[simp] theorem State.setConn_mgmt (s : State) (n : Nat) (x : Conn) : (s.setConn n x).mgmt = s.mgmt := rfl
@[simp] theorem State.setConn_power (s : State) (n : Nat) (x : Conn) : (s.setConn n x).power = s.power := rfl
@[simp] theorem State.setConn_voqs (s : State) (n : Nat) (x : Conn) : (s.setConn n x).voqs = s.voqs := rfl
@[simp] theorem State.setConn_sas (s : State) (n : Nat) (x : Conn) : (s.setConn n x).sas = s.sas := rfl
@[simp] theorem State.setConn_net (s : State) (n : Nat) (x : Conn) : (s.setConn n x).net = s.net := rfl
@[simp] theorem State.setConn_pipe (s : State) (n : Nat) (x : Conn) : (s.setConn n x).pipe = s.pipe := rfl
@[simp] theorem State.setConn_swc (s : State) (n : Nat) (x : Conn) : (s.setConn n x).swc = s.swc := rfl
@[simp] theorem State.setConn_tables (s : State) (n : Nat) (x : Conn) : (s.setConn n x).tables = s.tables := rfl
@[simp] theorem State.setConn_cipher (s : State) (n : Nat) (x : Conn) : (s.setConn n x).cipher = s.cipher := rfl
@[simp] theorem State.setConn_ctrls (s : State) (n : Nat) (x : Conn) : (s.setConn n x).ctrls = s.ctrls := rfl
@[simp] theorem State.setConn_rlt (s : State) (n : Nat) (x : Conn) : (s.setConn n x).rlt = s.rlt := rfl
@[simp] theorem State.setConn_sto (s : State) (n : Nat) (x : Conn) : (s.setConn n x).sto = s.sto := rfl
@[simp] theorem State.setConn_pnl (s : State) (n : Nat) (x : Conn) : (s.setConn n x).pnl = s.pnl := rfl
@[simp] theorem State.setConn_boot (s : State) (n : Nat) (x : Conn) : (s.setConn n x).boot = s.boot := rfl
@[simp] theorem State.setConn_reg (s : State) (n : Nat) (x : Conn) (addr : Nat) : (s.setConn n x).reg addr = s.reg addr := rfl
@[simp] theorem State.setConn_rd (s : State) (n : Nat) (x : Conn) (fld : Fld) : (s.setConn n x).rd fld = s.rd fld := rfl
@[simp] theorem State.setConn_bit (s : State) (n : Nat) (x : Conn) (fld : Fld) : (s.setConn n x).bit fld = s.bit fld := rfl

/-! ## State.setCtrl: writes ctrls -/

@[simp] theorem State.setCtrl_pending (s : State) (n : Nat) (x : Ctrl) : (s.setCtrl n x).pending = s.pending := rfl
@[simp] theorem State.setCtrl_outs (s : State) (n : Nat) (x : Ctrl) : (s.setCtrl n x).outs = s.outs := rfl
@[simp] theorem State.setCtrl_fresh (s : State) (n : Nat) (x : Ctrl) : (s.setCtrl n x).fresh = s.fresh := rfl
@[simp] theorem State.setCtrl_datum (s : State) (n : Nat) (x : Ctrl) : (s.setCtrl n x).datum = s.datum := rfl
@[simp] theorem State.setCtrl_regs (s : State) (n : Nat) (x : Ctrl) : (s.setCtrl n x).regs = s.regs := rfl
@[simp] theorem State.setCtrl_mem (s : State) (n : Nat) (x : Ctrl) : (s.setCtrl n x).mem = s.mem := rfl
@[simp] theorem State.setCtrl_dtm (s : State) (n : Nat) (x : Ctrl) : (s.setCtrl n x).dtm = s.dtm := rfl
@[simp] theorem State.setCtrl_contracts (s : State) (n : Nat) (x : Ctrl) : (s.setCtrl n x).contracts = s.contracts := rfl
@[simp] theorem State.setCtrl_grt (s : State) (n : Nat) (x : Ctrl) : (s.setCtrl n x).grt = s.grt := rfl
@[simp] theorem State.setCtrl_islands (s : State) (n : Nat) (x : Ctrl) : (s.setCtrl n x).islands = s.islands := rfl
@[simp] theorem State.setCtrl_ports (s : State) (n : Nat) (x : Ctrl) : (s.setCtrl n x).ports = s.ports := rfl
@[simp] theorem State.setCtrl_funcs (s : State) (n : Nat) (x : Ctrl) : (s.setCtrl n x).funcs = s.funcs := rfl
@[simp] theorem State.setCtrl_vectors (s : State) (n : Nat) (x : Ctrl) : (s.setCtrl n x).vectors = s.vectors := rfl
@[simp] theorem State.setCtrl_reads (s : State) (n : Nat) (x : Ctrl) : (s.setCtrl n x).reads = s.reads := rfl
@[simp] theorem State.setCtrl_flight (s : State) (n : Nat) (x : Ctrl) : (s.setCtrl n x).flight = s.flight := rfl
@[simp] theorem State.setCtrl_cxlNext (s : State) (n : Nat) (x : Ctrl) : (s.setCtrl n x).cxlNext = s.cxlNext := rfl
@[simp] theorem State.setCtrl_cxlFree (s : State) (n : Nat) (x : Ctrl) : (s.setCtrl n x).cxlFree = s.cxlFree := rfl
@[simp] theorem State.setCtrl_sheets (s : State) (n : Nat) (x : Ctrl) : (s.setCtrl n x).sheets = s.sheets := rfl
@[simp] theorem State.setCtrl_rings (s : State) (n : Nat) (x : Ctrl) : (s.setCtrl n x).rings = s.rings := rfl
@[simp] theorem State.setCtrl_cairns (s : State) (n : Nat) (x : Ctrl) : (s.setCtrl n x).cairns = s.cairns := rfl
@[simp] theorem State.setCtrl_health (s : State) (n : Nat) (x : Ctrl) : (s.setCtrl n x).health = s.health := rfl
@[simp] theorem State.setCtrl_mgmt (s : State) (n : Nat) (x : Ctrl) : (s.setCtrl n x).mgmt = s.mgmt := rfl
@[simp] theorem State.setCtrl_power (s : State) (n : Nat) (x : Ctrl) : (s.setCtrl n x).power = s.power := rfl
@[simp] theorem State.setCtrl_voqs (s : State) (n : Nat) (x : Ctrl) : (s.setCtrl n x).voqs = s.voqs := rfl
@[simp] theorem State.setCtrl_sas (s : State) (n : Nat) (x : Ctrl) : (s.setCtrl n x).sas = s.sas := rfl
@[simp] theorem State.setCtrl_net (s : State) (n : Nat) (x : Ctrl) : (s.setCtrl n x).net = s.net := rfl
@[simp] theorem State.setCtrl_pipe (s : State) (n : Nat) (x : Ctrl) : (s.setCtrl n x).pipe = s.pipe := rfl
@[simp] theorem State.setCtrl_swc (s : State) (n : Nat) (x : Ctrl) : (s.setCtrl n x).swc = s.swc := rfl
@[simp] theorem State.setCtrl_tables (s : State) (n : Nat) (x : Ctrl) : (s.setCtrl n x).tables = s.tables := rfl
@[simp] theorem State.setCtrl_cipher (s : State) (n : Nat) (x : Ctrl) : (s.setCtrl n x).cipher = s.cipher := rfl
@[simp] theorem State.setCtrl_conns (s : State) (n : Nat) (x : Ctrl) : (s.setCtrl n x).conns = s.conns := rfl
@[simp] theorem State.setCtrl_rlt (s : State) (n : Nat) (x : Ctrl) : (s.setCtrl n x).rlt = s.rlt := rfl
@[simp] theorem State.setCtrl_sto (s : State) (n : Nat) (x : Ctrl) : (s.setCtrl n x).sto = s.sto := rfl
@[simp] theorem State.setCtrl_pnl (s : State) (n : Nat) (x : Ctrl) : (s.setCtrl n x).pnl = s.pnl := rfl
@[simp] theorem State.setCtrl_boot (s : State) (n : Nat) (x : Ctrl) : (s.setCtrl n x).boot = s.boot := rfl
@[simp] theorem State.setCtrl_reg (s : State) (n : Nat) (x : Ctrl) (addr : Nat) : (s.setCtrl n x).reg addr = s.reg addr := rfl
@[simp] theorem State.setCtrl_rd (s : State) (n : Nat) (x : Ctrl) (fld : Fld) : (s.setCtrl n x).rd fld = s.rd fld := rfl
@[simp] theorem State.setCtrl_bit (s : State) (n : Nat) (x : Ctrl) (fld : Fld) : (s.setCtrl n x).bit fld = s.bit fld := rfl

/-! ## State.setRegion: writes rlt -/

@[simp] theorem State.setRegion_pending (s : State) (r : Nat) (x : Region) : (s.setRegion r x).pending = s.pending := rfl
@[simp] theorem State.setRegion_outs (s : State) (r : Nat) (x : Region) : (s.setRegion r x).outs = s.outs := rfl
@[simp] theorem State.setRegion_fresh (s : State) (r : Nat) (x : Region) : (s.setRegion r x).fresh = s.fresh := rfl
@[simp] theorem State.setRegion_datum (s : State) (r : Nat) (x : Region) : (s.setRegion r x).datum = s.datum := rfl
@[simp] theorem State.setRegion_regs (s : State) (r : Nat) (x : Region) : (s.setRegion r x).regs = s.regs := rfl
@[simp] theorem State.setRegion_mem (s : State) (r : Nat) (x : Region) : (s.setRegion r x).mem = s.mem := rfl
@[simp] theorem State.setRegion_dtm (s : State) (r : Nat) (x : Region) : (s.setRegion r x).dtm = s.dtm := rfl
@[simp] theorem State.setRegion_contracts (s : State) (r : Nat) (x : Region) : (s.setRegion r x).contracts = s.contracts := rfl
@[simp] theorem State.setRegion_grt (s : State) (r : Nat) (x : Region) : (s.setRegion r x).grt = s.grt := rfl
@[simp] theorem State.setRegion_islands (s : State) (r : Nat) (x : Region) : (s.setRegion r x).islands = s.islands := rfl
@[simp] theorem State.setRegion_ports (s : State) (r : Nat) (x : Region) : (s.setRegion r x).ports = s.ports := rfl
@[simp] theorem State.setRegion_funcs (s : State) (r : Nat) (x : Region) : (s.setRegion r x).funcs = s.funcs := rfl
@[simp] theorem State.setRegion_vectors (s : State) (r : Nat) (x : Region) : (s.setRegion r x).vectors = s.vectors := rfl
@[simp] theorem State.setRegion_reads (s : State) (r : Nat) (x : Region) : (s.setRegion r x).reads = s.reads := rfl
@[simp] theorem State.setRegion_flight (s : State) (r : Nat) (x : Region) : (s.setRegion r x).flight = s.flight := rfl
@[simp] theorem State.setRegion_cxlNext (s : State) (r : Nat) (x : Region) : (s.setRegion r x).cxlNext = s.cxlNext := rfl
@[simp] theorem State.setRegion_cxlFree (s : State) (r : Nat) (x : Region) : (s.setRegion r x).cxlFree = s.cxlFree := rfl
@[simp] theorem State.setRegion_sheets (s : State) (r : Nat) (x : Region) : (s.setRegion r x).sheets = s.sheets := rfl
@[simp] theorem State.setRegion_rings (s : State) (r : Nat) (x : Region) : (s.setRegion r x).rings = s.rings := rfl
@[simp] theorem State.setRegion_cairns (s : State) (r : Nat) (x : Region) : (s.setRegion r x).cairns = s.cairns := rfl
@[simp] theorem State.setRegion_health (s : State) (r : Nat) (x : Region) : (s.setRegion r x).health = s.health := rfl
@[simp] theorem State.setRegion_mgmt (s : State) (r : Nat) (x : Region) : (s.setRegion r x).mgmt = s.mgmt := rfl
@[simp] theorem State.setRegion_power (s : State) (r : Nat) (x : Region) : (s.setRegion r x).power = s.power := rfl
@[simp] theorem State.setRegion_voqs (s : State) (r : Nat) (x : Region) : (s.setRegion r x).voqs = s.voqs := rfl
@[simp] theorem State.setRegion_sas (s : State) (r : Nat) (x : Region) : (s.setRegion r x).sas = s.sas := rfl
@[simp] theorem State.setRegion_net (s : State) (r : Nat) (x : Region) : (s.setRegion r x).net = s.net := rfl
@[simp] theorem State.setRegion_pipe (s : State) (r : Nat) (x : Region) : (s.setRegion r x).pipe = s.pipe := rfl
@[simp] theorem State.setRegion_swc (s : State) (r : Nat) (x : Region) : (s.setRegion r x).swc = s.swc := rfl
@[simp] theorem State.setRegion_tables (s : State) (r : Nat) (x : Region) : (s.setRegion r x).tables = s.tables := rfl
@[simp] theorem State.setRegion_cipher (s : State) (r : Nat) (x : Region) : (s.setRegion r x).cipher = s.cipher := rfl
@[simp] theorem State.setRegion_conns (s : State) (r : Nat) (x : Region) : (s.setRegion r x).conns = s.conns := rfl
@[simp] theorem State.setRegion_ctrls (s : State) (r : Nat) (x : Region) : (s.setRegion r x).ctrls = s.ctrls := rfl
@[simp] theorem State.setRegion_sto (s : State) (r : Nat) (x : Region) : (s.setRegion r x).sto = s.sto := rfl
@[simp] theorem State.setRegion_pnl (s : State) (r : Nat) (x : Region) : (s.setRegion r x).pnl = s.pnl := rfl
@[simp] theorem State.setRegion_boot (s : State) (r : Nat) (x : Region) : (s.setRegion r x).boot = s.boot := rfl
@[simp] theorem State.setRegion_reg (s : State) (r : Nat) (x : Region) (addr : Nat) : (s.setRegion r x).reg addr = s.reg addr := rfl
@[simp] theorem State.setRegion_rd (s : State) (r : Nat) (x : Region) (fld : Fld) : (s.setRegion r x).rd fld = s.rd fld := rfl
@[simp] theorem State.setRegion_bit (s : State) (r : Nat) (x : Region) (fld : Fld) : (s.setRegion r x).bit fld = s.bit fld := rfl

/-! ## State.setVol: writes sto -/

@[simp] theorem State.setVol_pending (s : State) (n : Nat) (x : Volume) : (s.setVol n x).pending = s.pending := rfl
@[simp] theorem State.setVol_outs (s : State) (n : Nat) (x : Volume) : (s.setVol n x).outs = s.outs := rfl
@[simp] theorem State.setVol_fresh (s : State) (n : Nat) (x : Volume) : (s.setVol n x).fresh = s.fresh := rfl
@[simp] theorem State.setVol_datum (s : State) (n : Nat) (x : Volume) : (s.setVol n x).datum = s.datum := rfl
@[simp] theorem State.setVol_regs (s : State) (n : Nat) (x : Volume) : (s.setVol n x).regs = s.regs := rfl
@[simp] theorem State.setVol_mem (s : State) (n : Nat) (x : Volume) : (s.setVol n x).mem = s.mem := rfl
@[simp] theorem State.setVol_dtm (s : State) (n : Nat) (x : Volume) : (s.setVol n x).dtm = s.dtm := rfl
@[simp] theorem State.setVol_contracts (s : State) (n : Nat) (x : Volume) : (s.setVol n x).contracts = s.contracts := rfl
@[simp] theorem State.setVol_grt (s : State) (n : Nat) (x : Volume) : (s.setVol n x).grt = s.grt := rfl
@[simp] theorem State.setVol_islands (s : State) (n : Nat) (x : Volume) : (s.setVol n x).islands = s.islands := rfl
@[simp] theorem State.setVol_ports (s : State) (n : Nat) (x : Volume) : (s.setVol n x).ports = s.ports := rfl
@[simp] theorem State.setVol_funcs (s : State) (n : Nat) (x : Volume) : (s.setVol n x).funcs = s.funcs := rfl
@[simp] theorem State.setVol_vectors (s : State) (n : Nat) (x : Volume) : (s.setVol n x).vectors = s.vectors := rfl
@[simp] theorem State.setVol_reads (s : State) (n : Nat) (x : Volume) : (s.setVol n x).reads = s.reads := rfl
@[simp] theorem State.setVol_flight (s : State) (n : Nat) (x : Volume) : (s.setVol n x).flight = s.flight := rfl
@[simp] theorem State.setVol_cxlNext (s : State) (n : Nat) (x : Volume) : (s.setVol n x).cxlNext = s.cxlNext := rfl
@[simp] theorem State.setVol_cxlFree (s : State) (n : Nat) (x : Volume) : (s.setVol n x).cxlFree = s.cxlFree := rfl
@[simp] theorem State.setVol_sheets (s : State) (n : Nat) (x : Volume) : (s.setVol n x).sheets = s.sheets := rfl
@[simp] theorem State.setVol_rings (s : State) (n : Nat) (x : Volume) : (s.setVol n x).rings = s.rings := rfl
@[simp] theorem State.setVol_cairns (s : State) (n : Nat) (x : Volume) : (s.setVol n x).cairns = s.cairns := rfl
@[simp] theorem State.setVol_health (s : State) (n : Nat) (x : Volume) : (s.setVol n x).health = s.health := rfl
@[simp] theorem State.setVol_mgmt (s : State) (n : Nat) (x : Volume) : (s.setVol n x).mgmt = s.mgmt := rfl
@[simp] theorem State.setVol_power (s : State) (n : Nat) (x : Volume) : (s.setVol n x).power = s.power := rfl
@[simp] theorem State.setVol_voqs (s : State) (n : Nat) (x : Volume) : (s.setVol n x).voqs = s.voqs := rfl
@[simp] theorem State.setVol_sas (s : State) (n : Nat) (x : Volume) : (s.setVol n x).sas = s.sas := rfl
@[simp] theorem State.setVol_net (s : State) (n : Nat) (x : Volume) : (s.setVol n x).net = s.net := rfl
@[simp] theorem State.setVol_pipe (s : State) (n : Nat) (x : Volume) : (s.setVol n x).pipe = s.pipe := rfl
@[simp] theorem State.setVol_swc (s : State) (n : Nat) (x : Volume) : (s.setVol n x).swc = s.swc := rfl
@[simp] theorem State.setVol_tables (s : State) (n : Nat) (x : Volume) : (s.setVol n x).tables = s.tables := rfl
@[simp] theorem State.setVol_cipher (s : State) (n : Nat) (x : Volume) : (s.setVol n x).cipher = s.cipher := rfl
@[simp] theorem State.setVol_conns (s : State) (n : Nat) (x : Volume) : (s.setVol n x).conns = s.conns := rfl
@[simp] theorem State.setVol_ctrls (s : State) (n : Nat) (x : Volume) : (s.setVol n x).ctrls = s.ctrls := rfl
@[simp] theorem State.setVol_rlt (s : State) (n : Nat) (x : Volume) : (s.setVol n x).rlt = s.rlt := rfl
@[simp] theorem State.setVol_pnl (s : State) (n : Nat) (x : Volume) : (s.setVol n x).pnl = s.pnl := rfl
@[simp] theorem State.setVol_boot (s : State) (n : Nat) (x : Volume) : (s.setVol n x).boot = s.boot := rfl
@[simp] theorem State.setVol_reg (s : State) (n : Nat) (x : Volume) (addr : Nat) : (s.setVol n x).reg addr = s.reg addr := rfl
@[simp] theorem State.setVol_rd (s : State) (n : Nat) (x : Volume) (fld : Fld) : (s.setVol n x).rd fld = s.rd fld := rfl
@[simp] theorem State.setVol_bit (s : State) (n : Nat) (x : Volume) (fld : Fld) : (s.setVol n x).bit fld = s.bit fld := rfl

/-! ## State.setCmd: writes sto -/

@[simp] theorem State.setCmd_pending (s : State) (i : Nat) (x : NvmeCmd) : (s.setCmd i x).pending = s.pending := rfl
@[simp] theorem State.setCmd_outs (s : State) (i : Nat) (x : NvmeCmd) : (s.setCmd i x).outs = s.outs := rfl
@[simp] theorem State.setCmd_fresh (s : State) (i : Nat) (x : NvmeCmd) : (s.setCmd i x).fresh = s.fresh := rfl
@[simp] theorem State.setCmd_datum (s : State) (i : Nat) (x : NvmeCmd) : (s.setCmd i x).datum = s.datum := rfl
@[simp] theorem State.setCmd_regs (s : State) (i : Nat) (x : NvmeCmd) : (s.setCmd i x).regs = s.regs := rfl
@[simp] theorem State.setCmd_mem (s : State) (i : Nat) (x : NvmeCmd) : (s.setCmd i x).mem = s.mem := rfl
@[simp] theorem State.setCmd_dtm (s : State) (i : Nat) (x : NvmeCmd) : (s.setCmd i x).dtm = s.dtm := rfl
@[simp] theorem State.setCmd_contracts (s : State) (i : Nat) (x : NvmeCmd) : (s.setCmd i x).contracts = s.contracts := rfl
@[simp] theorem State.setCmd_grt (s : State) (i : Nat) (x : NvmeCmd) : (s.setCmd i x).grt = s.grt := rfl
@[simp] theorem State.setCmd_islands (s : State) (i : Nat) (x : NvmeCmd) : (s.setCmd i x).islands = s.islands := rfl
@[simp] theorem State.setCmd_ports (s : State) (i : Nat) (x : NvmeCmd) : (s.setCmd i x).ports = s.ports := rfl
@[simp] theorem State.setCmd_funcs (s : State) (i : Nat) (x : NvmeCmd) : (s.setCmd i x).funcs = s.funcs := rfl
@[simp] theorem State.setCmd_vectors (s : State) (i : Nat) (x : NvmeCmd) : (s.setCmd i x).vectors = s.vectors := rfl
@[simp] theorem State.setCmd_reads (s : State) (i : Nat) (x : NvmeCmd) : (s.setCmd i x).reads = s.reads := rfl
@[simp] theorem State.setCmd_flight (s : State) (i : Nat) (x : NvmeCmd) : (s.setCmd i x).flight = s.flight := rfl
@[simp] theorem State.setCmd_cxlNext (s : State) (i : Nat) (x : NvmeCmd) : (s.setCmd i x).cxlNext = s.cxlNext := rfl
@[simp] theorem State.setCmd_cxlFree (s : State) (i : Nat) (x : NvmeCmd) : (s.setCmd i x).cxlFree = s.cxlFree := rfl
@[simp] theorem State.setCmd_sheets (s : State) (i : Nat) (x : NvmeCmd) : (s.setCmd i x).sheets = s.sheets := rfl
@[simp] theorem State.setCmd_rings (s : State) (i : Nat) (x : NvmeCmd) : (s.setCmd i x).rings = s.rings := rfl
@[simp] theorem State.setCmd_cairns (s : State) (i : Nat) (x : NvmeCmd) : (s.setCmd i x).cairns = s.cairns := rfl
@[simp] theorem State.setCmd_health (s : State) (i : Nat) (x : NvmeCmd) : (s.setCmd i x).health = s.health := rfl
@[simp] theorem State.setCmd_mgmt (s : State) (i : Nat) (x : NvmeCmd) : (s.setCmd i x).mgmt = s.mgmt := rfl
@[simp] theorem State.setCmd_power (s : State) (i : Nat) (x : NvmeCmd) : (s.setCmd i x).power = s.power := rfl
@[simp] theorem State.setCmd_voqs (s : State) (i : Nat) (x : NvmeCmd) : (s.setCmd i x).voqs = s.voqs := rfl
@[simp] theorem State.setCmd_sas (s : State) (i : Nat) (x : NvmeCmd) : (s.setCmd i x).sas = s.sas := rfl
@[simp] theorem State.setCmd_net (s : State) (i : Nat) (x : NvmeCmd) : (s.setCmd i x).net = s.net := rfl
@[simp] theorem State.setCmd_pipe (s : State) (i : Nat) (x : NvmeCmd) : (s.setCmd i x).pipe = s.pipe := rfl
@[simp] theorem State.setCmd_swc (s : State) (i : Nat) (x : NvmeCmd) : (s.setCmd i x).swc = s.swc := rfl
@[simp] theorem State.setCmd_tables (s : State) (i : Nat) (x : NvmeCmd) : (s.setCmd i x).tables = s.tables := rfl
@[simp] theorem State.setCmd_cipher (s : State) (i : Nat) (x : NvmeCmd) : (s.setCmd i x).cipher = s.cipher := rfl
@[simp] theorem State.setCmd_conns (s : State) (i : Nat) (x : NvmeCmd) : (s.setCmd i x).conns = s.conns := rfl
@[simp] theorem State.setCmd_ctrls (s : State) (i : Nat) (x : NvmeCmd) : (s.setCmd i x).ctrls = s.ctrls := rfl
@[simp] theorem State.setCmd_rlt (s : State) (i : Nat) (x : NvmeCmd) : (s.setCmd i x).rlt = s.rlt := rfl
@[simp] theorem State.setCmd_pnl (s : State) (i : Nat) (x : NvmeCmd) : (s.setCmd i x).pnl = s.pnl := rfl
@[simp] theorem State.setCmd_boot (s : State) (i : Nat) (x : NvmeCmd) : (s.setCmd i x).boot = s.boot := rfl
@[simp] theorem State.setCmd_reg (s : State) (i : Nat) (x : NvmeCmd) (addr : Nat) : (s.setCmd i x).reg addr = s.reg addr := rfl
@[simp] theorem State.setCmd_rd (s : State) (i : Nat) (x : NvmeCmd) (fld : Fld) : (s.setCmd i x).rd fld = s.rd fld := rfl
@[simp] theorem State.setCmd_bit (s : State) (i : Nat) (x : NvmeCmd) (fld : Fld) : (s.setCmd i x).bit fld = s.bit fld := rfl

/-! ## State.setThread: writes pnl -/

@[simp] theorem State.setThread_pending (s : State) (t : Nat) (x : Thread) : (s.setThread t x).pending = s.pending := rfl
@[simp] theorem State.setThread_outs (s : State) (t : Nat) (x : Thread) : (s.setThread t x).outs = s.outs := rfl
@[simp] theorem State.setThread_fresh (s : State) (t : Nat) (x : Thread) : (s.setThread t x).fresh = s.fresh := rfl
@[simp] theorem State.setThread_datum (s : State) (t : Nat) (x : Thread) : (s.setThread t x).datum = s.datum := rfl
@[simp] theorem State.setThread_regs (s : State) (t : Nat) (x : Thread) : (s.setThread t x).regs = s.regs := rfl
@[simp] theorem State.setThread_mem (s : State) (t : Nat) (x : Thread) : (s.setThread t x).mem = s.mem := rfl
@[simp] theorem State.setThread_dtm (s : State) (t : Nat) (x : Thread) : (s.setThread t x).dtm = s.dtm := rfl
@[simp] theorem State.setThread_contracts (s : State) (t : Nat) (x : Thread) : (s.setThread t x).contracts = s.contracts := rfl
@[simp] theorem State.setThread_grt (s : State) (t : Nat) (x : Thread) : (s.setThread t x).grt = s.grt := rfl
@[simp] theorem State.setThread_islands (s : State) (t : Nat) (x : Thread) : (s.setThread t x).islands = s.islands := rfl
@[simp] theorem State.setThread_ports (s : State) (t : Nat) (x : Thread) : (s.setThread t x).ports = s.ports := rfl
@[simp] theorem State.setThread_funcs (s : State) (t : Nat) (x : Thread) : (s.setThread t x).funcs = s.funcs := rfl
@[simp] theorem State.setThread_vectors (s : State) (t : Nat) (x : Thread) : (s.setThread t x).vectors = s.vectors := rfl
@[simp] theorem State.setThread_reads (s : State) (t : Nat) (x : Thread) : (s.setThread t x).reads = s.reads := rfl
@[simp] theorem State.setThread_flight (s : State) (t : Nat) (x : Thread) : (s.setThread t x).flight = s.flight := rfl
@[simp] theorem State.setThread_cxlNext (s : State) (t : Nat) (x : Thread) : (s.setThread t x).cxlNext = s.cxlNext := rfl
@[simp] theorem State.setThread_cxlFree (s : State) (t : Nat) (x : Thread) : (s.setThread t x).cxlFree = s.cxlFree := rfl
@[simp] theorem State.setThread_sheets (s : State) (t : Nat) (x : Thread) : (s.setThread t x).sheets = s.sheets := rfl
@[simp] theorem State.setThread_rings (s : State) (t : Nat) (x : Thread) : (s.setThread t x).rings = s.rings := rfl
@[simp] theorem State.setThread_cairns (s : State) (t : Nat) (x : Thread) : (s.setThread t x).cairns = s.cairns := rfl
@[simp] theorem State.setThread_health (s : State) (t : Nat) (x : Thread) : (s.setThread t x).health = s.health := rfl
@[simp] theorem State.setThread_mgmt (s : State) (t : Nat) (x : Thread) : (s.setThread t x).mgmt = s.mgmt := rfl
@[simp] theorem State.setThread_power (s : State) (t : Nat) (x : Thread) : (s.setThread t x).power = s.power := rfl
@[simp] theorem State.setThread_voqs (s : State) (t : Nat) (x : Thread) : (s.setThread t x).voqs = s.voqs := rfl
@[simp] theorem State.setThread_sas (s : State) (t : Nat) (x : Thread) : (s.setThread t x).sas = s.sas := rfl
@[simp] theorem State.setThread_net (s : State) (t : Nat) (x : Thread) : (s.setThread t x).net = s.net := rfl
@[simp] theorem State.setThread_pipe (s : State) (t : Nat) (x : Thread) : (s.setThread t x).pipe = s.pipe := rfl
@[simp] theorem State.setThread_swc (s : State) (t : Nat) (x : Thread) : (s.setThread t x).swc = s.swc := rfl
@[simp] theorem State.setThread_tables (s : State) (t : Nat) (x : Thread) : (s.setThread t x).tables = s.tables := rfl
@[simp] theorem State.setThread_cipher (s : State) (t : Nat) (x : Thread) : (s.setThread t x).cipher = s.cipher := rfl
@[simp] theorem State.setThread_conns (s : State) (t : Nat) (x : Thread) : (s.setThread t x).conns = s.conns := rfl
@[simp] theorem State.setThread_ctrls (s : State) (t : Nat) (x : Thread) : (s.setThread t x).ctrls = s.ctrls := rfl
@[simp] theorem State.setThread_rlt (s : State) (t : Nat) (x : Thread) : (s.setThread t x).rlt = s.rlt := rfl
@[simp] theorem State.setThread_sto (s : State) (t : Nat) (x : Thread) : (s.setThread t x).sto = s.sto := rfl
@[simp] theorem State.setThread_boot (s : State) (t : Nat) (x : Thread) : (s.setThread t x).boot = s.boot := rfl
@[simp] theorem State.setThread_reg (s : State) (t : Nat) (x : Thread) (addr : Nat) : (s.setThread t x).reg addr = s.reg addr := rfl
@[simp] theorem State.setThread_rd (s : State) (t : Nat) (x : Thread) (fld : Fld) : (s.setThread t x).rd fld = s.rd fld := rfl
@[simp] theorem State.setThread_bit (s : State) (t : Nat) (x : Thread) (fld : Fld) : (s.setThread t x).bit fld = s.bit fld := rfl

/-! ## State.setThreadState: writes regs -/

@[simp] theorem State.setThreadState_pending (s : State) (t st : Nat) : (s.setThreadState t st).pending = s.pending := rfl
@[simp] theorem State.setThreadState_outs (s : State) (t st : Nat) : (s.setThreadState t st).outs = s.outs := rfl
@[simp] theorem State.setThreadState_fresh (s : State) (t st : Nat) : (s.setThreadState t st).fresh = s.fresh := rfl
@[simp] theorem State.setThreadState_datum (s : State) (t st : Nat) : (s.setThreadState t st).datum = s.datum := rfl
@[simp] theorem State.setThreadState_mem (s : State) (t st : Nat) : (s.setThreadState t st).mem = s.mem := rfl
@[simp] theorem State.setThreadState_dtm (s : State) (t st : Nat) : (s.setThreadState t st).dtm = s.dtm := rfl
@[simp] theorem State.setThreadState_contracts (s : State) (t st : Nat) : (s.setThreadState t st).contracts = s.contracts := rfl
@[simp] theorem State.setThreadState_grt (s : State) (t st : Nat) : (s.setThreadState t st).grt = s.grt := rfl
@[simp] theorem State.setThreadState_islands (s : State) (t st : Nat) : (s.setThreadState t st).islands = s.islands := rfl
@[simp] theorem State.setThreadState_ports (s : State) (t st : Nat) : (s.setThreadState t st).ports = s.ports := rfl
@[simp] theorem State.setThreadState_funcs (s : State) (t st : Nat) : (s.setThreadState t st).funcs = s.funcs := rfl
@[simp] theorem State.setThreadState_vectors (s : State) (t st : Nat) : (s.setThreadState t st).vectors = s.vectors := rfl
@[simp] theorem State.setThreadState_reads (s : State) (t st : Nat) : (s.setThreadState t st).reads = s.reads := rfl
@[simp] theorem State.setThreadState_flight (s : State) (t st : Nat) : (s.setThreadState t st).flight = s.flight := rfl
@[simp] theorem State.setThreadState_cxlNext (s : State) (t st : Nat) : (s.setThreadState t st).cxlNext = s.cxlNext := rfl
@[simp] theorem State.setThreadState_cxlFree (s : State) (t st : Nat) : (s.setThreadState t st).cxlFree = s.cxlFree := rfl
@[simp] theorem State.setThreadState_sheets (s : State) (t st : Nat) : (s.setThreadState t st).sheets = s.sheets := rfl
@[simp] theorem State.setThreadState_rings (s : State) (t st : Nat) : (s.setThreadState t st).rings = s.rings := rfl
@[simp] theorem State.setThreadState_cairns (s : State) (t st : Nat) : (s.setThreadState t st).cairns = s.cairns := rfl
@[simp] theorem State.setThreadState_health (s : State) (t st : Nat) : (s.setThreadState t st).health = s.health := rfl
@[simp] theorem State.setThreadState_mgmt (s : State) (t st : Nat) : (s.setThreadState t st).mgmt = s.mgmt := rfl
@[simp] theorem State.setThreadState_power (s : State) (t st : Nat) : (s.setThreadState t st).power = s.power := rfl
@[simp] theorem State.setThreadState_voqs (s : State) (t st : Nat) : (s.setThreadState t st).voqs = s.voqs := rfl
@[simp] theorem State.setThreadState_sas (s : State) (t st : Nat) : (s.setThreadState t st).sas = s.sas := rfl
@[simp] theorem State.setThreadState_net (s : State) (t st : Nat) : (s.setThreadState t st).net = s.net := rfl
@[simp] theorem State.setThreadState_pipe (s : State) (t st : Nat) : (s.setThreadState t st).pipe = s.pipe := rfl
@[simp] theorem State.setThreadState_swc (s : State) (t st : Nat) : (s.setThreadState t st).swc = s.swc := rfl
@[simp] theorem State.setThreadState_tables (s : State) (t st : Nat) : (s.setThreadState t st).tables = s.tables := rfl
@[simp] theorem State.setThreadState_cipher (s : State) (t st : Nat) : (s.setThreadState t st).cipher = s.cipher := rfl
@[simp] theorem State.setThreadState_conns (s : State) (t st : Nat) : (s.setThreadState t st).conns = s.conns := rfl
@[simp] theorem State.setThreadState_ctrls (s : State) (t st : Nat) : (s.setThreadState t st).ctrls = s.ctrls := rfl
@[simp] theorem State.setThreadState_rlt (s : State) (t st : Nat) : (s.setThreadState t st).rlt = s.rlt := rfl
@[simp] theorem State.setThreadState_sto (s : State) (t st : Nat) : (s.setThreadState t st).sto = s.sto := rfl
@[simp] theorem State.setThreadState_pnl (s : State) (t st : Nat) : (s.setThreadState t st).pnl = s.pnl := rfl
@[simp] theorem State.setThreadState_boot (s : State) (t st : Nat) : (s.setThreadState t st).boot = s.boot := rfl

/-! ## State.setLoad: writes boot -/

@[simp] theorem State.setLoad_pending (s : State) (c : Nat) (x : Load) : (s.setLoad c x).pending = s.pending := rfl
@[simp] theorem State.setLoad_outs (s : State) (c : Nat) (x : Load) : (s.setLoad c x).outs = s.outs := rfl
@[simp] theorem State.setLoad_fresh (s : State) (c : Nat) (x : Load) : (s.setLoad c x).fresh = s.fresh := rfl
@[simp] theorem State.setLoad_datum (s : State) (c : Nat) (x : Load) : (s.setLoad c x).datum = s.datum := rfl
@[simp] theorem State.setLoad_regs (s : State) (c : Nat) (x : Load) : (s.setLoad c x).regs = s.regs := rfl
@[simp] theorem State.setLoad_mem (s : State) (c : Nat) (x : Load) : (s.setLoad c x).mem = s.mem := rfl
@[simp] theorem State.setLoad_dtm (s : State) (c : Nat) (x : Load) : (s.setLoad c x).dtm = s.dtm := rfl
@[simp] theorem State.setLoad_contracts (s : State) (c : Nat) (x : Load) : (s.setLoad c x).contracts = s.contracts := rfl
@[simp] theorem State.setLoad_grt (s : State) (c : Nat) (x : Load) : (s.setLoad c x).grt = s.grt := rfl
@[simp] theorem State.setLoad_islands (s : State) (c : Nat) (x : Load) : (s.setLoad c x).islands = s.islands := rfl
@[simp] theorem State.setLoad_ports (s : State) (c : Nat) (x : Load) : (s.setLoad c x).ports = s.ports := rfl
@[simp] theorem State.setLoad_funcs (s : State) (c : Nat) (x : Load) : (s.setLoad c x).funcs = s.funcs := rfl
@[simp] theorem State.setLoad_vectors (s : State) (c : Nat) (x : Load) : (s.setLoad c x).vectors = s.vectors := rfl
@[simp] theorem State.setLoad_reads (s : State) (c : Nat) (x : Load) : (s.setLoad c x).reads = s.reads := rfl
@[simp] theorem State.setLoad_flight (s : State) (c : Nat) (x : Load) : (s.setLoad c x).flight = s.flight := rfl
@[simp] theorem State.setLoad_cxlNext (s : State) (c : Nat) (x : Load) : (s.setLoad c x).cxlNext = s.cxlNext := rfl
@[simp] theorem State.setLoad_cxlFree (s : State) (c : Nat) (x : Load) : (s.setLoad c x).cxlFree = s.cxlFree := rfl
@[simp] theorem State.setLoad_sheets (s : State) (c : Nat) (x : Load) : (s.setLoad c x).sheets = s.sheets := rfl
@[simp] theorem State.setLoad_rings (s : State) (c : Nat) (x : Load) : (s.setLoad c x).rings = s.rings := rfl
@[simp] theorem State.setLoad_cairns (s : State) (c : Nat) (x : Load) : (s.setLoad c x).cairns = s.cairns := rfl
@[simp] theorem State.setLoad_health (s : State) (c : Nat) (x : Load) : (s.setLoad c x).health = s.health := rfl
@[simp] theorem State.setLoad_mgmt (s : State) (c : Nat) (x : Load) : (s.setLoad c x).mgmt = s.mgmt := rfl
@[simp] theorem State.setLoad_power (s : State) (c : Nat) (x : Load) : (s.setLoad c x).power = s.power := rfl
@[simp] theorem State.setLoad_voqs (s : State) (c : Nat) (x : Load) : (s.setLoad c x).voqs = s.voqs := rfl
@[simp] theorem State.setLoad_sas (s : State) (c : Nat) (x : Load) : (s.setLoad c x).sas = s.sas := rfl
@[simp] theorem State.setLoad_net (s : State) (c : Nat) (x : Load) : (s.setLoad c x).net = s.net := rfl
@[simp] theorem State.setLoad_pipe (s : State) (c : Nat) (x : Load) : (s.setLoad c x).pipe = s.pipe := rfl
@[simp] theorem State.setLoad_swc (s : State) (c : Nat) (x : Load) : (s.setLoad c x).swc = s.swc := rfl
@[simp] theorem State.setLoad_tables (s : State) (c : Nat) (x : Load) : (s.setLoad c x).tables = s.tables := rfl
@[simp] theorem State.setLoad_cipher (s : State) (c : Nat) (x : Load) : (s.setLoad c x).cipher = s.cipher := rfl
@[simp] theorem State.setLoad_conns (s : State) (c : Nat) (x : Load) : (s.setLoad c x).conns = s.conns := rfl
@[simp] theorem State.setLoad_ctrls (s : State) (c : Nat) (x : Load) : (s.setLoad c x).ctrls = s.ctrls := rfl
@[simp] theorem State.setLoad_rlt (s : State) (c : Nat) (x : Load) : (s.setLoad c x).rlt = s.rlt := rfl
@[simp] theorem State.setLoad_sto (s : State) (c : Nat) (x : Load) : (s.setLoad c x).sto = s.sto := rfl
@[simp] theorem State.setLoad_pnl (s : State) (c : Nat) (x : Load) : (s.setLoad c x).pnl = s.pnl := rfl
@[simp] theorem State.setLoad_reg (s : State) (c : Nat) (x : Load) (addr : Nat) : (s.setLoad c x).reg addr = s.reg addr := rfl
@[simp] theorem State.setLoad_rd (s : State) (c : Nat) (x : Load) (fld : Fld) : (s.setLoad c x).rd fld = s.rd fld := rfl
@[simp] theorem State.setLoad_bit (s : State) (c : Nat) (x : Load) (fld : Fld) : (s.setLoad c x).bit fld = s.bit fld := rfl

/-! ## What an update writes -/

@[simp] theorem State.emit_outs (s : State) (o : Out) : (s.emit o).outs = s.outs ++ [o] := rfl
@[simp] theorem State.drawn_fresh (s : State) : s.drawn.fresh = s.fresh + 1 := rfl
@[simp] theorem State.setRing_rings (s : State) (g : Nat) (x : Ring) : (s.setRing g x).rings = tblPut s.rings g x := rfl
@[simp] theorem State.setContract_contracts (s : State) (c : Nat) (x : Contract) :
    (s.setContract c x).contracts = tblPut s.contracts c x := rfl
@[simp] theorem State.setSheet_sheets (s : State) (n : Nat) (x : Sheet) : (s.setSheet n x).sheets = tblSet Sheet.free s.sheets n x := rfl
@[simp] theorem State.setConn_conns (s : State) (n : Nat) (x : Conn) : (s.setConn n x).conns = tblPut s.conns n x := rfl
@[simp] theorem State.setCtrl_ctrls (s : State) (n : Nat) (x : Ctrl) : (s.setCtrl n x).ctrls = tblPut s.ctrls n x := rfl
@[simp] theorem State.takeSlot_flight (s : State) (k : SlotKind) : (s.takeSlot k).flight = s.flight.take k := rfl
@[simp] theorem State.freeSlot_flight (s : State) (k : SlotKind) : (s.freeSlot k).flight = s.flight.release k := rfl

end Sys2Proof.Machine
end

