-- ==== Sys2Proof/Laws/Entries.lean ====
section
/-! SUPPORT. What starting and completing a ring entry does: the lemmas a proof about a ring command cites in place of unfolding
beginJob, runEntry and startEntry. -/

namespace Sys2Proof.Machine

/-- What startable answers: the ring, RUNNING, of an ACTIVE or DEBUG sheet, and its next job, whose opcode is one of those named and
one the ring's kind takes. -/
theorem State.startable_some {s : State} {g : Nat} {ops : Nat → Bool} {r : Ring} {j : Job} (h : s.startable g ops = some (r, j)) :
    s.ring? g = some r ∧ r.state = .running ∧ ((s.sheet r.sheet).state = .active ∨ (s.sheet r.sheet).state = .debug)
      ∧ nextJob r.fences true r.jobs = some j ∧ ops (opcode j.first) = true ∧ kindAccepts r.kind (opcode j.first) = true := by
  unfold State.startable at h
  split at h
  · cases h
  · rename_i q hq
    split at h
    · rename_i hs
      split at h
      · cases h
      · rename_i k hk
        split at h
        · rename_i ho
          simp only [Option.some.injEq, Prod.mk.injEq] at h
          obtain ⟨rfl, rfl⟩ := h
          exact ⟨hq, hs.1, hs.2, hk, by simpa using ho⟩
        · cases h
    · cases h

/-- An entry that starts takes the slot held for its ring, or a free one (R25). -/
theorem State.Starts.cases {s u : State} {g op : Nat} {r : Ring} {j : Job} (h : s.Starts g op r j u) :
    s.startable g (· == op) = some (r, j)
      ∧ (r.slotHeld = true ∧ u = s.setRing g { r with jobs := runJob j.idx (some .dma) r.jobs, slotHeld := false }
        ∨ r.slotHeld = false ∧ s.flight.room .dma = true
          ∧ u = (s.takeSlot .dma).setRing g { r with jobs := runJob j.idx (some .dma) r.jobs, slotWait := false }) := by
  unfold State.Starts beginJob at h
  split at h
  · cases h
  · rename_i q k hk
    dsimp only at h
    split_ifs at h with h1 h2
    · simp only [Prod.mk.injEq, Option.some.injEq] at h
      obtain ⟨⟨rfl, rfl⟩, rfl⟩ := h
      exact ⟨hk, .inl ⟨h1, rfl⟩⟩
    · simp only [Prod.mk.injEq, Option.some.injEq] at h
      obtain ⟨⟨rfl, rfl⟩, rfl⟩ := h
      exact ⟨hk, .inr ⟨by simpa using h1, h2, rfl⟩⟩
    · simp at h

/-- Starting an entry changes its ring and the flight table, and nothing else. -/
theorem State.Starts.frame {s u : State} {g op : Nat} {r : Ring} {j : Job} (h : s.Starts g op r j u) :
    u = { s with rings := u.rings, flight := u.flight } := by
  obtain ⟨-, ⟨-, rfl⟩ | ⟨-, -, rfl⟩⟩ := h.cases <;> rfl

/-- Once its entry has started the ring holds the job as running. -/
theorem State.Starts.ring {s u : State} {g op : Nat} {r : Ring} {j : Job} (h : s.Starts g op r j u) :
    u.rings = tblPut s.rings g { r with
      jobs := runJob j.idx (some .dma) r.jobs
      slotHeld := false
      slotWait := if r.slotHeld then r.slotWait else false } := by
  obtain ⟨-, ⟨hs, rfl⟩ | ⟨hs, -, rfl⟩⟩ := h.cases <;> simp [hs]

/-- An entry that ends in the step that starts it: its effect, then its completion. -/
theorem runEntry_starts {s u : State} {g op : Nat} {r : Ring} {j : Job} (f : Ring → Job → State → State × Nat × Body)
    (h : s.Starts g op r j u) :
    runEntry g (· == op) f s = done g j (f r j u).2.1 (f r j u).2.2 (f r j u).1 := by
  unfold runEntry; rw [show beginJob g (· == op) (some .dma) s = _ from h]

/-- With no slot free the ring waits, and nothing else happens (R25). -/
theorem runEntry_waits {s u : State} {g : Nat} {ops : Nat → Bool} (f : Ring → Job → State → State × Nat × Body)
    (h : beginJob g ops (some .dma) s = (none, u)) : runEntry g ops f s = u := by
  unfold runEntry; rw [h]

/-- An entry that its effect completes at once. -/
theorem startEntry_ends {s t u : State} {g op : Nat} {r : Ring} {j : Job} {st : Nat} {body : Body}
    (f : Ring → Job → State → State × Option (Nat × Body)) (h : s.Starts g op r j u) (hf : f r j u = (t, some (st, body))) :
    startEntry g (· == op) f s = done g j st body t := by
  unfold startEntry; rw [show beginJob g (· == op) (some .dma) s = _ from h]; simp only [hf]

/-- An entry whose completion comes later. -/
theorem startEntry_runs {s t u : State} {g op : Nat} {r : Ring} {j : Job}
    (f : Ring → Job → State → State × Option (Nat × Body)) (h : s.Starts g op r j u) (hf : f r j u = (t, none)) :
    startEntry g (· == op) f s = flushRing g t := by
  unfold startEntry; rw [show beginJob g (· == op) (some .dma) s = _ from h]; simp only [hf]

/-- What a completion does: the job's completion is ready, and what order allows is written (R177, R179). -/
theorem endJob_found {s : State} {g idx st : Nat} {body : Body} {r : Ring} {j : Job} (hr : s.ring? g = some r)
    (hj : findJob idx r.jobs = some j) :
    endJob g idx st body s = flushRing g (s.setRing g { r with jobs := markJob idx (.ready (jobCompletion j st body) []) r.jobs }) := by
  unfold endJob; rw [hr]; simp only [hj]

/-- A next state is an answer. -/
theorem Answers.intro {c : Instr} {s t : State} {p : State → Prop} (h : exec c s = .next t) (hp : p t) : Answers c s p := ⟨t, h, hp⟩

end Sys2Proof.Machine
end

