-- ==== Sys2Proof/Laws/Table.lean ====
section
/-! SUPPORT. Laws of finite tables: read after write, and that every operation keeps the numbers rising. -/

namespace Sys2Proof.Machine

variable {α : Type}

theorem tblGet_tblPut_same (t : Tbl α) (n : Nat) (x : α) : tblGet (tblPut t n x) n = some x := by
  induction t with
  | nil => simp [tblPut, tblGet]
  | cons p t ih =>
    obtain ⟨k, v⟩ := p
    simp only [tblPut]
    split
    · simp [tblGet]
    · split
      · simp [tblGet]
      · simp only [tblGet, ih, ite_eq_right_iff]; omega

theorem tblGet_tblPut_ne (t : Tbl α) {n m : Nat} (x : α) (h : m ≠ n) : tblGet (tblPut t n x) m = tblGet t m := by
  induction t with
  | nil => simp [tblPut, tblGet, h]
  | cons p t ih =>
    obtain ⟨k, v⟩ := p
    simp only [tblPut]
    split
    · simp [tblGet, h]
    · split
      · rename_i h1 h2; subst h2; simp [tblGet, h]
      · simp [tblGet, ih]

theorem tblAbove_weaken {t : Tbl α} {lo lo' : Nat} (h : lo' ≤ lo) (ht : tblAbove lo t = true) : tblAbove lo' t = true := by
  cases t with
  | nil => rfl
  | cons p t => obtain ⟨k, v⟩ := p; simp [tblAbove] at ht ⊢; exact ⟨by omega, ht.2⟩

/-- Nothing at or below the bound of a table above it. -/
theorem tblGet_of_above {t : Tbl α} {lo n : Nat} (ht : tblAbove lo t = true) (h : n ≤ lo) : tblGet t n = none := by
  induction t generalizing lo with
  | nil => rfl
  | cons p t ih =>
    obtain ⟨k, v⟩ := p
    simp [tblAbove] at ht
    simp [tblGet, show n ≠ k by omega, ih ht.2 (by omega)]

theorem tblWf_of_above {t : Tbl α} {lo : Nat} (h : tblAbove lo t = true) : tblWf t = true := by
  cases t with
  | nil => rfl
  | cons p t => obtain ⟨k, v⟩ := p; simp [tblAbove] at h; simpa [tblWf] using h.2

theorem tblAbove_tblPut {t : Tbl α} {lo n : Nat} (x : α) (h : tblAbove lo t = true) (hn : lo < n) :
    tblAbove lo (tblPut t n x) = true := by
  induction t generalizing lo with
  | nil => simp [tblPut, tblAbove, hn]
  | cons p t ih =>
    obtain ⟨k, v⟩ := p
    simp [tblAbove] at h
    simp only [tblPut]
    split
    · rename_i h1; simp [tblAbove, hn, h1, h.2]
    · split
      · rename_i h2; subst h2; simp [tblAbove, h.1, h.2]
      · simp [tblAbove, h.1, ih h.2 (by omega)]

theorem tblWf_tblPut {t : Tbl α} {n : Nat} (x : α) (h : tblWf t = true) : tblWf (tblPut t n x) = true := by
  cases t with
  | nil => rfl
  | cons p t =>
    obtain ⟨k, v⟩ := p
    simp only [tblPut]
    split
    · rename_i h1; simp only [tblWf, tblAbove]; simp [h1]; exact h
    · split
      · rename_i h2; subst h2; exact h
      · exact tblAbove_tblPut x h (by omega)

theorem tblAbove_tblDel {t : Tbl α} {lo n : Nat} (h : tblAbove lo t = true) : tblAbove lo (tblDel t n) = true := by
  induction t generalizing lo with
  | nil => rfl
  | cons p t ih =>
    obtain ⟨k, v⟩ := p
    simp [tblAbove] at h
    simp only [tblDel]
    split
    · exact tblAbove_weaken (by omega) h.2
    · simp [tblAbove, h.1, ih h.2]

theorem tblWf_tblDel {t : Tbl α} {n : Nat} (h : tblWf t = true) : tblWf (tblDel t n) = true := by
  cases t with
  | nil => rfl
  | cons p t =>
    obtain ⟨k, v⟩ := p
    simp only [tblDel]
    split
    · exact tblWf_of_above h
    · exact tblAbove_tblDel h

theorem tblGet_tblDel_same {t : Tbl α} {n : Nat} (h : tblWf t = true) : tblGet (tblDel t n) n = none := by
  induction t with
  | nil => rfl
  | cons p t ih =>
    obtain ⟨k, v⟩ := p
    simp only [tblDel]
    split
    · rename_i h1; subst h1; exact tblGet_of_above h (by omega)
    · rename_i h1; simp [tblGet, h1, ih (tblWf_of_above h)]

theorem tblGet_tblDel_ne (t : Tbl α) {n m : Nat} (h : m ≠ n) : tblGet (tblDel t n) m = tblGet t m := by
  induction t with
  | nil => rfl
  | cons p t ih =>
    obtain ⟨k, v⟩ := p
    simp only [tblDel]
    split
    · rename_i h1; subst h1; simp [tblGet, h]
    · simp [tblGet, ih]

theorem tblWf_tblSet [DecidableEq α] {d : α} {t : Tbl α} {n : Nat} {x : α} (h : tblWf t = true) :
    tblWf (tblSet d t n x) = true := by
  unfold tblSet; split
  · exact tblWf_tblDel h
  · exact tblWf_tblPut x h

theorem tblGetD_tblSet_same [DecidableEq α] {d : α} {t : Tbl α} {n : Nat} {x : α} (h : tblWf t = true) :
    tblGetD d (tblSet d t n x) n = x := by
  unfold tblSet tblGetD
  by_cases hx : x = d
  · simp [hx, tblGet_tblDel_same h]
  · simp [hx, tblGet_tblPut_same]

theorem tblGetD_tblSet_ne [DecidableEq α] {d : α} (t : Tbl α) {n m : Nat} {x : α} (h : m ≠ n) :
    tblGetD d (tblSet d t n x) m = tblGetD d t m := by
  unfold tblSet tblGetD
  by_cases hx : x = d
  · simp [hx, tblGet_tblDel_ne t h]
  · simp [hx, tblGet_tblPut_ne t x h]

theorem tblAbove_filter {t : Tbl α} {lo : Nat} (p : Nat × α → Bool) (h : tblAbove lo t = true) :
    tblAbove lo (t.filter p) = true := by
  induction t generalizing lo with
  | nil => rfl
  | cons q t ih =>
    obtain ⟨k, v⟩ := q
    simp [tblAbove] at h
    by_cases hp : p (k, v) = true
    · simp [hp, tblAbove, h.1, ih h.2]
    · simp [hp]; exact ih (tblAbove_weaken (by omega) h.2)

theorem tblWf_filter {t : Tbl α} (p : Nat × α → Bool) (h : tblWf t = true) : tblWf (t.filter p) = true := by
  cases t with
  | nil => rfl
  | cons q t =>
    obtain ⟨k, v⟩ := q
    by_cases hp : p (k, v) = true
    · simp only [List.filter_cons, hp, if_true]; exact tblAbove_filter p h
    · simp only [List.filter_cons, hp]; exact tblWf_of_above (tblAbove_filter p h)

theorem mem_tblDel {t : Tbl α} {n : Nat} {x : Nat × α} (h : x ∈ tblDel t n) : x ∈ t := by
  induction t with
  | nil => exact h
  | cons p t ih =>
    obtain ⟨k, v⟩ := p
    simp only [tblDel] at h
    split at h
    · exact List.mem_cons_of_mem _ h
    · rcases List.mem_cons.1 h with rfl | h
      · exact List.mem_cons_self ..
      · exact List.mem_cons_of_mem _ (ih h)

theorem mem_tblPut {t : Tbl α} {n : Nat} {y : α} {x : Nat × α} (h : x ∈ tblPut t n y) : x = (n, y) ∨ x ∈ t := by
  induction t with
  | nil => simpa [tblPut] using h
  | cons p t ih =>
    obtain ⟨k, v⟩ := p
    simp only [tblPut] at h
    split at h
    · simpa using h
    · split at h
      · rcases List.mem_cons.1 h with rfl | h
        · exact .inl rfl
        · exact .inr (List.mem_cons_of_mem _ h)
      · rcases List.mem_cons.1 h with rfl | h
        · exact .inr (List.mem_cons_self ..)
        · exact (ih h).imp id (List.mem_cons_of_mem _)

end Sys2Proof.Machine
end

