-- ==== Sys2Proof/Laws/Registers.lean ====
section
/-! SUPPORT. Laws of the register file: a field written reads back, no other field changes, and the file keeps its canonical
form. -/

namespace Sys2Proof.Machine

theorem canonAddr_canonAddr (a : Nat) : canonAddr (canonAddr a) = canonAddr a := by
  unfold canonAddr
  by_cases h : 0x8000000 ≤ a ∧ a < 0x9200000
  · simp only [h, and_self, if_true]
    by_cases h2 : (0x40 ≤ (a - 0x8000000) % 0x100000 ∧ (a - 0x8000000) % 0x100000 < 0x48)
        ∨ (0x100 ≤ (a - 0x8000000) % 0x100000 ∧ (a - 0x8000000) % 0x100000 < 0x800)
        ∨ (0x10000 ≤ (a - 0x8000000) % 0x100000 ∧ (a - 0x8000000) % 0x100000 < 0x14000) ∨ 0xF0000 ≤ (a - 0x8000000) % 0x100000
    · have hlt : (a - 0x8000000) % 0x100000 < 0x100000 := Nat.mod_lt _ (by omega)
      simp only [h2, if_true]
      have e : (0x8000000 + (a - 0x8000000) % 0x100000 - 0x8000000) % 0x100000 = (a - 0x8000000) % 0x100000 := by omega
      rw [e]; simp only [h2, if_true]; split <;> omega
    · simp only [h2, if_false, h, and_self, if_true]
  · simp [h]

theorem regReset_canonAddr (a : Nat) : regReset (canonAddr a) = regReset a := by
  unfold regReset findReg; rw [canonAddr_canonAddr]

theorem State.reg_setReg_same (s : State) (hs : tblWf s.regs = true) (a : Nat) (v : BitVec 64) : (s.setReg a v).reg a = v := by
  unfold State.setReg State.reg
  by_cases h : v = regReset a
  · simp [h, tblGet_tblDel_same hs]
  · simp [h, tblGet_tblPut_same]

/-- The two addresses of one register that has a copy in every bench block read alike. -/
theorem State.reg_congr (s : State) {a b : Nat} (h : canonAddr a = canonAddr b) : s.reg a = s.reg b := by
  unfold State.reg; rw [h, ← regReset_canonAddr a, h, regReset_canonAddr b]

theorem State.reg_setReg_ne (s : State) {a b : Nat} (v : BitVec 64) (h : canonAddr b ≠ canonAddr a) :
    (s.setReg a v).reg b = s.reg b := by
  unfold State.setReg State.reg
  by_cases hv : v = regReset a
  · simp [hv, tblGet_tblDel_ne _ h]
  · simp [hv, tblGet_tblPut_ne _ _ h]

theorem putField_toNat (v : BitVec 64) {lo w : Nat} (h : lo + w ≤ 64) (x : Nat) :
    (putField v lo w x).toNat = v.toNat % 2 ^ lo + (x % 2 ^ w) * 2 ^ lo + v.toNat / 2 ^ (lo + w) * 2 ^ (lo + w) := by
  unfold putField
  rw [BitVec.toNat_ofNat, Nat.mod_eq_of_lt]
  have h1 : v.toNat % 2 ^ lo < 2 ^ lo := Nat.mod_lt _ (by positivity)
  have h2 : x % 2 ^ w < 2 ^ w := Nat.mod_lt _ (by positivity)
  have h3 : v.toNat % 2 ^ lo + (x % 2 ^ w) * 2 ^ lo < 2 ^ (lo + w) := by
    calc v.toNat % 2 ^ lo + (x % 2 ^ w) * 2 ^ lo < 2 ^ lo + (x % 2 ^ w) * 2 ^ lo := by omega
      _ = (x % 2 ^ w + 1) * 2 ^ lo := by ring
      _ ≤ 2 ^ w * 2 ^ lo := Nat.mul_le_mul_right _ h2
      _ = 2 ^ (lo + w) := by rw [← pow_add]; ring_nf
  have h4 : v.toNat / 2 ^ (lo + w) < 2 ^ (64 - (lo + w)) := by
    rw [Nat.div_lt_iff_lt_mul (by positivity), ← pow_add, Nat.sub_add_cancel h]; exact v.isLt
  calc _ < 2 ^ (lo + w) + v.toNat / 2 ^ (lo + w) * 2 ^ (lo + w) := by omega
    _ = (v.toNat / 2 ^ (lo + w) + 1) * 2 ^ (lo + w) := by ring
    _ ≤ 2 ^ (64 - (lo + w)) * 2 ^ (lo + w) := Nat.mul_le_mul_right _ h4
    _ = 2 ^ 64 := by rw [← pow_add, Nat.sub_add_cancel h]

theorem getField_putField_same (v : BitVec 64) {lo w : Nat} (h : lo + w ≤ 64) (x : Nat) :
    getField (putField v lo w x) lo w = x % 2 ^ w := by
  unfold getField
  rw [putField_toNat v h]
  have h1 : v.toNat % 2 ^ lo < 2 ^ lo := Nat.mod_lt _ (by positivity)
  have e : v.toNat % 2 ^ lo + (x % 2 ^ w) * 2 ^ lo + v.toNat / 2 ^ (lo + w) * 2 ^ (lo + w)
      = v.toNat % 2 ^ lo + 2 ^ lo * (x % 2 ^ w + 2 ^ w * (v.toNat / 2 ^ (lo + w))) := by rw [pow_add]; ring
  rw [e, Nat.add_mul_div_left _ _ (by positivity), Nat.div_eq_of_lt h1, Nat.zero_add, Nat.add_mul_mod_self_left,
    Nat.mod_mod]

/-- A field below the one written keeps its value. -/
theorem getField_putField_below (v : BitVec 64) {lo w lo' w' : Nat} (h : lo + w ≤ 64) (hd : lo' + w' ≤ lo) (x : Nat) :
    getField (putField v lo w x) lo' w' = getField v lo' w' := by
  unfold getField
  rw [putField_toNat v h]
  have e : v.toNat % 2 ^ lo + (x % 2 ^ w) * 2 ^ lo + v.toNat / 2 ^ (lo + w) * 2 ^ (lo + w)
      = v.toNat % 2 ^ lo + 2 ^ lo * (x % 2 ^ w + 2 ^ w * (v.toNat / 2 ^ (lo + w))) := by rw [pow_add]; ring
  rw [e]
  have key : ∀ n m : Nat, (n % 2 ^ lo + 2 ^ lo * m) / 2 ^ lo' % 2 ^ w' = n / 2 ^ lo' % 2 ^ w' := by
    intro n m
    have hl : lo = lo' + w' + (lo - lo' - w') := by omega
    have e1 : ∀ y : Nat, y / 2 ^ lo' % 2 ^ w' = y % 2 ^ (lo' + w') / 2 ^ lo' := by
      intro y; rw [pow_add, Nat.mod_mul_right_div_self]
    rw [e1, e1]
    congr 1
    have hp : 2 ^ lo = 2 ^ (lo' + w') * 2 ^ (lo - lo' - w') := by rw [← pow_add, ← hl]
    rw [hp, mul_assoc, Nat.add_mul_mod_self_left, Nat.mod_mul_right_mod]
  exact key _ _

/-- A field above the one written keeps its value. -/
theorem getField_putField_above (v : BitVec 64) {lo w lo' w' : Nat} (h : lo + w ≤ 64) (hd : lo + w ≤ lo') (x : Nat) :
    getField (putField v lo w x) lo' w' = getField v lo' w' := by
  unfold getField
  rw [putField_toNat v h]
  have h1 : v.toNat % 2 ^ lo < 2 ^ lo := Nat.mod_lt _ (by positivity)
  have h2 : x % 2 ^ w < 2 ^ w := Nat.mod_lt _ (by positivity)
  have h3 : v.toNat % 2 ^ lo + (x % 2 ^ w) * 2 ^ lo < 2 ^ (lo + w) := by
    calc v.toNat % 2 ^ lo + (x % 2 ^ w) * 2 ^ lo < 2 ^ lo + (x % 2 ^ w) * 2 ^ lo := by omega
      _ = (x % 2 ^ w + 1) * 2 ^ lo := by ring
      _ ≤ 2 ^ w * 2 ^ lo := Nat.mul_le_mul_right _ h2
      _ = 2 ^ (lo + w) := by rw [← pow_add]; ring_nf
  have hp : 2 ^ lo' = 2 ^ (lo + w) * 2 ^ (lo' - lo - w) := by rw [← pow_add]; congr 1; omega
  congr 1
  rw [hp, ← Nat.div_div_eq_div_mul, ← Nat.div_div_eq_div_mul, mul_comm (v.toNat / 2 ^ (lo + w)),
    Nat.add_mul_div_left _ _ (by positivity), Nat.div_eq_of_lt h3, Nat.zero_add]

/-- A field written reads back what was written, in its width. -/
theorem State.rd_wr_same (s : State) (hs : tblWf s.regs = true) (f : Fld) (h : f.lo + f.width ≤ 64) (x : Nat) :
    (s.wr f x).rd f = x % 2 ^ f.width := by
  unfold State.rd State.wr; rw [s.reg_setReg_same hs, getField_putField_same _ h]

/-- A field of another register keeps its value. -/
theorem State.rd_wr_ne (s : State) {f g : Fld} (h : canonAddr g.addr ≠ canonAddr f.addr) (x : Nat) : (s.wr f x).rd g = s.rd g := by
  unfold State.rd State.wr; rw [s.reg_setReg_ne _ h]

/-- A field of the same register beside the one written keeps its value. -/
theorem State.rd_wr_disjoint (s : State) (hs : tblWf s.regs = true) {f g : Fld} (ha : canonAddr g.addr = canonAddr f.addr)
    (h : f.lo + f.width ≤ 64) (hd : g.lo + g.width ≤ f.lo ∨ f.lo + f.width ≤ g.lo) (x : Nat) : (s.wr f x).rd g = s.rd g := by
  unfold State.rd State.wr
  rw [State.reg_congr _ ha, s.reg_setReg_same hs, s.reg_congr ha]
  rcases hd with hd | hd
  · exact getField_putField_below _ h hd x
  · exact getField_putField_above _ h hd x

theorem regsWf_setReg {s : State} (a : Nat) (v : BitVec 64) (h : regsWf s.regs) : regsWf (s.setReg a v).regs := by
  unfold State.setReg
  by_cases hv : v = regReset a
  · simp only [hv, if_true]
    exact ⟨tblWf_tblDel h.1, fun x hx => h.2 x (mem_tblDel hx)⟩
  · simp only [hv, if_false]
    refine ⟨tblWf_tblPut _ h.1, fun x hx => ?_⟩
    rcases mem_tblPut hx with rfl | hx
    · exact ⟨canonAddr_canonAddr a, by rw [regReset_canonAddr]; exact hv⟩
    · exact h.2 x hx

theorem regsWf_filter {t : Tbl (BitVec 64)} (p : Nat × BitVec 64 → Bool) (h : regsWf t) : regsWf (t.filter p) :=
  ⟨tblWf_filter p h.1, fun x hx => h.2 x (List.mem_of_mem_filter hx)⟩

end Sys2Proof.Machine
end

