-- ==== Sys2Proof/Laws/Flags.lean ====
section
/-! SUPPORT. What raising an event does: its bit turns 1, no other register changes. -/

namespace Sys2Proof.Machine

@[simp] theorem State.sendVector_regs (s : State) (p f v : Nat) : (s.sendVector p f v).regs = s.regs := by
  unfold State.sendVector; dsimp only; split_ifs <;> rfl

@[simp] theorem cairnEventIn_regs (k src : Nat) (s : State) : (cairnEventIn k src s).regs = s.regs := by
  unfold cairnEventIn; dsimp only; split <;> rfl

/-- A fold of steps that keep the registers keeps them. -/
theorem foldl_regs {α : Type} (f : State → α → State) (h : ∀ t a, (f t a).regs = t.regs) (l : List α) (s : State) :
    (l.foldl f s).regs = s.regs := by
  induction l generalizing s with
  | nil => rfl
  | cons a l ih => rw [List.foldl_cons, ih, h]

@[simp] theorem cairnEvent_regs (src : Nat) (s : State) : (cairnEvent src s).regs = s.regs :=
  foldl_regs _ (fun t k => cairnEventIn_regs k src t) _ s

@[simp] theorem notifyPort_regs (p : Nat) (s : State) : (notifyPort p s).regs = s.regs := by
  unfold notifyPort; split
  · rfl
  · split
    · rfl
    · simp

@[simp] theorem notifyAll_regs (s : State) : (notifyAll s).regs = s.regs := foldl_regs _ (fun t p => notifyPort_regs p t) _ s

/-- Raising an event changes its own bit alone among the registers. -/
theorem raise_regs (f : Fld) (s : State) : (raise f s).regs = if s.bit f then s.regs else (s.wr f 1).regs := by
  unfold raise; split <;> simp [*]

theorem State.reg_of_regs {s t : State} (h : s.regs = t.regs) (a : Nat) : s.reg a = t.reg a := by unfold State.reg; rw [h]

theorem State.rd_of_regs {s t : State} (h : s.regs = t.regs) (f : Fld) : s.rd f = t.rd f := by
  unfold State.rd; rw [State.reg_of_regs h]

/-- A field of another register is not changed by raising an event. -/
theorem raise_rd_ne {f g : Fld} (s : State) (h : canonAddr g.addr ≠ canonAddr f.addr) : (raise f s).rd g = s.rd g := by
  by_cases hb : s.bit f
  · exact State.rd_of_regs (by rw [raise_regs, if_pos hb]) g
  · rw [State.rd_of_regs (t := s.wr f 1) (by rw [raise_regs, if_neg hb]) g, s.rd_wr_ne h]

/-- Raising an event sets its bit. -/
theorem raise_bit (f : Fld) (s : State) (hs : tblWf s.regs = true) (h1 : f.width = 1) (h : f.lo + f.width ≤ 64) :
    (raise f s).bit f = true := by
  by_cases hb : s.bit f
  · unfold raise; rw [if_pos hb]; exact hb
  · unfold State.bit
    rw [State.rd_of_regs (t := s.wr f 1) (by rw [raise_regs, if_neg hb]) f, s.rd_wr_same hs f h, h1]; rfl

end Sys2Proof.Machine
end

