-- ==== Sys2Proof/Laws/Memory.lean ====
section
/-! SUPPORT. Laws of memory: a byte written reads back, no other byte changes, and every operation keeps the canonical
form. -/

namespace Sys2Proof.Machine

theorem memGet_eq_tblGet (m : List Host.Cell) (a : Nat) : memGet m a = (tblGet m a).getD 0 := by
  induction m with
  | nil => rfl
  | cons p m ih => obtain ⟨k, v⟩ := p; simp only [memGet, tblGet]; split <;> simp [ih]

theorem memGet_memPut_same {m : List Host.Cell} (h : memWf m = true) (a : Nat) (b : Byte) : memGet (memPut m a b) a = b := by
  have h' : tblWf m = true := by simp [memWf] at h; exact h.1
  unfold memPut; rw [memGet_eq_tblGet]; split
  · rename_i hb; rw [tblGet_tblDel_same h', hb]; rfl
  · rw [tblGet_tblPut_same]; rfl

theorem memGet_memPut_ne (m : List Host.Cell) {a a' : Nat} (b : Byte) (h : a' ≠ a) : memGet (memPut m a b) a' = memGet m a' := by
  unfold memPut; rw [memGet_eq_tblGet, memGet_eq_tblGet]; split
  · rw [tblGet_tblDel_ne m h]
  · rw [tblGet_tblPut_ne m b h]

theorem memWf_memPut {m : List Host.Cell} (h : memWf m = true) (a : Nat) (b : Byte) : memWf (memPut m a b) = true := by
  simp only [memWf, Bool.and_eq_true, List.all_eq_true] at h ⊢
  unfold memPut; split
  · exact ⟨tblWf_tblDel h.1, fun x hx => h.2 x (mem_tblDel hx)⟩
  · rename_i hb
    refine ⟨tblWf_tblPut b h.1, fun x hx => ?_⟩
    rcases mem_tblPut hx with rfl | hx
    · simpa using hb
    · exact h.2 x hx

theorem memWf_memWrite {m : List Host.Cell} (h : memWf m = true) (a : Nat) (bs : Bytes) : memWf (memWrite m a bs) = true := by
  induction bs generalizing m a with
  | nil => exact h
  | cons b bs ih => exact ih (memWf_memPut h a b) (a + 1)

theorem memWf_filter {m : List Host.Cell} (p : Host.Cell → Bool) (h : memWf m = true) : memWf (m.filter p) = true := by
  simp only [memWf, Bool.and_eq_true, List.all_eq_true] at h ⊢
  exact ⟨tblWf_filter p h.1, fun x hx => h.2 x (List.mem_of_mem_filter hx)⟩

/-- A byte outside what is written reads as before. -/
theorem memGet_memWrite_outside (m : List Host.Cell) {a a' : Nat} (bs : Bytes) (h : a' < a ∨ a + bs.length ≤ a') :
    memGet (memWrite m a bs) a' = memGet m a' := by
  induction bs generalizing m a with
  | nil => rfl
  | cons b bs ih =>
    simp only [List.length_cons] at h
    simp only [memWrite]
    rw [ih _ (by omega), memGet_memPut_ne _ _ (by omega)]

/-- Each byte written reads back. -/
theorem memGet_memWrite_inside {m : List Host.Cell} (hm : memWf m = true) {a i : Nat} (bs : Bytes) (h : i < bs.length) :
    memGet (memWrite m a bs) (a + i) = bs[i] := by
  induction bs generalizing m a i with
  | nil => simp at h
  | cons b bs ih =>
    simp only [memWrite]
    cases i with
    | zero => rw [memGet_memWrite_outside _ _ (by omega)]; simpa using memGet_memPut_same hm a b
    | succ i =>
      rw [show a + (i + 1) = (a + 1) + i by omega, ih (memWf_memPut hm a b) (by simpa using h)]; simp

end Sys2Proof.Machine
end

