-- ==== Sys2Proof/Tests/Slice0.lean ====
section
/-! SUPPORT. Tests: for every statement a concrete state and operands that meet the hypotheses of each of its clauses, worked examples
of the spec, and the checks of well-formedness. -/

open Sys2Proof Sys2Proof.Machine

namespace Sys2Proof.Tests

set_option Elab.async false

/-- What an option holds. -/
theorem some_getD {α : Type} {o : Option α} {d : α} (h : o.isSome = true) : o = some (o.getD d) := by
  cases o <;> simp_all

/-- Write several fields. -/
def setFields (l : List (Fld × Nat)) (s : State) : State := l.foldl (fun t x => t.wr x.1 x.2) s

/-- A released island; in reset or not. -/
def onIsland (r : Bool) : Island := { Island.fresh with released := true, inReset := r }

/-- A function that is present with Bus Master Enable, BARs of 1 GiB and 16 MiB, vectors 0-31. -/
def fn0 : Func := { Func.absent with present := true, bar0Log2 := 30, bar2Log2 := 24, msixN := 31, bme := true, pasidEn := true }

/-- An ACTIVE sheet. -/
def sheetOn : Sheet := { Sheet.free with state := .active }

/-- A job of one fetched entry. -/
def job (e : Entry) : Job := .fetched 0 [e]

/-- A RUNNING ring of sheet 1 with the jobs given. -/
def ring (kind : Nat) (jobs : List Job) : Ring :=
  ⟨1, 3, kind, 4, false, 0, 0, 0, none, 0x1000, 0x2000, .running, false, 0, 0, 0, 0, jobs, none, 0, false, 0, false,
    false, []⟩

/-- Full service: host port 0 an x16 endpoint with its link up, network port 0 UP in cage 0, class 5 timed, tables 1
(exact, on die), 3 (LPM) and 4 (exact, learned), sheet 1 ACTIVE with shares
of everything. -/
def dev : State :=
  setFields [(SVY_BOOT_STATUS_STATE, 3), (HP_STN_CFG_MODE 0, 1), (HP_PORT_STATUS_LINK_UP 0, 1), (NET_PORT_STATUS_STATE 0, 5),
      (NET_PORT_CFG_MODE 0, 1), (ADM_CTRL_TIMED, 32), (ADM_STATUS_READY, 1), (BNC_STATUS_STATE 0, 2), (BNC_MAP_BENCH 0, 0), (NET_CAGE_CFG_LANES 0, 8), (TBL_DESC_TYPE 1, 1), (TBL_DESC_KEY_LEN 1, 6),
      (TBL_DESC_TYPE 3, 3), (TBL_DESC_TYPE 4, 1), (TBL_DESC_KEY_LEN 4, 6), (TBL_DESC_LEARN 4, 1),
      (NET_PORT_CFG_MAX_FRAME 0, 1518), (BNC_DEFAULT_ACTION 0, 1), (HP_PORT_CFG_MAX_SPEED 0, 5),
      (CAD_SHARE_SHARE 1 0, 0x0000100000000100), (CAD_SHARE_SHARE 1 1, 0x0000001000000000), (CAD_SHARE_SHARE 1 2, 0x0000001000000010),
      (CAD_SHARE_SHARE 1 3, 0xD4A5100000000010), (CAD_SHARE_SHARE 1 4, 0xE8)]
    { State.reset with
      datum := 65536000000000
      power := { State.reset.power with inReset := false }
      islands := [(0x40, onIsland false), (0xA2, onIsland false), (0xA8, onIsland false), (0xA9, onIsland false)]
      funcs := [(0, fn0)]
      sheets := [(1, sheetOn)]
      boot := { State.reset.boot with fuses := 0 } }

/-- The device with ring 5 of a kind, its one entry fetched. -/
def withEntry (kind : Nat) (e : Entry) (s : State) : State := { s with rings := [(5, ring kind [job e])] }

/-- The device once the next entry of ring 5 has started. -/
def begun (op : Nat) (s : State) : State := (beginJob 5 (· == op) (some .dma) s).2

/-- The first alternative, or a value that is not read. -/
def actedOf (x : Acted ⊕ Turned) : Acted :=
  match x with
  | .inl a => a
  | .inr _ => ⟨[], [], false, 0, none, 0, false, 0, 0, 0, false, 0, none, 0, none, 0, .loaded⟩

/-- A frame of 64 bytes from network port 0, in bench 0, that matched no profile. -/
def flying : Flying :=
  ⟨0, 0, 0, 0, 0, 0, List.replicate 60 0, 0, 0, none, [], 0, 0, none, none, none, none, false, none, none, none, none, none, true, false, [],
    none⟩

/-- A frame of 64 bytes for network port 0. -/
def packet : Packet :=
  ⟨1, 0, 0, 0, List.replicate 60 0, 0, none, none, none, none, 0, 0, 0, false, 0, 60, false, false, .none, none, none, none, false, 0, none,
    0, 0, false, none, none⟩

/-- A frame of 64 bytes bound to ring 5. -/
def ringPacket : Packet := { packet with outlet := 64, ring := some 5, toSheet := some 1 }

/-- A class-5 contract from host port 0 to network port 0. -/
def par : ContractParams := ⟨5, 1, 64, 0, 0, 1000000000, 3000, 1500, 64, 1000000, 0, 0⟩

/-- Its admission entry. -/
def admEntry (op id : Nat) : Entry :=
  mkEntry op 7 1 [(8, 2, id), (10, 1, 5), (11, 1, 1), (12, 1, 64), (13, 1, 0), (14, 2, 0), (16, 8, 1000000000), (24, 4, 3000), (28, 2, 1500),
    (30, 2, 64), (32, 4, 1000000), (36, 4, 0), (40, 1, 0), (48, 8, 0x8000), (56, 4, 1048576)]

/-- The contract, admitted to sheet 1. -/
def contract : Contract := ⟨.admitted, 1, par, 0, 0, 0, none, 0, 0, [], none⟩

/-- The device with contract 7, and an admission entry on ring 5. -/
def admDev (op : Nat) : State := withEntry 0 (admEntry op 7) { dev with contracts := [(7, contract)] }

/-- The device with host port 4 an x16 root port, its link up. -/
def rootDev : State := setFields [(HP_STN_CFG_MODE 1, 1), (HP_STN_CFG_ROLE 1, 1), (HP_PORT_STATUS_LINK_UP 4, 1)] dev

/-- The device with one active window of host port 0, function 0: 64 KiB at the start of BAR 2, of a kind, onto a target. -/
def winDev (kind target : Nat) : State :=
  (dev.setReg (winAddr 0 0 0 0 + 0x2000) (BitVec.ofNat 64 (1 + 2 + 16 * 4 + kind * 256))).setReg (winAddr 0 0 0 1 + 0x2000)
    (BitVec.ofNat 64 target)

/-- The device with another function 0 of host port 0. -/
def fnDev (f : Func) : State := { dev with funcs := [(0, f)] }

/-- A read of ring 5's entries from port 0, function 0, out under tag 0. -/
def readOut (q : Bool) : ReadTag := ⟨⟨0, 0, none, false, false, 0x1000⟩, 0, .fetch 5, q⟩

/-- The device with that read out. -/
def readDev (q : Bool) : State := { dev with reads := [readOut q], rings := [(5, { ring 0 [] with reading := 1 })] }

/-- The device with another sheet 1. -/
def sheetDev (x : Sheet) : State := { dev with sheets := [(1, x)] }

/-- The device with another ring 5. -/
def ringDev (r : Ring) : State := { dev with rings := [(5, r)] }

/-- A DISABLED ring. -/
def ringOff : Ring := { ring 3 [] with localNo := 9, state := .disabled }

/-- The device with an entry on ring 5 and another ring 6. -/
def twoRings (e : Entry) (x : Ring) : State := { dev with rings := [(5, ring 0 [job e]), (6, x)] }

/-- The device with another state of network port 0. -/
def netDev (st : Nat) : State := setFields [(NET_PORT_STATUS_STATE 0, st)] dev

/-- The device with the module of cage 0 present. -/
def cageDev (st : Nat) : State := setFields [(NET_CAGE_STATUS_PRESENT 0, 1)] (netDev st)

/-- An entry of a table with a 6-byte key. -/
def tentry (t : Nat) : TEntry := ⟨t, [1, 2, 3, 4, 5, 6], 77, 0, 0⟩

/-- The device with an entry in table 1, a short prefix and a long one in table 3. -/
def tblDev : State := { dev with tables := { dev.tables with
  die := ⟨[(0, tentry 1)], []⟩
  hbm := ⟨[(0, ⟨3, prefixKey 24 [10, 1, 2, 0], 78, 0, 0⟩)], []⟩
  shorts := [⟨3, 8, [11, 0, 0, 0], 79⟩] } }

/-- A table command's entry. -/
def tblEntry (op t plen : Nat) (key : Bytes) : Entry := mkEntry op 7 1 [(8, 1, t), (9, 1, plen), (12, 4, 80), (16, 48, ofLe key)]

/-- The partition and place of an insertion into table 1. -/
def inserted (s : State) (key : Bytes) : Placed × Partition := (s.partition false).insert (s.shape false) ⟨1, key, 80, 0, 0⟩

/-- An ACTIVE security association of sheet 1. -/
def sa : SA := ⟨.active, 1, 4, ⟨0, 0, 0, 0⟩, [], [], [], 0, none⟩

/-- The device with SA 8. -/
def saDev (x : SA) : State := setFields [(CPH_STATUS_DRBG_OK, 1)] { dev with sas := [(8, x)] }

/-- An OPEN connection of sheet 1 with path 0 enabled. -/
def conn : Conn :=
  ⟨.opened, 1, 0, true, 1024, 0, 7, 5, 5, 4791, 1, 2, [(0, { TxPath.none with enabled := true, sport := 49152 })], [], 0, 3, 2, [], [], [], [],
    []⟩

/-- A message of 100 bytes being sent. -/
def sending : SendMsg := ⟨2, some (5, 0), 100, 0, 0, 0, [], none, [], 0x10000⟩

/-- A bound receive whose message has all its packets. -/
def bound : RecvMsg := ⟨2, some (5, 0), 4096, 4, 0x10000, 1, some 1, 100, 1, 0, 0, 0, false, false, false, none, []⟩

/-- An ACTIVE region of sheet 1. -/
def region : Region := ⟨false, 1, 0, 0x10000, 0x10000, none, 0, 0, []⟩

/-- The bytes of a Ralush packet for connection 9 over IPv4. -/
def rltBytes (type : Nat) (body : Bytes) : Bytes :=
  List.replicate 12 0 ++ [8, 0] ++ List.replicate 28 0 ++ [BitVec.ofNat 8 (16 + type), 0, 0, 0] ++ beBytes 4 9 ++ beBytes 4 1
    ++ beBytes 4 2 ++ List.replicate 28 0 ++ body

/-- An opened packet for the engine. -/
def rltPacket (type : Nat) (body : Bytes) : Packet := { packet with bytes := rltBytes type body, cipher := ⟨2, 1, 0xFFFFE, 0⟩ }

/-- The device with connection 9, region 4 and the packets handed to the Ralush engine. -/
def connDev (x : Conn) (l : List Packet) : State := setFields [(RLT_STATUS_READY, 1), (CPH_STATUS_DRBG_OK, 1)] { dev with
  conns := [(9, x)], rlt := { dev.rlt with regions := [(4, region)] }, swc := { dev.swc with handed := [(120, l)] } }

/-- The device with connection 9 and a control packet for it handed to the engine. -/
def rxDev (x : Conn) (type : RltType) (body : Bytes) : State := connDev x [rltPacket type.code body]

/-- The same once the packet is taken. -/
def rxTaken (x : Conn) (type : RltType) (body : Bytes) : State :=
  markRx 9 (parseRlt (rltBytes type.code body)) (takeRlt (rltPacket type.code body) (rxDev x type body))

/-- A presented controller of sheet 1, READY, with its admin queue and an I/O queue pair. -/
def ctrl : Ctrl := { newCtrl 1 100 4 50 51 0 with
  state := .ready, sqs := [(0, ⟨50, 0, 0⟩), (1, ⟨52, 1, 0⟩)], cqs := [(0, ⟨51, 0, true, 0⟩), (1, ⟨53, 0, true, 1⟩)]
  attach := [(1, ⟨6, false, false, none⟩)] }

/-- A local volume of 1,000 blocks of 512 bytes behind root port 4. -/
def vol6 : Volume := ⟨0, false, 0, 1000, 4, 1, 0, 0, 1, none, 0, none, none, [], []⟩

/-- A presented command. -/
def nvme (sq op : Nat) (ph : CmdPhase) (fields : Body) : NvmeCmd :=
  ⟨3, sq, mkEntry op 0 9 fields, ph, 1, none, [], false, [], [], 0, [], []⟩

/-- The device with controller 3, volume 6 and the commands given. -/
def stoDev (c : Ctrl) (cmds : Tbl NvmeCmd) : State := setFields [(STO_STATUS_READY, 1)] { rootDev with
  ports := [(4, { HostPort.fresh with comp := .nvme })]
  ctrls := [(3, c)]
  rings := [(50, storageQueue 1 100 8 4 0 0x1000 .running), (51, storageQueue 1 101 9 4 0 0x2000 .running),
    (52, storageQueue 1 102 8 4 0 0x3000 .running), (53, storageQueue 1 103 9 4 0 0x4000 .running)]
  sto := { dev.sto with vols := [(6, vol6)], cmds := cmds } }

/-- The device with controller 3 and a started command 2. -/
def cmdDev (m : NvmeCmd) : State := stoDev ctrl [(2, m)]

/-- The device with controller 3 and an entry on ring 5. -/
def stoEntry (c : Ctrl) (e : Entry) : State := { stoDev c [] with rings := [(5, ring 0 [job e])] }


/-- Thread 1 of cluster 0 RUNNING; gallery 0 between threads, gallery 1 to the inlet, gallery 2 from the outlet; with the slots given. -/
def penDev (slots : Tbl SlotUse) : State := setFields [(PNL_THR_STAT_STATE 0 1, 1),
    (PNL_GAL_EN 0 0, 1), (PNL_GAL_SLOTS_LOG2 0 0, 2),
    (PNL_GAL_EN 0 1, 1), (PNL_GAL_KIND 0 1, 1), (PNL_GAL_SIZE_LOG2 0 1, 1), (PNL_GAL_SLOTS_LOG2 0 1, 2), (PNL_GAL_BASE 0 1, 4),
    (PNL_GAL_EN 0 2, 1), (PNL_GAL_KIND 0 2, 2), (PNL_GAL_SIZE_LOG2 0 2, 1), (PNL_GAL_SLOTS_LOG2 0 2, 2), (PNL_GAL_BASE 0 2, 16)]
  { dev with pnl := { dev.pnl with slots := slots } }

/-- The device with thread 1 of cluster 0 in another state. -/
def thrDev (st : Nat) : State := setFields [(PNL_THR_STAT_STATE 0 1, st)] dev

/-- A header of class c with a body of 128 KiB, its entry at the start. -/
def header (c : Nat) : Bytes :=
  leBytes 4 0x534B5246 ++ leBytes 2 c ++ leBytes 2 1 ++ leBytes 4 0 ++ leBytes 4 131072 ++ List.replicate 112 0

/-- The device while it loads copy A of a class. -/
def loadDev (c : Nat) (x : Load) : State :=
  { dev with boot := { dev.boot with loads := [(c, x)], headers := [(2 * c, header c), (2 * c + 1, header c)] } }

/-- A class that loads, with so many chunks there. -/
def loading (n : Nat) (started : Bool) : Load := ⟨0, [0], n, started, false, []⟩

/-- A class that runs. -/
def running (l : List Nat) : Load := ⟨0, [0], 2, true, true, l⟩

/-- The device with the management responder ready. -/
def mgmtDev : State := setFields [(MGT_STATUS_READY, 1)] dev

/-- The same with an update of class 0, of 64 bytes, so many received. -/
def updDev (got : Nat) (r : Option Nat) : State :=
  { mgmtDev with mgmt := { mgmtDev.mgmt with update := some (0, 64, got), updateResult := r } }

/-- The same with a negotiated SPDM session on binding 0. -/
def spdmDev : State := { mgmtDev with mgmt := { mgmtDev.mgmt with spdmPhase := [(0, 3)] } }

/-- Host port 0 holds the data port. -/
def portDev : State := setFields [(SVY_DP_LOCK_OWNER, 1)] dev

theorem test_meets_ControlAccessesComplete :
    (∃ (who : Party) (a n : Nat) (s : State), s.reaches who a = true ∧ s.unreleased a = false ∧ s.outputOf who a = none ∧ s.heldBy a = none ∧ placeOf a = .registers ∧ ((n = 4 ∨ n = 8)) ∧ a % n = 0 ∧ regBytes a = n)
    ∧ (∃ (who : Party) (a n k : Nat) (s : State), s.outputOf who a = none ∧ s.heldBy a = some k ∧ ((n = 4 ∨ n = 8)) ∧ a % n = 0)
    ∧ (∃ (node : Nat) (s : State), (s.island node).released = true ∧ (s.island node).inReset = true ∧ s.staysInReset node = false ∧ ((node ≠ datumNode ∨ s.dtm.restarting = false)))
    ∧ (∃ (node : Nat) (s : State), (s.island node).released = true ∧ (s.island node).inReset = true ∧ s.staysInReset node = false ∧ ((node ≠ datumNode ∨ s.dtm.restarting = false)))
    ∧ (∃ (g : Nat) (r : Ring) (s : State), s.ring? g = some r ∧ r.slotWait = true ∧ r.state = .running ∧ s.flight.room (waitKind r) = true)
    ∧ (∃ (g : Nat) (r : Ring) (j : Job) (s : State), s.ring? g = some r ∧ nextJob r.fences true r.jobs = some j ∧ r.state = .running ∧ opcodeDefined (opcode j.first) = false)
    ∧ (∃ (g : Nat) (r : Ring) (j : Job) (s : State), s.ring? g = some r ∧ nextJob r.fences true r.jobs = some j ∧ r.state = .running ∧ opcodeDefined (opcode j.first) = true ∧ kindAccepts r.kind (opcode j.first) = false) :=
  ⟨⟨.surveyor, DTM_CTRL, 4, dev, by decide +kernel⟩,
   ⟨.surveyor, DTM_CTRL, 8, 0xA8, { dev with islands := [(0xA8, onIsland true)] }, by decide +kernel⟩,
   ⟨0xA9, { dev with islands := [(0xA9, onIsland true)] }, by decide +kernel⟩,
   ⟨0xA8, { dev with islands := [(0xA8, onIsland true)] }, by decide +kernel⟩,
   ⟨5, { ring 0 [] with slotWait := true }, { dev with rings := [(5, { ring 0 [] with slotWait := true })] }, by decide +kernel⟩,
   ⟨5, ring 0 [job (mkEntry 0x07 7 1 [])], job (mkEntry 0x07 7 1 []), withEntry 0 (mkEntry 0x07 7 1 []) dev, by decide +kernel⟩,
   ⟨5, ring 0 [job (mkEntry 0x80 7 1 [])], job (mkEntry 0x80 7 1 []), withEntry 0 (mkEntry 0x80 7 1 []) dev, by decide +kernel⟩⟩

theorem test_meets_BenchPathCompletes :
    (∃ (p : Nat) (frame : Bytes) (s : State), s.Wf ∧ (s.island p).inReset = false ∧ s.sendsPfc p = true ∧ 64 ≤ frame.length ∧ frame.length ≤ s.rd (NET_PORT_CFG_MAX_FRAME p) ∧ isMacControl frame = false ∧ p < 64)
    ∧ (∃ (i : Nat) (f : Flying) (s : State), s.pipe.waiting.find? (fun x => x.inlet == i && x.waited) = some f ∧ s.maySend f = true ∧ s.budgetHolds f = true ∧ s.behindReplay f = false)
    ∧ (∃ (k : Nat) (f : Flying) (s : State), s.pipe.flying[k]? = some f ∧ s.benchRuns f.bench = true ∧ s.orderWaits f (s.pipe.flying.take k) = false ∧ f.acted = none ∧ f.replayed = false)
    ∧ (∃ (k : Nat) (f : Flying) (a : Acted) (s : State), s.pipe.flying[k]? = some f ∧ s.benchRuns f.bench = true ∧ s.orderWaits f (s.pipe.flying.take k) = false ∧ f.acted = some a ∧ a.key = .loaded)
    ∧ (∃ (k : Nat) (f : Flying) (a : Acted) (s : State), s.pipe.flying[k]? = some f ∧ f.acted = some a ∧ a.key = .waiting ∧ s.benchRuns f.bench = true) :=
  ⟨⟨0, List.replicate 64 0, { dev with islands := (0x00, onIsland false) :: dev.islands }, by unfold State.Wf regsWf memoriesWf portTablesWf objectTablesWf; decide +kernel⟩,
   ⟨0, { flying with waited := true }, { dev with pipe := { dev.pipe with waiting := [{ flying with waited := true }], budget := [(0, ⟨64 * 2 ^ 17, 0⟩)] } }, by decide +kernel⟩,
   ⟨0, flying, { dev with pipe := { dev.pipe with flying := [flying] } }, by decide +kernel⟩,
   ⟨0, { flying with acted := some { actedOf (.inr ⟨0, 0, 0, false⟩) with sa := some (3, 0) } }, { actedOf (.inr ⟨0, 0, 0, false⟩) with sa := some (3, 0) }, { dev with pipe := { dev.pipe with flying := [{ flying with acted := some { actedOf (.inr ⟨0, 0, 0, false⟩) with sa := some (3, 0) } }] } }, by decide +kernel⟩,
   ⟨0, { flying with acted := some ({ actedOf (.inr ⟨0, 0, 0, false⟩) with sa := some (3, 0), key := .waiting }) }, { actedOf (.inr ⟨0, 0, 0, false⟩) with sa := some (3, 0), key := .waiting }, { dev with pipe := { dev.pipe with flying := [{ flying with acted := some ({ actedOf (.inr ⟨0, 0, 0, false⟩) with sa := some (3, 0), key := .waiting }) }] } }, by decide +kernel⟩⟩

theorem test_meets_EgressCompletes :
    (∃ (o : Nat) (h : Head) (sc : Sched) (s : State), (markStopped o s).outletServes o = true ∧ (markStopped o s).chooseUnit o = some (h, sc))
    ∧ (∃ (p : Nat) (x : Packet) (rest : List Packet) (s : State), tblGetD [] s.swc.mac p = x :: rest ∧ s.macSends p x = true)
    ∧ (∃ (g : Nat) (r : Ring) (p : Packet) (used : List Job) (s : State), s.ring? g = some r ∧ r.state = .running ∧ s.hostWritable r.sheet = true ∧ s.handedFor g r = some p ∧ findRun p.bytes.length r.jobs = some used ∧ ((r.slotHeld = true ∨ s.flight.room .dma = true))) :=
  ⟨⟨0, ⟨0, packet⟩, { Sched.fresh with last := [(0, 0)] }, setFields [(SWC_OUT_WGT_WGT 0, 0)] { dev with voqs := [(0, [packet])] }, by decide +kernel⟩,
   ⟨0, { packet with tx := some (5, 0) }, [], { dev with swc := { dev.swc with mac := [(0, [{ packet with tx := some (5, 0) }])] } }, by decide +kernel⟩,
   ⟨5, ring 2 [{ job (mkEntry 0x81 7 1 [(8, 8, 0x9000), (16, 4, 256)]) with phase := .posted }], ringPacket, [{ job (mkEntry 0x81 7 1 [(8, 8, 0x9000), (16, 4, 256)]) with phase := .posted }], { dev with rings := [(5, ring 2 [{ job (mkEntry 0x81 7 1 [(8, 8, 0x9000), (16, 4, 256)]) with phase := .posted }])], swc := { dev.swc with handed := [(64, [ringPacket])] } }, by decide +kernel⟩⟩

theorem test_meets_DatumDisciplineCompletes :
    (∃ (s : State), s.datumUp = true)
    ∧ (∃ (b : Bool) (value : BitVec 64) (n : Nat) (s : State), s.datumUp = true ∧ n = (if b then 2 else 1) ∧ (s.source n).lastSeq ≠ some (BitVec.ofNat 8 (getField value 48 8)))
    ∧ (∃ (n : Nat) (s : State), s.Wf ∧ n < 3 ∧ s.qualified n = true ∧ s.selected ≠ some n)
    ∧ (∃ (s : State), s.Wf ∧ s.bit (DTM_SRC_CFG_REF_AID 0) = true ∧ s.qualified 0 = true ∧ s.selected ≠ some 0)
    ∧ (∃ (n k : Nat) (s : State), s.selected = some k ∧ s.dtm.wtr.contains n = true ∧ s.qualified n = true ∧ s.bit DTM_CTRL_REVERT = true ∧ s.rd (DTM_SRC_CFG_PRIO n) < s.rd (DTM_SRC_CFG_PRIO k))
    ∧ (∃ (s : State), s.rd DTM_STATUS_STATE = 3)
    ∧ (∃ (n : Nat) (s : State), s.datumUp = true ∧ s.selected = some n ∧ s.dtm.justQualified = some n ∧ oneUs.natAbs < (remainingOffset n s).natAbs ∧ s.contractHeld = false) :=
  ⟨⟨{ dev with dtm := { dev.dtm with sources := [(0, { DatumSource.fresh with lastEdge := some 0 })] } }, by decide +kernel⟩,
   ⟨true, 0x0001000000000010, 2, dev, by decide +kernel⟩,
   ⟨1, setFields [(DTM_STATUS_QUAL, 3), (DTM_STATUS_SRC, 0)] dev, by unfold State.Wf regsWf memoriesWf portTablesWf objectTablesWf; decide +kernel⟩,
   ⟨setFields [(DTM_STATUS_QUAL, 1), (DTM_STATUS_SRC, 2), (DTM_SRC_CFG_REF_AID 0, 1)] dev, by unfold State.Wf regsWf memoriesWf portTablesWf objectTablesWf; decide +kernel⟩,
   ⟨1, 0, setFields [(DTM_STATUS_QUAL, 3), (DTM_STATUS_SRC, 0), (DTM_CTRL_REVERT, 1), (DTM_SRC_CFG_PRIO 0, 3), (DTM_SRC_CFG_PRIO 1, 1)] { dev with dtm := { dev.dtm with wtr := [1] } }, by decide +kernel⟩,
   ⟨setFields [(DTM_STATUS_STATE, 3)] dev, by decide +kernel⟩,
   ⟨1, setFields [(DTM_STATUS_QUAL, 2), (DTM_STATUS_SRC, 1)] { dev with dtm := { dev.dtm with slew := 70000000, justQualified := some 1 } }, by decide +kernel⟩⟩

theorem test_meets_DatumSpineCompletes :
    (∃ (n : Nat) (s : State), (s.island n).released = true ∧ (s.island n).inReset = false ∧ s.dtm.restarting = false)
    ∧ (∃ (s : State), s.dtm.restarting = false)
    ∧ (∃ (s : State), s.dtm.restarting = false)
    ∧ (∃ (s : State), s.dtm.restarting = true ∧ (s.island datumNode).inReset = false)
    ∧ (∃ (s : State), s.dtm.restarting = true ∧ (s.island datumNode).inReset = true)
    ∧ (∃ (n : Nat) (s : State), (s.island n).released = true ∧ (s.island n).path = 1)
    ∧ (∃ (n : Nat) (s : State), n < 4 ∧ s.bit (DTM_PPS_CFG_EN n) = true ∧ ((s.ppsSince n ≤ 1 ∨ (ppsPeriod (s.rd (DTM_PPS_CFG_RATE n)) : Int) - 1 ≤ s.ppsSince n)))
    ∧ (∃ (n : Nat) (s : State), n < 4 ∧ s.bit (DTM_PPS_CFG_EN n) = true ∧ ((s.ppsSince n ≤ 1 ∨ (ppsPeriod (s.rd (DTM_PPS_CFG_RATE n)) : Int) - 1 ≤ s.ppsSince n)))
    ∧ (∃ (n : Nat) (s : State), n < 2 ∧ s.bit (DTM_SYNCE_CFG_EN n) = true ∧ s.bit (DTM_SYNCE_CFG_SQUELCH n) = true ∧ s.dtm.squelched.contains n = false)
    ∧ (∃ (p : Nat) (s : State), s.Wf ∧ s.datumUp = true ∧ p < 64)
    ∧ (∃ (who : Party) (s : State), s.Wf ∧ s.datumUp = true ∧ s.reaches who DTM_NOW = true ∧ s.outputOf who DTM_NOW = none) :=
  ⟨⟨0xA9, dev, by decide +kernel⟩,
   ⟨dev, by decide +kernel⟩,
   ⟨dev, by decide +kernel⟩,
   ⟨{ dev with dtm := { dev.dtm with restarting := true } }, by decide +kernel⟩,
   ⟨{ dev with dtm := { dev.dtm with restarting := true }, islands := [(0xA8, onIsland true)] }, by decide +kernel⟩,
   ⟨0xA9, dev, by decide +kernel⟩,
   ⟨0, setFields [(DTM_PPS_CFG_EN 0, 1)] dev, by decide +kernel⟩,
   ⟨3, setFields [(DTM_PPS_CFG_EN 3, 1)] dev, by decide +kernel⟩,
   ⟨1, setFields [(DTM_SYNCE_CFG_EN 1, 1), (DTM_SYNCE_CFG_SQUELCH 1, 1)] dev, by decide +kernel⟩,
   ⟨63, dev, by unfold State.Wf regsWf memoriesWf portTablesWf objectTablesWf; decide +kernel⟩,
   ⟨.surveyor, dev, by unfold State.Wf regsWf memoriesWf portTablesWf objectTablesWf; decide +kernel⟩⟩

theorem test_meets_AdmissionCompletes :
    (∃ (g : Nat) (r : Ring) (j : Job) (s u : State), s.bit ADM_STATUS_READY = true ∧ s.Starts g 0x10 r j u ∧ (u.checkContract r.sheet r.sheet (entryParams j.first) none).status = 0)
    ∧ (∃ (g : Nat) (r : Ring) (j : Job) (s u : State), s.bit ADM_STATUS_READY = true ∧ s.Starts g 0x13 r j u)
    ∧ (∃ (g id : Nat) (c : Contract) (r : Ring) (j : Job) (s u : State), s.bit ADM_STATUS_READY = true ∧ s.Starts g 0x12 r j u ∧ u.nameRefusal r.sheet (eN j.first 8 2) = .inl (id, c) ∧ c.state = .admitted ∧ (u.checkContract r.sheet c.sheet (entryParams j.first) (some (id, c.par))).status = 0)
    ∧ (∃ (g id : Nat) (c : Contract) (r : Ring) (j : Job) (s u : State), s.bit ADM_STATUS_READY = true ∧ s.Starts g 0x14 r j u ∧ u.nameRefusal r.sheet (eN j.first 8 2) = .inl (id, c))
    ∧ (∃ (g id : Nat) (c : Contract) (r : Ring) (j : Job) (s u : State), s.bit ADM_STATUS_READY = true ∧ s.Starts g 0x11 r j u ∧ u.nameRefusal r.sheet (eN j.first 8 2) = .inl (id, c))
    ∧ (∃ (id g idx : Nat) (c : Contract) (s : State), s.contract? id = some c ∧ c.state = .withdrawing ∧ s.drainEnded id c = true ∧ c.waiter = some (g, idx))
    ∧ (∃ (g : Nat) (r : Ring) (j : Job) (s u : State), s.bit ADM_STATUS_READY = true ∧ s.Starts g 0x15 r j u ∧ u.managerSheet r.sheet = true ∧ u.stageDump.length ≤ eN j.first 56 4)
    ∧ (∃ (a : Nat) (o : Option Nat) (v : BitVec 64) (s : State), checkedReg a = some o ∧ ((∀ n, o = some n → s.outletExists n = true)) ∧ ((a = ADM_RES_SHARE → (s.plainWrite a (admMask a v)).rd ADM_RES_SHARE_BENCH ≤ 0xB7)) ∧ needsCheck a s (s.plainWrite a (admMask a v)) = true ∧ (s.plainWrite a (admMask a v)).configFits o = true) :=
  ⟨⟨5, ring 0 [job (admEntry 0x10 0)], job (admEntry 0x10 0), withEntry 0 (admEntry 0x10 0) dev, begun 0x10 (withEntry 0 (admEntry 0x10 0) dev), by unfold State.Starts; decide +kernel⟩,
   ⟨5, ring 0 [job (admEntry 0x13 7)], job (admEntry 0x13 7), admDev 0x13, begun 0x13 (admDev 0x13), by unfold State.Starts; decide +kernel⟩,
   ⟨5, 7, contract, ring 0 [job (admEntry 0x12 7)], job (admEntry 0x12 7), admDev 0x12, begun 0x12 (admDev 0x12), by unfold State.Starts; decide +kernel⟩,
   ⟨5, 7, contract, ring 0 [job (admEntry 0x14 7)], job (admEntry 0x14 7), admDev 0x14, begun 0x14 (admDev 0x14), by unfold State.Starts; decide +kernel⟩,
   ⟨5, 7, contract, ring 0 [job (admEntry 0x11 7)], job (admEntry 0x11 7), admDev 0x11, begun 0x11 (admDev 0x11), by unfold State.Starts; decide +kernel⟩,
   ⟨7, 5, 0, { contract with state := .withdrawing, waiter := some (5, 0) }, { dev with contracts := [(7, { contract with state := .withdrawing, waiter := some (5, 0) })] }, by decide +kernel⟩,
   ⟨5, ring 0 [job (admEntry 0x15 7)], job (admEntry 0x15 7), admDev 0x15, begun 0x15 (admDev 0x15), by unfold State.Starts; decide +kernel⟩,
   ⟨ADM_OUT_CFG 0, some 0, BitVec.ofNat 64 20, setFields [(ADM_CTRL_FALLBACK, 1)] dev, ⟨by decide +kernel, fun n h => by cases h; decide +kernel, by decide +kernel, by decide +kernel, by decide +kernel⟩⟩⟩

theorem test_meets_GraticuleCompletes :
    (∃ (l src dst : Nat) (seq : BitVec 8) (beats : List Beat) (fate : Fate) (s : State), 0 < beats.length ∧ tblGet s.grt.links l ≠ some 2 ∧ (beats.take 8).all (fun b => b.2) = true ∧ fate ≠ .lost ∧ nextInOrder (tblGet s.grt.applied (pairKey src dst)) seq = true ∧ alreadyApplied (tblGet s.grt.applied (pairKey src dst)) seq = false)
    ∧ (∃ (l src dst : Nat) (seq : BitVec 8) (beats : List Beat) (fate : Fate) (s : State), 0 < beats.length ∧ tblGet s.grt.links l ≠ some 2 ∧ (beats.take 8).all (fun b => b.2) = true ∧ fate ≠ .lost ∧ nextInOrder (tblGet s.grt.applied (pairKey src dst)) seq = true ∧ alreadyApplied (tblGet s.grt.applied (pairKey src dst)) seq = false)
    ∧ (∃ (l : Nat) (s : State), tblGet s.grt.links l = none)
    ∧ (∃ (kind inst raised i : Nat) (s : State), inst < targets kind ∧ s.nextGrant kind inst raised (s.arbiter kind inst).last = some i)
    ∧ (∃ (kind inst i : Nat) (t : BitVec 64) (s : State), (s.arbiter kind inst).granted = some (i, t) ∧ inst < targets kind ∧ 1000 ≤ s.elapsed t)
    ∧ (∃ (s : State), s.Wf) :=
  ⟨⟨3, 0x40, 0xA8, 5, [(1, true)], .acked, dev, by decide +kernel⟩,
   ⟨3, 0x40, 0xA8, 5, List.replicate 9 (1, true), .acked, dev, by decide +kernel⟩,
   ⟨3, dev, by decide +kernel⟩,
   ⟨1, 0, 2, 1, { dev with islands := (0x41, onIsland false) :: (0x70, onIsland false) :: dev.islands }, by decide +kernel⟩,
   ⟨0, 0, 1, 0, { dev with grt := { dev.grt with arbiters := [(0, ⟨1, some (1, 0)⟩)] } }, by decide +kernel⟩,
   ⟨dev, by unfold State.Wf regsWf memoriesWf portTablesWf objectTablesWf; decide +kernel⟩⟩

theorem test_meets_HostLinksComplete :
    (∃ (p sp w : Nat) (flit : Bool) (s : State), s.Wf ∧ s.mayTrain p = true ∧ s.portIsRoot p = true ∧ sp = s.rd (HP_PORT_CFG_MAX_SPEED p) ∧ 0 < sp ∧ w = s.portWidth p ∧ 0 < w ∧ ((flit = true ∨ sp = 6)))
    ∧ (∃ (p sp w : Nat) (s : State), s.Wf ∧ s.mayTrain p = true ∧ s.portIsRoot p = false ∧ s.linkUp p = false ∧ 0 < sp ∧ 0 < w)
    ∧ (∃ (p : Nat) (s : State), s.portIsEndpoint p = true ∧ s.linkUp p = true)
    ∧ (∃ (p : Nat) (s : State), s.portIsEndpoint p = true ∧ s.linkUp p = true)
    ∧ (∃ (p : Nat) (s : State), s.Wf ∧ s.portPresent p = true ∧ s.portIsRoot p = false)
    ∧ (∃ (p : Nat) (s : State), s.Wf ∧ s.portPresent p = true ∧ s.portIsRoot p = true ∧ s.linkUp p = true)
    ∧ (∃ (p : Nat) (s : State), s.Wf ∧ s.portPresent p = true)
    ∧ (∃ (p : Nat) (s : State), s.Wf ∧ s.portPresent p = true)
    ∧ (∃ (p : Nat) (s : State), s.Wf ∧ p < 48)
    ∧ (∃ (p : Nat) (s : State), s.portIsEndpoint p = true)
    ∧ (∃ (s : State), s.Wf) :=
  ⟨⟨4, (setFields [(HP_PORT_STATUS_LINK_UP 4, 0)] { rootDev with islands := [(0x44, onIsland false)] }).rd (HP_PORT_CFG_MAX_SPEED 4), 16, true, setFields [(HP_PORT_STATUS_LINK_UP 4, 0)] { rootDev with islands := [(0x44, onIsland false)] }, by unfold State.Wf regsWf memoriesWf portTablesWf objectTablesWf; decide +kernel⟩,
   ⟨0, 6, 16, setFields [(HP_PORT_STATUS_LINK_UP 0, 0)] dev, by unfold State.Wf regsWf memoriesWf portTablesWf objectTablesWf; decide +kernel⟩,
   ⟨0, dev, by decide +kernel⟩,
   ⟨0, dev, by decide +kernel⟩,
   ⟨0, dev, by unfold State.Wf regsWf memoriesWf portTablesWf objectTablesWf; decide +kernel⟩,
   ⟨4, rootDev, by unfold State.Wf regsWf memoriesWf portTablesWf objectTablesWf; decide +kernel⟩,
   ⟨0, dev, by unfold State.Wf regsWf memoriesWf portTablesWf objectTablesWf; decide +kernel⟩,
   ⟨4, rootDev, by unfold State.Wf regsWf memoriesWf portTablesWf objectTablesWf; decide +kernel⟩,
   ⟨47, dev, by unfold State.Wf regsWf memoriesWf portTablesWf objectTablesWf; decide +kernel⟩,
   ⟨0, dev, by decide +kernel⟩,
   ⟨dev, by unfold State.Wf regsWf memoriesWf portTablesWf objectTablesWf; decide +kernel⟩⟩

theorem test_meets_HostPowerStatesComplete :
    (∃ (p : Nat) (s : State), s.Wf ∧ p < 48 ∧ s.linkUp p = true ∧ s.bit (HP_PORT_STATUS_FLIT p) = true ∧ s.rd (HP_PORT_STATUS_PM p) = 0 ∧ s.minLanes p < s.portWidth p ∧ s.pmPermits p 1 = true)
    ∧ (∃ (p : Nat) (s : State), s.Wf ∧ p < 48 ∧ s.rd (HP_PORT_STATUS_PM p) = 1)
    ∧ (∃ (p level : Nat) (e : Bool) (s : State), s.Wf ∧ p < 48 ∧ s.linkUp p = true ∧ 1 ≤ level ∧ level ≤ 3 ∧ s.l1Enabled p level e = true ∧ s.rd (HP_PORT_STATUS_PM p) ≠ 2 ∧ (s.portTags p).isEmpty = true ∧ s.outletQueued (64 + p) = false ∧ s.pmPermits p (if level = 1 then 2 else 3) = true)
    ∧ (∃ (p level : Nat) (e : Bool) (s : State), s.Wf ∧ p < 48 ∧ s.linkUp p = true ∧ 1 ≤ level ∧ level ≤ 3 ∧ s.l1Enabled p level e = true ∧ s.rd (HP_PORT_STATUS_PM p) ≠ 2 ∧ (s.portTags p).isEmpty = true ∧ s.outletQueued (64 + p) = false ∧ s.pmPermits p (if level = 1 then 2 else 3) = true)
    ∧ (∃ (p : Nat) (s : State), s.Wf ∧ p < 48 ∧ s.rd (HP_PORT_STATUS_PM p) = 2)
    ∧ (∃ (p ns : Nat) (s : State), s.Wf ∧ p < 48 ∧ s.rd (ADM_OUT_CFG_CREDIT_NS (64 + p)) < ns ∧ ns < 2 ^ 20 ∧ s.rd (HP_CREDIT_OBS_MAX_NS p) ≤ ns) :=
  ⟨⟨0, setFields [(HP_PORT_STATUS_FLIT 0, 1), (HP_PM_CFG_L0P_MIN 0, 2)] dev, by unfold State.Wf regsWf memoriesWf portTablesWf objectTablesWf; decide +kernel⟩,
   ⟨0, setFields [(HP_PORT_STATUS_PM 0, 1)] dev, by unfold State.Wf regsWf memoriesWf portTablesWf objectTablesWf; decide +kernel⟩,
   ⟨0, 1, true, dev, by unfold State.Wf regsWf memoriesWf portTablesWf objectTablesWf; decide +kernel⟩,
   ⟨0, 3, true, dev, by unfold State.Wf regsWf memoriesWf portTablesWf objectTablesWf; decide +kernel⟩,
   ⟨0, setFields [(HP_PORT_STATUS_PM 0, 2)] dev, by unfold State.Wf regsWf memoriesWf portTablesWf objectTablesWf; decide +kernel⟩,
   ⟨0, 5000, setFields [(ADM_OUT_CFG_CREDIT_NS 64, 100)] dev, by unfold State.Wf regsWf memoriesWf portTablesWf objectTablesWf; decide +kernel⟩⟩

theorem test_meets_HostFunctionsComplete :
    (∃ (p f v : Nat) (s : State), (s.func p f).present = true ∧ v ≤ (s.func p f).msixN)
    ∧ (∃ (p f bar off n : Nat) (w : Win) (s : State), s.linkUp p = true ∧ (s.func p f).present = true ∧ bar ≤ 1 ∧ 0 < n ∧ off + n ≤ s.barSize p f bar ∧ ((bar = 0 → off < s.barSize p f bar - 65536)) ∧ s.windowAt p f bar off = some w ∧ off + n ≤ w.offset + 2 ^ w.sizeLog2 ∧ ((w.kind = 1 ∨ w.kind = 2)) ∧ ((s.rd SVY_BOOT_STATUS_STATE = 4 → w = s.window true p 0 0)))
    ∧ (∃ (p f bar off : Nat) (bs : Bytes) (w : Win) (s : State), s.linkUp p = true ∧ (s.func p f).present = true ∧ bar ≤ 1 ∧ 0 < bs.length ∧ off + bs.length ≤ s.barSize p f bar ∧ ((bar = 0 → off < s.barSize p f bar - 65536)) ∧ s.windowAt p f bar off = some w ∧ off + bs.length ≤ w.offset + 2 ^ w.sizeLog2 ∧ w.wrDis = false ∧ ((w.kind = 1 ∨ w.kind = 2)) ∧ ((s.rd SVY_BOOT_STATUS_STATE = 4 → w = s.window true p 0 0)))
    ∧ (∃ (p f : Nat) (s : State), s.configOpen p f = true ∧ (s.func p f).bme = true)
    ∧ (∃ (p f : Nat) (s : State), s.configOpen p f = true)
    ∧ (∃ (p f : Nat) (s : State), s.configOpen p f = true)
    ∧ (∃ (p f : Nat) (s : State), s.Wf ∧ (s.func p f).flr = true)
    ∧ (∃ (p f : Nat) (s : State), s.configOpen p f = true)
    ∧ (∃ (p f : Nat) (s : State), s.Wf ∧ (s.func p f).present = true)
    ∧ (∃ (p f x page k : Nat) (rest : List (Nat × Nat × Nat)) (s : State), (s.func p f).invalidating = (x, page, k) :: rest ∧ s.readUnder p f x page k = false)
    ∧ (∃ (p f : Nat) (s : State), s.Wf ∧ s.configOpen p f = true)
    ∧ (∃ (p f : Nat) (s : State), (s.func p f).present = true ∧ (s.func p f).flr = true) :=
  ⟨⟨0, 0, 31, { dev with vectors := [(31, { MsixVec.fresh with pend := true })] }, by decide +kernel⟩,
   ⟨0, 0, 1, 8, 4, (((winDev 1 0x1000000).windowAt 0 0 1 8).getD (((winDev 1 0x1000000)).window true 0 0 0)), winDev 1 0x1000000, by decide +kernel⟩,
   ⟨0, 0, 1, 8, [1, 2, 3, 4], (((winDev 1 0x1000000).windowAt 0 0 1 8).getD (((winDev 1 0x1000000)).window true 0 0 0)), winDev 1 0x1000000, by decide +kernel⟩,
   ⟨0, 0, dev, by decide +kernel⟩,
   ⟨0, 0, fnDev { fn0 with bme := false }, by decide +kernel⟩,
   ⟨0, 0, dev, by decide +kernel⟩,
   ⟨0, 0, fnDev { fn0 with flr := true }, by unfold State.Wf regsWf memoriesWf portTablesWf objectTablesWf; decide +kernel⟩,
   ⟨0, 0, { dev with sheets := [] }, by decide +kernel⟩,
   ⟨0, 0, fnDev { fn0 with ats := [⟨3, 16, 12⟩] }, by unfold State.Wf regsWf memoriesWf portTablesWf objectTablesWf; decide +kernel⟩,
   ⟨0, 0, 16, 3, 12, [], fnDev { fn0 with invalidating := [(16, 3, 12)] }, by decide +kernel⟩,
   ⟨0, 0, dev, by unfold State.Wf regsWf memoriesWf portTablesWf objectTablesWf; decide +kernel⟩,
   ⟨0, 0, fnDev { fn0 with flr := true }, by decide +kernel⟩⟩

theorem test_meets_WindowsAndReadsComplete :
    (∃ (p : Nat) (s : State), s.portPresent p = true ∧ s.bit (HP_WIN_STATUS_RETIRING p) = false ∧ s.firstBadWin p = none)
    ∧ (∃ (p : Nat) (s : State), s.bit (HP_WIN_STATUS_RETIRING p) = true ∧ s.oldRequests p = false)
    ∧ (∃ (p f pasid page : Nat) (q : PageReq) (s : State), s.pageReq p f pasid page = some q)
    ∧ (∃ (p tag g : Nat) (r : ReadTag) (s : State), s.readTag p tag = some r ∧ r.quarantined = false ∧ r.use = .fetch g)
    ∧ (∃ (p tag q f gen n : Nat) (r : ReadTag) (s : State), s.readTag p tag = some r ∧ r.quarantined = false ∧ r.use = .peer q f gen n)
    ∧ (∃ (p tag g : Nat) (r : ReadTag) (s : State), s.readTag p tag = some r ∧ r.quarantined = false ∧ r.use = .fetch g)
    ∧ (∃ (p tag : Nat) (r : ReadTag) (s : State), s.readTag p tag = some r ∧ r.quarantined = true) :=
  ⟨⟨0, dev, by decide +kernel⟩,
   ⟨0, setFields [(HP_WIN_STATUS_RETIRING 0, 1)] dev, by decide +kernel⟩,
   ⟨0, 0, 3, 16, ⟨0, 0, 3, 16, []⟩, { dev with rlt := { dev.rlt with pages := [⟨0, 0, 3, 16, []⟩] } }, by decide +kernel⟩,
   ⟨0, 0, 5, readOut false, readDev false, by decide +kernel⟩,
   ⟨4, 0, 0, 0, 1, 4, ⟨⟨4, 0, none, false, false, 0x1000⟩, 0, .peer 0 0 1 4, false⟩, { rootDev with reads := [⟨⟨4, 0, none, false, false, 0x1000⟩, 0, .peer 0 0 1 4, false⟩] }, by decide +kernel⟩,
   ⟨0, 0, 5, readOut false, readDev false, by decide +kernel⟩,
   ⟨0, 0, readOut true, readDev true, by decide +kernel⟩⟩

theorem test_meets_RootPortsComplete :
    (∃ (p : Nat) (s : State), s.Wf ∧ p < 48)
    ∧ (∃ (p : Nat) (f : FoundFunc) (s : State), s.portIsRoot p = true ∧ s.linkUp p = true ∧ (s.port p).enumerating = true ∧ f.classCode = 0x010802)
    ∧ (∃ (p : Nat) (s : State), s.Wf ∧ s.portIsRoot p = true)
    ∧ (∃ (p cap base nxt : Nat) (free : List (Nat × Nat)) (s : State), (s.port p).comp = .cxl ∧ (s.port p).cxlSize = 0 ∧ s.linkUp p = true ∧ s.cxlLink p = true ∧ 0 < cap ∧ s.cxlAttached + cap ≤ 2 ^ 41 ∧ s.cxlPlace cap = some (base, free, nxt))
    ∧ (∃ (p : Nat) (s : State), s.Wf ∧ s.portIsRoot p = true)
    ∧ (∃ (p : Nat) (s : State), s.portIsRoot p = true) :=
  ⟨⟨47, dev, by unfold State.Wf regsWf memoriesWf portTablesWf objectTablesWf; decide +kernel⟩,
   ⟨4, ⟨0x010802, false⟩, { rootDev with ports := [(4, { HostPort.fresh with enumerating := true })] }, by decide +kernel⟩,
   ⟨4, rootDev, by unfold State.Wf regsWf memoriesWf portTablesWf objectTablesWf; decide +kernel⟩,
   ⟨4, 1073741824, 0x800000000000, 0x800040000000, [], setFields [(HP_PORT_STATUS_FLIT 4, 1), (HP_PORT_STATUS_WIDTH 4, 16)] { rootDev with ports := [(4, { HostPort.fresh with comp := .cxl })] }, by decide +kernel⟩,
   ⟨4, rootDev, by unfold State.Wf regsWf memoriesWf portTablesWf objectTablesWf; decide +kernel⟩,
   ⟨4, rootDev, by decide +kernel⟩⟩

theorem test_meets_MailboxCompletes :
    (∃ (n : Nat) (up : Bool) (who : Party) (s : State), n < 4096 ∧ s.islandRuns 0xA9 = true ∧ (s.sheet n).state ≠ .free ∧ actsOn s n who up = true ∧ s.reaches who (mailReg n (if up then 0x84 else 0x90)) = true ∧ s.outputOf who (mailReg n (if up then 0x84 else 0x90)) = none ∧ ((s.sheet n).slot up).state = .empty ∧ ((s.sheet n).slot up).queue = [])
    ∧ (∃ (n : Nat) (up : Bool) (who : Party) (s : State), n < 4096 ∧ s.islandRuns 0xA9 = true ∧ (s.sheet n).state ≠ .free ∧ actsOn s n who up = true ∧ s.reaches who (mailReg n (if up then 0x84 else 0x90)) = true ∧ s.outputOf who (mailReg n (if up then 0x84 else 0x90)) = none ∧ ((s.sheet n).slot up).state = .empty ∧ ((s.sheet n).slot up).queue = [])
    ∧ (∃ (n : Nat) (up : Bool) (who : Party) (s : State), n < 4096 ∧ s.islandRuns 0xA9 = true ∧ (s.sheet n).state ≠ .free ∧ actsOn s n who up = true ∧ s.reaches who (mailReg n (if up then 0x88 else 0x94)) = true ∧ s.outputOf who (mailReg n (if up then 0x88 else 0x94)) = none ∧ ((s.sheet n).slot up).state = .claimed)
    ∧ (∃ (n : Nat) (up : Bool) (who : Party) (s : State), n < 4096 ∧ s.islandRuns 0xA9 = true ∧ (s.sheet n).state ≠ .free ∧ actsOn s n who (!up) = true ∧ s.reaches who (mailReg n (if up then 0x8C else 0x98)) = true ∧ s.outputOf who (mailReg n (if up then 0x8C else 0x98)) = none ∧ ((s.sheet n).slot up).state = .full)
    ∧ (∃ (n : Nat) (up : Bool) (s : State), ((s.sheet n).slot up).state = .claimed ∧ ((s.sheet n).slot up).queue = []) :=
  ⟨⟨1, true, .host 0 0, dev, by decide +kernel⟩,
   ⟨1, false, .surveyor, dev, by decide +kernel⟩,
   ⟨1, true, .host 0 0, sheetDev { sheetOn with up := { MailSlot.fresh with state := .claimed } }, by decide +kernel⟩,
   ⟨1, true, .host 0 0, sheetDev { sheetOn with up := { MailSlot.fresh with state := .full } }, by decide +kernel⟩,
   ⟨1, true, sheetDev { sheetOn with up := { MailSlot.fresh with state := .claimed } }, by decide +kernel⟩⟩

theorem test_meets_SheetsComplete :
    (∃ (g : Nat) (r : Ring) (j : Job) (s u : State), s.Starts g 0x08 r j u ∧ u.sheetRefusal r.sheet (eN j.first 8 2) 0x0401 false = none ∧ (u.sheet (eN j.first 8 2)).destroying = false ∧ u.reshapeRefusal (eN j.first 8 2) (eN j.first 10 2) (eN j.first 16 40) = none)
    ∧ (∃ (g : Nat) (r : Ring) (j : Job) (s u : State), s.Starts g 0x09 r j u ∧ u.sheetRefusal r.sheet (eN j.first 8 2) 0x0104 false = none ∧ (u.sheet (eN j.first 8 2)).state = .disabled ∧ (u.sheet (eN j.first 8 2)).destroying = false ∧ (u.sheetFunc (eN j.first 8 2)).present = true ∧ (u.sheetFunc (eN j.first 8 2)).bme = true ∧ ((u.rd (CAD_ID_PASID (eN j.first 8 2)) = 0 ∨ (u.sheetFunc (eN j.first 8 2)).pasidEn = true)))
    ∧ (∃ (g : Nat) (r : Ring) (j : Job) (s u : State), s.Starts g 0x0A r j u ∧ u.sheetRefusal r.sheet (eN j.first 8 2) 0x0401 false = none ∧ eN j.first 8 2 ≠ r.sheet ∧ (u.sheet (eN j.first 8 2)).destroying = false ∧ (u.sheet (eN j.first 8 2)).state = .active)
    ∧ (∃ (n : Nat) (s : State), (s.sheet n).state = .disabling ∧ s.sheetDrained n = true)
    ∧ (∃ (g : Nat) (r : Ring) (j : Job) (s u : State), s.Starts g 0x0B r j u ∧ u.sheetRefusal r.sheet (eN j.first 8 2) 0x0401 false = none ∧ (u.sheet (eN j.first 8 2)).state = .active ∧ eBits j.first 12 0 1 = 1)
    ∧ (∃ (g : Nat) (r : Ring) (j : Job) (s u : State), s.Starts g 0x0B r j u ∧ u.sheetRefusal r.sheet (eN j.first 8 2) 0x0401 false = none ∧ (u.sheet (eN j.first 8 2)).state = .debug ∧ eBits j.first 12 0 1 = 0)
    ∧ (∃ (g : Nat) (r : Ring) (j : Job) (s u : State), s.Starts g 0x0C r j u ∧ eN j.first 8 2 ≠ 0xFFFF ∧ u.sheetRefusal r.sheet (eN j.first 8 2) 0x0401 true = none)
    ∧ (∃ (n : Nat) (s : State), s.bit (CAD_OP_STATUS_BUSY n) = false ∧ s.createRefusal n = none)
    ∧ (∃ (n : Nat) (s : State), s.bit (CAD_OP_STATUS_BUSY n) = false ∧ (s.sheetPort n).isSome = true ∧ (s.sheet n).state = .disabled ∧ (s.sheet n).destroying = false ∧ (s.sheetFunc n).present = true ∧ (s.sheetFunc n).bme = true ∧ ((s.rd (CAD_ID_PASID n) = 0 ∨ (s.sheetFunc n).pasidEn = true)))
    ∧ (∃ (n : Nat) (s : State), s.bit (CAD_OP_STATUS_BUSY n) = false ∧ (s.sheetPort n).isSome = true ∧ (s.sheet n).state = .disabled)
    ∧ (∃ (n : Nat) (s : State), (s.sheet n).destroying = true) :=
  ⟨⟨5, ring 0 [job (mkEntry 0x08 7 1 [(8, 2, 1), (10, 2, 0x1B), (16, 40, dev.shareRecord 1)])], job (mkEntry 0x08 7 1 [(8, 2, 1), (10, 2, 0x1B), (16, 40, dev.shareRecord 1)]), withEntry 0 (mkEntry 0x08 7 1 [(8, 2, 1), (10, 2, 0x1B), (16, 40, dev.shareRecord 1)]) (dev), begun 0x08 (withEntry 0 (mkEntry 0x08 7 1 [(8, 2, 1), (10, 2, 0x1B), (16, 40, dev.shareRecord 1)]) (dev)), by unfold State.Starts; decide +kernel⟩,
   ⟨5, ring 0 [job (mkEntry 0x09 7 1 [(8, 2, 2)])], job (mkEntry 0x09 7 1 [(8, 2, 2)]), withEntry 0 (mkEntry 0x09 7 1 [(8, 2, 2)]) ({ dev with sheets := [(1, sheetOn), (2, { sheetOn with state := .disabled })] }), begun 0x09 (withEntry 0 (mkEntry 0x09 7 1 [(8, 2, 2)]) ({ dev with sheets := [(1, sheetOn), (2, { sheetOn with state := .disabled })] })), by unfold State.Starts; decide +kernel⟩,
   ⟨5, ring 0 [job (mkEntry 0x0A 7 1 [(8, 2, 2)])], job (mkEntry 0x0A 7 1 [(8, 2, 2)]), withEntry 0 (mkEntry 0x0A 7 1 [(8, 2, 2)]) ({ dev with sheets := [(1, sheetOn), (2, { sheetOn with state := .active })] }), begun 0x0A (withEntry 0 (mkEntry 0x0A 7 1 [(8, 2, 2)]) ({ dev with sheets := [(1, sheetOn), (2, { sheetOn with state := .active })] })), by unfold State.Starts; decide +kernel⟩,
   ⟨1, sheetDev { sheetOn with state := .disabling }, by decide +kernel⟩,
   ⟨5, ring 0 [job (mkEntry 0x0B 7 1 [(8, 2, 2), (12, 1, 1)])], job (mkEntry 0x0B 7 1 [(8, 2, 2), (12, 1, 1)]), withEntry 0 (mkEntry 0x0B 7 1 [(8, 2, 2), (12, 1, 1)]) ({ dev with sheets := [(1, sheetOn), (2, { sheetOn with state := .active })] }), begun 0x0B (withEntry 0 (mkEntry 0x0B 7 1 [(8, 2, 2), (12, 1, 1)]) ({ dev with sheets := [(1, sheetOn), (2, { sheetOn with state := .active })] })), by unfold State.Starts; decide +kernel⟩,
   ⟨5, ring 0 [job (mkEntry 0x0B 7 1 [(8, 2, 2), (12, 1, 0)])], job (mkEntry 0x0B 7 1 [(8, 2, 2), (12, 1, 0)]), withEntry 0 (mkEntry 0x0B 7 1 [(8, 2, 2), (12, 1, 0)]) ({ dev with sheets := [(1, sheetOn), (2, { sheetOn with state := .debug })] }), begun 0x0B (withEntry 0 (mkEntry 0x0B 7 1 [(8, 2, 2), (12, 1, 0)]) ({ dev with sheets := [(1, sheetOn), (2, { sheetOn with state := .debug })] })), by unfold State.Starts; decide +kernel⟩,
   ⟨5, ring 0 [job (mkEntry 0x0C 7 1 [(8, 2, 1)])], job (mkEntry 0x0C 7 1 [(8, 2, 1)]), withEntry 0 (mkEntry 0x0C 7 1 [(8, 2, 1)]) (dev), begun 0x0C (withEntry 0 (mkEntry 0x0C 7 1 [(8, 2, 1)]) (dev)), by unfold State.Starts; decide +kernel⟩,
   ⟨1, { dev with sheets := [] }, by decide +kernel⟩,
   ⟨1, sheetDev { sheetOn with state := .disabled }, by decide +kernel⟩,
   ⟨1, sheetDev { sheetOn with state := .disabled }, by decide +kernel⟩,
   ⟨1, sheetDev { sheetOn with state := .disabled, destroying := true }, by decide +kernel⟩⟩

theorem test_meets_RingCommandsComplete :
    (∃ (g : Nat) (c : Option Nat) (r : Ring) (j : Job) (s u : State), s.Starts g 0x01 r j u ∧ namedSheet r.sheet j.first = r.sheet ∧ eN j.first 10 2 ≠ 0 ∧ u.findRing r.sheet (eN j.first 10 2) = none ∧ u.localReserved r.sheet (eN j.first 10 2) = false ∧ openFieldsOk u r.sheet j.first = true ∧ (if eBits j.first 12 0 3 = 1 then u.ringContract r.sheet (eN j.first 18 2) else .inl none) = .inl c ∧ u.usage r.sheet 0 < u.limit r.sheet 0)
    ∧ (∃ (g k : Nat) (r x : Ring) (j : Job) (s u : State), s.Starts g 0x02 r j u ∧ u.namedRing r.sheet j.first = .inl (k, x) ∧ x.state = .disabled)
    ∧ (∃ (g k : Nat) (r x y : Ring) (j : Job) (s u : State), s.Starts g 0x03 r j u ∧ u.namedRing r.sheet j.first = .inl (k, x) ∧ k ≠ g ∧ x.localNo ≠ 0 ∧ x.state = .running ∧ (quiesceMessages k (stopRing k 0 u)).ring? k = some y)
    ∧ (∃ (g : Nat) (r : Ring) (s : State), (flushRing g s).ring? g = some r ∧ r.state = .disabling ∧ startedJobs r.jobs = [])
    ∧ (∃ (g : Nat) (r : Ring) (s : State), s.ring? g = some r ∧ r.state = .disabled ∧ r.idle = false ∧ s.ringQuiet g r = true)
    ∧ (∃ (g k : Nat) (r x : Ring) (j : Job) (s u : State), s.Starts g 0x04 r j u ∧ u.namedRing r.sheet j.first = .inl (k, x) ∧ x.state = .disabled ∧ x.idle = true)
    ∧ (∃ (g k : Nat) (r x : Ring) (j : Job) (s u : State), s.Starts g 0x05 r j u ∧ u.namedRing r.sheet j.first = .inl (k, x))
    ∧ (∃ (g k : Nat) (c : Option Nat) (r x : Ring) (j : Job) (s u : State), s.Starts g 0x06 r j u ∧ u.namedRing r.sheet j.first = .inl (k, x) ∧ eBits j.first 14 0 11 ≤ (u.sheetFunc x.sheet).msixN ∧ (if x.kind = 1 then u.ringContract x.sheet (eN j.first 18 2) else .inl none) = .inl c)
    ∧ (∃ (g : Nat) (r : Ring) (j : Job) (s u : State), s.Starts g 0x00 r j u) :=
  ⟨⟨5, none, ring 0 [job (mkEntry 0x01 7 1 [(8, 2, 0xFFFF), (10, 2, 7), (12, 1, 2), (13, 1, 4), (32, 8, 0x10000), (40, 8, 0x20000)])], job (mkEntry 0x01 7 1 [(8, 2, 0xFFFF), (10, 2, 7), (12, 1, 2), (13, 1, 4), (32, 8, 0x10000), (40, 8, 0x20000)]), withEntry 0 (mkEntry 0x01 7 1 [(8, 2, 0xFFFF), (10, 2, 7), (12, 1, 2), (13, 1, 4), (32, 8, 0x10000), (40, 8, 0x20000)]) (dev), begun 0x01 (withEntry 0 (mkEntry 0x01 7 1 [(8, 2, 0xFFFF), (10, 2, 7), (12, 1, 2), (13, 1, 4), (32, 8, 0x10000), (40, 8, 0x20000)]) (dev)), by unfold State.Starts; decide +kernel⟩,
   ⟨5, 6, ring 0 [job (mkEntry 0x02 7 1 [(8, 2, 0xFFFF), (10, 2, 9)])], ringOff, job (mkEntry 0x02 7 1 [(8, 2, 0xFFFF), (10, 2, 9)]), twoRings (mkEntry 0x02 7 1 [(8, 2, 0xFFFF), (10, 2, 9)]) (ringOff), begun 0x02 (twoRings (mkEntry 0x02 7 1 [(8, 2, 0xFFFF), (10, 2, 9)]) (ringOff)), by unfold State.Starts; decide +kernel⟩,
   ⟨5, 6, ring 0 [job (mkEntry 0x03 7 1 [(8, 2, 0xFFFF), (10, 2, 9)])], { ring 3 [] with localNo := 9 }, { ring 3 [] with localNo := 9, state := .disabling }, job (mkEntry 0x03 7 1 [(8, 2, 0xFFFF), (10, 2, 9)]), twoRings (mkEntry 0x03 7 1 [(8, 2, 0xFFFF), (10, 2, 9)]) ({ ring 3 [] with localNo := 9 }), begun 0x03 (twoRings (mkEntry 0x03 7 1 [(8, 2, 0xFFFF), (10, 2, 9)]) ({ ring 3 [] with localNo := 9 })), by unfold State.Starts; decide +kernel⟩,
   ⟨5, { ring 3 [] with state := .disabling }, ringDev { ring 3 [] with state := .disabling }, by decide +kernel⟩,
   ⟨5, ringOff, ringDev ringOff, by decide +kernel⟩,
   ⟨5, 6, ring 0 [job (mkEntry 0x04 7 1 [(8, 2, 0xFFFF), (10, 2, 9)])], { ringOff with idle := true }, job (mkEntry 0x04 7 1 [(8, 2, 0xFFFF), (10, 2, 9)]), twoRings (mkEntry 0x04 7 1 [(8, 2, 0xFFFF), (10, 2, 9)]) ({ ringOff with idle := true }), begun 0x04 (twoRings (mkEntry 0x04 7 1 [(8, 2, 0xFFFF), (10, 2, 9)]) ({ ringOff with idle := true })), by unfold State.Starts; decide +kernel⟩,
   ⟨5, 6, ring 0 [job (mkEntry 0x05 7 1 [(8, 2, 0xFFFF), (10, 2, 9)])], ringOff, job (mkEntry 0x05 7 1 [(8, 2, 0xFFFF), (10, 2, 9)]), twoRings (mkEntry 0x05 7 1 [(8, 2, 0xFFFF), (10, 2, 9)]) (ringOff), begun 0x05 (twoRings (mkEntry 0x05 7 1 [(8, 2, 0xFFFF), (10, 2, 9)]) (ringOff)), by unfold State.Starts; decide +kernel⟩,
   ⟨5, 6, none, ring 0 [job (mkEntry 0x06 7 1 [(8, 2, 0xFFFF), (10, 2, 9), (14, 2, 5), (16, 1, 4)])], { ring 3 [] with localNo := 9 }, job (mkEntry 0x06 7 1 [(8, 2, 0xFFFF), (10, 2, 9), (14, 2, 5), (16, 1, 4)]), twoRings (mkEntry 0x06 7 1 [(8, 2, 0xFFFF), (10, 2, 9), (14, 2, 5), (16, 1, 4)]) ({ ring 3 [] with localNo := 9 }), begun 0x06 (twoRings (mkEntry 0x06 7 1 [(8, 2, 0xFFFF), (10, 2, 9), (14, 2, 5), (16, 1, 4)]) ({ ring 3 [] with localNo := 9 })), by unfold State.Starts; decide +kernel⟩,
   ⟨5, ring 0 [job (mkEntry 0x00 7 1 [])], job (mkEntry 0x00 7 1 []), withEntry 0 (mkEntry 0x00 7 1 []) (dev), begun 0x00 (withEntry 0 (mkEntry 0x00 7 1 []) (dev)), by unfold State.Starts; decide +kernel⟩⟩

theorem test_meets_DoorbellsAndAdminRingsComplete :
    (∃ (n loc pi g : Nat) (r : Ring) (s : State), n < 4096 ∧ loc < 65536 ∧ pi < 2 ^ 32 ∧ (s.sheet n).state = .active ∧ s.findRing n loc = some (g, r) ∧ r.piAccepted pi = true)
    ∧ (∃ (n loc pi g : Nat) (r : Ring) (s : State), n < 4096 ∧ loc < 65536 ∧ pi < 2 ^ 32 ∧ (s.sheet n).state = .active ∧ s.findRing n loc = some (g, r) ∧ r.piAccepted pi = true)
    ∧ (∃ (g : Nat) (r : Ring) (s : State), s.ring? g = some r ∧ s.mayFetch r = true ∧ s.flight.room .rd = true ∧ (s.portTags (s.sheetPortD r.sheet)).length < 4096)
    ∧ (∃ (g : Nat) (r : Ring) (s : State), s.ring? g = some r ∧ r.timer = true ∧ 0 < r.unannounced)
    ∧ (∃ (n : Nat) (s : State), (s.sheet n).state ≠ .free ∧ s.findRing n 0 = none ∧ s.rd (RNG_ADMIN_CFG_VEC n) ≤ (s.sheetFunc n).msixN ∧ s.usage n 0 < s.limit n 0)
    ∧ (∃ (n g : Nat) (r : Ring) (s : State), (s.sheet n).state ≠ .free ∧ s.descRing n 0 = some (g, r) ∧ r.state = .disabled)
    ∧ (∃ (n g : Nat) (r : Ring) (s : State), (s.sheet n).state ≠ .free ∧ s.descRing n 0 = some (g, r) ∧ r.state = .disabled ∧ r.idle = true)
    ∧ (∃ (s : State), s.Wf) :=
  ⟨⟨1, 3, 16, 5, ring 1 [], ringDev (ring 1 []), by decide +kernel⟩,
   ⟨1, 3, 1, 5, ring 1 [], ringDev (ring 1 []), by decide +kernel⟩,
   ⟨5, { ring 1 [] with pi := 3 }, ringDev { ring 1 [] with pi := 3 }, by decide +kernel⟩,
   ⟨5, { ring 1 [] with timer := true, unannounced := 2 }, ringDev { ring 1 [] with timer := true, unannounced := 2 }, by decide +kernel⟩,
   ⟨1, dev, by decide +kernel⟩,
   ⟨1, 5, { ringOff with localNo := 0, kind := 0, idle := true }, ringDev { ringOff with localNo := 0, kind := 0, idle := true }, by decide +kernel⟩,
   ⟨1, 5, { ringOff with localNo := 0, kind := 0, idle := true }, ringDev { ringOff with localNo := 0, kind := 0, idle := true }, by decide +kernel⟩,
   ⟨dev, by unfold State.Wf regsWf memoriesWf portTablesWf objectTablesWf; decide +kernel⟩⟩

theorem test_meets_DataEntriesComplete :
    (∃ (g : Nat) (r : Ring) (j : Job) (s u : State), s.Starts g 0x80 r j u ∧ s.throttled r j = false ∧ s.flight.room .rd = true ∧ txLenOk j = true)
    ∧ (∃ (g : Nat) (r : Ring) (j : Job) (s : State), s.startable g (· == 0x81) = some (r, j) ∧ 256 ≤ eN j.first 16 4 ∧ eN j.first 16 4 ≤ 16384)
    ∧ (∃ (g : Nat) (r : Ring) (j : Job) (s u : State), s.flight.room .rd = true ∧ s.Starts g 0x88 r j u ∧ 0 < eN j.first 24 4 ∧ eN j.first 24 4 ≤ 16777216)
    ∧ (∃ (g : Nat) (r : Ring) (j : Job) (s u : State), s.Starts g 0x89 r j u ∧ eN j.first 8 8 % 8 = 0 ∧ eN j.first 24 4 % 8 = 0 ∧ 8 ≤ eN j.first 24 4 ∧ eN j.first 24 4 ≤ 16777216) :=
  ⟨⟨5, ring 1 [job (mkEntry 0x80 7 1 [(8, 8, 0x9000), (16, 4, 100)])], job (mkEntry 0x80 7 1 [(8, 8, 0x9000), (16, 4, 100)]), withEntry 1 (mkEntry 0x80 7 1 [(8, 8, 0x9000), (16, 4, 100)]) dev, begun 0x80 (withEntry 1 (mkEntry 0x80 7 1 [(8, 8, 0x9000), (16, 4, 100)]) dev), by unfold State.Starts; decide +kernel⟩,
   ⟨5, ring 2 [job (mkEntry 0x81 7 1 [(8, 8, 0x9000), (16, 4, 256)])], job (mkEntry 0x81 7 1 [(8, 8, 0x9000), (16, 4, 256)]), withEntry 2 (mkEntry 0x81 7 1 [(8, 8, 0x9000), (16, 4, 256)]) dev, by decide +kernel⟩,
   ⟨5, ring 3 [job (mkEntry 0x88 7 1 [(8, 8, 0x9000), (16, 8, 0xA000), (24, 4, 16777216)])], job (mkEntry 0x88 7 1 [(8, 8, 0x9000), (16, 8, 0xA000), (24, 4, 16777216)]), withEntry 3 (mkEntry 0x88 7 1 [(8, 8, 0x9000), (16, 8, 0xA000), (24, 4, 16777216)]) (dev), begun 0x88 (withEntry 3 (mkEntry 0x88 7 1 [(8, 8, 0x9000), (16, 8, 0xA000), (24, 4, 16777216)]) (dev)), by unfold State.Starts; decide +kernel⟩,
   ⟨5, ring 3 [job (mkEntry 0x89 7 1 [(8, 8, 0x9000), (16, 8, 0xA000), (24, 4, 8)])], job (mkEntry 0x89 7 1 [(8, 8, 0x9000), (16, 8, 0xA000), (24, 4, 8)]), withEntry 3 (mkEntry 0x89 7 1 [(8, 8, 0x9000), (16, 8, 0xA000), (24, 4, 8)]) (dev), begun 0x89 (withEntry 3 (mkEntry 0x89 7 1 [(8, 8, 0x9000), (16, 8, 0xA000), (24, 4, 8)]) (dev)), by unfold State.Starts; decide +kernel⟩⟩

theorem test_meets_NetConfigurationCompletes :
    (∃ (p : Nat) (v : BitVec 64) (s t u : State), ((s.cfgMode p v = s.rd (NET_PORT_CFG_MODE p) ∨ s.modeFits p (s.cfgMode p v) = true)) ∧ ((s.bit (NET_PORT_CFG_ENABLE p) = true → (s.cfgWritten p v).bit (NET_PORT_CFG_ENABLE p) = false → s.portNamed p = false)) ∧ ((s.netState p ≠ 0 → (s.cfgWritten p v).headroomChange p = true)) ∧ ((s.rd (NET_PORT_CFG_MAX_FRAME p) < (s.cfgWritten p v).rd (NET_PORT_CFG_MAX_FRAME p) → (s.cfgWritten p v).portRecheck p = true)) ∧ u = applyHeadroom p (grownFrame p s ((s.cfgWritten p v).wr (NET_PORT_STATUS_CFG_ERR p) 0)) ∧ t = followPrbs p s (if u.bit (NET_PORT_CFG_ENABLE p) then startPort p u else if s.netState p = 0 then u else moveNet p 0 0 u))
    ∧ (∃ (p : Nat) (v : BitVec 64) (s t u : State), ((s.cfgMode p v = s.rd (NET_PORT_CFG_MODE p) ∨ s.modeFits p (s.cfgMode p v) = true)) ∧ ((s.bit (NET_PORT_CFG_ENABLE p) = true → (s.cfgWritten p v).bit (NET_PORT_CFG_ENABLE p) = false → s.portNamed p = false)) ∧ ((s.netState p ≠ 0 → (s.cfgWritten p v).headroomChange p = true)) ∧ ((s.rd (NET_PORT_CFG_MAX_FRAME p) < (s.cfgWritten p v).rd (NET_PORT_CFG_MAX_FRAME p) → (s.cfgWritten p v).portRecheck p = true)) ∧ u = applyHeadroom p (grownFrame p s ((s.cfgWritten p v).wr (NET_PORT_STATUS_CFG_ERR p) 0)) ∧ t = followPrbs p s (if u.bit (NET_PORT_CFG_ENABLE p) then startPort p u else if s.netState p = 0 then u else moveNet p 0 0 u))
    ∧ (∃ (p reg v a : Nat) (s : State), ((reg = 1 ∧ a = NET_HEAD_CFG p) ∨ (reg = 2 ∧ a = NET_PRIO_MAP p)) ∧ ((s.netState p ≠ 0 → (s.plainWrite a (BitVec.ofNat 64 v)).headroomChange p = true)))
    ∧ (∃ (p reg v a : Nat) (s : State), ((reg = 1 ∧ a = NET_HEAD_CFG p) ∨ (reg = 2 ∧ a = NET_PRIO_MAP p)) ∧ ((s.netState p ≠ 0 → (s.plainWrite a (BitVec.ofNat 64 v)).headroomChange p = true))) :=
  ⟨⟨1, (BitVec.ofNat 64 2), dev, followPrbs 1 (dev) (if (applyHeadroom 1 (grownFrame 1 (dev) (((dev).cfgWritten 1 (BitVec.ofNat 64 2)).wr (NET_PORT_STATUS_CFG_ERR 1) 0))).bit (NET_PORT_CFG_ENABLE 1) then startPort 1 (applyHeadroom 1 (grownFrame 1 (dev) (((dev).cfgWritten 1 (BitVec.ofNat 64 2)).wr (NET_PORT_STATUS_CFG_ERR 1) 0))) else if (dev).netState 1 = 0 then (applyHeadroom 1 (grownFrame 1 (dev) (((dev).cfgWritten 1 (BitVec.ofNat 64 2)).wr (NET_PORT_STATUS_CFG_ERR 1) 0))) else moveNet 1 0 0 (applyHeadroom 1 (grownFrame 1 (dev) (((dev).cfgWritten 1 (BitVec.ofNat 64 2)).wr (NET_PORT_STATUS_CFG_ERR 1) 0)))), applyHeadroom 1 (grownFrame 1 (dev) (((dev).cfgWritten 1 (BitVec.ofNat 64 2)).wr (NET_PORT_STATUS_CFG_ERR 1) 0)), by decide +kernel⟩,
   ⟨1, (BitVec.ofNat 64 3), dev, followPrbs 1 (dev) (if (applyHeadroom 1 (grownFrame 1 (dev) (((dev).cfgWritten 1 (BitVec.ofNat 64 3)).wr (NET_PORT_STATUS_CFG_ERR 1) 0))).bit (NET_PORT_CFG_ENABLE 1) then startPort 1 (applyHeadroom 1 (grownFrame 1 (dev) (((dev).cfgWritten 1 (BitVec.ofNat 64 3)).wr (NET_PORT_STATUS_CFG_ERR 1) 0))) else if (dev).netState 1 = 0 then (applyHeadroom 1 (grownFrame 1 (dev) (((dev).cfgWritten 1 (BitVec.ofNat 64 3)).wr (NET_PORT_STATUS_CFG_ERR 1) 0))) else moveNet 1 0 0 (applyHeadroom 1 (grownFrame 1 (dev) (((dev).cfgWritten 1 (BitVec.ofNat 64 3)).wr (NET_PORT_STATUS_CFG_ERR 1) 0)))), applyHeadroom 1 (grownFrame 1 (dev) (((dev).cfgWritten 1 (BitVec.ofNat 64 3)).wr (NET_PORT_STATUS_CFG_ERR 1) 0)), by decide +kernel⟩,
   ⟨1, 1, 2000, NET_HEAD_CFG 1, dev, by decide +kernel⟩,
   ⟨1, 2, 0, NET_PRIO_MAP 1, dev, by decide +kernel⟩⟩

theorem test_meets_NetStatesComplete :
    (∃ (p : Nat) (s : State), s.netState p ≠ 0 ∧ s.netState p ≠ 1)
    ∧ (∃ (p : Nat) (s : State), s.netState p = 6 ∧ s.pausedClasses p = [])
    ∧ (∃ (p : Nat) (s : State), s.netState p = 3 ∧ s.lanesClocked p = true)
    ∧ (∃ (p : Nat) (s : State), s.netState p = 4 ∧ (reserveHeadroom p s).headroomFits = true)
    ∧ (∃ (p n : Nat) (s : State), (s.count (NET_FEC_UNCORR_CW p) n).netState p = 5)
    ∧ (∃ (p : Nat) (s : State), s.netState p = 5 ∧ (s.pausedClasses p).any (fun c => (s.rd (NET_PFC_CFG_RX_PFC_EN p)).testBit c) = true)
    ∧ (∃ (p : Nat) (s : State), s.netState p = 2 ∧ s.net.ready.contains p = true)
    ∧ (∃ (p : Nat) (s : State), s.netState p = 2) :=
  ⟨⟨0, setFields [(NET_CAGE_CFG_LANES 0, 0)] dev, by decide +kernel⟩,
   ⟨0, netDev 6, by decide +kernel⟩,
   ⟨0, netDev 3, by decide +kernel⟩,
   ⟨0, netDev 4, by decide +kernel⟩,
   ⟨0, 9, dev, by decide +kernel⟩,
   ⟨0, setFields [(NET_PFC_CFG_RX_PFC_EN 0, 8)] { dev with net := { dev.net with pause := [(3, ⟨2 ^ 80, 0⟩)] } }, by decide +kernel⟩,
   ⟨0, { netDev 2 with net := { dev.net with ready := [0] } }, by decide +kernel⟩,
   ⟨0, netDev 2, by decide +kernel⟩⟩

theorem test_meets_FlowControlCompletes :
    (∃ (p : Nat) (s : State), s.sendsPfc p = true ∧ (s.island p).inReset = false)
    ∧ (∃ (p : Nat) (s : State), s.sendsPfc p = true ∧ (s.island p).inReset = false ∧ (s.count (NET_RX_PFC p) 1).bit (NET_PFC_CFG_RX_PAUSE_EN p) = true)
    ∧ (∃ (p op : Nat) (s : State), s.sendsPfc p = true ∧ (s.island p).inReset = false ∧ op ≠ 0x0101 ∧ op ≠ 0x0001)
    ∧ (∃ (s : State), tblWf s.net.pause = true)
    ∧ (∃ (p : Nat) (s : State), s.sendsPfc p = true ∧ s.rd (NET_PORT_STATUS_TX_XOFF p) ≠ 0) :=
  ⟨⟨0, { dev with islands := (0x00, onIsland false) :: dev.islands }, by decide +kernel⟩,
   ⟨0, setFields [(NET_PFC_CFG_RX_PAUSE_EN 0, 1)] { dev with islands := (0x00, onIsland false) :: dev.islands }, by decide +kernel⟩,
   ⟨0, 0x0102, { dev with islands := (0x00, onIsland false) :: dev.islands }, by decide +kernel⟩,
   ⟨{ dev with net := { dev.net with pause := [(3, ⟨0, 0⟩)] } }, by decide +kernel⟩,
   ⟨0, setFields [(NET_PORT_STATUS_TX_XOFF 0, 8)] dev, by decide +kernel⟩⟩

theorem test_meets_ModulesComplete :
    (∃ (k : Nat) (s : State), s.cagePresent k = true ∧ s.bit (NET_CAGE_STATUS_PRESENT k) = false)
    ∧ (∃ (k pw : Nat) (ports : List Nat) (s u : State), s.bit (NET_CAGE_STATUS_PRESENT k) = true ∧ u = (let a := s.wr (NET_CAGE_STATUS_MSTATE k) 3; { a with net := { a.net with busFails := tblDel a.net.busFails k } }) ∧ pw ≤ u.rd (NET_CAGE_CFG_MAX_POWER k) ∧ ((∀ p ∈ u.cagePortsIn k [2], ports.contains p = true)))
    ∧ (∃ (k : Nat) (s : State), s.cagePortsIn k [2] ≠ [] ∧ tblGetD 0 s.net.busFails k < 2)
    ∧ (∃ (k : Nat) (s : State), s.cagePortsIn k [2] ≠ [] ∧ tblGetD 0 s.net.busFails k = 2)
    ∧ (∃ (k : Nat) (s : State), s.bit (NET_CAGE_STATUS_PRESENT k) = true)
    ∧ (∃ (k : Nat) (s : State), s.bit (NET_CAGE_STATUS_PRESENT k) = true)
    ∧ (∃ (k v : Nat) (a : CageAccess) (s : State), s.bit (NET_CAGE_STATUS_ACC_BUSY k) = false ∧ v.testBit 27 = true ∧ a = ⟨v % 256, v / 2 ^ 8 % 256, v / 2 ^ 16 % 256, v / 2 ^ 24 % 4 + 1, v.testBit 26⟩ ∧ ((a.isWrite = true → 128 ≤ a.offset ∧ a.page ≠ 0x10)))
    ∧ (∃ (k v : Nat) (a : CageAccess) (s : State), s.bit (NET_CAGE_STATUS_ACC_BUSY k) = false ∧ v.testBit 27 = true ∧ a = ⟨v % 256, v / 2 ^ 8 % 256, v / 2 ^ 16 % 256, v / 2 ^ 24 % 4 + 1, v.testBit 26⟩ ∧ ((a.isWrite = true → 128 ≤ a.offset ∧ a.page ≠ 0x10)))
    ∧ (∃ (k : Nat) (a : CageAccess) (s : State), tblGet s.net.access k = some a)
    ∧ (∃ (k : Nat) (a : CageAccess) (s : State), tblGet s.net.access k = some a) :=
  ⟨⟨0, dev, by decide +kernel⟩,
   ⟨0, 0, [0], cageDev 2, (let a := (cageDev 2).wr (NET_CAGE_STATUS_MSTATE 0) 3; { a with net := { a.net with busFails := tblDel a.net.busFails 0 } }), ⟨by decide +kernel, rfl, by decide +kernel, fun p h => (by decide +kernel : ∀ p ∈ State.cagePortsIn (let a := (cageDev 2).wr (NET_CAGE_STATUS_MSTATE 0) 3; { a with net := { a.net with busFails := tblDel a.net.busFails 0 } }) 0 [2], [0].contains p = true) p h⟩⟩,
   ⟨0, cageDev 2, by decide +kernel⟩,
   ⟨0, { cageDev 2 with net := { dev.net with busFails := [(0, 2)] } }, by decide +kernel⟩,
   ⟨31, setFields [(NET_CAGE_STATUS_PRESENT 31, 1)] dev, by decide +kernel⟩,
   ⟨0, cageDev 5, by decide +kernel⟩,
   ⟨0, 0x08110380, ⟨128, 3, 0x11, 1, false⟩, dev, by decide +kernel⟩,
   ⟨0, 0x0E110380, ⟨128, 3, 0x11, 3, true⟩, dev, by decide +kernel⟩,
   ⟨31, ⟨16, 0, 0, 1, false⟩, { dev with net := { dev.net with access := [(31, ⟨16, 0, 0, 1, false⟩)] } }, by decide +kernel⟩,
   ⟨0, ⟨16, 0, 0, 4, false⟩, { dev with net := { dev.net with access := [(0, ⟨16, 0, 0, 4, false⟩)] } }, by decide +kernel⟩⟩

theorem test_meets_BenchCommandsComplete :
    (∃ (s : State), s.bit (BNC_PROF_STATUS_RETIRING 0) = false ∧ s.firstBadProfile = none)
    ∧ (∃ (s : State), s.bit (BNC_PROF_STATUS_RETIRING 0) = true ∧ s.pipe.flying.any (fun f => f.gen != s.rd (BNC_PROF_STATUS_GEN 0)) = false ∧ s.pipe.waiting.any (fun f => f.gen != s.rd (BNC_PROF_STATUS_GEN 0)) = false)
    ∧ (∃ (v : BitVec 64) (s : State), ((getField v 0 2 = 1 → s.outletExists (getField v 2 7) = true)) ∧ ((getField v 0 2 = 2 → 112 ≤ getField v 2 7 ∧ getField v 2 7 ≤ 119)))
    ∧ (∃ (b dest : Nat) (force : Bool) (s : State), s.bit BNC_MOVE_STATUS_BUSY = false ∧ s.moveStatus b dest force = 0)
    ∧ (∃ (i : Nat) (m : Move) (s : State), s.pipe.move = some m ∧ m.markers.contains i = true ∧ s.pipe.flying.any (fun f => f.inlet == i && f.bucket == m.bucket && f.epoch == m.oldEpoch) = false)
    ∧ (∃ (k : Nat) (s : State), s.rd (BNC_STATUS_STATE k) = 1)
    ∧ (∃ (k sp : Nat) (s : State), s.benchServes k = true ∧ (holdBench k s).spareFor k = some sp)
    ∧ (∃ (k : Nat) (s : State), s.benchServes k = true ∧ (holdBench k s).spareFor k = none) :=
  ⟨⟨dev, by decide +kernel⟩,
   ⟨setFields [(BNC_PROF_STATUS_RETIRING 0, 1)] dev, by decide +kernel⟩,
   ⟨1, dev, by decide +kernel⟩,
   ⟨0, 1, false, setFields [(BNC_STATUS_STATE 1, 2)] dev, by decide +kernel⟩,
   ⟨0, ⟨0, 0, 1, 0, [0, 64]⟩, { dev with pipe := { dev.pipe with move := some ⟨0, 0, 1, 0, [0, 64]⟩ } }, by decide +kernel⟩,
   ⟨1, setFields [(BNC_STATUS_STATE 1, 1)] dev, by decide +kernel⟩,
   ⟨0, 1, { setFields [(BNC_STATUS_STATE 1, 1)] dev with islands := (0x70, onIsland false) :: dev.islands }, by decide +kernel⟩,
   ⟨0, { dev with islands := (0x70, onIsland false) :: dev.islands }, by decide +kernel⟩⟩

theorem test_meets_ExactMatchCompletes :
    (∃ (g t : Nat) (hb : Bool) (key : Bytes) (r : Ring) (j : Job) (e : TEntry) (pl : Placed) (q : Partition) (s u : State), s.tableHeld g 0x20 = false ∧ s.Starts g 0x20 r j u ∧ u.managerSheet r.sheet = true ∧ t = tblTable j.first ∧ [1, 2].contains (u.rd (TBL_DESC_TYPE t)) = true ∧ key = tblKey j.first (u.keyLen t) ∧ e = ⟨t, key, tblResult j.first, 0, 0⟩ ∧ ((hb = false ∨ u.inHbm t = false)) ∧ (u.partition (u.inHbm t)).lookup t key = none ∧ (u.partition (u.inHbm t)).used + e.weight ≤ u.entryLimit (u.inHbm t) ∧ (u.partition (u.inHbm t)).insert (u.shape (u.inHbm t)) e = (pl, q) ∧ pl ≠ .failed)
    ∧ (∃ (g t : Nat) (hb : Bool) (key : Bytes) (r : Ring) (j : Job) (old : TEntry) (s u : State), s.tableHeld g 0x21 = false ∧ s.Starts g 0x21 r j u ∧ u.managerSheet r.sheet = true ∧ t = tblTable j.first ∧ [1, 2].contains (u.rd (TBL_DESC_TYPE t)) = true ∧ key = tblKey j.first (u.keyLen t) ∧ ((hb = false ∨ u.inHbm t = false)) ∧ (u.partition (u.inHbm t)).lookup t key = some old)
    ∧ (∃ (g t : Nat) (hb : Bool) (key : Bytes) (r : Ring) (j : Job) (s u : State), s.tableHeld g 0x22 = false ∧ s.Starts g 0x22 r j u ∧ u.managerSheet r.sheet = true ∧ t = tblTable j.first ∧ [1, 2].contains (u.rd (TBL_DESC_TYPE t)) = true ∧ key = tblKey j.first (u.keyLen t) ∧ ((hb = false ∨ u.inHbm t = false)) ∧ (u.partition (u.inHbm t)).lookup t key ≠ none)
    ∧ (∃ (g t : Nat) (key : Bytes) (r : Ring) (j : Job) (s u : State), s.Starts g 0x23 r j u ∧ u.managerSheet r.sheet = true ∧ t = tblTable j.first ∧ [1, 2].contains (u.rd (TBL_DESC_TYPE t)) = true ∧ key = tblKey j.first (u.keyLen t)) :=
  ⟨⟨5, 1, false, [9, 8, 7, 6, 5, 4], ring 0 [job (tblEntry 0x20 1 0 [9, 8, 7, 6, 5, 4])], job (tblEntry 0x20 1 0 [9, 8, 7, 6, 5, 4]), ⟨1, [9, 8, 7, 6, 5, 4], 80, 0, 0⟩, ((State.partition (begun 0x20 (withEntry 0 (tblEntry 0x20 1 0 [9, 8, 7, 6, 5, 4]) tblDev)) false).insert (State.shape (begun 0x20 (withEntry 0 (tblEntry 0x20 1 0 [9, 8, 7, 6, 5, 4]) tblDev)) false) ⟨1, [9, 8, 7, 6, 5, 4], 80, 0, 0⟩).1, ((State.partition (begun 0x20 (withEntry 0 (tblEntry 0x20 1 0 [9, 8, 7, 6, 5, 4]) tblDev)) false).insert (State.shape (begun 0x20 (withEntry 0 (tblEntry 0x20 1 0 [9, 8, 7, 6, 5, 4]) tblDev)) false) ⟨1, [9, 8, 7, 6, 5, 4], 80, 0, 0⟩).2, withEntry 0 (tblEntry 0x20 1 0 [9, 8, 7, 6, 5, 4]) tblDev, begun 0x20 (withEntry 0 (tblEntry 0x20 1 0 [9, 8, 7, 6, 5, 4]) tblDev), by unfold State.Starts; decide +kernel⟩,
   ⟨5, 1, false, [1, 2, 3, 4, 5, 6], ring 0 [job (tblEntry 0x21 1 0 [1, 2, 3, 4, 5, 6])], job (tblEntry 0x21 1 0 [1, 2, 3, 4, 5, 6]), tentry 1, withEntry 0 (tblEntry 0x21 1 0 [1, 2, 3, 4, 5, 6]) tblDev, begun 0x21 (withEntry 0 (tblEntry 0x21 1 0 [1, 2, 3, 4, 5, 6]) tblDev), by unfold State.Starts; decide +kernel⟩,
   ⟨5, 1, false, [1, 2, 3, 4, 5, 6], ring 0 [job (tblEntry 0x22 1 0 [1, 2, 3, 4, 5, 6])], job (tblEntry 0x22 1 0 [1, 2, 3, 4, 5, 6]), withEntry 0 (tblEntry 0x22 1 0 [1, 2, 3, 4, 5, 6]) tblDev, begun 0x22 (withEntry 0 (tblEntry 0x22 1 0 [1, 2, 3, 4, 5, 6]) tblDev), by unfold State.Starts; decide +kernel⟩,
   ⟨5, 1, [1, 2, 3, 4, 5, 6], ring 0 [job (tblEntry 0x23 1 0 [1, 2, 3, 4, 5, 6])], job (tblEntry 0x23 1 0 [1, 2, 3, 4, 5, 6]), withEntry 0 (tblEntry 0x23 1 0 [1, 2, 3, 4, 5, 6]) tblDev, begun 0x23 (withEntry 0 (tblEntry 0x23 1 0 [1, 2, 3, 4, 5, 6]) tblDev), by unfold State.Starts; decide +kernel⟩⟩

theorem test_meets_LpmCompletes :
    (∃ (g t n : Nat) (addr : Bytes) (r : Ring) (j : Job) (s u : State), s.tableHeld g 0x24 = false ∧ s.Starts g 0x24 r j u ∧ u.managerSheet r.sheet = true ∧ t = tblTable j.first ∧ n = tblPlen j.first ∧ u.rd (TBL_DESC_TYPE t) = 3 ∧ plenOk u j.first = true ∧ n ≤ 16 ∧ addr = clearBeyond n (tblKey j.first (u.keyLen t)) ∧ u.tables.shorts.find? (fun x => x.table == t && x.plen == n && x.addr == addr) = none ∧ u.prefixes < 8388608)
    ∧ (∃ (g t n : Nat) (addr : Bytes) (old : ShortPrefix) (r : Ring) (j : Job) (s u : State), s.tableHeld g 0x24 = false ∧ s.Starts g 0x24 r j u ∧ u.managerSheet r.sheet = true ∧ t = tblTable j.first ∧ n = tblPlen j.first ∧ u.rd (TBL_DESC_TYPE t) = 3 ∧ plenOk u j.first = true ∧ n ≤ 16 ∧ addr = clearBeyond n (tblKey j.first (u.keyLen t)) ∧ u.tables.shorts.find? (fun x => x.table == t && x.plen == n && x.addr == addr) = some old)
    ∧ (∃ (g t n : Nat) (addr : Bytes) (r : Ring) (j : Job) (s u : State), s.tableHeld g 0x25 = false ∧ s.Starts g 0x25 r j u ∧ u.managerSheet r.sheet = true ∧ t = tblTable j.first ∧ n = tblPlen j.first ∧ u.rd (TBL_DESC_TYPE t) = 3 ∧ plenOk u j.first = true ∧ n ≤ 16 ∧ addr = clearBeyond n (tblKey j.first (u.keyLen t)) ∧ u.tables.shorts.any (fun x => x.table == t && x.plen == n && x.addr == addr) = true)
    ∧ (∃ (g t n : Nat) (addr : Bytes) (r : Ring) (j : Job) (s u : State), s.tableHeld g 0x24 = false ∧ s.Starts g 0x24 r j u ∧ u.managerSheet r.sheet = true ∧ t = tblTable j.first ∧ n = tblPlen j.first ∧ u.rd (TBL_DESC_TYPE t) = 3 ∧ plenOk u j.first = true ∧ 16 < n ∧ addr = clearBeyond n (tblKey j.first (u.keyLen t)) ∧ u.tables.hbm.lookup t (prefixKey n addr) = none ∧ u.prefixes < 8388608 ∧ (((u.sliceLengths t (sliceOf addr)).contains n = true ∨ (u.sliceLengths t (sliceOf addr)).length ≤ u.rd (TBL_DESC_LEN_MAX t))))
    ∧ (∃ (g t n : Nat) (addr : Bytes) (old : TEntry) (r : Ring) (j : Job) (s u : State), s.tableHeld g 0x24 = false ∧ s.Starts g 0x24 r j u ∧ u.managerSheet r.sheet = true ∧ t = tblTable j.first ∧ n = tblPlen j.first ∧ u.rd (TBL_DESC_TYPE t) = 3 ∧ plenOk u j.first = true ∧ 16 < n ∧ addr = clearBeyond n (tblKey j.first (u.keyLen t)) ∧ u.tables.hbm.lookup t (prefixKey n addr) = some old)
    ∧ (∃ (g t n : Nat) (addr : Bytes) (r : Ring) (j : Job) (s u : State), s.tableHeld g 0x25 = false ∧ s.Starts g 0x25 r j u ∧ u.managerSheet r.sheet = true ∧ t = tblTable j.first ∧ n = tblPlen j.first ∧ u.rd (TBL_DESC_TYPE t) = 3 ∧ plenOk u j.first = true ∧ 16 < n ∧ addr = clearBeyond n (tblKey j.first (u.keyLen t)) ∧ u.tables.hbm.lookup t (prefixKey n addr) ≠ none)
    ∧ (∃ (g t : Nat) (r : Ring) (j : Job) (s u : State), s.Starts g 0x26 r j u ∧ u.managerSheet r.sheet = true ∧ t = tblTable j.first ∧ u.rd (TBL_DESC_TYPE t) = 3) :=
  ⟨⟨5, 3, 16, [10, 7, 0, 0], ring 0 [job (tblEntry 0x24 3 16 [10, 7, 0, 0])], job (tblEntry 0x24 3 16 [10, 7, 0, 0]), withEntry 0 (tblEntry 0x24 3 16 [10, 7, 0, 0]) dev, begun 0x24 (withEntry 0 (tblEntry 0x24 3 16 [10, 7, 0, 0]) dev), by unfold State.Starts; decide +kernel⟩,
   ⟨5, 3, 8, [11, 0, 0, 0], ⟨3, 8, [11, 0, 0, 0], 79⟩, ring 0 [job (tblEntry 0x24 3 8 [11, 0, 0, 0])], job (tblEntry 0x24 3 8 [11, 0, 0, 0]), withEntry 0 (tblEntry 0x24 3 8 [11, 0, 0, 0]) tblDev, begun 0x24 (withEntry 0 (tblEntry 0x24 3 8 [11, 0, 0, 0]) tblDev), by unfold State.Starts; decide +kernel⟩,
   ⟨5, 3, 8, [11, 0, 0, 0], ring 0 [job (tblEntry 0x25 3 8 [11, 0, 0, 0])], job (tblEntry 0x25 3 8 [11, 0, 0, 0]), withEntry 0 (tblEntry 0x25 3 8 [11, 0, 0, 0]) tblDev, begun 0x25 (withEntry 0 (tblEntry 0x25 3 8 [11, 0, 0, 0]) tblDev), by unfold State.Starts; decide +kernel⟩,
   ⟨5, 3, 24, [10, 1, 3, 0], ring 0 [job (tblEntry 0x24 3 24 [10, 1, 3, 0])], job (tblEntry 0x24 3 24 [10, 1, 3, 0]), withEntry 0 (tblEntry 0x24 3 24 [10, 1, 3, 0]) tblDev, begun 0x24 (withEntry 0 (tblEntry 0x24 3 24 [10, 1, 3, 0]) tblDev), by unfold State.Starts; decide +kernel⟩,
   ⟨5, 3, 24, [10, 1, 2, 0], ⟨3, prefixKey 24 [10, 1, 2, 0], 78, 0, 0⟩, ring 0 [job (tblEntry 0x24 3 24 [10, 1, 2, 0])], job (tblEntry 0x24 3 24 [10, 1, 2, 0]), withEntry 0 (tblEntry 0x24 3 24 [10, 1, 2, 0]) tblDev, begun 0x24 (withEntry 0 (tblEntry 0x24 3 24 [10, 1, 2, 0]) tblDev), by unfold State.Starts; decide +kernel⟩,
   ⟨5, 3, 24, [10, 1, 2, 0], ring 0 [job (tblEntry 0x25 3 24 [10, 1, 2, 0])], job (tblEntry 0x25 3 24 [10, 1, 2, 0]), withEntry 0 (tblEntry 0x25 3 24 [10, 1, 2, 0]) tblDev, begun 0x25 (withEntry 0 (tblEntry 0x25 3 24 [10, 1, 2, 0]) tblDev), by unfold State.Starts; decide +kernel⟩,
   ⟨5, 3, ring 0 [job (tblEntry 0x26 3 0 [10, 1, 2, 9])], job (tblEntry 0x26 3 0 [10, 1, 2, 9]), withEntry 0 (tblEntry 0x26 3 0 [10, 1, 2, 9]) tblDev, begun 0x26 (withEntry 0 (tblEntry 0x26 3 0 [10, 1, 2, 9]) tblDev), by unfold State.Starts; decide +kernel⟩⟩

theorem test_meets_LearningCompletes :
    (∃ (g : Nat) (r : Ring) (j : Job) (s u : State), s.tableHeld g 0x27 = false ∧ s.Starts g 0x27 r j u ∧ u.managerSheet r.sheet = true ∧ u.rd (TBL_DESC_TYPE (tblTable j.first)) ≠ 0 ∧ u.bit (TBL_DESC_LEARN (tblTable j.first)) = true ∧ eBits j.first 12 0 18 ≠ 0)
    ∧ (∃ (n k : Nat) (v : BitVec 64) (s w : State), n ≠ 0 ∧ w = s.plainWrite (TBL_PROG n k) v ∧ w.progH n ≤ 8 ∧ (((w.rd (TBL_PROG_KIND n k) = 1 ∨ w.rd (TBL_PROG_KIND n k) = 2) → w.rd (TBL_PROG_KOFF n k) + w.keyLen (w.rd (TBL_PROG_TABLE n k)) ≤ 64)) ∧ ((w.rd (TBL_PROG_KIND n k) = 2 → w.bit (TBL_DESC_LEARN (w.rd (TBL_PROG_TABLE n k))) = true)))
    ∧ (∃ (t : Nat) (v : BitVec 64) (s : State), s.Wf ∧ t < 64 ∧ s.tableEntries t = 0 ∧ ((getField v 0 2 = 1 ∨ getField v 0 2 = 2 → getField v 2 6 ≠ 0 ∧ getField v 2 6 ≤ 48)) ∧ ((getField v 0 2 = 3 → s.lpmTables t < 4)) ∧ ((getField v 11 1 = 1 → getField v 0 2 = 1)))
    ∧ (∃ (v : BitVec 64) (s : State), s.Wf ∧ s.tables.die.used = 0 ∧ getField v 0 2 ≠ s.rd TBL_LEARN_CFG_SLOTS)
    ∧ (∃ (k : Nat) (q : LearnReq) (rest : List LearnReq) (pl : Placed) (p : Partition) (s u : State), tblGetD [] s.tables.queue k = q :: rest ∧ u = { s with tables := { s.tables with queue := tblSet [] s.tables.queue k rest } } ∧ (u.learned k).lookup q.table q.key = none ∧ u.learnFull k ⟨q.table, q.key, 0, 0, q.inlet⟩ = false ∧ (u.learned k).insert u.learnShape ⟨q.table, q.key, u.learnResult q.table q.inlet, seenOf (q.stamp.toNat / 65536), q.inlet⟩ = (pl, p) ∧ pl ≠ .failed)
    ∧ (∃ (k : Nat) (s : State), ((s.learned k).entries.filter s.aged).length ≠ 0) :=
  ⟨⟨5, ring 0 [job (mkEntry 0x27 7 1 [(8, 1, 4), (12, 4, 3)])], job (mkEntry 0x27 7 1 [(8, 1, 4), (12, 4, 3)]), withEntry 0 (mkEntry 0x27 7 1 [(8, 1, 4), (12, 4, 3)]) (dev), begun 0x27 (withEntry 0 (mkEntry 0x27 7 1 [(8, 1, 4), (12, 4, 3)]) (dev)), by unfold State.Starts; decide +kernel⟩,
   ⟨1, 0, 0, dev, dev.plainWrite (TBL_PROG 1 0) 0, by decide +kernel⟩,
   ⟨63, BitVec.ofNat 64 (1 + 48 * 4 + 2048 + 77 * 2 ^ 32), dev, by unfold State.Wf regsWf memoriesWf portTablesWf objectTablesWf; decide +kernel⟩,
   ⟨BitVec.ofNat 64 (((dev.rd TBL_LEARN_CFG_SLOTS + 1) % 4) + 300 * 4), dev, by unfold State.Wf regsWf memoriesWf portTablesWf objectTablesWf; decide +kernel⟩,
   ⟨0, ⟨4, [1, 2, 3, 4, 5, 6], 0, 0⟩, [], ((State.learned ({ ({ dev with tables := { dev.tables with queue := [(0, [⟨4, [1, 2, 3, 4, 5, 6], 0, 0⟩])] } }) with tables := { State.tables ({ dev with tables := { dev.tables with queue := [(0, [⟨4, [1, 2, 3, 4, 5, 6], 0, 0⟩])] } }) with queue := tblSet [] (State.tables ({ dev with tables := { dev.tables with queue := [(0, [⟨4, [1, 2, 3, 4, 5, 6], 0, 0⟩])] } })).queue 0 [] } }) 0).insert (State.learnShape ({ ({ dev with tables := { dev.tables with queue := [(0, [⟨4, [1, 2, 3, 4, 5, 6], 0, 0⟩])] } }) with tables := { State.tables ({ dev with tables := { dev.tables with queue := [(0, [⟨4, [1, 2, 3, 4, 5, 6], 0, 0⟩])] } }) with queue := tblSet [] (State.tables ({ dev with tables := { dev.tables with queue := [(0, [⟨4, [1, 2, 3, 4, 5, 6], 0, 0⟩])] } })).queue 0 [] } })) ⟨4, [1, 2, 3, 4, 5, 6], State.learnResult ({ ({ dev with tables := { dev.tables with queue := [(0, [⟨4, [1, 2, 3, 4, 5, 6], 0, 0⟩])] } }) with tables := { State.tables ({ dev with tables := { dev.tables with queue := [(0, [⟨4, [1, 2, 3, 4, 5, 6], 0, 0⟩])] } }) with queue := tblSet [] (State.tables ({ dev with tables := { dev.tables with queue := [(0, [⟨4, [1, 2, 3, 4, 5, 6], 0, 0⟩])] } })).queue 0 [] } }) 4 0, seenOf 0, 0⟩).1, ((State.learned ({ ({ dev with tables := { dev.tables with queue := [(0, [⟨4, [1, 2, 3, 4, 5, 6], 0, 0⟩])] } }) with tables := { State.tables ({ dev with tables := { dev.tables with queue := [(0, [⟨4, [1, 2, 3, 4, 5, 6], 0, 0⟩])] } }) with queue := tblSet [] (State.tables ({ dev with tables := { dev.tables with queue := [(0, [⟨4, [1, 2, 3, 4, 5, 6], 0, 0⟩])] } })).queue 0 [] } }) 0).insert (State.learnShape ({ ({ dev with tables := { dev.tables with queue := [(0, [⟨4, [1, 2, 3, 4, 5, 6], 0, 0⟩])] } }) with tables := { State.tables ({ dev with tables := { dev.tables with queue := [(0, [⟨4, [1, 2, 3, 4, 5, 6], 0, 0⟩])] } }) with queue := tblSet [] (State.tables ({ dev with tables := { dev.tables with queue := [(0, [⟨4, [1, 2, 3, 4, 5, 6], 0, 0⟩])] } })).queue 0 [] } })) ⟨4, [1, 2, 3, 4, 5, 6], State.learnResult ({ ({ dev with tables := { dev.tables with queue := [(0, [⟨4, [1, 2, 3, 4, 5, 6], 0, 0⟩])] } }) with tables := { State.tables ({ dev with tables := { dev.tables with queue := [(0, [⟨4, [1, 2, 3, 4, 5, 6], 0, 0⟩])] } }) with queue := tblSet [] (State.tables ({ dev with tables := { dev.tables with queue := [(0, [⟨4, [1, 2, 3, 4, 5, 6], 0, 0⟩])] } })).queue 0 [] } }) 4 0, seenOf 0, 0⟩).2, { dev with tables := { dev.tables with queue := [(0, [⟨4, [1, 2, 3, 4, 5, 6], 0, 0⟩])] } }, { ({ dev with tables := { dev.tables with queue := [(0, [⟨4, [1, 2, 3, 4, 5, 6], 0, 0⟩])] } }) with tables := { State.tables ({ dev with tables := { dev.tables with queue := [(0, [⟨4, [1, 2, 3, 4, 5, 6], 0, 0⟩])] } }) with queue := tblSet [] (State.tables ({ dev with tables := { dev.tables with queue := [(0, [⟨4, [1, 2, 3, 4, 5, 6], 0, 0⟩])] } })).queue 0 [] } }, by decide +kernel⟩,
   ⟨0, setFields [(TBL_LEARN_CFG_AGE_LIMIT, 10)] { dev with tables := { dev.tables with learned := [(0, ⟨[(0, { tentry 4 with seen := 100 })], []⟩)] } }, by decide +kernel⟩⟩

theorem test_meets_SwitchCommandsComplete :
    (∃ (g : Nat) (r : Ring) (j : Job) (s u : State), s.writeHeld 0x30 = false ∧ s.Starts g 0x30 r j u ∧ u.managerSheet r.sheet = true ∧ swIndex j.first ≤ 4095 ∧ swIndex j.first ≠ 0 ∧ actionOk (cleanAction (swData j.first)) = true ∧ u.actionNames (cleanAction (swData j.first)) = true ∧ u.actionReach (u.sheetPortD r.sheet) (cleanAction (swData j.first)) = true)
    ∧ (∃ (g : Nat) (r : Ring) (j : Job) (s u : State), s.Starts g 0x31 r j u ∧ u.managerSheet r.sheet = true ∧ swIndex j.first ≤ 4095)
    ∧ (∃ (g : Nat) (r : Ring) (j : Job) (s u : State), s.writeHeld 0x32 = false ∧ s.Starts g 0x32 r j u ∧ u.managerSheet r.sheet = true ∧ swIndex j.first ≤ 2047 ∧ swPart j.first ≤ 3)
    ∧ (∃ (g : Nat) (r : Ring) (j : Job) (s u : State), s.writeHeld 0x33 = false ∧ s.Starts g 0x33 r j u ∧ u.managerSheet r.sheet = true ∧ swIndex j.first ≤ 63 ∧ swPart j.first ≤ 7 ∧ (List.range 32).any (fun k => psMember j.first k != 0x7F && !u.netPresent (psMember j.first k)) = false)
    ∧ (∃ (g : Nat) (r : Ring) (j : Job) (s u : State), s.writeHeld 0x34 = false ∧ s.Starts g 0x34 r j u ∧ u.managerSheet r.sheet = true ∧ swIndex j.first ≤ 4095 ∧ (List.range 128).any (fun o => (BitVec.ofNat 128 (eN j.first 16 16)).getLsbD o && !u.outletExists o) = false)
    ∧ (∃ (g : Nat) (r : Ring) (j : Job) (s u : State), s.Starts g 0x35 r j u ∧ u.managerSheet r.sheet = true ∧ swIndex j.first ≤ 127) :=
  ⟨⟨5, ring 0 [job (mkEntry 0x30 7 1 [(8, 2, 4095), (16, 32, actionReset.toNat)])], job (mkEntry 0x30 7 1 [(8, 2, 4095), (16, 32, actionReset.toNat)]), withEntry 0 (mkEntry 0x30 7 1 [(8, 2, 4095), (16, 32, actionReset.toNat)]) (dev), begun 0x30 (withEntry 0 (mkEntry 0x30 7 1 [(8, 2, 4095), (16, 32, actionReset.toNat)]) (dev)), by unfold State.Starts; decide +kernel⟩,
   ⟨5, ring 0 [job (mkEntry 0x31 7 1 [(8, 2, 4095)])], job (mkEntry 0x31 7 1 [(8, 2, 4095)]), withEntry 0 (mkEntry 0x31 7 1 [(8, 2, 4095)]) (dev), begun 0x31 (withEntry 0 (mkEntry 0x31 7 1 [(8, 2, 4095)]) (dev)), by unfold State.Starts; decide +kernel⟩,
   ⟨5, ring 0 [job (mkEntry 0x32 7 1 [(8, 2, 2047), (10, 1, 3)])], job (mkEntry 0x32 7 1 [(8, 2, 2047), (10, 1, 3)]), withEntry 0 (mkEntry 0x32 7 1 [(8, 2, 2047), (10, 1, 3)]) (dev), begun 0x32 (withEntry 0 (mkEntry 0x32 7 1 [(8, 2, 2047), (10, 1, 3)]) (dev)), by unfold State.Starts; decide +kernel⟩,
   ⟨5, ring 0 [job (mkEntry 0x33 7 1 [(8, 2, 63), (10, 1, 7), (16, 32, 0)])], job (mkEntry 0x33 7 1 [(8, 2, 63), (10, 1, 7), (16, 32, 0)]), withEntry 0 (mkEntry 0x33 7 1 [(8, 2, 63), (10, 1, 7), (16, 32, 0)]) (dev), begun 0x33 (withEntry 0 (mkEntry 0x33 7 1 [(8, 2, 63), (10, 1, 7), (16, 32, 0)]) (dev)), by unfold State.Starts; decide +kernel⟩,
   ⟨5, ring 0 [job (mkEntry 0x34 7 1 [(8, 2, 4095), (16, 16, 1)])], job (mkEntry 0x34 7 1 [(8, 2, 4095), (16, 16, 1)]), withEntry 0 (mkEntry 0x34 7 1 [(8, 2, 4095), (16, 16, 1)]) (dev), begun 0x34 (withEntry 0 (mkEntry 0x34 7 1 [(8, 2, 4095), (16, 16, 1)]) (dev)), by unfold State.Starts; decide +kernel⟩,
   ⟨5, ring 0 [job (mkEntry 0x35 7 1 [(8, 2, 127), (10, 1, 64)])], job (mkEntry 0x35 7 1 [(8, 2, 127), (10, 1, 64)]), withEntry 0 (mkEntry 0x35 7 1 [(8, 2, 127), (10, 1, 64)]) (dev), begun 0x35 (withEntry 0 (mkEntry 0x35 7 1 [(8, 2, 127), (10, 1, 64)]) (dev)), by unfold State.Starts; decide +kernel⟩⟩

theorem test_meets_StoreAndAlternatesComplete :
    (∃ (k : Nat) (s u : State), k ≤ 15 ∧ u = raise SWC_EVENT_STORE_FAULT { s with swc := { s.swc with draining := if s.activeGroups.contains k then s.swc.draining ++ [k] else s.swc.draining } })
    ∧ (∃ (k : Nat) (s : State), s.swc.draining.find? (fun g => !s.groupHolds g) = some k)
    ∧ (∃ (o : Nat) (v : BitVec 64) (s : State), o ≤ 63 ∧ s.altRefused o v = false ∧ getField v 7 1 = 0)
    ∧ (∃ (o : Nat) (s : State), o ≤ 63 ∧ s.bit (SWC_ALT_PINNED o) = true ∧ s.netState o = 5)
    ∧ (∃ (v o : Nat) (p : Packet) (rest : List Packet) (s : State), tblGetD [] s.voqs v = p :: rest ∧ p.marker = some o) :=
  ⟨⟨15, dev, raise SWC_EVENT_STORE_FAULT { dev with swc := { dev.swc with draining := dev.swc.draining ++ [15] } }, by decide +kernel⟩,
   ⟨15, { dev with swc := { dev.swc with draining := dev.swc.draining ++ [15] } }, by decide +kernel⟩,
   ⟨63, 0, dev, by decide +kernel⟩,
   ⟨0, setFields [(SWC_ALT_PINNED 0, 1), (SWC_ALT_TARGET 0, 3)] dev, by decide +kernel⟩,
   ⟨0, 0, { packet with marker := some 0 }, [], { dev with voqs := [(0, [{ packet with marker := some 0 }])] }, by decide +kernel⟩⟩

theorem test_meets_CipherCommandsComplete :
    (∃ (g n : Nat) (r : Ring) (j : Job) (s u : State), s.Starts g 0x40 r j u ∧ u.namedSheet r.sheet (eN j.first 8 2) = some n ∧ u.paramsOk (BitVec.ofNat 32 (eN j.first 16 4)) = true ∧ eN j.first 24 8 % 64 = 0 ∧ u.usage n 3 < u.limit n 3 ∧ u.drbgRuns = true)
    ∧ (∃ (g n : Nat) (r : Ring) (j : Job) (x : SA) (s u : State), s.Starts g 0x41 r j u ∧ u.namedSheet r.sheet (eN j.first 8 2) = some n ∧ tblGet u.sas (saNumber j.first) = some x ∧ x.sheet = n ∧ x.state ≠ .retiring ∧ u.saUsers (saNumber j.first) = 0)
    ∧ (∃ (k : Nat) (x : SA) (s : State), tblGet s.sas k = some x ∧ x.state = .retiring ∧ s.saPrepared k = false)
    ∧ (∃ (g n : Nat) (r : Ring) (j : Job) (x : SA) (s u : State), s.Starts g 0x42 r j u ∧ u.namedSheet r.sheet (eN j.first 8 2) = some n ∧ tblGet u.sas (saNumber j.first) = some x ∧ x.sheet = n ∧ x.state ≠ .retiring ∧ eN j.first 24 8 % 64 = 0 ∧ u.drbgRuns = true)
    ∧ (∃ (g n : Nat) (r : Ring) (j : Job) (x : SA) (s u : State), s.Starts g 0x43 r j u ∧ u.namedSheet r.sheet (eN j.first 8 2) = some n ∧ tblGet u.sas (saNumber j.first) = some x ∧ x.sheet = n)
    ∧ (∃ (g n : Nat) (r : Ring) (j : Job) (s u : State), s.Starts g 0x44 r j u ∧ u.namedSheet r.sheet (eN j.first 8 2) = some n ∧ eN j.first 24 8 % 64 = 0 ∧ eN j.first 32 4 % 64 = 0 ∧ 64 ≤ eN j.first 32 4 ∧ eN j.first 32 4 ≤ 4096 ∧ u.drbgRuns = true) :=
  ⟨⟨5, 1, ring 0 [job (mkEntry 0x40 7 1 [(8, 2, 1), (16, 4, 4 + 255 * 2 ^ 24), (24, 8, 64)])], job (mkEntry 0x40 7 1 [(8, 2, 1), (16, 4, 4 + 255 * 2 ^ 24), (24, 8, 64)]), withEntry 0 (mkEntry 0x40 7 1 [(8, 2, 1), (16, 4, 4 + 255 * 2 ^ 24), (24, 8, 64)]) (saDev sa), begun 0x40 (withEntry 0 (mkEntry 0x40 7 1 [(8, 2, 1), (16, 4, 4 + 255 * 2 ^ 24), (24, 8, 64)]) (saDev sa)), by unfold State.Starts; decide +kernel⟩,
   ⟨5, 1, ring 0 [job (mkEntry 0x41 7 1 [(8, 2, 1), (12, 4, 8)])], job (mkEntry 0x41 7 1 [(8, 2, 1), (12, 4, 8)]), sa, withEntry 0 (mkEntry 0x41 7 1 [(8, 2, 1), (12, 4, 8)]) (saDev sa), begun 0x41 (withEntry 0 (mkEntry 0x41 7 1 [(8, 2, 1), (12, 4, 8)]) (saDev sa)), by unfold State.Starts; decide +kernel⟩,
   ⟨8, { sa with state := .retiring, waiter := some (5, 0) }, saDev { sa with state := .retiring, waiter := some (5, 0) }, by decide +kernel⟩,
   ⟨5, 1, ring 0 [job (mkEntry 0x42 7 1 [(8, 2, 0xFFFF), (12, 4, 8), (24, 8, 64)])], job (mkEntry 0x42 7 1 [(8, 2, 0xFFFF), (12, 4, 8), (24, 8, 64)]), sa, withEntry 0 (mkEntry 0x42 7 1 [(8, 2, 0xFFFF), (12, 4, 8), (24, 8, 64)]) (saDev sa), begun 0x42 (withEntry 0 (mkEntry 0x42 7 1 [(8, 2, 0xFFFF), (12, 4, 8), (24, 8, 64)]) (saDev sa)), by unfold State.Starts; decide +kernel⟩,
   ⟨5, 1, ring 0 [job (mkEntry 0x43 7 1 [(8, 2, 1), (12, 4, 8)])], job (mkEntry 0x43 7 1 [(8, 2, 1), (12, 4, 8)]), sa, withEntry 0 (mkEntry 0x43 7 1 [(8, 2, 1), (12, 4, 8)]) (saDev sa), begun 0x43 (withEntry 0 (mkEntry 0x43 7 1 [(8, 2, 1), (12, 4, 8)]) (saDev sa)), by unfold State.Starts; decide +kernel⟩,
   ⟨5, 1, ring 0 [job (mkEntry 0x44 7 1 [(8, 2, 1), (24, 8, 64), (32, 4, 4096)])], job (mkEntry 0x44 7 1 [(8, 2, 1), (24, 8, 64), (32, 4, 4096)]), withEntry 0 (mkEntry 0x44 7 1 [(8, 2, 1), (24, 8, 64), (32, 4, 4096)]) (saDev sa), begun 0x44 (withEntry 0 (mkEntry 0x44 7 1 [(8, 2, 1), (24, 8, 64), (32, 4, 4096)]) (saDev sa)), by unfold State.Starts; decide +kernel⟩⟩

theorem test_meets_EntropyAndKeysComplete :
    (∃ (k : Nat) (s : State), s.cipher.sources.contains k = true ∧ s.cipher.sources.filter (· != k) = [])
    ∧ (∃ (k : Nat) (s u : State), s.cipher.sources.contains k = true ∧ s.cipher.sources.filter (· != k) ≠ [] ∧ u = (logFault 0x08 k false false false { s with cipher := { s.cipher with sources := s.cipher.sources.filter (· != k) } }).wr CPH_STATUS_ES_SINGLE 1)
    ∧ (∃ (s : State), s.cipher.sources ≠ [])
    ∧ (∃ (s : State), s.bit CPH_STATUS_REWRAP = true) :=
  ⟨⟨1, { dev with cipher := { dev.cipher with sources := [1] } }, by decide +kernel⟩,
   ⟨1, { dev with cipher := { dev.cipher with sources := [0, 1] } }, (logFault 0x08 1 false false false { ({ dev with cipher := { dev.cipher with sources := [0, 1] } }) with cipher := { State.cipher ({ dev with cipher := { dev.cipher with sources := [0, 1] } }) with sources := (State.cipher ({ dev with cipher := { dev.cipher with sources := [0, 1] } })).sources.filter (· != 1) } }).wr CPH_STATUS_ES_SINGLE 1, by decide +kernel⟩,
   ⟨dev, by decide +kernel⟩,
   ⟨setFields [(CPH_STATUS_REWRAP, 1)] dev, by decide +kernel⟩⟩

theorem test_meets_ConnectionCommandsComplete :
    (∃ (g n sr rr : Nat) (r : Ring) (j : Job) (s u : State), s.bit RLT_STATUS_READY = true ∧ s.Starts g 0x50 r j u ∧ u.namedSheet r.sheet (eN j.first 8 2) = some n ∧ eBits j.first 10 1 3 ≤ 4 ∧ eN j.first 20 2 ≠ 0 ∧ eN j.first 22 2 ≠ 0 ∧ eN j.first 24 8 % 64 = 0 ∧ u.messageRing n (eN j.first 16 2) = some sr ∧ u.messageRing n (eN j.first 18 2) = some rr ∧ u.usage n 4 < u.limit n 4)
    ∧ (∃ (g n c : Nat) (r : Ring) (j : Job) (x y : Conn) (s u : State), s.bit RLT_STATUS_READY = true ∧ s.Starts g 0x51 r j u ∧ u.namedSheet r.sheet (eN j.first 8 2) = some n ∧ u.namedConn n (eN j.first 12 4) = .inl (c, x) ∧ y = { x with closers := x.closers ++ [(g, j.idx)] })
    ∧ (∃ (g n c : Nat) (r : Ring) (j : Job) (x y : Conn) (s u : State), s.bit RLT_STATUS_READY = true ∧ s.Starts g 0x51 r j u ∧ u.namedSheet r.sheet (eN j.first 8 2) = some n ∧ u.namedConn n (eN j.first 12 4) = .inl (c, x) ∧ y = { x with closers := x.closers ++ [(g, j.idx)] })
    ∧ (∃ (c : Nat) (x : Conn) (s : State), s.conn? c = some x ∧ x.state = .closing ∧ x.sends = [])
    ∧ (∃ (g n c : Nat) (r : Ring) (j : Job) (x : Conn) (s u : State), s.bit RLT_STATUS_READY = true ∧ s.Starts g 0x52 r j u ∧ u.namedSheet r.sheet (eN j.first 8 2) = some n ∧ u.namedConn n (eN j.first 12 4) = .inl (c, x))
    ∧ (∃ (g n c : Nat) (r : Ring) (j : Job) (x : Conn) (s u : State), s.bit RLT_STATUS_READY = true ∧ s.Starts g 0x53 r j u ∧ u.namedSheet r.sheet (eN j.first 8 2) = some n ∧ u.namedConn n (eN j.first 12 4) = .inl (c, x) ∧ eN j.first 18 2 ≠ 0 ∧ ((eBits j.first 16 4 1 = 1 → ∀ k, k < 16 → k ≠ eBits j.first 16 0 4 → (x.path k).enabled = true → (x.path k).sport ≠ eN j.first 18 2)) ∧ u.pathContract n (eN j.first 20 2) = none ∧ ((eBits j.first 16 4 1 = 1 ∨ (x.path (eBits j.first 16 0 4)).enabled = false ∨ ∃ k, k < 16 ∧ k ≠ eBits j.first 16 0 4 ∧ (x.path k).enabled = true)))
    ∧ (∃ (g n c : Nat) (r : Ring) (j : Job) (x : Conn) (s u : State), s.bit RLT_STATUS_READY = true ∧ s.Starts g 0x53 r j u ∧ u.namedSheet r.sheet (eN j.first 8 2) = some n ∧ u.namedConn n (eN j.first 12 4) = .inl (c, x) ∧ eN j.first 18 2 ≠ 0 ∧ ((eBits j.first 16 4 1 = 1 → ∀ k, k < 16 → k ≠ eBits j.first 16 0 4 → (x.path k).enabled = true → (x.path k).sport ≠ eN j.first 18 2)) ∧ u.pathContract n (eN j.first 20 2) = none ∧ ((eBits j.first 16 4 1 = 1 ∨ (x.path (eBits j.first 16 0 4)).enabled = false ∨ ∃ k, k < 16 ∧ k ≠ eBits j.first 16 0 4 ∧ (x.path k).enabled = true)))
    ∧ (∃ (g n c : Nat) (r : Ring) (j : Job) (x : Conn) (s u : State), s.bit RLT_STATUS_READY = true ∧ s.Starts g 0x5C r j u ∧ u.namedSheet r.sheet (eN j.first 8 2) = some n ∧ u.namedConn n (eN j.first 12 4) = .inl (c, x)) :=
  ⟨⟨5, 1, 6, 6, ring 0 [job (mkEntry 0x50 7 1 [(8, 2, 1), (10, 1, 8), (16, 2, 4), (18, 2, 4), (20, 2, 50000), (22, 2, 4791), (24, 8, 64)])], job (mkEntry 0x50 7 1 [(8, 2, 1), (10, 1, 8), (16, 2, 4), (18, 2, 4), (20, 2, 50000), (22, 2, 4791), (24, 8, 64)]), { withEntry 0 (mkEntry 0x50 7 1 [(8, 2, 1), (10, 1, 8), (16, 2, 4), (18, 2, 4), (20, 2, 50000), (22, 2, 4791), (24, 8, 64)]) (connDev conn []) with rings := [(5, ring 0 [job (mkEntry 0x50 7 1 [(8, 2, 1), (10, 1, 8), (16, 2, 4), (18, 2, 4), (20, 2, 50000), (22, 2, 4791), (24, 8, 64)])]), (6, { ring 4 [] with localNo := 4 })] }, begun 0x50 ({ withEntry 0 (mkEntry 0x50 7 1 [(8, 2, 1), (10, 1, 8), (16, 2, 4), (18, 2, 4), (20, 2, 50000), (22, 2, 4791), (24, 8, 64)]) (connDev conn []) with rings := [(5, ring 0 [job (mkEntry 0x50 7 1 [(8, 2, 1), (10, 1, 8), (16, 2, 4), (18, 2, 4), (20, 2, 50000), (22, 2, 4791), (24, 8, 64)])]), (6, { ring 4 [] with localNo := 4 })] }), by unfold State.Starts; decide +kernel⟩,
   ⟨5, 1, 9, ring 0 [job (mkEntry 0x51 7 1 [(8, 2, 1), (12, 4, 9)])], job (mkEntry 0x51 7 1 [(8, 2, 1), (12, 4, 9)]), conn, { conn with closers := [(5, 0)] }, withEntry 0 (mkEntry 0x51 7 1 [(8, 2, 1), (12, 4, 9)]) (connDev conn []), begun 0x51 (withEntry 0 (mkEntry 0x51 7 1 [(8, 2, 1), (12, 4, 9)]) (connDev conn [])), by unfold State.Starts; decide +kernel⟩,
   ⟨5, 1, 9, ring 0 [job (mkEntry 0x51 7 1 [(8, 2, 1), (12, 4, 9)])], job (mkEntry 0x51 7 1 [(8, 2, 1), (12, 4, 9)]), { conn with state := .closing }, { conn with state := .closing, closers := [(5, 0)] }, withEntry 0 (mkEntry 0x51 7 1 [(8, 2, 1), (12, 4, 9)]) (connDev { conn with state := .closing } []), begun 0x51 (withEntry 0 (mkEntry 0x51 7 1 [(8, 2, 1), (12, 4, 9)]) (connDev { conn with state := .closing } [])), by unfold State.Starts; decide +kernel⟩,
   ⟨9, { conn with state := .closing }, connDev { conn with state := .closing } [], by decide +kernel⟩,
   ⟨5, 1, 9, ring 0 [job (mkEntry 0x52 7 1 [(8, 2, 1), (12, 4, 9)])], job (mkEntry 0x52 7 1 [(8, 2, 1), (12, 4, 9)]), conn, withEntry 0 (mkEntry 0x52 7 1 [(8, 2, 1), (12, 4, 9)]) (connDev conn []), begun 0x52 (withEntry 0 (mkEntry 0x52 7 1 [(8, 2, 1), (12, 4, 9)]) (connDev conn [])), by unfold State.Starts; decide +kernel⟩,
   ⟨5, 1, 9, ring 0 [job (mkEntry 0x53 7 1 [(8, 2, 1), (12, 4, 9), (16, 1, 31), (18, 2, 50001), (20, 2, 0xFFFF)])], job (mkEntry 0x53 7 1 [(8, 2, 1), (12, 4, 9), (16, 1, 31), (18, 2, 50001), (20, 2, 0xFFFF)]), conn, withEntry 0 (mkEntry 0x53 7 1 [(8, 2, 1), (12, 4, 9), (16, 1, 31), (18, 2, 50001), (20, 2, 0xFFFF)]) (connDev conn []), begun 0x53 (withEntry 0 (mkEntry 0x53 7 1 [(8, 2, 1), (12, 4, 9), (16, 1, 31), (18, 2, 50001), (20, 2, 0xFFFF)]) (connDev conn [])), ⟨by decide +kernel, by unfold State.Starts; decide +kernel, by decide +kernel, by decide +kernel, by decide +kernel, by intro _ k hk; interval_cases k <;> decide +kernel, by decide +kernel, Or.inl (by decide +kernel)⟩⟩,
   ⟨5, 1, 9, ring 0 [job (mkEntry 0x53 7 1 [(8, 2, 1), (12, 4, 9), (16, 1, 15), (18, 2, 49152 + 1), (20, 2, 0xFFFF)])], job (mkEntry 0x53 7 1 [(8, 2, 1), (12, 4, 9), (16, 1, 15), (18, 2, 49152 + 1), (20, 2, 0xFFFF)]), conn, withEntry 0 (mkEntry 0x53 7 1 [(8, 2, 1), (12, 4, 9), (16, 1, 15), (18, 2, 49152 + 1), (20, 2, 0xFFFF)]) (connDev conn []), begun 0x53 (withEntry 0 (mkEntry 0x53 7 1 [(8, 2, 1), (12, 4, 9), (16, 1, 15), (18, 2, 49152 + 1), (20, 2, 0xFFFF)]) (connDev conn [])), ⟨by decide +kernel, by unfold State.Starts; decide +kernel, by decide +kernel, by decide +kernel, by decide +kernel, fun h => absurd h (by decide +kernel), by decide +kernel, Or.inr (Or.inl (by decide +kernel))⟩⟩,
   ⟨5, 1, 9, ring 0 [job (mkEntry 0x5C 7 1 [(8, 2, 1), (10, 1, 1), (12, 4, 9)])], job (mkEntry 0x5C 7 1 [(8, 2, 1), (10, 1, 1), (12, 4, 9)]), conn, withEntry 0 (mkEntry 0x5C 7 1 [(8, 2, 1), (10, 1, 1), (12, 4, 9)]) (connDev conn []), begun 0x5C (withEntry 0 (mkEntry 0x5C 7 1 [(8, 2, 1), (10, 1, 1), (12, 4, 9)]) (connDev conn [])), by unfold State.Starts; decide +kernel⟩⟩

theorem test_meets_SendingAndPathTimersComplete :
    (∃ (g c path : Nat) (data : MemResult) (bs : Bytes) (r : Ring) (j : Job) (x : Conn) (m : SendMsg) (s u : State), s.startable g isSend = some (r, j) ∧ s.messageRefusal g r j true = .inl (c, x) ∧ x.state = .opened ∧ s.releasePath x = some path ∧ x.sendCount < 64 ∧ x.queue = [] ∧ s.dataStopped x path = false ∧ beginJob g isSend (some .msg) s = (some (r, j), u) ∧ m = ⟨x.nextMsn, some (g, j.idx), eN j.first 12 4, 0, 0, 0, [], none, [], eN j.first 16 8⟩ ∧ payloadFor x.mtu m 0 data = .inl bs)
    ∧ (∃ (c path : Nat) (data : MemResult) (bs : Bytes) (k : OutPkt) (rest : List OutPkt) (x : Conn) (m : SendMsg) (s : State), s.conn? c = some x ∧ x.queue = k :: rest ∧ s.releasePath x = some path ∧ x.active = true ∧ s.dataStopped x path = false ∧ x.sending k.msn = some m ∧ payloadFor x.mtu m k.idx data = .inl bs)
    ∧ (∃ (c path : Nat) (x : Conn) (s : State), s.conn? c = some x ∧ (x.path path).enabled = true ∧ (x.path path).contract = none)
    ∧ (∃ (c msn : Nat) (x : Conn) (m : SendMsg) (s : State), s.conn? c = some x ∧ x.sending (BitVec.ofNat 32 msn) = some m)
    ∧ (∃ (c msn : Nat) (x : Conn) (m : SendMsg) (s : State), s.conn? c = some x ∧ x.sending (BitVec.ofNat 32 msn) = some m ∧ x.active = true ∧ x.queue.any (fun q => q.msn == BitVec.ofNat 32 msn) = false ∧ m.retry = [] ∧ m.polls < s.rd RLT_TIMERS_POLL_TRIES)
    ∧ (∃ (c path : Nat) (x : Conn) (s : State), s.conn? c = some x ∧ ((x.state = .armed ∧ path = 0 ∨ x.active = true ∧ (x.path path).enabled = true ∧ (x.path path).up = false)))
    ∧ (∃ (c path : Nat) (x : Conn) (s : State), s.conn? c = some x ∧ ((x.state = .armed ∧ path = 0 ∨ x.active = true ∧ (x.path path).enabled = true ∧ (x.path path).up = false)))
    ∧ (∃ (c : Nat) (x : Conn) (s : State), s.conn? c = some x ∧ x.state = .armed)
    ∧ (∃ (c path : Nat) (x : Conn) (s : State), s.conn? c = some x ∧ x.active = true ∧ (x.path path).enabled = true ∧ (x.path path).up = true ∧ (x.path path).psn ≠ (x.path path).seen + 1)
    ∧ (∃ (c : Nat) (x : Conn) (s : State), s.conn? c = some x ∧ x.state = .opened ∧ ((∀ t ∈ x.paths, t.2.enabled = true → t.2.up = false))) :=
  ⟨⟨5, 9, 0, .ok [], fitTo 100 [], ring 4 [job (mkEntry 0x90 7 1 [(8, 4, 9), (12, 4, 100), (16, 8, 0x9000)])], job (mkEntry 0x90 7 1 [(8, 4, 9), (12, 4, 100), (16, 8, 0x9000)]), conn, ⟨3, some (5, 0), 100, 0, 0, 0, [], none, [], 0x9000⟩, withEntry 4 (mkEntry 0x90 7 1 [(8, 4, 9), (12, 4, 100), (16, 8, 0x9000)]) (connDev conn []), (beginJob 5 isSend (some .msg) (withEntry 4 (mkEntry 0x90 7 1 [(8, 4, 9), (12, 4, 100), (16, 8, 0x9000)]) (connDev conn []))).2, by decide +kernel⟩,
   ⟨9, 0, .ok [], fitTo 100 [], ⟨2, 0, true⟩, [], { conn with sends := [sending], queue := [⟨2, 0, true⟩] }, sending, connDev { conn with sends := [sending], queue := [⟨2, 0, true⟩] } [], by decide +kernel⟩,
   ⟨9, 0, conn, connDev conn [], by decide +kernel⟩,
   ⟨9, 2, { conn with sends := [sending] }, sending, connDev { conn with sends := [sending] } [], by decide +kernel⟩,
   ⟨9, 2, { conn with sends := [sending] }, sending, setFields [(RLT_TIMERS_POLL_TRIES, 3)] (connDev { conn with sends := [sending] } []), by decide +kernel⟩,
   ⟨9, 0, { conn with state := .armed }, connDev { conn with state := .armed } [], by decide +kernel⟩,
   ⟨9, 0, { conn with paths := [(0, { TxPath.none with enabled := true, up := false })] }, connDev { conn with paths := [(0, { TxPath.none with enabled := true, up := false })] } [], by decide +kernel⟩,
   ⟨9, { conn with state := .armed }, connDev { conn with state := .armed } [], by decide +kernel⟩,
   ⟨9, 0, { conn with paths := [(0, { TxPath.none with enabled := true, psn := 4, seen := 1 })] }, connDev { conn with paths := [(0, { TxPath.none with enabled := true, psn := 4, seen := 1 })] } [], by decide +kernel⟩,
   ⟨9, { conn with paths := [(0, { TxPath.none with enabled := true, up := false })] }, connDev { conn with paths := [(0, { TxPath.none with enabled := true, up := false })] } [], by decide +kernel⟩⟩

theorem test_meets_ControlPacketsComplete :
    (∃ (c : Nat) (x y : Conn) (h : RltHdr) (s u v : State), s.Hands .ack c x h u ∧ v = restartPolls c (fun _ => true) u ∧ v.conn? c = some y)
    ∧ (∃ (c : Nat) (x : Conn) (h : RltHdr) (m : SendMsg) (s u : State), s.Hands .nak c x h u ∧ x.sending (BitVec.ofNat 32 (word32 h.body 0)) = some m ∧ byteAt h.body 4 = 2)
    ∧ (∃ (c : Nat) (x : Conn) (h : RltHdr) (m : SendMsg) (s u : State), s.Hands .rereq c x h u ∧ x.sending (BitVec.ofNat 32 (word32 h.body 0)) = some m)
    ∧ (∃ (c : Nat) (x : Conn) (h : RltHdr) (s u : State), s.Hands .probe c x h u)
    ∧ (∃ (c : Nat) (x y : Conn) (h : RltHdr) (s u : State), s.Hands .probeAck c x h u ∧ u.conn? c = some y ∧ y.state = .armed)
    ∧ (∃ (c : Nat) (x y : Conn) (h : RltHdr) (s u : State), s.Hands .probeAck c x h u ∧ u.conn? c = some y ∧ y.state ≠ .armed ∧ (y.path h.path).enabled = true ∧ (y.path h.path).up = false)
    ∧ (∃ (c : Nat) (x : Conn) (h : RltHdr) (s u : State), s.Hands .close c x h u ∧ ((x.state = .armed ∨ x.state = .opened))) :=
  ⟨⟨9, conn, ((State.conn? (restartPolls 9 (fun _ => true) (rxTaken (conn) .ack (List.replicate 12 0))) 9).getD conn), parseRlt (rltBytes (RltType.ack).code (List.replicate 12 0)), rxDev (conn) .ack (List.replicate 12 0), rxTaken (conn) .ack (List.replicate 12 0), restartPolls 9 (fun _ => true) (rxTaken (conn) .ack (List.replicate 12 0)), by unfold State.Hands; exact ⟨⟨rltPacket (RltType.ack).code (List.replicate 12 0), by decide +kernel, by decide +kernel, by decide +kernel, by decide +kernel, by decide +kernel, by decide +kernel, by decide +kernel, rfl⟩, rfl, by decide +kernel⟩⟩,
   ⟨9, { conn with sends := [sending] }, parseRlt (rltBytes (RltType.nak).code [0, 0, 0, 2, 2]), sending, rxDev ({ conn with sends := [sending] }) .nak [0, 0, 0, 2, 2], rxTaken ({ conn with sends := [sending] }) .nak [0, 0, 0, 2, 2], by unfold State.Hands; exact ⟨⟨rltPacket (RltType.nak).code [0, 0, 0, 2, 2], by decide +kernel, by decide +kernel, by decide +kernel, by decide +kernel, by decide +kernel, by decide +kernel, by decide +kernel, rfl⟩, by decide +kernel⟩⟩,
   ⟨9, { conn with sends := [sending] }, parseRlt (rltBytes (RltType.rereq).code [0, 0, 0, 2, 0, 0, 0, 0]), sending, rxDev ({ conn with sends := [sending] }) .rereq [0, 0, 0, 2, 0, 0, 0, 0], rxTaken ({ conn with sends := [sending] }) .rereq [0, 0, 0, 2, 0, 0, 0, 0], by unfold State.Hands; exact ⟨⟨rltPacket (RltType.rereq).code [0, 0, 0, 2, 0, 0, 0, 0], by decide +kernel, by decide +kernel, by decide +kernel, by decide +kernel, by decide +kernel, by decide +kernel, by decide +kernel, rfl⟩, by decide +kernel⟩⟩,
   ⟨9, { conn with state := .armed }, parseRlt (rltBytes (RltType.probe).code [0, 0, 0, 2, 0, 0, 0, 0]), rxDev ({ conn with state := .armed }) .probe [0, 0, 0, 2, 0, 0, 0, 0], rxTaken ({ conn with state := .armed }) .probe [0, 0, 0, 2, 0, 0, 0, 0], by unfold State.Hands; exact ⟨rltPacket (RltType.probe).code [0, 0, 0, 2, 0, 0, 0, 0], by decide +kernel, by decide +kernel, by decide +kernel, by decide +kernel, by decide +kernel, by decide +kernel, by decide +kernel, rfl⟩⟩,
   ⟨9, { conn with state := .armed }, ((State.conn? (rxTaken ({ conn with state := .armed }) .probeAck [0, 0, 0, 2, 0, 0, 0, 0]) 9).getD conn), parseRlt (rltBytes (RltType.probeAck).code [0, 0, 0, 2, 0, 0, 0, 0]), rxDev ({ conn with state := .armed }) .probeAck [0, 0, 0, 2, 0, 0, 0, 0], rxTaken ({ conn with state := .armed }) .probeAck [0, 0, 0, 2, 0, 0, 0, 0], by unfold State.Hands; exact ⟨⟨rltPacket (RltType.probeAck).code [0, 0, 0, 2, 0, 0, 0, 0], by decide +kernel, by decide +kernel, by decide +kernel, by decide +kernel, by decide +kernel, by decide +kernel, by decide +kernel, rfl⟩, by decide +kernel, by decide +kernel⟩⟩,
   ⟨9, { conn with paths := [(0, { TxPath.none with enabled := true, up := false })] }, ((State.conn? (rxTaken ({ conn with paths := [(0, { TxPath.none with enabled := true, up := false })] }) .probeAck [0, 0, 0, 2, 0, 0, 0, 0]) 9).getD conn), parseRlt (rltBytes (RltType.probeAck).code [0, 0, 0, 2, 0, 0, 0, 0]), rxDev ({ conn with paths := [(0, { TxPath.none with enabled := true, up := false })] }) .probeAck [0, 0, 0, 2, 0, 0, 0, 0], rxTaken ({ conn with paths := [(0, { TxPath.none with enabled := true, up := false })] }) .probeAck [0, 0, 0, 2, 0, 0, 0, 0], by unfold State.Hands; exact ⟨⟨rltPacket (RltType.probeAck).code [0, 0, 0, 2, 0, 0, 0, 0], by decide +kernel, by decide +kernel, by decide +kernel, by decide +kernel, by decide +kernel, by decide +kernel, by decide +kernel, rfl⟩, by decide +kernel, by decide +kernel, by decide +kernel, by decide +kernel⟩⟩,
   ⟨9, conn, parseRlt (rltBytes (RltType.close).code [0]), rxDev (conn) .close [0], rxTaken (conn) .close [0], by unfold State.Hands; exact ⟨⟨rltPacket (RltType.close).code [0], by decide +kernel, by decide +kernel, by decide +kernel, by decide +kernel, by decide +kernel, by decide +kernel, by decide +kernel, rfl⟩, by decide +kernel⟩⟩⟩

theorem test_meets_MessageReceivingCompletes :
    (∃ (g c : Nat) (r : Ring) (j : Job) (x : Conn) (s : State), s.startable g isRecv = some (r, j) ∧ s.messageRefusal g r j false = .inl (c, x) ∧ ((x.state = .armed ∨ x.state = .opened)) ∧ s.regionRefusal r.sheet (eN j.first 16 4) (eN j.first 24 8) (eN j.first 12 4) = none)
    ∧ (∃ (c : Nat) (p : Packet) (x : Conn) (h : RltHdr) (s : State), s.frontRlt = some p ∧ h = parseRlt p.bytes ∧ h.ver = 1 ∧ h.type = 1 ∧ s.handled h.dconn = some (c, x) ∧ p.cipher.status = 2 ∧ x.state ≠ .error ∧ s.slotLacks c h = false)
    ∧ (∃ (c msn : Nat) (x : Conn) (m : RecvMsg) (s : State), s.conn? c = some x ∧ x.bound (BitVec.ofNat 32 msn) = some m ∧ m.full = true ∧ m.ended = none ∧ x.active = true ∧ m.job ≠ none)
    ∧ (∃ (c : Nat) (x : Conn) (h : RltHdr) (s u : State), s.Hands .poll c x h u ∧ (x.stalled ≠ [] ∨ before (BitVec.ofNat 32 (word32 h.body 0)) x.msnDone = true))
    ∧ (∃ (c msn : Nat) (x : Conn) (m : RecvMsg) (s : State), s.conn? c = some x ∧ x.bound (BitVec.ofNat 32 msn) = some m ∧ m.timer = true ∧ m.ended = none ∧ x.stalledMsg (BitVec.ofNat 32 msn) = false ∧ m.full = false ∧ m.tries + 1 < s.rd RLT_TIMERS_REASM_TRIES)
    ∧ (∃ (c path : Nat) (x : Conn) (s : State), s.conn? c = some x ∧ 0 < (x.rxPath path).unacked ∧ x.state ≠ .error)
    ∧ (∃ (p : Packet) (s : State), s.frontRlt = some p ∧ ((parseRlt p.bytes).ver ≠ 1 ∨ (parseRlt p.bytes).type = 0 ∨ 9 ≤ (parseRlt p.bytes).type))
    ∧ (∃ (p : Packet) (s : State), s.frontRlt = some p ∧ ((parseRlt p.bytes).ver ≠ 1 ∨ (parseRlt p.bytes).type = 0 ∨ 9 ≤ (parseRlt p.bytes).type)) :=
  ⟨⟨5, 9, ring 4 [job (mkEntry 0x98 7 1 [(8, 4, 9), (12, 4, 4096), (16, 4, 4), (24, 8, 0x10000)])], job (mkEntry 0x98 7 1 [(8, 4, 9), (12, 4, 4096), (16, 4, 4), (24, 8, 0x10000)]), conn, withEntry 4 (mkEntry 0x98 7 1 [(8, 4, 9), (12, 4, 4096), (16, 4, 4), (24, 8, 0x10000)]) (connDev conn []), by decide +kernel⟩,
   ⟨9, rltPacket 1 [7], { conn with recvs := [bound] }, parseRlt (rltBytes 1 [7]), connDev { conn with recvs := [bound] } [rltPacket 1 [7]], by decide +kernel⟩,
   ⟨9, 2, { conn with recvs := [bound] }, bound, connDev { conn with recvs := [bound] } [], by decide +kernel⟩,
   ⟨9, conn, parseRlt (rltBytes (RltType.poll).code [0, 0, 0, 1]), rxDev (conn) .poll [0, 0, 0, 1], rxTaken (conn) .poll [0, 0, 0, 1], by unfold State.Hands; exact ⟨⟨rltPacket (RltType.poll).code [0, 0, 0, 1], by decide +kernel, by decide +kernel, by decide +kernel, by decide +kernel, by decide +kernel, by decide +kernel, by decide +kernel, rfl⟩, by decide +kernel⟩⟩,
   ⟨9, 2, { conn with recvs := [{ bound with timer := true, bits := 0 }] }, { bound with timer := true, bits := 0 }, setFields [(RLT_TIMERS_REASM_TRIES, 3)] (connDev { conn with recvs := [{ bound with timer := true, bits := 0 }] } []), by decide +kernel⟩,
   ⟨9, 0, { conn with rx := [(0, { RxPath.none with unacked := 1 })] }, connDev { conn with rx := [(0, { RxPath.none with unacked := 1 })] } [], by decide +kernel⟩,
   ⟨rltPacket 9 [], connDev conn [rltPacket 9 []], by decide +kernel⟩,
   ⟨rltPacket 0 [], connDev conn [rltPacket 0 []], by decide +kernel⟩⟩

theorem test_meets_RegionCommandsComplete :
    (∃ (g n : Nat) (r : Ring) (j : Job) (s u : State), s.bit RLT_STATUS_READY = true ∧ s.Starts g 0x58 r j u ∧ u.namedSheet r.sheet (eN j.first 8 2) = some n ∧ eN j.first 16 8 % 4096 = 0 ∧ eN j.first 24 8 % 4096 = 0 ∧ 4096 ≤ eN j.first 24 8 ∧ eN j.first 24 8 ≤ 2 ^ 40 ∧ eBits j.first 10 0 2 ≠ 3 ∧ u.modeServed n (eBits j.first 10 0 2) = true ∧ u.portRegions (u.sheetPort n) < 16777216 / u.endpoints.length)
    ∧ (∃ (g n : Nat) (r : Ring) (j : Job) (s u : State), s.bit RLT_STATUS_READY = true ∧ s.Starts g 0x58 r j u ∧ u.namedSheet r.sheet (eN j.first 8 2) = some n ∧ eN j.first 16 8 % 4096 = 0 ∧ eN j.first 24 8 % 4096 = 0 ∧ 4096 ≤ eN j.first 24 8 ∧ eN j.first 24 8 ≤ 2 ^ 40 ∧ eBits j.first 10 0 2 ≠ 3 ∧ u.modeServed n (eBits j.first 10 0 2) = true ∧ u.portRegions (u.sheetPort n) < 16777216 / u.endpoints.length)
    ∧ (∃ (g n k : Nat) (r : Ring) (j : Job) (x : Region) (s u : State), s.bit RLT_STATUS_READY = true ∧ s.Starts g 0x59 r j u ∧ u.namedSheet r.sheet (eN j.first 8 2) = some n ∧ u.namedRegion n (eN j.first 12 4) = .inl (k, x) ∧ x.draining = false)
    ∧ (∃ (k : Nat) (x : Region) (s : State), tblGet s.rlt.regions k = some x ∧ x.draining = true ∧ x.fenced = [] ∧ (s.sheet x.sheet).state ≠ .disabling)
    ∧ (∃ (g n k : Nat) (r : Ring) (j : Job) (x : Region) (s u : State), s.bit RLT_STATUS_READY = true ∧ s.Starts g 0x5A r j u ∧ u.namedSheet r.sheet (eN j.first 8 2) = some n ∧ u.namedRegion n (eN j.first 12 4) = .inl (k, x) ∧ eBits j.first 10 0 2 ≠ 3 ∧ x.draining = false ∧ u.modeServed n (eBits j.first 10 0 2) = true)
    ∧ (∃ (g n k : Nat) (r : Ring) (j : Job) (x : Region) (s u : State), s.bit RLT_STATUS_READY = true ∧ s.Starts g 0x5B r j u ∧ u.namedSheet r.sheet (eN j.first 8 2) = some n ∧ u.namedRegion n (eN j.first 12 4) = .inl (k, x))
    ∧ (∃ (port pf pasid page : Nat) (q : PageReq) (s : State), s.pageReq port pf pasid page = some q) :=
  ⟨⟨5, 1, ring 0 [job (mkEntry 0x58 7 1 [(8, 2, 1), (16, 8, 4096), (24, 8, 1099511627776)])], job (mkEntry 0x58 7 1 [(8, 2, 1), (16, 8, 4096), (24, 8, 1099511627776)]), withEntry 0 (mkEntry 0x58 7 1 [(8, 2, 1), (16, 8, 4096), (24, 8, 1099511627776)]) (connDev conn []), begun 0x58 (withEntry 0 (mkEntry 0x58 7 1 [(8, 2, 1), (16, 8, 4096), (24, 8, 1099511627776)]) (connDev conn [])), by unfold State.Starts; decide +kernel⟩,
   ⟨5, 1, ring 0 [job (mkEntry 0x58 7 1 [(8, 2, 1), (16, 8, 4096), (24, 8, 4096)])], job (mkEntry 0x58 7 1 [(8, 2, 1), (16, 8, 4096), (24, 8, 4096)]), withEntry 0 (mkEntry 0x58 7 1 [(8, 2, 1), (16, 8, 4096), (24, 8, 4096)]) (connDev conn []), begun 0x58 (withEntry 0 (mkEntry 0x58 7 1 [(8, 2, 1), (16, 8, 4096), (24, 8, 4096)]) (connDev conn [])), by unfold State.Starts; decide +kernel⟩,
   ⟨5, 1, 4, ring 0 [job (mkEntry 0x59 7 1 [(8, 2, 1), (12, 4, 4)])], job (mkEntry 0x59 7 1 [(8, 2, 1), (12, 4, 4)]), region, withEntry 0 (mkEntry 0x59 7 1 [(8, 2, 1), (12, 4, 4)]) (connDev conn []), begun 0x59 (withEntry 0 (mkEntry 0x59 7 1 [(8, 2, 1), (12, 4, 4)]) (connDev conn [])), by unfold State.Starts; decide +kernel⟩,
   ⟨4, { region with draining := true, revoker := some (5, 0) }, { dev with rlt := { dev.rlt with regions := [(4, { region with draining := true, revoker := some (5, 0) })] } }, by decide +kernel⟩,
   ⟨5, 1, 4, ring 0 [job (mkEntry 0x5A 7 1 [(8, 2, 1), (12, 4, 4)])], job (mkEntry 0x5A 7 1 [(8, 2, 1), (12, 4, 4)]), region, withEntry 0 (mkEntry 0x5A 7 1 [(8, 2, 1), (12, 4, 4)]) (connDev conn []), begun 0x5A (withEntry 0 (mkEntry 0x5A 7 1 [(8, 2, 1), (12, 4, 4)]) (connDev conn [])), by unfold State.Starts; decide +kernel⟩,
   ⟨5, 1, 4, ring 0 [job (mkEntry 0x5B 7 1 [(8, 2, 1), (12, 4, 4)])], job (mkEntry 0x5B 7 1 [(8, 2, 1), (12, 4, 4)]), region, withEntry 0 (mkEntry 0x5B 7 1 [(8, 2, 1), (12, 4, 4)]) (connDev conn []), begun 0x5B (withEntry 0 (mkEntry 0x5B 7 1 [(8, 2, 1), (12, 4, 4)]) (connDev conn [])), by unfold State.Starts; decide +kernel⟩,
   ⟨0, 0, 3, 16, ⟨0, 0, 3, 16, []⟩, { dev with rlt := { dev.rlt with pages := [⟨0, 0, 3, 16, []⟩] } }, by decide +kernel⟩⟩

theorem test_meets_ControllersComplete :
    (∃ (g n : Nat) (r : Ring) (j : Job) (s u : State), s.Starts g 0x60 r j u ∧ u.namedSheet r.sheet (eN j.first 8 2) = some n ∧ u.ctrlFieldsOk n j.first = true ∧ u.rangeUsed n (eN j.first 18 2) (eN j.first 17 1 + 1) = false ∧ u.usage n 5 < u.limit n 5 ∧ u.usage n 0 + 2 ≤ u.limit n 0)
    ∧ (∃ (g n k : Nat) (r : Ring) (j : Job) (c : Ctrl) (s u : State), s.bit STO_STATUS_READY = true ∧ s.Starts g 0x61 r j u ∧ u.namedSheet r.sheet (eN j.first 8 2) = some n ∧ u.namedCtrl n (ctrlNo j.first) = .inl (k, c) ∧ eN j.first 16 1 = 1 ∧ c.state = .disabled ∧ (((u.sheet c.sheet).state = .active ∨ (u.sheet c.sheet).state = .debug)))
    ∧ (∃ (g n k : Nat) (r : Ring) (j : Job) (c : Ctrl) (s u : State), s.Starts g 0x61 r j u ∧ u.namedSheet r.sheet (eN j.first 8 2) = some n ∧ u.namedCtrl n (ctrlNo j.first) = .inl (k, c) ∧ c.state = .ready)
    ∧ (∃ (g n k : Nat) (r : Ring) (j : Job) (c d : Ctrl) (s u : State), s.Starts g 0x61 r j u ∧ u.namedSheet r.sheet (eN j.first 8 2) = some n ∧ u.namedCtrl n (ctrlNo j.first) = .inl (k, c) ∧ eN j.first 16 1 = 4 ∧ ((c.state = .ready ∨ c.state = .shutting ∨ c.state = .shut)) ∧ (resetCtrl k u).ctrl? k = some d)
    ∧ (∃ (k : Nat) (c : Ctrl) (s : State), s.ctrl? k = some c ∧ c.state = .shutting ∧ s.startedCmds k c = [] ∧ ((c.normal = false ∨ s.ownDirty k c = false)))
    ∧ (∃ (k : Nat) (c : Ctrl) (s : State), s.ctrl? k = some c ∧ c.state = .resetting ∧ s.ctrlCmds k = [])
    ∧ (∃ (g n k : Nat) (r : Ring) (j : Job) (c : Ctrl) (s u : State), s.Starts g 0x62 r j u ∧ u.namedSheet r.sheet (eN j.first 8 2) = some n ∧ u.namedCtrl n (ctrlNo j.first) = .inl (k, c) ∧ c.state = .disabled) :=
  ⟨⟨5, 1, ring 0 [job (mkEntry 0x60 7 1 [(8, 2, 1), (17, 1, 3), (18, 2, 200), (24, 8, 4096), (32, 8, 8192), (40, 1, 12), (41, 1, 12), (21, 2, 31)])], job (mkEntry 0x60 7 1 [(8, 2, 1), (17, 1, 3), (18, 2, 200), (24, 8, 4096), (32, 8, 8192), (40, 1, 12), (41, 1, 12), (21, 2, 31)]), withEntry 0 (mkEntry 0x60 7 1 [(8, 2, 1), (17, 1, 3), (18, 2, 200), (24, 8, 4096), (32, 8, 8192), (40, 1, 12), (41, 1, 12), (21, 2, 31)]) (dev), begun 0x60 (withEntry 0 (mkEntry 0x60 7 1 [(8, 2, 1), (17, 1, 3), (18, 2, 200), (24, 8, 4096), (32, 8, 8192), (40, 1, 12), (41, 1, 12), (21, 2, 31)]) (dev)), by unfold State.Starts; decide +kernel⟩,
   ⟨5, 1, 3, ring 0 [job (mkEntry 0x61 7 1 [(8, 2, 1), (10, 2, 3), (16, 1, 1)])], job (mkEntry 0x61 7 1 [(8, 2, 1), (10, 2, 3), (16, 1, 1)]), { ctrl with state := .disabled }, stoEntry ({ ctrl with state := .disabled }) (mkEntry 0x61 7 1 [(8, 2, 1), (10, 2, 3), (16, 1, 1)]), begun 0x61 (stoEntry ({ ctrl with state := .disabled }) (mkEntry 0x61 7 1 [(8, 2, 1), (10, 2, 3), (16, 1, 1)])), by unfold State.Starts; decide +kernel⟩,
   ⟨5, 1, 3, ring 0 [job (mkEntry 0x61 7 1 [(8, 2, 1), (10, 2, 3), (16, 1, 2)])], job (mkEntry 0x61 7 1 [(8, 2, 1), (10, 2, 3), (16, 1, 2)]), ctrl, stoEntry (ctrl) (mkEntry 0x61 7 1 [(8, 2, 1), (10, 2, 3), (16, 1, 2)]), begun 0x61 (stoEntry (ctrl) (mkEntry 0x61 7 1 [(8, 2, 1), (10, 2, 3), (16, 1, 2)])), by unfold State.Starts; decide +kernel⟩,
   ⟨5, 1, 3, ring 0 [job (mkEntry 0x61 7 1 [(8, 2, 1), (10, 2, 3), (16, 1, 4)])], job (mkEntry 0x61 7 1 [(8, 2, 1), (10, 2, 3), (16, 1, 4)]), ctrl, (((resetCtrl 3 (begun 0x61 (stoEntry (ctrl) (mkEntry 0x61 7 1 [(8, 2, 1), (10, 2, 3), (16, 1, 4)])))).ctrl? 3).getD ctrl), stoEntry (ctrl) (mkEntry 0x61 7 1 [(8, 2, 1), (10, 2, 3), (16, 1, 4)]), begun 0x61 (stoEntry (ctrl) (mkEntry 0x61 7 1 [(8, 2, 1), (10, 2, 3), (16, 1, 4)])), by unfold State.Starts; decide +kernel⟩,
   ⟨3, { ctrl with state := .shutting }, stoDev { ctrl with state := .shutting } [], by decide +kernel⟩,
   ⟨3, { ctrl with state := .resetting }, stoDev { ctrl with state := .resetting } [], by decide +kernel⟩,
   ⟨5, 1, 3, ring 0 [job (mkEntry 0x62 7 1 [(8, 2, 1), (10, 2, 3)])], job (mkEntry 0x62 7 1 [(8, 2, 1), (10, 2, 3)]), { ctrl with state := .disabled }, stoEntry ({ ctrl with state := .disabled }) (mkEntry 0x62 7 1 [(8, 2, 1), (10, 2, 3)]), begun 0x62 (stoEntry ({ ctrl with state := .disabled }) (mkEntry 0x62 7 1 [(8, 2, 1), (10, 2, 3)])), by unfold State.Starts; decide +kernel⟩⟩

theorem test_meets_VolumesComplete :
    (∃ (g n : Nat) (ident : Identified) (r : Ring) (j : Job) (out inn : Option Nat) (s u : State), s.Starts g 0x63 r j u ∧ u.managerSheet r.sheet = true ∧ u.namedSheet r.sheet (eN j.first 8 2) = some n ∧ eN j.first 24 8 ≠ 0 ∧ eN j.first 24 8 ≤ 2 ^ 48 ∧ eBits j.first 16 1 2 ≠ 3 ∧ u.timed (eBits j.first 17 0 3) = false ∧ u.volContract r.sheet (eN j.first 52 2) 6 = .inl out ∧ u.volContract r.sheet (eN j.first 54 2) 7 = .inl inn ∧ u.portVols (u.sheetPortD r.sheet) < 16384 / u.endpoints.length ∧ u.backendRefusal (u.sheetPortD r.sheet) j.first ident = none)
    ∧ (∃ (g n v : Nat) (r : Ring) (j : Job) (x : Volume) (s u : State), s.Starts g 0x64 r j u ∧ u.managerSheet r.sheet = true ∧ u.namedSheet r.sheet (eN j.first 8 2) = some n ∧ u.namedVol r.sheet (volNo j.first) = .inl (v, x) ∧ u.attachments v = [])
    ∧ (∃ (g n v : Nat) (r : Ring) (j : Job) (x : Volume) (s u : State), s.Starts g 0x65 r j u ∧ u.managerSheet r.sheet = true ∧ u.namedSheet r.sheet (eN j.first 8 2) = some n ∧ u.namedVol r.sheet (volNo j.first) = .inl (v, x) ∧ x.remote = true ∧ u.volConn x.port (eN j.first 48 4) = true)
    ∧ (∃ (g n k v : Nat) (r : Ring) (j : Job) (c : Ctrl) (x : Volume) (s u : State), s.Starts g 0x66 r j u ∧ u.managerSheet r.sheet = true ∧ u.namedSheet r.sheet (eN j.first 8 2) = some n ∧ u.portCtrl r.sheet (ctrlNo j.first) = .inl (k, c) ∧ u.namedVol r.sheet (volNo j.first) = .inl (v, x) ∧ 1 ≤ eN j.first 20 4 ∧ eN j.first 20 4 ≤ 256 ∧ tblGet c.attach (eN j.first 20 4) = none ∧ ((((u.attachments v).map (fun a => a.1)).dedup.length < 16 ∨ (u.attachments v).any (fun a => a.1 == k) = true)))
    ∧ (∃ (g n k : Nat) (r : Ring) (j : Job) (c : Ctrl) (a : Attach) (s u : State), s.Starts g 0x67 r j u ∧ u.managerSheet r.sheet = true ∧ u.namedSheet r.sheet (eN j.first 8 2) = some n ∧ u.portCtrl r.sheet (ctrlNo j.first) = .inl (k, c) ∧ tblGet c.attach (eN j.first 20 4) = some a ∧ a.waiter = none)
    ∧ (∃ (g n k : Nat) (r : Ring) (j : Job) (c : Ctrl) (s u : State), s.Starts g 0x68 r j u ∧ u.namedSheet r.sheet (eN j.first 8 2) = some n ∧ eBits j.first 16 0 1 = 0 ∧ u.namedCtrl n (ctrlNo j.first) = .inl (k, c))
    ∧ (∃ (g n v : Nat) (r : Ring) (j : Job) (x : Volume) (s u : State), s.Starts g 0x68 r j u ∧ u.managerSheet r.sheet = true ∧ u.namedSheet r.sheet (eN j.first 8 2) = some n ∧ eBits j.first 16 0 1 = 1 ∧ u.namedVol r.sheet (volNo j.first) = .inl (v, x)) :=
  ⟨⟨5, 1, some (0, 1000), ring 0 [job (mkEntry 0x63 7 1 [(8, 2, 1), (18, 2, 4), (24, 8, 1000), (44, 4, 0xFFFFFFFF), (52, 2, 0xFFFF), (54, 2, 0xFFFF)])], job (mkEntry 0x63 7 1 [(8, 2, 1), (18, 2, 4), (24, 8, 1000), (44, 4, 0xFFFFFFFF), (52, 2, 0xFFFF), (54, 2, 0xFFFF)]), none, none, stoEntry (ctrl) (mkEntry 0x63 7 1 [(8, 2, 1), (18, 2, 4), (24, 8, 1000), (44, 4, 0xFFFFFFFF), (52, 2, 0xFFFF), (54, 2, 0xFFFF)]), begun 0x63 (stoEntry (ctrl) (mkEntry 0x63 7 1 [(8, 2, 1), (18, 2, 4), (24, 8, 1000), (44, 4, 0xFFFFFFFF), (52, 2, 0xFFFF), (54, 2, 0xFFFF)])), by unfold State.Starts; decide +kernel⟩,
   ⟨5, 1, 6, ring 0 [job (mkEntry 0x64 7 1 [(8, 2, 1), (12, 4, 6)])], job (mkEntry 0x64 7 1 [(8, 2, 1), (12, 4, 6)]), vol6, stoEntry ({ ctrl with attach := [] }) (mkEntry 0x64 7 1 [(8, 2, 1), (12, 4, 6)]), begun 0x64 (stoEntry ({ ctrl with attach := [] }) (mkEntry 0x64 7 1 [(8, 2, 1), (12, 4, 6)])), by unfold State.Starts; decide +kernel⟩,
   ⟨5, 1, 6, ring 0 [job (mkEntry 0x65 7 1 [(8, 2, 1), (12, 4, 6), (48, 4, 9)])], job (mkEntry 0x65 7 1 [(8, 2, 1), (12, 4, 6), (48, 4, 9)]), { vol6 with remote := true }, { stoEntry ctrl (mkEntry 0x65 7 1 [(8, 2, 1), (12, 4, 6), (48, 4, 9)]) with conns := [(9, conn)], sto := { dev.sto with vols := [(6, { vol6 with remote := true })] } }, begun 0x65 ({ stoEntry ctrl (mkEntry 0x65 7 1 [(8, 2, 1), (12, 4, 6), (48, 4, 9)]) with conns := [(9, conn)], sto := { dev.sto with vols := [(6, { vol6 with remote := true })] } }), by unfold State.Starts; decide +kernel⟩,
   ⟨5, 1, 3, 6, ring 0 [job (mkEntry 0x66 7 1 [(8, 2, 1), (10, 2, 3), (12, 4, 6), (20, 4, 256)])], job (mkEntry 0x66 7 1 [(8, 2, 1), (10, 2, 3), (12, 4, 6), (20, 4, 256)]), ctrl, vol6, stoEntry (ctrl) (mkEntry 0x66 7 1 [(8, 2, 1), (10, 2, 3), (12, 4, 6), (20, 4, 256)]), begun 0x66 (stoEntry (ctrl) (mkEntry 0x66 7 1 [(8, 2, 1), (10, 2, 3), (12, 4, 6), (20, 4, 256)])), by unfold State.Starts; decide +kernel⟩,
   ⟨5, 1, 3, ring 0 [job (mkEntry 0x67 7 1 [(8, 2, 1), (10, 2, 3), (12, 4, 6), (20, 4, 1)])], job (mkEntry 0x67 7 1 [(8, 2, 1), (10, 2, 3), (12, 4, 6), (20, 4, 1)]), ctrl, ⟨6, false, false, none⟩, stoEntry (ctrl) (mkEntry 0x67 7 1 [(8, 2, 1), (10, 2, 3), (12, 4, 6), (20, 4, 1)]), begun 0x67 (stoEntry (ctrl) (mkEntry 0x67 7 1 [(8, 2, 1), (10, 2, 3), (12, 4, 6), (20, 4, 1)])), by unfold State.Starts; decide +kernel⟩,
   ⟨5, 1, 3, ring 0 [job (mkEntry 0x68 7 1 [(8, 2, 1), (10, 2, 3)])], job (mkEntry 0x68 7 1 [(8, 2, 1), (10, 2, 3)]), ctrl, stoEntry (ctrl) (mkEntry 0x68 7 1 [(8, 2, 1), (10, 2, 3)]), begun 0x68 (stoEntry (ctrl) (mkEntry 0x68 7 1 [(8, 2, 1), (10, 2, 3)])), by unfold State.Starts; decide +kernel⟩,
   ⟨5, 1, 6, ring 0 [job (mkEntry 0x68 7 1 [(8, 2, 1), (12, 4, 6), (16, 1, 1)])], job (mkEntry 0x68 7 1 [(8, 2, 1), (12, 4, 6), (16, 1, 1)]), vol6, stoEntry (ctrl) (mkEntry 0x68 7 1 [(8, 2, 1), (12, 4, 6), (16, 1, 1)]), begun 0x68 (stoEntry (ctrl) (mkEntry 0x68 7 1 [(8, 2, 1), (12, 4, 6), (16, 1, 1)])), by unfold State.Starts; decide +kernel⟩⟩

theorem test_meets_PresentedIoCompletes :
    (∃ (n q : Nat) (c : Ctrl) (r : Ring) (s : State), s.ctrl? n = some c ∧ c.fetches q = true ∧ (tblGet c.sqs q).bind (fun k => s.ring? k.ring) = some r)
    ∧ (∃ (n q i : Nat) (c c' : Ctrl) (m : NvmeCmd) (s t : State), s.chooseCtrl = some (n, t) ∧ t.ctrl? n = some c ∧ t.chooseSq n c = some (q, c') ∧ t.oldest n q = some (i, m))
    ∧ (∃ (l : List (Nat × NvmeCmd)) (s : State), l = sortBy (fun x => x.2.order) (s.sto.cmds.filter (fun x => x.2.phase == .stalled)))
    ∧ (∃ (i vol : Nat) (pages : List Nat) (a : Attach) (x y : Volume) (m : NvmeCmd) (s : State), s.ioStarted i 2 = some m ∧ s.namespace? m = .inl (vol, a, x) ∧ blocksRefused x m.sqe true = none ∧ prpPieces m.sqe pages (nvBlocks m.sqe * x.blockSize) ≠ none ∧ s.vol? vol = some y ∧ meetsLost (nvSlba m.sqe) (nvBlocks m.sqe) y.lost = false ∧ ((∀ b ∈ blockRange (nvSlba m.sqe) (nvBlocks m.sqe), s.cached vol b ≠ none)))
    ∧ (∃ (i vol b : Nat) (rest pages : List Nat) (a : Attach) (x y : Volume) (m : NvmeCmd) (s : State), s.ioStarted i 2 = some m ∧ s.namespace? m = .inl (vol, a, x) ∧ blocksRefused x m.sqe true = none ∧ prpPieces m.sqe pages (nvBlocks m.sqe * x.blockSize) ≠ none ∧ s.vol? vol = some y ∧ meetsLost (nvSlba m.sqe) (nvBlocks m.sqe) y.lost = false ∧ (blockRange (nvSlba m.sqe) (nvBlocks m.sqe)).filter (fun b => (s.cached vol b).isNone) = b :: rest ∧ s.volDown x = false ∧ s.backendTakes x 0 = true)
    ∧ (∃ (i vol : Nat) (pages : List Nat) (l : List (Nat × Nat)) (bs : Bytes) (a : Attach) (x : Volume) (m : NvmeCmd) (s t : State), s.ioStarted i 1 = some m ∧ s.namespace? m = .inl (vol, a, x) ∧ blocksRefused x m.sqe true = none ∧ a.readOnly = false ∧ prpPieces m.sqe pages (nvBlocks m.sqe * x.blockSize) = some l ∧ bs.length = nvBlocks m.sqe * x.blockSize ∧ t = fetchPieces (s.cmdSheet m) m.sqe l s ∧ t.copies x m = 0 ∧ t.volDown x = false ∧ t.backendTakes x 1 = true)
    ∧ (∃ (i vol k : Nat) (pages : List Nat) (l : List (Nat × Nat)) (bs : Bytes) (a : Attach) (x : Volume) (m : NvmeCmd) (s t u : State), s.ioStarted i 1 = some m ∧ s.namespace? m = .inl (vol, a, x) ∧ blocksRefused x m.sqe true = none ∧ a.readOnly = false ∧ prpPieces m.sqe pages (nvBlocks m.sqe * x.blockSize) = some l ∧ bs.length = nvBlocks m.sqe * x.blockSize ∧ t = fetchPieces (s.cmdSheet m) m.sqe l s ∧ t.copies x m = k + 1 ∧ cacheBlocks vol x (k + 1) (nvSlba m.sqe) bs (nvBlocks m.sqe) t = some u)
    ∧ (∃ (i : Nat) (v : Nat × Attach × Volume) (m : NvmeCmd) (s : State), s.ioStarted i 0 = some m ∧ s.namespace? m = .inl v)
    ∧ (∃ (i vol : Nat) (a : Attach) (x : Volume) (m : NvmeCmd) (s : State), s.ioStarted i 8 = some m ∧ s.namespace? m = .inl (vol, a, x) ∧ a.readOnly = false ∧ nvSlba m.sqe + nvBlocks m.sqe ≤ x.blocks ∧ s.volDown x = false ∧ s.backendTakes x 3 = true)
    ∧ (∃ (i vol : Nat) (r : Nat × Nat) (rest : List (Nat × Nat)) (a : Attach) (x : Volume) (m : NvmeCmd) (s : State), s.ioStarted i 9 = some m ∧ s.namespace? m = .inl (vol, a, x) ∧ eBits m.sqe 44 2 1 = 1 ∧ a.readOnly = false ∧ m.ranges = r :: rest ∧ ((∀ k ∈ m.ranges, k.1 + k.2 ≤ x.blocks)) ∧ s.volDown x = false ∧ s.backendTakes x 4 = true)
    ∧ (∃ (i : Nat) (v : Nat × Attach × Volume) (m : NvmeCmd) (s : State), s.ioStarted i 9 = some m ∧ s.namespace? m = .inl v ∧ eBits m.sqe 44 2 1 = 0)
    ∧ (∃ (k : Nat) (b : BackReq) (x : Volume) (s : State), tblGet s.sto.reqs k = some b ∧ s.vol? b.vol = some x ∧ x.remote = false ∧ b.replied = false)
    ∧ (∃ (k i : Nat) (b : BackReq) (x : Volume) (m : NvmeCmd) (s : State), tblGet s.sto.reqs k = some b ∧ ((dropReq k s).count STO_BACKEND_TO 1).vol? b.vol = some x ∧ b.op ≠ 5 ∧ b.cmd = some i ∧ ((dropReq k s).count STO_BACKEND_TO 1).cmd? i = some m ∧ m.phase = .running)
    ∧ (∃ (k : Nat) (b : BackReq) (x : Volume) (s t : State), tblGet s.sto.reqs k = some b ∧ t = (dropReq k s).count STO_BACKEND_TO 1 ∧ t.vol? b.vol = some x ∧ b.op = 5)
    ∧ (∃ (vol lo n : Nat) (x : Volume) (s : State), s.vol? vol = some x ∧ n ≠ 0 ∧ ((∀ b ∈ blockRange lo n, s.blockDirty vol b = true)) ∧ s.requestOver vol lo n = false ∧ s.volDown x = false ∧ s.backendTakes x 5 = true)
    ∧ (∃ (c req : Nat) (bs : Bytes) (rest : List (Nat × Bytes)) (s t : State), s.sto.inbox = (c, bs) :: rest ∧ t = { s with sto := { s.sto with inbox := rest } } ∧ t.requestOf c (ofLe ((bs.drop 12).take 2)) = some req) :=
  ⟨⟨3, 1, ctrl, storageQueue 1 102 8 4 0 0x3000 .running, stoDev ctrl [], by decide +kernel⟩,
   ⟨3, 1, 2, ctrl, (((State.chooseSq (((State.chooseCtrl (cmdDev (nvme 1 2 .fetched [(4, 4, 1)]))).map (fun x => x.2)).getD dev) 3 ctrl).map (fun x => x.2)).getD ctrl), nvme 1 2 .fetched [(4, 4, 1)], cmdDev (nvme 1 2 .fetched [(4, 4, 1)]), (((State.chooseCtrl (cmdDev (nvme 1 2 .fetched [(4, 4, 1)]))).map (fun x => x.2)).getD dev), by decide +kernel⟩,
   ⟨[(2, nvme 1 2 .stalled [(4, 4, 1)])], cmdDev (nvme 1 2 .stalled [(4, 4, 1)]), by decide +kernel⟩,
   ⟨2, 6, [], ⟨6, false, false, none⟩, vol6, vol6, nvme 1 2 .started [(4, 4, 1), (24, 8, 4096), (40, 8, 999), (48, 2, 0)], { cmdDev (nvme 1 2 .started [(4, 4, 1), (24, 8, 4096), (40, 8, 999), (48, 2, 0)]) with sto := { State.sto (cmdDev (nvme 1 2 .started [(4, 4, 1), (24, 8, 4096), (40, 8, 999), (48, 2, 0)])) with cache := [(cacheKey 6 999, ⟨true, [4], []⟩)] } }, by decide +kernel⟩,
   ⟨2, 6, 999, [], [], ⟨6, false, false, none⟩, vol6, vol6, nvme 1 2 .started [(4, 4, 1), (24, 8, 4096), (40, 8, 999), (48, 2, 0)], cmdDev (nvme 1 2 .started [(4, 4, 1), (24, 8, 4096), (40, 8, 999), (48, 2, 0)]), by decide +kernel⟩,
   ⟨2, 6, [], [(4096, 512)], List.replicate 512 0, ⟨6, false, false, none⟩, vol6, nvme 1 1 .started [(4, 4, 1), (24, 8, 4096), (40, 8, 999), (48, 2, 0)], cmdDev (nvme 1 1 .started [(4, 4, 1), (24, 8, 4096), (40, 8, 999), (48, 2, 0)]), fetchPieces (State.cmdSheet (cmdDev (nvme 1 1 .started [(4, 4, 1), (24, 8, 4096), (40, 8, 999), (48, 2, 0)])) (nvme 1 1 .started [(4, 4, 1), (24, 8, 4096), (40, 8, 999), (48, 2, 0)])) (NvmeCmd.sqe (nvme 1 1 .started [(4, 4, 1), (24, 8, 4096), (40, 8, 999), (48, 2, 0)])) [(4096, 512)] (cmdDev (nvme 1 1 .started [(4, 4, 1), (24, 8, 4096), (40, 8, 999), (48, 2, 0)])), by decide +kernel⟩,
   ⟨2, 6, 0, [], [(4096, 512)], List.replicate 512 0, ⟨6, false, false, none⟩, vol6, nvme 1 1 .started [(4, 4, 1), (24, 8, 4096), (40, 8, 999), (48, 2, 0)], { cmdDev (nvme 1 1 .started [(4, 4, 1), (24, 8, 4096), (40, 8, 999), (48, 2, 0)]) with sto := { State.sto (cmdDev (nvme 1 1 .started [(4, 4, 1), (24, 8, 4096), (40, 8, 999), (48, 2, 0)])) with room := [(4, 4096)] } }, fetchPieces (State.cmdSheet ({ cmdDev (nvme 1 1 .started [(4, 4, 1), (24, 8, 4096), (40, 8, 999), (48, 2, 0)]) with sto := { State.sto (cmdDev (nvme 1 1 .started [(4, 4, 1), (24, 8, 4096), (40, 8, 999), (48, 2, 0)])) with room := [(4, 4096)] } }) (nvme 1 1 .started [(4, 4, 1), (24, 8, 4096), (40, 8, 999), (48, 2, 0)])) (NvmeCmd.sqe (nvme 1 1 .started [(4, 4, 1), (24, 8, 4096), (40, 8, 999), (48, 2, 0)])) [(4096, 512)] ({ cmdDev (nvme 1 1 .started [(4, 4, 1), (24, 8, 4096), (40, 8, 999), (48, 2, 0)]) with sto := { State.sto (cmdDev (nvme 1 1 .started [(4, 4, 1), (24, 8, 4096), (40, 8, 999), (48, 2, 0)])) with room := [(4, 4096)] } }), ((cacheBlocks 6 vol6 1 999 (List.replicate 512 0) 1 (fetchPieces (State.cmdSheet ({ cmdDev (nvme 1 1 .started [(4, 4, 1), (24, 8, 4096), (40, 8, 999), (48, 2, 0)]) with sto := { State.sto (cmdDev (nvme 1 1 .started [(4, 4, 1), (24, 8, 4096), (40, 8, 999), (48, 2, 0)])) with room := [(4, 4096)] } }) (nvme 1 1 .started [(4, 4, 1), (24, 8, 4096), (40, 8, 999), (48, 2, 0)])) (NvmeCmd.sqe (nvme 1 1 .started [(4, 4, 1), (24, 8, 4096), (40, 8, 999), (48, 2, 0)])) [(4096, 512)] ({ cmdDev (nvme 1 1 .started [(4, 4, 1), (24, 8, 4096), (40, 8, 999), (48, 2, 0)]) with sto := { State.sto (cmdDev (nvme 1 1 .started [(4, 4, 1), (24, 8, 4096), (40, 8, 999), (48, 2, 0)])) with room := [(4, 4096)] } }))).getD dev), ⟨by decide +kernel, by decide +kernel, by decide +kernel, by decide +kernel, by decide +kernel, by decide +kernel, rfl, by decide +kernel, some_getD (o := cacheBlocks 6 vol6 1 999 (List.replicate 512 0) 1 (fetchPieces (State.cmdSheet ({ cmdDev (nvme 1 1 .started [(4, 4, 1), (24, 8, 4096), (40, 8, 999), (48, 2, 0)]) with sto := { State.sto (cmdDev (nvme 1 1 .started [(4, 4, 1), (24, 8, 4096), (40, 8, 999), (48, 2, 0)])) with room := [(4, 4096)] } }) (nvme 1 1 .started [(4, 4, 1), (24, 8, 4096), (40, 8, 999), (48, 2, 0)])) (NvmeCmd.sqe (nvme 1 1 .started [(4, 4, 1), (24, 8, 4096), (40, 8, 999), (48, 2, 0)])) [(4096, 512)] ({ cmdDev (nvme 1 1 .started [(4, 4, 1), (24, 8, 4096), (40, 8, 999), (48, 2, 0)]) with sto := { State.sto (cmdDev (nvme 1 1 .started [(4, 4, 1), (24, 8, 4096), (40, 8, 999), (48, 2, 0)])) with room := [(4, 4096)] } }))) (by decide +kernel)⟩⟩,
   ⟨2, (6, ⟨6, false, false, none⟩, vol6), nvme 1 0 .started [(4, 4, 1)], cmdDev (nvme 1 0 .started [(4, 4, 1)]), by decide +kernel⟩,
   ⟨2, 6, ⟨6, false, false, none⟩, vol6, nvme 1 8 .started [(4, 4, 1), (40, 8, 0), (48, 2, 999)], cmdDev (nvme 1 8 .started [(4, 4, 1), (40, 8, 0), (48, 2, 999)]), by decide +kernel⟩,
   ⟨2, 6, (990, 10), [(0, 1)], ⟨6, false, false, none⟩, vol6, { nvme 1 9 .started [(4, 4, 1), (44, 1, 4)] with ranges := [(990, 10), (0, 1)] }, cmdDev ({ nvme 1 9 .started [(4, 4, 1), (44, 1, 4)] with ranges := [(990, 10), (0, 1)] }), by decide +kernel⟩,
   ⟨2, (6, ⟨6, false, false, none⟩, vol6), nvme 1 9 .started [(4, 4, 1)], cmdDev (nvme 1 9 .started [(4, 4, 1)]), by decide +kernel⟩,
   ⟨5, ⟨6, some 2, 1, 0, 1, [], 0, false, []⟩, vol6, { cmdDev (nvme 1 1 .running [(4, 4, 1)]) with sto := { State.sto (cmdDev (nvme 1 1 .running [(4, 4, 1)])) with vols := [(6, vol6)], reqs := [(5, ⟨6, some 2, 1, 0, 1, [], 0, false, []⟩)] } }, by decide +kernel⟩,
   ⟨5, 2, ⟨6, some 2, 1, 0, 1, [], 0, false, []⟩, vol6, nvme 1 1 .running [(4, 4, 1)], { cmdDev (nvme 1 1 .running [(4, 4, 1)]) with sto := { State.sto (cmdDev (nvme 1 1 .running [(4, 4, 1)])) with vols := [(6, vol6)], reqs := [(5, ⟨6, some 2, 1, 0, 1, [], 0, false, []⟩)] } }, by decide +kernel⟩,
   ⟨5, ⟨6, none, 5, 0, 1, [], 0, false, []⟩, vol6, { cmdDev (nvme 1 1 .running [(4, 4, 1)]) with sto := { State.sto (cmdDev (nvme 1 1 .running [(4, 4, 1)])) with vols := [(6, vol6)], reqs := [(5, ⟨6, none, 5, 0, 1, [], 0, false, []⟩)] } }, State.count (dropReq 5 ({ cmdDev (nvme 1 1 .running [(4, 4, 1)]) with sto := { State.sto (cmdDev (nvme 1 1 .running [(4, 4, 1)])) with vols := [(6, vol6)], reqs := [(5, ⟨6, none, 5, 0, 1, [], 0, false, []⟩)] } })) STO_BACKEND_TO 1, by decide +kernel⟩,
   ⟨6, 0, 1, vol6, { stoDev ctrl [] with sto := { State.sto (stoDev ctrl []) with cache := [(cacheKey 6 0, ⟨true, [4], []⟩)] } }, by decide +kernel⟩,
   ⟨9, 5, List.replicate 12 0 ++ [5, 0, 0, 0], [], { { cmdDev (nvme 1 1 .running [(4, 4, 1)]) with sto := { State.sto (cmdDev (nvme 1 1 .running [(4, 4, 1)])) with vols := [(6, { vol6 with remote := true, conn := 9 })], reqs := [(5, ⟨6, none, 1, 0, 1, [], 0, false, []⟩)] } } with conns := [(9, conn)], sto := { State.sto ({ cmdDev (nvme 1 1 .running [(4, 4, 1)]) with sto := { State.sto (cmdDev (nvme 1 1 .running [(4, 4, 1)])) with vols := [(6, { vol6 with remote := true, conn := 9 })], reqs := [(5, ⟨6, none, 1, 0, 1, [], 0, false, []⟩)] } }) with inbox := [(9, List.replicate 12 0 ++ [5, 0, 0, 0])] } }, { { { cmdDev (nvme 1 1 .running [(4, 4, 1)]) with sto := { State.sto (cmdDev (nvme 1 1 .running [(4, 4, 1)])) with vols := [(6, { vol6 with remote := true, conn := 9 })], reqs := [(5, ⟨6, none, 1, 0, 1, [], 0, false, []⟩)] } } with conns := [(9, conn)], sto := { State.sto ({ cmdDev (nvme 1 1 .running [(4, 4, 1)]) with sto := { State.sto (cmdDev (nvme 1 1 .running [(4, 4, 1)])) with vols := [(6, { vol6 with remote := true, conn := 9 })], reqs := [(5, ⟨6, none, 1, 0, 1, [], 0, false, []⟩)] } }) with inbox := [(9, List.replicate 12 0 ++ [5, 0, 0, 0])] } } with sto := { State.sto ({ { cmdDev (nvme 1 1 .running [(4, 4, 1)]) with sto := { State.sto (cmdDev (nvme 1 1 .running [(4, 4, 1)])) with vols := [(6, { vol6 with remote := true, conn := 9 })], reqs := [(5, ⟨6, none, 1, 0, 1, [], 0, false, []⟩)] } } with conns := [(9, conn)], sto := { State.sto ({ cmdDev (nvme 1 1 .running [(4, 4, 1)]) with sto := { State.sto (cmdDev (nvme 1 1 .running [(4, 4, 1)])) with vols := [(6, { vol6 with remote := true, conn := 9 })], reqs := [(5, ⟨6, none, 1, 0, 1, [], 0, false, []⟩)] } }) with inbox := [(9, List.replicate 12 0 ++ [5, 0, 0, 0])] } }) with inbox := [] } }, by decide +kernel⟩⟩

theorem test_meets_PresentedAdminCompletes :
    (∃ (i n : Nat) (m : NvmeCmd) (c : Ctrl) (s : State), s.adminStarted i 5 = some (m, c) ∧ badFields m.sqe = false ∧ 1 ≤ qidOf m.sqe ∧ qidOf m.sqe ≤ c.nq ∧ tblGet c.cqs (qidOf m.sqe) = none ∧ queueSize m.sqe = some n ∧ eN m.sqe 46 2 ≤ (s.sheetFunc c.sheet).msixN ∧ eN m.sqe 24 8 % 4096 = 0 ∧ s.usage c.sheet 0 < s.limit c.sheet 0)
    ∧ (∃ (i n : Nat) (k : CompQueue) (m : NvmeCmd) (c : Ctrl) (s : State), s.adminStarted i 1 = some (m, c) ∧ badFields m.sqe = false ∧ 1 ≤ qidOf m.sqe ∧ qidOf m.sqe ≤ c.nq ∧ tblGet c.sqs (qidOf m.sqe) = none ∧ eN m.sqe 46 2 ≠ 0 ∧ tblGet c.cqs (eN m.sqe 46 2) = some k ∧ queueSize m.sqe = some n ∧ eN m.sqe 24 8 % 4096 = 0 ∧ s.portSqs (s.sheetPortD c.sheet) < 65536 / s.endpoints.length ∧ s.usage c.sheet 0 < s.limit c.sheet 0)
    ∧ (∃ (i : Nat) (k : SubQueue) (m : NvmeCmd) (c d : Ctrl) (s u : State), s.adminStarted i 0 = some (m, c) ∧ badFields m.sqe = false ∧ qidOf m.sqe ≠ 0 ∧ tblGet c.sqs (qidOf m.sqe) = some k ∧ u = catchSq m.ctrl (qidOf m.sqe) (closeSq k s) ∧ u.sqCmds m.ctrl (qidOf m.sqe) = [] ∧ u.ctrl? m.ctrl = some d)
    ∧ (∃ (i : Nat) (k : CompQueue) (m : NvmeCmd) (c : Ctrl) (s : State), s.adminStarted i 4 = some (m, c) ∧ badFields m.sqe = false ∧ qidOf m.sqe ≠ 0 ∧ tblGet c.cqs (qidOf m.sqe) = some k ∧ c.sqs.any (fun x => x.2.cq == qidOf m.sqe) = false)
    ∧ (∃ (i cns : Nat) (l : List (Nat × Nat)) (bs : Bytes) (m : NvmeCmd) (c : Ctrl) (a : Attach) (x : Volume) (s t : State), s.adminStarted i 6 = some (m, c) ∧ badFields m.sqe = false ∧ cns = eN m.sqe 40 1 ∧ ((cns = 0 ∧ t = s ∧ 1 ≤ nvNsid m.sqe ∧ nvNsid m.sqe ≤ 256 ∧ tblGet c.attach (nvNsid m.sqe) = some a ∧ s.vol? a.vol = some x ∧ bs = identifyNs x a ∨ cns = 0 ∧ t = s ∧ 1 ≤ nvNsid m.sqe ∧ nvNsid m.sqe ≤ 256 ∧ tblGet c.attach (nvNsid m.sqe) = none ∧ bs = pageOf [] ∨ cns = 1 ∧ (bs, t) = identifyCtrl m.ctrl s ∨ cns = 2 ∧ t = s ∧ nvNsid m.sqe < 0xFFFFFFFE ∧ bs = nsList c (nvNsid m.sqe) ∨ cns = 3 ∧ tblGet c.attach (nvNsid m.sqe) = some a ∧ s.vol? a.vol = some x ∧ t = (drawBytes 2 s).2 ∧ bs = pageOf [(0, [3, 16, 0, 0] ++ (drawBytes 2 s).1)])) ∧ prpPieces m.sqe [] bs.length = some l)
    ∧ (∃ (i cns : Nat) (l : List (Nat × Nat)) (bs : Bytes) (m : NvmeCmd) (c : Ctrl) (a : Attach) (x : Volume) (s t : State), s.adminStarted i 6 = some (m, c) ∧ badFields m.sqe = false ∧ cns = eN m.sqe 40 1 ∧ ((cns = 0 ∧ t = s ∧ 1 ≤ nvNsid m.sqe ∧ nvNsid m.sqe ≤ 256 ∧ tblGet c.attach (nvNsid m.sqe) = some a ∧ s.vol? a.vol = some x ∧ bs = identifyNs x a ∨ cns = 0 ∧ t = s ∧ 1 ≤ nvNsid m.sqe ∧ nvNsid m.sqe ≤ 256 ∧ tblGet c.attach (nvNsid m.sqe) = none ∧ bs = pageOf [] ∨ cns = 1 ∧ (bs, t) = identifyCtrl m.ctrl s ∨ cns = 2 ∧ t = s ∧ nvNsid m.sqe < 0xFFFFFFFE ∧ bs = nsList c (nvNsid m.sqe) ∨ cns = 3 ∧ tblGet c.attach (nvNsid m.sqe) = some a ∧ s.vol? a.vol = some x ∧ t = (drawBytes 2 s).2 ∧ bs = pageOf [(0, [3, 16, 0, 0] ++ (drawBytes 2 s).1)])) ∧ prpPieces m.sqe [] bs.length = some l)
    ∧ (∃ (i cns : Nat) (l : List (Nat × Nat)) (bs : Bytes) (m : NvmeCmd) (c : Ctrl) (a : Attach) (x : Volume) (s t : State), s.adminStarted i 6 = some (m, c) ∧ badFields m.sqe = false ∧ cns = eN m.sqe 40 1 ∧ ((cns = 0 ∧ t = s ∧ 1 ≤ nvNsid m.sqe ∧ nvNsid m.sqe ≤ 256 ∧ tblGet c.attach (nvNsid m.sqe) = some a ∧ s.vol? a.vol = some x ∧ bs = identifyNs x a ∨ cns = 0 ∧ t = s ∧ 1 ≤ nvNsid m.sqe ∧ nvNsid m.sqe ≤ 256 ∧ tblGet c.attach (nvNsid m.sqe) = none ∧ bs = pageOf [] ∨ cns = 1 ∧ (bs, t) = identifyCtrl m.ctrl s ∨ cns = 2 ∧ t = s ∧ nvNsid m.sqe < 0xFFFFFFFE ∧ bs = nsList c (nvNsid m.sqe) ∨ cns = 3 ∧ tblGet c.attach (nvNsid m.sqe) = some a ∧ s.vol? a.vol = some x ∧ t = (drawBytes 2 s).2 ∧ bs = pageOf [(0, [3, 16, 0, 0] ++ (drawBytes 2 s).1)])) ∧ prpPieces m.sqe [] bs.length = some l)
    ∧ (∃ (i cns : Nat) (l : List (Nat × Nat)) (bs : Bytes) (m : NvmeCmd) (c : Ctrl) (a : Attach) (x : Volume) (s t : State), s.adminStarted i 6 = some (m, c) ∧ badFields m.sqe = false ∧ cns = eN m.sqe 40 1 ∧ ((cns = 0 ∧ t = s ∧ 1 ≤ nvNsid m.sqe ∧ nvNsid m.sqe ≤ 256 ∧ tblGet c.attach (nvNsid m.sqe) = some a ∧ s.vol? a.vol = some x ∧ bs = identifyNs x a ∨ cns = 0 ∧ t = s ∧ 1 ≤ nvNsid m.sqe ∧ nvNsid m.sqe ≤ 256 ∧ tblGet c.attach (nvNsid m.sqe) = none ∧ bs = pageOf [] ∨ cns = 1 ∧ (bs, t) = identifyCtrl m.ctrl s ∨ cns = 2 ∧ t = s ∧ nvNsid m.sqe < 0xFFFFFFFE ∧ bs = nsList c (nvNsid m.sqe) ∨ cns = 3 ∧ tblGet c.attach (nvNsid m.sqe) = some a ∧ s.vol? a.vol = some x ∧ t = (drawBytes 2 s).2 ∧ bs = pageOf [(0, [3, 16, 0, 0] ++ (drawBytes 2 s).1)])) ∧ prpPieces m.sqe [] bs.length = some l)
    ∧ (∃ (i cns : Nat) (l : List (Nat × Nat)) (bs : Bytes) (m : NvmeCmd) (c : Ctrl) (a : Attach) (x : Volume) (s t : State), s.adminStarted i 6 = some (m, c) ∧ badFields m.sqe = false ∧ cns = eN m.sqe 40 1 ∧ ((cns = 0 ∧ t = s ∧ 1 ≤ nvNsid m.sqe ∧ nvNsid m.sqe ≤ 256 ∧ tblGet c.attach (nvNsid m.sqe) = some a ∧ s.vol? a.vol = some x ∧ bs = identifyNs x a ∨ cns = 0 ∧ t = s ∧ 1 ≤ nvNsid m.sqe ∧ nvNsid m.sqe ≤ 256 ∧ tblGet c.attach (nvNsid m.sqe) = none ∧ bs = pageOf [] ∨ cns = 1 ∧ (bs, t) = identifyCtrl m.ctrl s ∨ cns = 2 ∧ t = s ∧ nvNsid m.sqe < 0xFFFFFFFE ∧ bs = nsList c (nvNsid m.sqe) ∨ cns = 3 ∧ tblGet c.attach (nvNsid m.sqe) = some a ∧ s.vol? a.vol = some x ∧ t = (drawBytes 2 s).2 ∧ bs = pageOf [(0, [3, 16, 0, 0] ++ (drawBytes 2 s).1)])) ∧ prpPieces m.sqe [] bs.length = some l)
    ∧ (∃ (i : Nat) (pages : List Nat) (l : List (Nat × Nat)) (bs : Bytes) (m : NvmeCmd) (c : Ctrl) (s : State), s.adminStarted i 2 = some (m, c) ∧ badFields m.sqe = false ∧ eN m.sqe 40 1 = 0xC0 ∧ bs = fitTo (4 * (eN m.sqe 42 2 + 1)) (lostPage c) ∧ prpPieces m.sqe pages bs.length = some l)
    ∧ (∃ (i : Nat) (pages : List Nat) (l : List (Nat × Nat)) (bs : Bytes) (m : NvmeCmd) (c : Ctrl) (s t : State), s.adminStarted i 2 = some (m, c) ∧ badFields m.sqe = false ∧ 1 ≤ eN m.sqe 40 1 ∧ eN m.sqe 40 1 ≤ 3 ∧ drawBytes ((4 * (eN m.sqe 42 2 + 1) + 7) / 8) s = (bs, t) ∧ prpPieces m.sqe pages (bs.take (4 * (eN m.sqe 42 2 + 1))).length = some l)
    ∧ (∃ (i k : Nat) (m x : NvmeCmd) (c : Ctrl) (s : State), s.adminStarted i 8 = some (m, c) ∧ badFields m.sqe = false ∧ s.abortsOut m.ctrl m.order < 4 ∧ s.abortTarget i m.ctrl (eN m.sqe 40 2) (eN m.sqe 42 2) = some (k, x) ∧ x.caught = true ∧ ((∀ e, c.entering = some e → e.2 ≠ k)))
    ∧ (∃ (i : Nat) (m : NvmeCmd) (c : Ctrl) (s : State), s.adminStarted i 8 = some (m, c) ∧ badFields m.sqe = false ∧ s.abortsOut m.ctrl m.order < 4 ∧ ((∀ k, s.abortTarget i m.ctrl (eN m.sqe 40 2) (eN m.sqe 42 2) = some k → k.2.caught = false)))
    ∧ (∃ (i fid : Nat) (m : NvmeCmd) (c : Ctrl) (s : State), s.adminStarted i 9 = some (m, c) ∧ badFields m.sqe = false ∧ eBits m.sqe 43 7 1 = 0 ∧ fid = eN m.sqe 40 1 ∧ ((fid = 1 ∨ fid = 6 ∨ fid = 8 ∨ fid = 0x0B)))
    ∧ (∃ (i fid : Nat) (m : NvmeCmd) (c : Ctrl) (s : State), s.adminStarted i 9 = some (m, c) ∧ badFields m.sqe = false ∧ eBits m.sqe 43 7 1 = 0 ∧ fid = eN m.sqe 40 1 ∧ ((fid = 1 ∨ fid = 6 ∨ fid = 8 ∨ fid = 0x0B)))
    ∧ (∃ (i : Nat) (m : NvmeCmd) (c : Ctrl) (s : State), s.adminStarted i 9 = some (m, c) ∧ badFields m.sqe = false ∧ eBits m.sqe 43 7 1 = 0 ∧ eN m.sqe 40 1 = 2 ∧ eN m.sqe 44 4 % 32 ≤ 2 ∧ c.entering = none ∧ c.leaving = false)
    ∧ (∃ (i : Nat) (m : NvmeCmd) (c : Ctrl) (s : State), s.adminStarted i 9 = some (m, c) ∧ badFields m.sqe = false ∧ eBits m.sqe 43 7 1 = 0 ∧ eN m.sqe 40 1 = 7 ∧ ((∀ q ∈ c.sqs, q.1 = 0)) ∧ ((∀ q ∈ c.cqs, q.1 = 0)) ∧ eN m.sqe 44 4 % 65536 ≠ 65535 ∧ eN m.sqe 44 4 / 65536 ≠ 65535)
    ∧ (∃ (i fid : Nat) (m : NvmeCmd) (c : Ctrl) (s : State), s.adminStarted i 0x0A = some (m, c) ∧ badFields m.sqe = false ∧ fid = eN m.sqe 40 1 ∧ ((fid = 1 ∨ fid = 2 ∨ fid = 6 ∨ fid = 7 ∨ fid = 8 ∨ fid = 0x0B)))
    ∧ (∃ (i fid : Nat) (m : NvmeCmd) (c : Ctrl) (s : State), s.adminStarted i 0x0A = some (m, c) ∧ badFields m.sqe = false ∧ fid = eN m.sqe 40 1 ∧ ((fid = 1 ∨ fid = 2 ∨ fid = 6 ∨ fid = 7 ∨ fid = 8 ∨ fid = 0x0B)))
    ∧ (∃ (i fid : Nat) (m : NvmeCmd) (c : Ctrl) (s : State), s.adminStarted i 0x0A = some (m, c) ∧ badFields m.sqe = false ∧ fid = eN m.sqe 40 1 ∧ ((fid = 1 ∨ fid = 2 ∨ fid = 6 ∨ fid = 7 ∨ fid = 8 ∨ fid = 0x0B)))
    ∧ (∃ (i : Nat) (m : NvmeCmd) (c : Ctrl) (s : State), s.adminStarted i 0x0C = some (m, c) ∧ c.aers.length < 4)
    ∧ (∃ (i : Nat) (m : NvmeCmd) (s : State), s.cmd? i = some m ∧ m.phase = .started ∧ opImplemented m.sq (nvOp m.sqe) = false)
    ∧ (∃ (n ps k : Nat) (m : NvmeCmd) (c : Ctrl) (s : State), s.ctrl? n = some c ∧ c.entering = some (ps, k) ∧ s.cmd? k = some m ∧ s.startedBefore n c m.order = false)
    ∧ (∃ (n : Nat) (c : Ctrl) (s : State), s.ctrl? n = some c ∧ c.leaving = true)
    ∧ (∃ (n q : Nat) (k : CompQueue) (c : Ctrl) (s : State), s.ctrl? n = some c ∧ tblGet c.cqs q = some k ∧ k.unannounced ≠ 0) :=
  ⟨⟨2, 4, nvme 0 5 .started [(24, 8, 8192), (40, 2, 4), (42, 2, 15), (44, 2, 3), (46, 2, 31)], ctrl, cmdDev (nvme 0 5 .started [(24, 8, 8192), (40, 2, 4), (42, 2, 15), (44, 2, 3), (46, 2, 31)]), by decide +kernel⟩,
   ⟨2, 16, ⟨53, 0, true, 1⟩, nvme 0 1 .started [(24, 8, 8192), (40, 2, 2), (42, 2, 65535), (44, 2, 1), (46, 2, 1)], ctrl, cmdDev (nvme 0 1 .started [(24, 8, 8192), (40, 2, 2), (42, 2, 65535), (44, 2, 1), (46, 2, 1)]), by decide +kernel⟩,
   ⟨2, ⟨52, 1, 0⟩, nvme 0 0 .started [(40, 2, 1)], ctrl, (((State.ctrl? (catchSq 3 1 (closeSq ⟨52, 1, 0⟩ (cmdDev (nvme 0 0 .started [(40, 2, 1)])))) 3)).getD ctrl), cmdDev (nvme 0 0 .started [(40, 2, 1)]), catchSq 3 1 (closeSq ⟨52, 1, 0⟩ (cmdDev (nvme 0 0 .started [(40, 2, 1)]))), by decide +kernel⟩,
   ⟨2, ⟨53, 0, true, 1⟩, nvme 0 4 .started [(40, 2, 1)], { ctrl with sqs := [(0, ⟨50, 0, 0⟩)] }, stoDev { ctrl with sqs := [(0, ⟨50, 0, 0⟩)] } [(2, nvme 0 4 .started [(40, 2, 1)])], by decide +kernel⟩,
   ⟨2, 0, [(8192, 4096)], identifyNs vol6 ⟨6, false, false, none⟩, nvme 0 6 .started [(4, 4, 1), (24, 8, 8192), (40, 1, 0)], ctrl, ⟨6, false, false, none⟩, vol6, cmdDev (nvme 0 6 .started [(4, 4, 1), (24, 8, 8192), (40, 1, 0)]), (cmdDev (nvme 0 6 .started [(4, 4, 1), (24, 8, 8192), (40, 1, 0)])), ⟨by decide +kernel, by decide +kernel, by decide +kernel, .inl ⟨by decide +kernel, rfl, by decide +kernel, by decide +kernel, by decide +kernel, by decide +kernel, rfl⟩, by decide +kernel⟩⟩,
   ⟨2, 0, [(8192, 4096)], pageOf [], nvme 0 6 .started [(4, 4, 256), (24, 8, 8192), (40, 1, 0)], ctrl, ⟨6, false, false, none⟩, vol6, cmdDev (nvme 0 6 .started [(4, 4, 256), (24, 8, 8192), (40, 1, 0)]), (cmdDev (nvme 0 6 .started [(4, 4, 256), (24, 8, 8192), (40, 1, 0)])), ⟨by decide +kernel, by decide +kernel, by decide +kernel, .inr (.inl ⟨by decide +kernel, rfl, by decide +kernel, by decide +kernel, by decide +kernel, rfl⟩), by decide +kernel⟩⟩,
   ⟨2, 1, [(8192, 4096)], (identifyCtrl (NvmeCmd.ctrl (nvme 0 6 .started [(4, 4, 0), (24, 8, 8192), (40, 1, 1)])) (cmdDev (nvme 0 6 .started [(4, 4, 0), (24, 8, 8192), (40, 1, 1)]))).1, nvme 0 6 .started [(4, 4, 0), (24, 8, 8192), (40, 1, 1)], ctrl, ⟨6, false, false, none⟩, vol6, cmdDev (nvme 0 6 .started [(4, 4, 0), (24, 8, 8192), (40, 1, 1)]), (identifyCtrl (NvmeCmd.ctrl (nvme 0 6 .started [(4, 4, 0), (24, 8, 8192), (40, 1, 1)])) (cmdDev (nvme 0 6 .started [(4, 4, 0), (24, 8, 8192), (40, 1, 1)]))).2, ⟨by decide +kernel, by decide +kernel, by decide +kernel,   .inr (.inr (.inl ⟨by decide +kernel, Prod.mk.eta⟩)), by decide +kernel⟩⟩,
   ⟨2, 2, [(8192, 4096)], nsList ctrl 0, nvme 0 6 .started [(4, 4, 0), (24, 8, 8192), (40, 1, 2)], ctrl, ⟨6, false, false, none⟩, vol6, cmdDev (nvme 0 6 .started [(4, 4, 0), (24, 8, 8192), (40, 1, 2)]), (cmdDev (nvme 0 6 .started [(4, 4, 0), (24, 8, 8192), (40, 1, 2)])), ⟨by decide +kernel, by decide +kernel, by decide +kernel, .inr (.inr (.inr (.inl ⟨by decide +kernel, rfl, by decide +kernel, rfl⟩))), by decide +kernel⟩⟩,
   ⟨2, 3, [(8192, 4096)], pageOf [(0, [3, 16, 0, 0] ++ (drawBytes 2 (cmdDev (nvme 0 6 .started [(4, 4, 1), (24, 8, 8192), (40, 1, 3)]))).1)], nvme 0 6 .started [(4, 4, 1), (24, 8, 8192), (40, 1, 3)], ctrl, ⟨6, false, false, none⟩, vol6, cmdDev (nvme 0 6 .started [(4, 4, 1), (24, 8, 8192), (40, 1, 3)]), (drawBytes 2 (cmdDev (nvme 0 6 .started [(4, 4, 1), (24, 8, 8192), (40, 1, 3)]))).2, ⟨by decide +kernel, by decide +kernel, by decide +kernel, .inr (.inr (.inr (.inr ⟨by decide +kernel, by decide +kernel, by decide +kernel, rfl, rfl⟩))), by decide +kernel⟩⟩,
   ⟨2, [], [(8192, 16)], fitTo 16 (lostPage ctrl), nvme 0 2 .started [(24, 8, 8192), (40, 1, 0xC0), (41, 1, 1), (42, 2, 3)], ctrl, cmdDev (nvme 0 2 .started [(24, 8, 8192), (40, 1, 0xC0), (41, 1, 1), (42, 2, 3)]), by decide +kernel⟩,
   ⟨2, [], [(8192, 16)], (drawBytes 2 (cmdDev (nvme 0 2 .started [(24, 8, 8192), (40, 1, 1), (42, 2, 3)]))).1, nvme 0 2 .started [(24, 8, 8192), (40, 1, 1), (42, 2, 3)], ctrl, cmdDev (nvme 0 2 .started [(24, 8, 8192), (40, 1, 1), (42, 2, 3)]), (drawBytes 2 (cmdDev (nvme 0 2 .started [(24, 8, 8192), (40, 1, 1), (42, 2, 3)]))).2, ⟨by decide +kernel, by decide +kernel, by decide +kernel, by decide +kernel, rfl, rfl⟩⟩,
   ⟨2, 7, nvme 0 8 .started [(40, 2, 1), (42, 2, 9)], nvme 1 1 .fetched [(4, 4, 1)], ctrl, stoDev ctrl [(2, nvme 0 8 .started [(40, 2, 1), (42, 2, 9)]), (7, nvme 1 1 .fetched [(4, 4, 1)])], ⟨by decide +kernel, by decide +kernel, by decide +kernel, by decide +kernel, by decide +kernel, fun e h => nomatch h⟩⟩,
   ⟨2, nvme 0 8 .started [(40, 2, 1), (42, 2, 9)], ctrl, stoDev ctrl [(2, nvme 0 8 .started [(40, 2, 1), (42, 2, 9)])], ⟨by decide +kernel, by decide +kernel, by decide +kernel, fun k h => nomatch h⟩⟩,
   ⟨2, 1, nvme 0 9 .started [(40, 1, 1), (44, 4, 1)], ctrl, cmdDev (nvme 0 9 .started [(40, 1, 1), (44, 4, 1)]), by decide +kernel⟩,
   ⟨2, 11, nvme 0 9 .started [(40, 1, 11), (44, 4, 1)], ctrl, cmdDev (nvme 0 9 .started [(40, 1, 11), (44, 4, 1)]), by decide +kernel⟩,
   ⟨2, nvme 0 9 .started [(40, 1, 2), (44, 4, 2)], ctrl, cmdDev (nvme 0 9 .started [(40, 1, 2), (44, 4, 2)]), by decide +kernel⟩,
   ⟨2, nvme 0 9 .started [(40, 1, 7), (44, 4, 0x00030003)], { ctrl with sqs := [(0, ⟨50, 0, 0⟩)], cqs := [(0, ⟨51, 0, true, 0⟩)] }, stoDev { ctrl with sqs := [(0, ⟨50, 0, 0⟩)], cqs := [(0, ⟨51, 0, true, 0⟩)] } [(2, nvme 0 9 .started [(40, 1, 7), (44, 4, 0x00030003)])], by decide +kernel⟩,
   ⟨2, 1, nvme 0 0x0A .started [(40, 1, 1)], ctrl, cmdDev (nvme 0 0x0A .started [(40, 1, 1)]), by decide +kernel⟩,
   ⟨2, 2, nvme 0 0x0A .started [(40, 1, 2)], ctrl, cmdDev (nvme 0 0x0A .started [(40, 1, 2)]), by decide +kernel⟩,
   ⟨2, 11, nvme 0 0x0A .started [(40, 1, 11)], ctrl, cmdDev (nvme 0 0x0A .started [(40, 1, 11)]), by decide +kernel⟩,
   ⟨2, nvme 0 0x0C .started [], ctrl, cmdDev (nvme 0 0x0C .started []), by decide +kernel⟩,
   ⟨2, nvme 0 0x7F .started [], cmdDev (nvme 0 0x7F .started []), by decide +kernel⟩,
   ⟨3, 1, 2, nvme 0 9 .running [(40, 1, 2), (44, 4, 1)], { ctrl with entering := some (1, 2) }, stoDev { ctrl with entering := some (1, 2) } [(2, nvme 0 9 .running [(40, 1, 2), (44, 4, 1)])], by decide +kernel⟩,
   ⟨3, { ctrl with leaving := true }, stoDev { ctrl with leaving := true } [], by decide +kernel⟩,
   ⟨3, 1, ⟨53, 0, true, 1⟩, ctrl, stoDev ctrl [], by decide +kernel⟩⟩

theorem test_meets_PenlithInstructionsComplete :
    (∃ (t hit : Nat) (v : BitVec 64) (s : State), s.runs t = true ∧ hit = (BitVec.ofNat 7 (s.latch t) &&& v.setWidth 7).toNat ∧ hit ≠ 0)
    ∧ (∃ (t hit : Nat) (v : BitVec 64) (s : State), s.runs t = true ∧ hit = (BitVec.ofNat 7 (s.latch t) &&& v.setWidth 7).toNat ∧ hit = 0)
    ∧ (∃ (t rd mask hit : Nat) (s : State), (s.thread t).armed = some (mask, rd) ∧ s.threadState t = 2 ∧ hit = (BitVec.ofNat 7 (s.latch t) &&& BitVec.ofNat 7 mask).toNat ∧ hit ≠ 0)
    ∧ (∃ (t u : Nat) (v : BitVec 64) (s : State), s.runs t = true ∧ u = v.toNat % 256)
    ∧ (∃ (t k g i : Nat) (v : BitVec 64) (s : State), s.runs t = true ∧ k = v.toNat / 64 % 8 ∧ g = v.toNat % 64 ∧ s.bit (PNL_GAL_EN k g) = true ∧ s.rd (PNL_GAL_KIND k g) ≠ 2 ∧ s.freeSlotOf k g = some i)
    ∧ (∃ (t k g i : Nat) (v : BitVec 64) (s : State), s.runs t = true ∧ k = v.toNat / 64 % 8 ∧ g = v.toNat % 64 ∧ s.bit (PNL_GAL_EN k g) = true ∧ s.rd (PNL_GAL_KIND k g) ≠ 2 ∧ s.freeSlotOf k g = some i)
    ∧ (∃ (t k g i : Nat) (v : BitVec 64) (s : State), s.runs t = true ∧ s.slotAt v.toNat = some (k, g, i) ∧ tblGet s.pnl.slots (slotKey k g i) = some (.reserved t))
    ∧ (∃ (t g i : Nat) (v : BitVec 64) (s : State), s.runs t = true ∧ v.toNat / 64 % 8 = t / 32 ∧ g = v.toNat % 64 ∧ s.bit (PNL_GAL_EN (t / 32) g) = true ∧ s.rd (PNL_GAL_KIND (t / 32) g) ≠ 1 ∧ s.oldestSealed (t / 32) g = some i)
    ∧ (∃ (t k g i c : Nat) (v : BitVec 64) (s : State), s.runs t = true ∧ s.slotAt v.toNat = some (k, g, i) ∧ tblGet s.pnl.slots (slotKey k g i) = some (.taken c) ∧ s.rd (PNL_GAL_KIND k g) ≠ 1)
    ∧ (∃ (t : Nat) (s : State), s.runs t = true)
    ∧ (∃ (t : Nat) (w : BitVec 32) (s : State), s.runs t = true ∧ illegalWord w = true) :=
  ⟨⟨1, 8, 8, setFields [(PNL_THR_STAT_LATCH 0 1, 8)] (penDev []), by decide +kernel⟩,
   ⟨1, 0, 8, penDev [], by decide +kernel⟩,
   ⟨1, 5, 12, 8, setFields [(PNL_THR_STAT_STATE 0 1, 2), (PNL_THR_STAT_LATCH 0 1, 9)] { dev with pnl := { dev.pnl with threads := [(1, { Thread.fresh with armed := some (12, 5) })] } }, by decide +kernel⟩,
   ⟨1, 255, 255, penDev [], by decide +kernel⟩,
   ⟨1, 0, 0, 0, 0, penDev [], by decide +kernel⟩,
   ⟨1, 0, 0, 3, 0, penDev [(0, .taken 0), (1, .taken 0), (2, .taken 0)], by decide +kernel⟩,
   ⟨1, 0, 0, 1, 0xF080040, penDev [(1, .reserved 1)], by decide +kernel⟩,
   ⟨1, 0, 2, 0, penDev [(1, .sealed 7), (2, .sealed 6)], by decide +kernel⟩,
   ⟨1, 0, 0, 3, 0, 0xF0800C0, penDev [(3, .taken 0)], by decide +kernel⟩,
   ⟨1, penDev [], by decide +kernel⟩,
   ⟨1, 0x2B, penDev [], by decide +kernel⟩⟩

theorem test_meets_ThreadControlCompletes :
    (∃ (t : Nat) (s : State), t < 256 ∧ s.bit (PNL_THR_STAT_TIMER_ARMED (t / 32) (t % 32)) = true ∧ s.reached (s.reg (PNL_THR_TIMER (t / 32) (t % 32))) = true)
    ∧ (∃ (k g t : Nat) (rest : List Nat) (s : State), k < 8 ∧ g < 15 ∧ s.groupThreads k g = t :: rest ∧ ((∀ u ∈ t :: rest, s.stuck (32 * k + u) = true)) ∧ s.pnl.declared.contains (k * 16 + g) = false)
    ∧ (∃ (k : Nat), k < 8)
    ∧ (∃ (t : Nat) (s : State), t < 256 ∧ s.threadState t = 0 ∧ (s.rd SVY_RELEASE_CLUSTER).testBit (t / 32) = true ∧ s.health.coresFailed.contains (s.coreOf t) = false)
    ∧ (∃ (t : Nat) (s u : State), t < 256 ∧ u = abandonSlots t (s.reservedBy t none) s ∧ (u.setThread t { u.thread t with armed := none }).threadState t ≠ 4)
    ∧ (∃ (t : Nat) (s : State), t < 256 ∧ ((s.threadState t = 1 ∨ s.threadState t = 2)) ∧ s.haltRefused t = false)
    ∧ (∃ (t : Nat) (s : State), t < 256 ∧ ((s.threadState t = 1 ∨ s.threadState t = 2)) ∧ s.haltRefused t = false)
    ∧ (∃ (t : Nat) (s : State), t < 256 ∧ s.threadState t = 3)
    ∧ (∃ (t : Nat), t < 256)
    ∧ (∃ (k t g : Nat) (s : State), k < 8 ∧ t < 32 ∧ g < 64 ∧ s.threadState (32 * k + t) = 3 ∧ (s.thread (32 * k + t)).haltedAt + s.rd (PNL_DBG_CFG_ABANDON_MS k) * 1000000 ≤ s.ns)
    ∧ (∃ (k t u : Nat) (s : State), k < 8 ∧ t < 32 ∧ u < 32 ∧ s.bit (PNL_MIGRATE_STATUS_BUSY k) = false ∧ s.coreOf (32 * k + t) ≠ s.coreOf (32 * k + u))
    ∧ (∃ (k t u st su : Nat) (s : State), tblGet s.pnl.moving k = some (t, u, st, su))
    ∧ (∃ (k : Nat), k < 8) :=
  ⟨⟨1, setFields [(PNL_THR_STAT_TIMER_ARMED 0 1, 1)] dev, by decide +kernel⟩,
   ⟨0, 3, 1, [], setFields [(PNL_THR_CFG_WGRP 0 1, 3), (PNL_THR_STAT_STATE 0 1, 2)] { dev with pnl := { dev.pnl with threads := [(1, { Thread.fresh with armed := some (4, 5) })] } }, by decide +kernel⟩,
   ⟨7, by decide +kernel⟩,
   ⟨1, setFields [(SVY_RELEASE_CLUSTER, 1)] dev, by decide +kernel⟩,
   ⟨1, thrDev 1, abandonSlots 1 (State.reservedBy (thrDev 1) 1 none) (thrDev 1), by decide +kernel⟩,
   ⟨1, thrDev 1, by decide +kernel⟩,
   ⟨1, thrDev 2, by decide +kernel⟩,
   ⟨1, thrDev 3, by decide +kernel⟩,
   ⟨255, by decide +kernel⟩,
   ⟨0, 1, 63, setFields [(PNL_DBG_CFG_ABANDON_MS 0, 1)] (thrDev 3), by decide +kernel⟩,
   ⟨0, 1, 31, setFields [(PNL_THR_STAT_CONTEXT 0 31, 31)] (thrDev 1), by decide +kernel⟩,
   ⟨0, 1, 31, 1, 0, { thrDev 4 with pnl := { dev.pnl with moving := [(0, (1, 31, 1, 0))] } }, by decide +kernel⟩,
   ⟨7, by decide +kernel⟩⟩

theorem test_meets_GalleriesAndCairnsComplete :
    (∃ (k g i len cls : Nat) (s : State), k < 8 ∧ g < 64 ∧ s.galIs k g 1 = true ∧ s.oldestSealed k g = some i ∧ len = ofLe (s.cluRead (s.slotAddr k g i) 2) ∧ cls = ofLe (s.cluRead (s.slotAddr k g i + 2) 1) % 8 ∧ 14 ≤ len ∧ len ≤ 9216 ∧ len + 16 ≤ s.slotSize k g ∧ s.creditUsed (112 + k) + setts len ≤ 1024 ∧ s.stopped (112 + k) cls = false)
    ∧ (∃ (k g i : Nat) (p : Packet) (s : State), k < 8 ∧ (tblGetD [] s.swc.handed (112 + k)).find? (s.cluTakes k) = some p ∧ s.deliveryGallery k p.cls = some g ∧ s.freeSlotOf k g = some i)
    ∧ (∃ (k g : Nat) (v w : BitVec 64) (s : State), k < 8 ∧ g < 64 ∧ s.bit (PNL_GAL_EN k g) = false ∧ w = (if getField (putField v 30 34 0) 1 2 = 2 then putField (putField v 30 34 0) 10 4 15 else putField v 30 34 0) ∧ getField w 0 1 = 1 ∧ galFieldsOk w = true ∧ s.galFits k g w = true)
    ∧ (∃ (c : Nat) (on : List Nat) (s : State), c < 64 ∧ s.health.coresFailed.contains c = false ∧ on = ((List.range 32).map (fun t => 32 * (c / 8) + t)).filter (fun t => s.coreOf t == c && s.threadState t != 0))
    ∧ (∃ (k t n : Nat) (who : Party) (s : State), k < 8 ∧ t < 32 ∧ s.islandRuns (0x90 + k) = true ∧ s.reaches who (CRN_CLAIM k t) = true ∧ s.outputOf who (CRN_CLAIM k t) = none ∧ s.cairnSource k t = some n)
    ∧ (∃ (k n : Nat) (c : CairnSrc) (s : State), k < 8 ∧ n < 1024 ∧ tblGet s.cairns (k * 1024 + n) = some c ∧ c.inserv = true)
    ∧ (∃ (k n : Nat), k < 8 ∧ 512 ≤ n ∧ n < 1024)
    ∧ (∃ (k n : Nat), k < 8 ∧ 512 ≤ n ∧ n < 1024) :=
  ⟨⟨0, 1, 0, 60, 0, { penDev [(256, .sealed 0)] with pnl := { State.pnl (penDev [(256, .sealed 0)]) with mem := [(0xF080100, 60)] } }, by decide +kernel⟩,
   ⟨0, 2, 0, packet, { penDev [] with swc := { dev.swc with handed := [(112, [packet])] } }, by decide +kernel⟩,
   ⟨0, 63, 1 + 0x80 + 0x20000000, (if getField (putField (1 + 0x80 + 0x20000000 : BitVec 64) 30 34 0) 1 2 = 2 then putField (putField (1 + 0x80 + 0x20000000 : BitVec 64) 30 34 0) 10 4 15 else putField (1 + 0x80 + 0x20000000 : BitVec 64) 30 34 0), penDev [], by decide +kernel⟩,
   ⟨63, [], dev, by decide +kernel⟩,
   ⟨0, 31, 600, .firmware 0, setFields [(CRN_SRC_EN 0 600, 1), (CRN_SRC_TARGET 0 600, 0x80000000)] { dev with cairns := [(600, ⟨true, false⟩)], islands := (0x90, onIsland false) :: dev.islands }, by decide +kernel⟩,
   ⟨0, 600, ⟨false, true⟩, { dev with cairns := [(600, ⟨false, true⟩)] }, by decide +kernel⟩,
   ⟨7, 512, by decide +kernel⟩,
   ⟨7, 1023, by decide +kernel⟩⟩

theorem test_meets_BootCompletes :
    (∃ (s : State), s.power.inReset = false ∧ s.power.tripped = false)
    ∧ (∃ (c : Nat) (x : Load) (s : State), s.load? c = some x ∧ x.matched = false ∧ x.chunks * 65536 < hdrLen (s.header c x.copy))
    ∧ (∃ (c : Nat) (x : Load) (s : State), s.load? c = some x ∧ x.matched = false ∧ x.started = true ∧ hdrLen (s.header c x.copy) ≤ x.chunks * 65536)
    ∧ (∃ (c : Nat) (x : Load) (s : State), s.load? c = some x ∧ x.matched = false ∧ x.started = true ∧ hdrLen (s.header c x.copy) ≤ x.chunks * 65536)
    ∧ (∃ (c : Nat) (x : Load) (s : State), s.load? c = some x ∧ x.matched = false ∧ x.started = true ∧ hdrLen (s.header c x.copy) ≤ x.chunks * 65536)
    ∧ (∃ (c k : Nat) (x : Load) (s : State), s.load? c = some x ∧ x.matched = true ∧ k < unitsOf c ∧ x.ready.contains k = false ∧ (s.setLoad c { x with ready := k :: x.ready }).classReady c = false)
    ∧ (∃ (c k : Nat) (x : Load) (s t : State), s.load? c = some x ∧ x.matched = true ∧ k < unitsOf c ∧ x.ready.contains k = false ∧ t = s.setLoad c { x with ready := k :: x.ready } ∧ t.classReady c = true)
    ∧ (∃ (c k : Nat) (x : Load) (s : State), s.load? c = some x ∧ x.matched = true ∧ k < unitsOf c ∧ x.ready.contains k = false)
    ∧ (∃ (c : Nat) (x : Load) (s : State), s.load? c = some x ∧ x.chunks ≠ 0)
    ∧ (∃ (c : Nat) (s : State), s.rd SVY_BOOT_STATUS_STATE = 4 ∧ s.boot.found.cause = 0 ∧ s.boot.found.accepted = true ∧ [0, 1].find? (fun k => s.imgState k != 1 && !s.classReady k) = some c ∧ (loadClass c s).1 = true) :=
  ⟨⟨dev, by decide +kernel⟩,
   ⟨2, loading 1 false, loadDev 2 (loading 1 false), by decide +kernel⟩,
   ⟨0, loading 2 true, loadDev 0 (loading 2 true), by decide +kernel⟩,
   ⟨4, loading 2 true, loadDev 4 (loading 2 true), by decide +kernel⟩,
   ⟨5, loading 2 true, loadDev 5 (loading 2 true), by decide +kernel⟩,
   ⟨2, 3, running [], loadDev 2 (running []), by decide +kernel⟩,
   ⟨0, 0, running [], loadDev 0 (running []), (loadDev 0 (running [])).setLoad 0 { running [] with ready := [0] }, ⟨by decide +kernel, by decide +kernel, by decide +kernel, by decide +kernel, rfl, by decide +kernel⟩⟩,
   ⟨0, 0, running [], loadDev 0 (running []), by decide +kernel⟩,
   ⟨0, loading 1 false, loadDev 0 (loading 1 false), by decide +kernel⟩,
   ⟨0, setFields [(SVY_BOOT_STATUS_STATE, 4)] { dev with boot := { dev.boot with found := ⟨0, true, false, [], [], none, none⟩, headers := [(0, header 0), (1, header 0)] } }, by decide +kernel⟩⟩

theorem test_meets_PackagesComplete :
    (∃ (c : Nat) (x : Load) (s : State), s.load? c = some x ∧ x.matched = true ∧ s.copyState c x.copy = 2)
    ∧ (∃ (c : Nat) (s : State), s.load? c = none)
    ∧ (∃ (s : State), s.health.restarting = false ∧ s.boot.runSince ≠ [])
    ∧ (∃ (who : Party) (s : State), s.holdsPort who = true ∧ s.mgmt.update = none ∧ s.bit SVY_RECOV_STATUS_BUSY = false)
    ∧ (∃ (who : Party) (s : State), s.holdsPort who = true ∧ s.mgmt.update = none ∧ s.bit SVY_RECOV_STATUS_BUSY = false)
    ∧ (∃ (s : State), s.boot.installing = 1 ∧ s.mgmt.update = none)
    ∧ (∃ (s : State), s.boot.installing = 2)
    ∧ (∃ (s : State), s.boot.installing = 3) :=
  ⟨⟨2, running [], { loadDev 2 (running []) with boot := { State.boot (loadDev 2 (running [])) with copyStates := [(4, 2)] } }, by decide +kernel⟩,
   ⟨2, dev, by decide +kernel⟩,
   ⟨{ dev with boot := { dev.boot with runSince := [(0, 0)] } }, by decide +kernel⟩,
   ⟨.host 0 0, portDev, by decide +kernel⟩,
   ⟨.bmc, setFields [(SVY_DP_LOCK_OWNER, 2)] dev, by decide +kernel⟩,
   ⟨{ dev with boot := { dev.boot with installing := 1 } }, by decide +kernel⟩,
   ⟨{ dev with boot := { dev.boot with installing := 2 } }, by decide +kernel⟩,
   ⟨{ dev with boot := { dev.boot with installing := 3 } }, by decide +kernel⟩⟩

theorem test_meets_FaultsAndLogsComplete :
    (∃ (ch bank b used : Nat) (s : State), b = bankKey ch bank ∧ used = tblGetD 0 s.health.repairs b ∧ used < 8)
    ∧ (∃ (lines : List Nat) (s u : State), u = { s with health := { s.health with poisoned := lines.foldl (fun l a => if l.contains a then l else a :: l) s.health.poisoned } })
    ∧ (∃ (recent : List Nat) (s u : State), s.rd SVY_BOOT_STATUS_STATE = 3 ∧ recent = s.ns / 1000000000 :: s.health.mismatches.filter (fun t => decide (s.ns / 1000000000 < t + 3600)) ∧ u = logFault 0x0D 0xA2 false (decide (3 ≤ recent.length)) false { s with health := { s.health with mismatches := recent } })
    ∧ (∃ (s : State), ((s.rd SVY_BOOT_STATUS_STATE = 1 ∨ s.rd SVY_BOOT_STATUS_STATE = 2)))
    ∧ (∃ (s : State), s.health.restarting = true ∧ s.classReady 0 = true)
    ∧ (∃ (p : Nat) (held : Bool) (s : State), tblGet s.health.coal p = some held) :=
  ⟨⟨0, 0, bankKey 0 0, 6, { dev with health := { dev.health with repairs := [(bankKey 0 0, 6)] } }, by decide +kernel⟩,
   ⟨[1, 2], dev, { dev with health := { dev.health with poisoned := [2, 1] } }, by decide +kernel⟩,
   ⟨[1], dev, logFault 0x0D 0xA2 false false false { dev with health := { dev.health with mismatches := [1] } }, by decide +kernel⟩,
   ⟨setFields [(SVY_BOOT_STATUS_STATE, 1)] dev, by decide +kernel⟩,
   ⟨{ loadDev 0 (running [0]) with health := { dev.health with restarting := true } }, by decide +kernel⟩,
   ⟨0, true, { dev with health := { dev.health with coal := [(0, true)] } }, by decide +kernel⟩⟩

theorem test_meets_SurveyAndHealthCommandsComplete :
    (∃ (v : Nat) (s : State), s.Wf ∧ v < 2 ^ 32)
    ∧ (∃ (i : Nat) (c : Consumable) (s : State), tblGetD Consumable.fresh s.health.cons i = c ∧ c.present = true ∧ c.kind = 2)
    ∧ (∃ (i : Nat) (reading : WearReading) (c d : Consumable) (s : State), tblGetD Consumable.fresh s.health.cons i = c ∧ c.present = true ∧ readingFits c.kind reading = true ∧ d = sampleWear c reading s)
    ∧ (∃ (s : State), s.health.restarting = false)
    ∧ (∃ (g : Nat) (r : Ring) (j : Job) (s u : State), s.health.restarting = false ∧ s.Starts g 0x70 r j u ∧ u.sheetPf r.sheet = 0 ∧ eN j.first 8 8 % 64 = 0 ∧ 5696 ≤ eN j.first 16 4)
    ∧ (∃ (g n : Nat) (r : Ring) (j : Job) (s u : State), s.health.restarting = false ∧ s.Starts g 0x71 r j u ∧ u.sheetPf r.sheet = 0 ∧ eN j.first 8 8 % 64 = 0 ∧ 0 < eN j.first 20 4 ∧ eN j.first 20 4 ≤ 256 ∧ 64 ≤ eN j.first 16 4 ∧ n = min (min (eN j.first 20 4) (eN j.first 16 4 / 64)) u.unreadSurvey) :=
  ⟨⟨4294967295, dev, by unfold State.Wf regsWf memoriesWf portTablesWf objectTablesWf; decide +kernel⟩,
   ⟨79, { Consumable.fresh with present := true, kind := 2 }, { dev with health := { dev.health with cons := [(79, { Consumable.fresh with present := true, kind := 2 })] } }, by decide +kernel⟩,
   ⟨79, .nvme 100 5, { Consumable.fresh with present := true, kind := 2 }, sampleWear ({ Consumable.fresh with present := true, kind := 2 }) (.nvme 100 5) ({ dev with health := { dev.health with cons := [(79, { Consumable.fresh with present := true, kind := 2 })] } }), { dev with health := { dev.health with cons := [(79, { Consumable.fresh with present := true, kind := 2 })] } }, by decide +kernel⟩,
   ⟨dev, by decide +kernel⟩,
   ⟨5, ring 0 [job (mkEntry 0x70 7 1 [(8, 8, 0x9000), (16, 4, 5696)])], job (mkEntry 0x70 7 1 [(8, 8, 0x9000), (16, 4, 5696)]), withEntry 0 (mkEntry 0x70 7 1 [(8, 8, 0x9000), (16, 4, 5696)]) (dev), begun 0x70 (withEntry 0 (mkEntry 0x70 7 1 [(8, 8, 0x9000), (16, 4, 5696)]) (dev)), by unfold State.Starts; decide +kernel⟩,
   ⟨5, 1, ring 0 [job (mkEntry 0x71 7 1 [(8, 8, 0x9000), (16, 4, 64), (20, 4, 256)])], job (mkEntry 0x71 7 1 [(8, 8, 0x9000), (16, 4, 64), (20, 4, 256)]), withEntry 0 (mkEntry 0x71 7 1 [(8, 8, 0x9000), (16, 4, 64), (20, 4, 256)]) (setFields [(HLT_SURV_WR_COUNT, 3)] dev), begun 0x71 (withEntry 0 (mkEntry 0x71 7 1 [(8, 8, 0x9000), (16, 4, 64), (20, 4, 256)]) (setFields [(HLT_SURV_WR_COUNT, 3)] dev)), by unfold State.Starts; decide +kernel⟩⟩

theorem test_meets_ManagementMessagesComplete :
    (∃ (b op eid : Nat) (s : State), s.hasBinding b = true ∧ op ≤ 1 ∧ 8 ≤ eid ∧ eid ≤ 254)
    ∧ (∃ (b op eid : Nat) (s : State), s.hasBinding b = true ∧ op ≤ 1 ∧ 8 ≤ eid ∧ eid ≤ 254)
    ∧ (∃ (b : Nat) (s : State), s.hasBinding b = true)
    ∧ (∃ (static : Option Nat) (s : State), ((static = none ∨ static = s.mgmt.i3cStatic)))
    ∧ (∃ (static : Option Nat) (s : State), ((static = none ∨ static = s.mgmt.i3cStatic)))
    ∧ (∃ (b : Nat) (s : State), s.hasBinding b = true ∧ s.mgmtReady b = false)
    ∧ (∃ (b a : Nat) (s : State), s.hasBinding b = true ∧ s.mgmtReady b = true ∧ a % regBytes a = 0 ∧ bmcReach a = true ∧ ((isAperture a = true → s.holdsPort .bmc = true)))
    ∧ (∃ (b a : Nat) (d : Bytes) (s : State), s.hasBinding b = true ∧ s.mgmtReady b = true ∧ bmcReach a = true ∧ s.bmcStatus a d.length ≠ 3)
    ∧ (∃ (b off n : Nat) (s : State), s.hasBinding b = true ∧ s.mgmtReady b = true ∧ s.dpStatus off n = 0)
    ∧ (∃ (b off : Nat) (d : Bytes) (s : State), s.hasBinding b = true ∧ s.mgmtReady b = true ∧ s.dpStatus off d.length = 0)
    ∧ (∃ (b : Nat) (s : State), s.hasBinding b = true ∧ s.mgmtReady b = true)
    ∧ (∃ (b k : Nat) (v : Int) (s : State), s.hasBinding b = true ∧ s.mgmtReady b = true ∧ s.numericSensor k = some v)
    ∧ (∃ (b k v : Nat) (s : State), s.hasBinding b = true ∧ s.mgmtReady b = true ∧ s.stateSensor k = some v)
    ∧ (∃ (b : Nat) (s : State), s.hasBinding b = true ∧ s.mgmtReady b = true)
    ∧ (∃ (k v sent b eid : Nat) (rest : List (Nat × Nat × Nat)) (s : State), s.mgmt.unacked = (k, v, sent) :: rest ∧ ((∀ x ∈ rest, x.1 ≠ k)) ∧ s.mgmt.receiver = some (b, eid))
    ∧ (∃ (b tid : Nat) (s : State), s.hasBinding b = true ∧ s.mgmtReady b = true ∧ tid ≠ 0 ∧ tid ≠ 0xFF)
    ∧ (∃ (b : Nat) (s : State), s.hasBinding b = true ∧ s.mgmtReady b = true) :=
  ⟨⟨0, 0, 8, dev, by decide +kernel⟩,
   ⟨1, 1, 254, dev, by decide +kernel⟩,
   ⟨0, dev, by decide +kernel⟩,
   ⟨none, dev, by decide +kernel⟩,
   ⟨some 9, { dev with mgmt := { dev.mgmt with i3cStatic := some 9 } }, by decide +kernel⟩,
   ⟨0, dev, by decide +kernel⟩,
   ⟨0, 0x1000, mgmtDev, by decide +kernel⟩,
   ⟨0, 0x1000, [0, 0, 0, 0], mgmtDev, by decide +kernel⟩,
   ⟨0, 2044, 4, setFields [(SVY_DP_LOCK_OWNER, 2)] mgmtDev, by decide +kernel⟩,
   ⟨0, 0, [0, 0, 0, 0], setFields [(SVY_DP_LOCK_OWNER, 2)] mgmtDev, by decide +kernel⟩,
   ⟨0, mgmtDev, by decide +kernel⟩,
   ⟨0, 11, 0, mgmtDev, by decide +kernel⟩,
   ⟨0, 3, 3, mgmtDev, by decide +kernel⟩,
   ⟨0, mgmtDev, by decide +kernel⟩,
   ⟨3, 2, 3, 0, 9, [], { dev with mgmt := { dev.mgmt with unacked := [(3, 2, 3)], receiver := some (0, 9) } }, by decide +kernel⟩,
   ⟨0, 0xFE, mgmtDev, by decide +kernel⟩,
   ⟨0, mgmtDev, by decide +kernel⟩⟩

theorem test_meets_UpdateAndAttestationComplete :
    (∃ (b c len : Nat) (s : State), s.hasBinding b = true ∧ s.mgmtReady b = true ∧ s.mgmt.update = none ∧ s.rd SVY_DP_LOCK_OWNER ≠ 1 ∧ s.bit SVY_RECOV_STATUS_BUSY = false ∧ c < 6 ∧ len ≠ 0 ∧ len ≤ s.stagingSize)
    ∧ (∃ (b c len got : Nat) (d : Bytes) (s u : State), s.hasBinding b = true ∧ s.mgmtReady b = true ∧ s.mgmt.update = some (c, len, got) ∧ got < len ∧ d.length = min 1024 (len - got) ∧ u = touchUpdate { s with boot := { s.boot with staging := memWrite s.boot.staging got d }, mgmt := { s.mgmt with update := some (c, len, got + d.length) } })
    ∧ (∃ (b c len r : Nat) (s u : State), s.mgmt.update = some (c, len, len) ∧ s.mgmt.updateResult = none ∧ r = s.updateCheck c len ∧ u = respond b 1 0x17 (if r = 0 then [0x00] else leBytes 1 (0x90 + r % 0x20)) s)
    ∧ (∃ (b c len got : Nat) (s : State), s.hasBinding b = true ∧ s.mgmtReady b = true ∧ s.mgmt.update = some (c, len, got) ∧ s.mgmt.updateResult = some 0)
    ∧ (∃ (b c len got : Nat) (s : State), s.hasBinding b = true ∧ s.mgmtReady b = true ∧ s.mgmt.update = some (c, len, got) ∧ ((got ≠ len ∨ s.mgmt.updateResult ≠ none)))
    ∧ (∃ (b c len : Nat) (s : State), s.hasBinding b = true ∧ s.mgmtReady b = true ∧ s.mgmt.update = some (c, len, len) ∧ s.mgmt.updateResult = none)
    ∧ (∃ (s : State), s.mgmt.update ≠ none ∧ s.mgmt.updateTouched + 60000000000 ≤ s.ns)
    ∧ (∃ (b : Nat) (s u : State), s.hasBinding b = true ∧ s.mgmtReady b = true ∧ u = setSpdmStep b 1 { s with mgmt := { s.mgmt with spdmVersion := tblDel s.mgmt.spdmVersion b, spdmLog := tblDel s.mgmt.spdmLog b } })
    ∧ (∃ (b v : Nat) (s u : State), s.hasBinding b = true ∧ s.mgmtReady b = true ∧ s.spdmStep b ≠ 0 ∧ ((v = 0x12 ∨ v = 0x13)) ∧ u = setSpdmStep b 2 { s with mgmt := { s.mgmt with spdmVersion := tblPut s.mgmt.spdmVersion b v } })
    ∧ (∃ (b : Nat) (s : State), s.hasBinding b = true ∧ s.mgmtReady b = true ∧ 2 ≤ s.spdmStep b)
    ∧ (∃ (b off len : Nat) (part : Bytes) (s : State), s.hasBinding b = true ∧ s.mgmtReady b = true ∧ 3 ≤ s.spdmStep b ∧ part = (Config.certChain.drop off).take (min len 4096))
    ∧ (∃ (b : Nat) (body : Bytes) (s : State), s.hasBinding b = true ∧ s.mgmtReady b = true ∧ 3 ≤ s.spdmStep b ∧ body = [0x00, 0x01] ++ leBytes 48 (Config.sha384 Config.certChain).toNat ++ (drawBytes 4 s).1 ++ [0x00, 0x00])
    ∧ (∃ (b i : Nat) (l : List Nat) (body : Bytes) (s : State), s.hasBinding b = true ∧ s.mgmtReady b = true ∧ 3 ≤ s.spdmStep b ∧ ((i = 0 ∨ i = 0xFF ∨ s.measurement i ≠ none)) ∧ l = (if i = 0 then [] else measureList i) ∧ body = leBytes 1 (if i = 0 then 10 else 0) ++ [0x00] ++ leBytes 1 l.length ++ leBytes 3 (l.flatMap s.measureBlock).length ++ l.flatMap s.measureBlock ++ (drawBytes 4 s).1 ++ [0x00, 0x00])
    ∧ (∃ (b i : Nat) (l : List Nat) (body : Bytes) (s : State), s.hasBinding b = true ∧ s.mgmtReady b = true ∧ 3 ≤ s.spdmStep b ∧ ((i = 0 ∨ i = 0xFF ∨ s.measurement i ≠ none)) ∧ l = (if i = 0 then [] else measureList i) ∧ body = leBytes 1 (if i = 0 then 10 else 0) ++ [0x00] ++ leBytes 1 l.length ++ leBytes 3 (l.flatMap s.measureBlock).length ++ l.flatMap s.measureBlock ++ (drawBytes 4 s).1 ++ [0x00, 0x00]) :=
  ⟨⟨0, 5, 4194304, mgmtDev, by decide +kernel⟩,
   ⟨0, 0, 64, 0, List.replicate 64 0, updDev 0 none, touchUpdate { updDev 0 none with boot := { dev.boot with staging := memWrite [] 0 (List.replicate 64 0) }, mgmt := { State.mgmt (updDev 0 none) with update := some (0, 64, 64) } }, by decide +kernel⟩,
   ⟨0, 0, 64, (State.updateCheck (updDev 64 none) 0 64), updDev 64 none, respond 0 1 0x17 (if State.updateCheck (updDev 64 none) 0 64 = 0 then [0x00] else leBytes 1 (0x90 + State.updateCheck (updDev 64 none) 0 64 % 0x20)) (updDev 64 none), ⟨by decide +kernel, by decide +kernel, rfl, rfl⟩⟩,
   ⟨0, 0, 64, 64, updDev 64 (some 0), by decide +kernel⟩,
   ⟨0, 0, 64, 63, updDev 63 none, by decide +kernel⟩,
   ⟨0, 0, 64, updDev 64 none, by decide +kernel⟩,
   ⟨{ updDev 0 none with datum := 65536 * 60000000000 }, by decide +kernel⟩,
   ⟨0, spdmDev, setSpdmStep 0 1 { spdmDev with mgmt := { spdmDev.mgmt with spdmVersion := tblDel spdmDev.mgmt.spdmVersion 0, spdmLog := tblDel spdmDev.mgmt.spdmLog 0 } }, by decide +kernel⟩,
   ⟨0, 0x12, spdmDev, setSpdmStep 0 2 { spdmDev with mgmt := { spdmDev.mgmt with spdmVersion := tblPut spdmDev.mgmt.spdmVersion 0 0x12 } }, by decide +kernel⟩,
   ⟨0, spdmDev, by decide +kernel⟩,
   ⟨0, 0, 4096, (Config.certChain.drop 0).take (min 4096 4096), spdmDev, ⟨by decide +kernel, by decide +kernel, by decide +kernel, rfl⟩⟩,
   ⟨0, [0x00, 0x01] ++ leBytes 48 (Config.sha384 Config.certChain).toNat ++ (drawBytes 4 spdmDev).1 ++ [0x00, 0x00], spdmDev, ⟨by decide +kernel, by decide +kernel, by decide +kernel, rfl⟩⟩,
   ⟨0, 0, [], leBytes 1 10 ++ [0x00] ++ leBytes 1 (List.length []) ++ leBytes 3 (List.length (List.flatMap (State.measureBlock spdmDev) [])) ++ List.flatMap (State.measureBlock spdmDev) [] ++ (drawBytes 4 spdmDev).1 ++ [0x00, 0x00], spdmDev, ⟨by decide +kernel, by decide +kernel, by decide +kernel, .inl rfl, rfl, rfl⟩⟩,
   ⟨0, 10, [10], leBytes 1 0 ++ [0x00] ++ leBytes 1 (List.length [10]) ++ leBytes 3 (List.length (List.flatMap (State.measureBlock spdmDev) [10])) ++ List.flatMap (State.measureBlock spdmDev) [10] ++ (drawBytes 4 spdmDev).1 ++ [0x00, 0x00], spdmDev, ⟨by decide +kernel, by decide +kernel, by decide +kernel, .inr (.inr (by simp [State.measurement])), rfl, rfl⟩⟩⟩

theorem test_meets_DataPortAndDebugComplete :
    (∃ (s : State), s.rd SVY_DP_LOCK_OWNER = 0)
    ∧ (∃ (who : Party) (s : State), s.holdsPort who = true)
    ∧ (∃ (s : State), s.rd SVY_DP_LOCK_OWNER ≠ 0 ∧ s.mgmt.dpTouched + 1000000000 ≤ s.ns)
    ∧ (∃ (who : Party) (off n : Nat) (s u : State), s.holdsPort who = true ∧ dpAligned off n = true ∧ u = dpTouch who s)
    ∧ (∃ (who : Party) (off : Nat) (bs : Bytes) (s : State), s.holdsPort who = true ∧ dpAligned off bs.length = true)
    ∧ (∃ (who : Party) (s : State), s.holdsPort who = true)
    ∧ (∃ (s : State), s.bit SVY_DP_STATUS_DUMP_BUSY = true)
    ∧ (∃ (r : Nat) (s t : State), s.bit MGT_DBG_STATUS_BUSY = true ∧ r = s.tokenResult ∧ t = (let u := (s.wr MGT_DBG_STATUS_BUSY 0).wr MGT_DBG_STATUS_RESULT r; { u with mgmt := { u.mgmt with nonceSet := false } }))
    ∧ (∃ (r : Nat) (s t : State), s.bit MGT_DBG_STATUS_BUSY = true ∧ r = s.tokenResult ∧ t = (let u := (s.wr MGT_DBG_STATUS_BUSY 0).wr MGT_DBG_STATUS_RESULT r; { u with mgmt := { u.mgmt with nonceSet := false } }))
    ∧ (∃ (k : Nat) (s : State), tapLevel k ≤ s.rd MGT_DBG_STATUS_LEVEL)
    ∧ (∃ (k : Nat) (s : State), tapLevel k ≤ s.rd MGT_DBG_STATUS_LEVEL) :=
  ⟨⟨dev, by decide +kernel⟩,
   ⟨.host 0 0, portDev, by decide +kernel⟩,
   ⟨portDev, by decide +kernel⟩,
   ⟨.host 0 0, 2044, 4, portDev, dpTouch (.host 0 0) portDev, by decide +kernel⟩,
   ⟨.host 0 0, 2044, [1, 2, 3, 4], portDev, by decide +kernel⟩,
   ⟨.host 0 0, portDev, by decide +kernel⟩,
   ⟨setFields [(SVY_DP_STATUS_DUMP_BUSY, 1)] dev, by decide +kernel⟩,
   ⟨1, setFields [(MGT_DBG_STATUS_BUSY, 1)] dev, (let u := (State.wr (setFields [(MGT_DBG_STATUS_BUSY, 1)] dev) MGT_DBG_STATUS_BUSY 0).wr MGT_DBG_STATUS_RESULT 1; { u with mgmt := { u.mgmt with nonceSet := false } }), by decide +kernel⟩,
   ⟨0x0D, setFields [(MGT_DBG_STATUS_BUSY, 1), (MGT_DBG_STATUS_FAILS, 8)] dev, (let u := (State.wr (setFields [(MGT_DBG_STATUS_BUSY, 1), (MGT_DBG_STATUS_FAILS, 8)] dev) MGT_DBG_STATUS_BUSY 0).wr MGT_DBG_STATUS_RESULT 0x0D; { u with mgmt := { u.mgmt with nonceSet := false } }), by decide +kernel⟩,
   ⟨1, dev, by decide +kernel⟩,
   ⟨3, setFields [(MGT_DBG_STATUS_LEVEL, 2)] dev, by decide +kernel⟩⟩

theorem test_meets_PowerAndClocksComplete :
    (∃ (s : State), s.power.inReset = false)
    ∧ (∃ (temps : List Int) (s : State), s.Wf ∧ s.power.inReset = false ∧ temps.length = 24 ∧ ((∀ n, n < 24 → -2048 ≤ temps.getD n 0 ∧ temps.getD n 0 ≤ 2047)) ∧ ((∀ n, 20 ≤ n → n < 24 → temps.getD n 0 < 840)))
    ∧ (∃ (temps : List Int) (s : State), s.Wf ∧ s.power.inReset = false ∧ temps.length = 24 ∧ ((∀ n, n < 24 → -2048 ≤ temps.getD n 0 ∧ temps.getD n 0 ≤ 2047)) ∧ ((∀ n, 20 ≤ n → n < 24 → temps.getD n 0 < 840)))
    ∧ (∃ (rail mv : Nat) (s : State), tblGet s.power.avsAsked rail = some mv)
    ∧ (∃ (c : Nat), c < 12)
    ∧ (∃ (m : Nat) (s t : State), m < 8 ∧ t = { s with power := { s.power with netClkLost := if s.power.netClkLost.contains m then s.power.netClkLost else m :: s.power.netClkLost } })
    ∧ (∃ (m : Nat), m < 8) :=
  ⟨⟨dev, by decide +kernel⟩,
   ⟨List.replicate 20 2047 ++ List.replicate 4 839, dev, ⟨by unfold State.Wf regsWf memoriesWf portTablesWf objectTablesWf; decide +kernel, by decide +kernel, by decide +kernel, fun n hn => (by decide +kernel : ∀ n ∈ List.range 24, (-2048 : Int) ≤ (List.replicate 20 2047 ++ List.replicate 4 839 : List Int).getD n 0 ∧ (List.replicate 20 2047 ++ List.replicate 4 839 : List Int).getD n 0 ≤ 2047) n (List.mem_range.2 hn), fun n h1 hn => (by decide +kernel : ∀ n ∈ List.range 24, 20 ≤ n → (List.replicate 20 2047 ++ List.replicate 4 839 : List Int).getD n 0 < 840) n (List.mem_range.2 hn) h1⟩⟩,
   ⟨List.replicate 24 (-2048), dev, ⟨by unfold State.Wf regsWf memoriesWf portTablesWf objectTablesWf; decide +kernel, by decide +kernel, by decide +kernel, fun n hn => (by decide +kernel : ∀ n ∈ List.range 24, (-2048 : Int) ≤ (List.replicate 24 (-2048) : List Int).getD n 0 ∧ (List.replicate 24 (-2048) : List Int).getD n 0 ≤ 2047) n (List.mem_range.2 hn), fun n h1 hn => (by decide +kernel : ∀ n ∈ List.range 24, 20 ≤ n → (List.replicate 24 (-2048) : List Int).getD n 0 < 840) n (List.mem_range.2 hn) h1⟩⟩,
   ⟨0, 900, { dev with power := { dev.power with avsAsked := [(0, 900)] } }, by decide +kernel⟩,
   ⟨11, by decide +kernel⟩,
   ⟨7, dev, { dev with power := { dev.power with netClkLost := [7] } }, by decide +kernel⟩,
   ⟨7, by decide +kernel⟩⟩

theorem test_meets_StepRunsTheFrontCommand : ∃ (c : Instr) (s : State) (rest : List Instr), s.pending = c :: rest :=
  ⟨.sysReset, { dev with pending := [.sysReset, .debugLock] }, [.debugLock], by decide +kernel⟩

theorem test_meets_IdleStepCountsDatum :
    (∃ (s : State), s.pending = [] ∧ s.power.inReset = true)
    ∧ (∃ (s : State), s.pending = [] ∧ s.power.inReset = false) :=
  ⟨⟨{ dev with power := { dev.power with inReset := true } }, by decide +kernel⟩,
   ⟨dev, by decide +kernel⟩⟩

theorem test_meets_MemoryAndFusesChangeByTheirCommandsOnly :
    (∃ (c : Instr) (s t : State), c.wf = true ∧ ((∀ p f bar off n data, c ≠ .hostMmioRequest p f bar off n data)) ∧ ((∀ who a n v, c ≠ .registerWrite who a n v)) ∧ ((∀ n ps, c ≠ .islandResetEnd n ps)) ∧ c ≠ .datumResume ∧ ((∀ k ok, c ≠ .imageTagCheck k ok)) ∧ exec c s = .next t)
    ∧ (∃ (c : Instr) (s t : State), ((∀ ok, c ≠ .epochAdvance ok)) ∧ c ≠ .ownerSlotRevoke ∧ ((∀ f, c ≠ .powerOnReset f)) ∧ s.boot.found.nextEpoch = false ∧ exec c s = .next t) :=
  ⟨⟨.mctpMessageDiscard, dev, dev, ⟨rfl, (fun _ _ _ _ _ _ h => nomatch h), (fun _ _ _ _ h => nomatch h), (fun _ _ h => nomatch h), (fun h => nomatch h), (fun _ _ h => nomatch h), rfl⟩⟩,
   ⟨.mctpMessageDiscard, dev, dev, ⟨(fun _ h => nomatch h), (fun h => nomatch h), (fun _ h => nomatch h), rfl, rfl⟩⟩⟩

theorem test_meets_HostMemoryWriteChangesItsBytesOnly :
    (∃ (p f bar off a : Nat) (bs : Bytes) (w : Win) (s : State), s.Wf ∧ s.linkUp p = true ∧ (s.func p f).present = true ∧ bar ≤ 1 ∧ bs ≠ [] ∧ off + bs.length ≤ s.barSize p f bar ∧ ((bar = 1 ∨ off < s.barSize p f bar - 65536)) ∧ s.windowAt p f bar off = some w ∧ off + bs.length ≤ w.offset + 2 ^ w.sizeLog2 ∧ w.wrDis = false ∧ s.rd SVY_BOOT_STATUS_STATE ≠ 4 ∧ ((w.kind = 4 ∨ w.kind = 5)) ∧ a = w.target + (off - w.offset) ∧ s.lockedHold a = none ∧ s.memThere a = true)
    ∧ (∃ (p f bar off a : Nat) (bs : Bytes) (w : Win) (s : State), s.Wf ∧ s.linkUp p = true ∧ (s.func p f).present = true ∧ bar ≤ 1 ∧ bs ≠ [] ∧ off + bs.length ≤ s.barSize p f bar ∧ ((bar = 1 ∨ off < s.barSize p f bar - 65536)) ∧ s.windowAt p f bar off = some w ∧ off + bs.length ≤ w.offset + 2 ^ w.sizeLog2 ∧ w.wrDis = false ∧ s.rd SVY_BOOT_STATUS_STATE ≠ 4 ∧ ((w.kind = 4 ∨ w.kind = 5)) ∧ a = w.target + (off - w.offset) ∧ s.lockedHold a = none ∧ s.memThere a = true)
    ∧ (∃ (p f bar off a : Nat) (bs : Bytes) (w : Win) (s : State), s.Wf ∧ s.linkUp p = true ∧ (s.func p f).present = true ∧ bar ≤ 1 ∧ bs ≠ [] ∧ off + bs.length ≤ s.barSize p f bar ∧ ((bar = 1 ∨ off < s.barSize p f bar - 65536)) ∧ s.windowAt p f bar off = some w ∧ off + bs.length ≤ w.offset + 2 ^ w.sizeLog2 ∧ w.wrDis = false ∧ s.rd SVY_BOOT_STATUS_STATE ≠ 4 ∧ ((w.kind = 4 ∨ w.kind = 5)) ∧ a = w.target + (off - w.offset) ∧ s.lockedHold a = none ∧ s.memThere a = true)
    ∧ (∃ (p f bar off a : Nat) (bs : Bytes) (w : Win) (s : State), s.Wf ∧ s.linkUp p = true ∧ (s.func p f).present = true ∧ bar ≤ 1 ∧ bs ≠ [] ∧ off + bs.length ≤ s.barSize p f bar ∧ ((bar = 1 ∨ off < s.barSize p f bar - 65536)) ∧ s.windowAt p f bar off = some w ∧ off + bs.length ≤ w.offset + 2 ^ w.sizeLog2 ∧ w.wrDis = false ∧ s.rd SVY_BOOT_STATUS_STATE ≠ 4 ∧ ((w.kind = 4 ∨ w.kind = 5)) ∧ a = w.target + (off - w.offset) ∧ s.lockedHold a = none ∧ s.memThere a = true) :=
  ⟨⟨0, 0, 1, 0, 70385924046848, [1, 2], (State.window (winDev 4 0x400400000000) true 0 0 0), winDev 4 0x400400000000, by unfold State.Wf regsWf memoriesWf portTablesWf objectTablesWf; decide +kernel⟩,
   ⟨0, 0, 1, 65535, 70385924112383, [1], (State.window (winDev 4 0x400400000000) true 0 0 0), winDev 4 0x400400000000, by unfold State.Wf regsWf memoriesWf portTablesWf objectTablesWf; decide +kernel⟩,
   ⟨0, 0, 1, 0, 140737488355328, [1, 2], (State.window ({ winDev 5 0x800000000000 with ports := [(4, { HostPort.fresh with comp := .cxl, cxlBase := 0x800000000000, cxlSize := 0x40000000 })] }) true 0 0 0), { winDev 5 0x800000000000 with ports := [(4, { HostPort.fresh with comp := .cxl, cxlBase := 0x800000000000, cxlSize := 0x40000000 })] }, by unfold State.Wf regsWf memoriesWf portTablesWf objectTablesWf; decide +kernel⟩,
   ⟨0, 0, 1, 65535, 140737488420863, [1], (State.window ({ winDev 5 0x800000000000 with ports := [(4, { HostPort.fresh with comp := .cxl, cxlBase := 0x800000000000, cxlSize := 0x40000000 })] }) true 0 0 0), { winDev 5 0x800000000000 with ports := [(4, { HostPort.fresh with comp := .cxl, cxlBase := 0x800000000000, cxlSize := 0x40000000 })] }, by unfold State.Wf regsWf memoriesWf portTablesWf objectTablesWf; decide +kernel⟩⟩

theorem test_meets_RegisterWriteFollowsAccessCodes : ∃ (a b : Nat) (r : RegSpec), findReg a = some (r, b) :=
  ⟨0, 0, ⟨"SVY_CTRL", 0x0, [], 4, [⟨"FORCE_MIN", 0, 1, .rws, [], 0⟩, ⟨"RETRY_S", 1, 16, .rws, [(0, 0, 1)], 0x3c⟩]⟩, rfl⟩

theorem test_meets_DoorbellAcceptsOrCounts :
    (∃ (n loc pi : Nat) (s : State), n < 4096 ∧ loc < 65536 ∧ pi < 2 ^ 32 ∧ (((s.sheet n).state = .active ∨ (s.sheet n).state = .debug)) ∧ s.findRing n loc = none)
    ∧ (∃ (n loc pi : Nat) (s : State), n < 4096 ∧ loc < 65536 ∧ pi < 2 ^ 32 ∧ (((s.sheet n).state = .active ∨ (s.sheet n).state = .debug)) ∧ s.findRing n loc = some (5, ring 0 []) ∧ s.ring? 5 = some (ring 0 []) ∧ (ring 0 []).state = .running ∧ pi = (ring 0 []).pi.toNat)
    ∧ (∃ (n loc pi : Nat) (s : State), n < 4096 ∧ loc < 65536 ∧ pi < 2 ^ 32 ∧ (((s.sheet n).state = .active ∨ (s.sheet n).state = .debug)) ∧ s.findRing n loc = some (5, ring 0 []) ∧ s.ring? 5 = some (ring 0 []) ∧ ((ring 0 []).state = .running ∧ (pi + 2 ^ 32 - (ring 0 []).head.toNat) % 2 ^ 32 ≤ 2 ^ (ring 0 []).sizeLog2 ∧ 1 ≤ (pi + 2 ^ 32 - (ring 0 []).pi.toNat) % 2 ^ 32 ∧ (pi + 2 ^ 32 - (ring 0 []).pi.toNat) % 2 ^ 32 ≤ 2 ^ 31 - 1))
    ∧ (∃ (n loc pi : Nat) (s : State), n < 4096 ∧ loc < 65536 ∧ pi < 2 ^ 32 ∧ (((s.sheet n).state = .active ∨ (s.sheet n).state = .debug)) ∧ s.findRing n loc = some (5, ring 0 []) ∧ s.ring? 5 = some (ring 0 []) ∧ ¬ ((ring 0 []).state = .running ∧ pi = (ring 0 []).pi.toNat) ∧ ¬ ((ring 0 []).state = .running ∧ (pi + 2 ^ 32 - (ring 0 []).head.toNat) % 2 ^ 32 ≤ 2 ^ (ring 0 []).sizeLog2 ∧ 1 ≤ (pi + 2 ^ 32 - (ring 0 []).pi.toNat) % 2 ^ 32 ∧ (pi + 2 ^ 32 - (ring 0 []).pi.toNat) % 2 ^ 32 ≤ 2 ^ 31 - 1)) :=
  ⟨⟨1, 65535, 4294967295, dev, by decide +kernel⟩,
   ⟨1, 3, 0, ringDev (ring 0 []), by decide +kernel⟩,
   ⟨1, 3, 16, ringDev (ring 0 []), by decide +kernel⟩,
   ⟨1, 3, 17, ringDev (ring 0 []), by decide +kernel⟩⟩

theorem test_meets_FenceWaitsForEarlierEntries :
    (∃ (g : Nat) (ops : Nat → Bool) (r : Ring) (j : Job) (s : State), s.startable g ops = some (r, j) ∧ ((r.kind = 0 ∨ r.kind = 3)) ∧ fenceBit j.first = true)
    ∧ (∃ (g : Nat) (ops : Nat → Bool) (r : Ring) (j k : Job) (earlier later : List Job) (s : State), s.ring? g = some r ∧ r.state = .running ∧ (s.sheet r.sheet).state = .active ∧ r.jobs = earlier ++ j :: k :: later ∧ ((∀ x ∈ earlier, x.phase = .written)) ∧ fenceBit j.first = true ∧ j.phase = .running ∧ k.phase = .fetched ∧ fenceBit k.first = false ∧ ops (opcode k.first) = true ∧ kindAccepts r.kind (opcode k.first) = true) :=
  ⟨⟨5, (· == 0x10), ring 0 [⟨0, [mkEntry 0x10 7 2 []], .written, none⟩, ⟨0, [mkEntry 0x10 15 1 []], .fetched, none⟩], ⟨0, [mkEntry 0x10 15 1 []], .fetched, none⟩, ringDev (ring 0 [⟨0, [mkEntry 0x10 7 2 []], .written, none⟩, ⟨0, [mkEntry 0x10 15 1 []], .fetched, none⟩]), by decide +kernel⟩,
   ⟨5, (· == 0x10), ring 0 [⟨0, [mkEntry 0x10 7 2 []], .written, none⟩, ⟨0, [mkEntry 0x10 15 1 []], .running, none⟩, ⟨2, [mkEntry 0x10 7 2 []], .fetched, none⟩], ⟨0, [mkEntry 0x10 15 1 []], .running, none⟩, ⟨2, [mkEntry 0x10 7 2 []], .fetched, none⟩, [⟨0, [mkEntry 0x10 7 2 []], .written, none⟩], [], ringDev (ring 0 [⟨0, [mkEntry 0x10 7 2 []], .written, none⟩, ⟨0, [mkEntry 0x10 15 1 []], .running, none⟩, ⟨2, [mkEntry 0x10 7 2 []], .fetched, none⟩]), by decide +kernel⟩⟩

/-- A step of a queue that holds only DEBUG_LOCK. -/
theorem test_step_debugLock (s : State) :
    step { s with pending := [.debugLock] } = .next (lockDebug { s with pending := [] }) := by
  have h : ∀ u : State, exec .debugLock u = .next (lockDebug u) := fun _ => rfl
  exact (rfl : step { s with pending := [.debugLock] } = exec .debugLock { s with pending := [] }).trans (h _)

theorem test_meets_StepKeepsCanonicalForm : ∃ (s t : State), s.Wf ∧ step s = .next t :=
  ⟨{ dev with pending := [.debugLock] }, lockDebug { dev with pending := [] },
    by unfold State.Wf regsWf memoriesWf portTablesWf objectTablesWf; decide +kernel, test_step_debugLock dev⟩

/-! ## Worked examples of the spec -/

/-- A state of a next outcome. -/
def nextOf (o : Host.Outcome State Fault Refusal) : State :=
  match o with
  | .next t => t
  | _ => State.reset

/-- Network port 5 a 400G port on 200 Gb/s lanes, host port 0 x16 at 64 GT/s (chapter 3, worked admissions). -/
def admWorked : State := setFields [(HP_PORT_CFG_MAX_SPEED 0, 6), (NET_PORT_CFG_MODE 5, 11), (NET_PORT_STATUS_STATE 5, 5), (BNC_MAP_BENCH 1187, 3)] dev

/-- Contract N of the worked admissions. -/
def parN : ContractParams := ⟨6, 0, 5, 64, 1187, 50000000000, 4096, 512, 64, 640, 0, 0⟩

/-- F of contract N is 318.840 ns, its outlet carries 896 Gb/s, and it reserves 159 setts. -/
theorem test_admission_fixed_part : admWorked.fixedPart parN = 318840 ∧ admWorked.capacity 64 = 896000000000 ∧ reserveS parN = 159 := by decide +kernel

/-- With A, B and N the slack of outlet 64 is 112,707 ps; with M the gap is 169,042 bits, 188,663 ps. -/
theorem test_admission_edf :
    edfSlack 896000000000 4096 [⟨200000, 8192, 100000000000⟩, ⟨400000, 16384, 120000000000⟩, ⟨321160, 4096, 50000000000⟩] = 112707
    ∧ edfWorst 896000000000 4096 [⟨200000, 8192, 100000000000⟩, ⟨400000, 16384, 120000000000⟩, ⟨321160, 4096, 50000000000⟩,
        ⟨321160, 32768, 100000000000⟩] = 169042
    ∧ ceilDiv (169042 * psPerSec) 896000000000 = 188663 := by decide +kernel

/-- Headroom of network port 40 at 1.6 Tb/s over 30 m: 2,982 setts at 9,220 bytes, 2,799 at 1,518 (chapter 8). -/
theorem test_headroom : ([9220, 1518].map (fun f => State.headroomH (setFields [(NET_PORT_CFG_MODE 40, 16), (NET_HEAD_CFG_CABLE_M 40, 30),
    (NET_HEAD_CFG_PARTNER_NS 40, 600), (NET_PORT_CFG_MAX_FRAME 40, f)] dev) 40)) = [2982, 2799] := by decide +kernel

/-- An ACK with 3 marks in 8 packets: alpha 24, and 100,000 Mb/s is cut to
98,829; a frame of 4,222 bytes takes 339.36 ns at 100 Gb/s (chapter 14). -/
theorem test_congestion : alphaStep 0 (3 * 1024 / 8) 4 = 24 ∧ cutRate 100 100000 24 = 98829
    ∧ nextRelease 0 0 100000000000 4222 * 100 / 65536 = 33935 := by decide +kernel

/-- The IV of SA 1,207 on bench 3 (chapter 12). -/
theorem test_iv : beBytes 12 (ivOf 0x5AC3E1 3 0x1F400) = [0x5A, 0xC3, 0xE1, 0x03, 0, 0, 0, 0, 0, 0x01, 0xF4, 0] := by decide +kernel

/-- The thread that lost slot 3 of a gallery of 8 slots to an abandonment: its PN.GSEAL answers 1 (chapter 16). -/
theorem test_gseal_after_abandon : (State.thread (nextOf (exec (.pnGseal 1 5 0xF0800C0)
    { penDev [] with pnl := { State.pnl (penDev []) with lost := [(3, 1)] } })) 1).x = [(5, 1)] := by decide +kernel

/-- The abandonment frees the slot once ABANDON_MS has passed since the halt. -/
theorem test_abandon_frees : (State.pnl (nextOf (exec (.galleryAbandon 0 1 0) (setFields [(PNL_THR_STAT_STATE 0 1, 3), (PNL_DBG_CFG_ABANDON_MS 0, 1000)]
    (penDev [(3, .reserved 1)]))))).slots = [] := by decide +kernel

/-- Transmit ring 5 with SIZE 1,024 and HEAD 1,000 accepts PI 1,012; while it is DISABLING, PI 1,020 is dropped and counted (chapter 7). -/
def txWorked (st : RingState) : State :=
  ringDev { ring 1 [] with sizeLog2 := 10, head := 1000, fetch := 1000, pi := 1000, state := st }

/-- Accepted. -/
theorem test_doorbell_accepted : ((nextOf (exec (.doorbellWrite 1 3 1012 false) (txWorked .running))).ring? 5).map (fun r => r.pi) = some 1012 := by
  decide +kernel

/-- Dropped. -/
theorem test_doorbell_dropped : (nextOf (exec (.doorbellWrite 1 3 1020 false) (txWorked .disabling))).rd RNG_DB_DROP_COUNT = 1 := by
  decide +kernel

/-- DP_WRITE at offset 1,792 of 256 bytes covers 0x7FC: ADDR advances by 2,048 (chapter 19). -/
theorem test_dp_advance : (dpAdvance 1792 256 (setFields [(SVY_DP_CTRL_AUTO, 1), (SVY_DP_ADDR_ADDR, 0x800)] dev)).rd SVY_DP_ADDR_ADDR = 0x1000
    ∧ (dpAdvance 1536 256 (setFields [(SVY_DP_CTRL_AUTO, 1), (SVY_DP_ADDR_ADDR, 0x800)] dev)).rd SVY_DP_ADDR_ADDR = 0x800 := by
  decide +kernel

/-- Network lane 37 sits at G77 to K77, PCIE_RXP[100] at U79, and row AC has index 22 (chapters 0 and 20). -/
theorem test_balls : laneBall 37 true false = ⟨7, 77⟩ ∧ laneBall 37 true true = ⟨8, 77⟩ ∧ laneBall 37 false false = ⟨9, 77⟩
    ∧ laneBall 37 false true = ⟨10, 77⟩ ∧ pcieBall 100 false false = ⟨16, 79⟩ ∧ rowIndex 1 3 = 22 := by decide +kernel

/-! ## Steps, words and well-formedness -/

/-- An idle step of a device out of reset is one nanosecond of Datum (R35; notes/assumptions/1). -/
theorem test_idle_step : (nextOf (step dev)).datum = dev.datum + 65536 := by decide +kernel

/-- A step runs the front command and leaves the rest. -/
theorem test_step_takes_front : (nextOf (step { dev with pending := [.debugLock, .sysReset] })).pending = [.sysReset] := by decide +kernel

/-- No word of the table spells a command, so a placed word changes nothing. -/
theorem test_no_word (nbits w : Nat) : decodeTableWord nbits w = none ∧ State.reset.withFetchWord nbits w = State.reset := ⟨rfl, rfl⟩

/-- A command at the last value of each range is well formed. -/
theorem test_wf_accepts : ([
    .registerWrite (.host 47 7) 0 0 0,
    .islandResetEnd 169 0,
    .flightSlotWaitStart 1048575,
    .networkFrameReceive 63 [] ⟨false, 0, 0⟩,
    .budgetTokenRelease 127,
    .sourceDisqualify 2,
    .withdrawDrainEnd 65535,
    .watchdogBite 0 0 63,
    .grtTransferReceive 0 169 169 0 [(1, true)] ⟨true, .acked⟩ [],
    .hostLinkUp 47 0 1 ⟨false, false⟩,
    .hostLinkUp 0 0 16 ⟨false, false⟩,
    .msixUnmask 0 7 0,
    .msixUnmask 0 0 2047,
    .mbxClaim 4095 false .bmc,
    .rxPauseExpiry 0 7,
    .modulePresenceDebounced 31 false [] 0,
    .moduleInterrupt 31 ⟨0, 1⟩,
    .moduleInterrupt 31 ⟨0, 5⟩,
    .bucketMove 4095 0 false,
    .bucketMove 0 17 false,
    .bankGroupFault 15,
    .unpinMarkerServed 131071,
    .saRetireDone 2359295,
    .closeDrainEnd 1048575,
    .probeTimer 0 15,
    .revokeDone 16777215,
    .sqFetch 4095 0 [],
    .pnWfe 255 0 0,
    .pnWfe 0 31 0,
    .waitDeadlock 7 0,
    .gallerySend 0 63,
    .galleryAbandon 0 31 0,
    .cairnComplete 0 1023,
    .imageChunkWritten 5 false,
    .mctpControl 49 0 0 0,
    .avsStepAck 2,
    .refclkLoss 20,
    .aerErrorMessage 0 2] : List Instr).all (fun i => i.wf == true) = true := by decide +kernel

/-- One value beyond each range is not: each check refuses its term. -/
theorem test_wf_refuses : ([
    .registerWrite (.host 48 0) 0 0 0,
    .registerWrite (.host 0 8) 0 0 0,
    .registerWrite (.firmware 8) 0 0 0,
    .islandResetEnd 170 0,
    .flightSlotWaitStart 1048576,
    .networkFrameReceive 64 [] ⟨false, 0, 0⟩,
    .budgetTokenRelease 128,
    .sourceDisqualify 3,
    .withdrawDrainEnd 65536,
    .watchdogBite 0 0 64,
    .grtTransferReceive 0 169 170 0 [(1, true)] ⟨true, .acked⟩ [],
    .grtTransferReceive 0 169 169 0 [] ⟨true, .acked⟩ [],
    .hostLinkUp 48 0 1 ⟨false, false⟩,
    .hostLinkUp 0 0 3 ⟨false, false⟩,
    .msixUnmask 0 8 0,
    .msixUnmask 0 0 2048,
    .mbxClaim 4096 false .bmc,
    .rxPauseExpiry 0 8,
    .modulePresenceDebounced 32 false [] 0,
    .moduleInterrupt 0 ⟨0, 0⟩,
    .moduleInterrupt 0 ⟨0, 6⟩,
    .bucketMove 4096 0 false,
    .bucketMove 0 18 false,
    .bankGroupFault 16,
    .unpinMarkerServed 131072,
    .saRetireDone 2359296,
    .closeDrainEnd 1048576,
    .probeTimer 0 16,
    .revokeDone 16777216,
    .sqFetch 4096 0 [],
    .pnWfe 256 0 0,
    .pnWfe 0 32 0,
    .waitDeadlock 8 0,
    .gallerySend 0 64,
    .galleryAbandon 0 32 0,
    .cairnComplete 0 1024,
    .imageChunkWritten 6 false,
    .mctpControl 50 0 0 0,
    .avsStepAck 3,
    .refclkLoss 21,
    .aerErrorMessage 0 3] : List Instr).all (fun i => i.wf == false) = true := by decide +kernel

end Sys2Proof.Tests
end

/-! PROOFS. Rings and doorbells (spec 07): what a ring write, an entry read and a doorbell leave of the rings, when a
producer index is accepted (R174), and which job a ring may start under FENCE (R181). -/

namespace Sys2Proof.Machine

/-! ## Rings under the ring engine's operations -/

theorem State.setRing_ring?_same (s : State) (g : Nat) (x : Ring) : (s.setRing g x).ring? g = some x :=
  tblGet_tblPut_same s.rings g x

theorem State.setRing_ring?_ne (s : State) {g k : Nat} (x : Ring) (h : k ≠ g) : (s.setRing g x).ring? k = s.ring? k :=
  tblGet_tblPut_ne s.rings x h

theorem State.ring?_congr {s t : State} (h : t.rings = s.rings) (k : Nat) : t.ring? k = s.ring? k :=
  congrArg (tblGet · k) h

@[simp] theorem issueRead_rings (req : HostReq) (len : Nat) (use : ReadUse) (s : State) :
    (issueRead req len use s).rings = s.rings := rfl

@[simp] theorem issueRead_regs (req : HostReq) (len : Nat) (use : ReadUse) (s : State) :
    (issueRead req len use s).regs = s.regs := rfl

/-- A ring's next entry read is either issued, covering some entries, or not issued (R176). -/
theorem issueFetch_cases (g : Nat) (s : State) :
    issueFetch g s = s ∨ ∃ (r : Ring) (req : HostReq) (n : Nat), s.ring? g = some r
      ∧ issueFetch g s = issueRead req (64 * n) (.fetch g) (s.setRing g { r with reading := n }) := by
  unfold issueFetch
  split
  · exact .inl rfl
  · rename_i r hr
    split
    · exact .inr ⟨r, _, _, hr, rfl⟩
    · exact .inl rfl

@[simp] theorem issueFetch_regs (g : Nat) (s : State) : (issueFetch g s).regs = s.regs := by
  obtain h | ⟨r, req, n, -, h⟩ := issueFetch_cases g s <;> rw [h]
  rfl

theorem issueFetch_ring?_ne {g k : Nat} (s : State) (hk : k ≠ g) : (issueFetch g s).ring? k = s.ring? k := by
  obtain h | ⟨r, req, n, -, h⟩ := issueFetch_cases g s <;> rw [h]
  exact (State.ring?_congr (issueRead_rings ..) k).trans (s.setRing_ring?_ne _ hk)

/-- Issuing an entry read changes how many entries the ring is reading, and nothing else of the ring. -/
theorem issueFetch_ring?_same {g : Nat} {r : Ring} {s : State} (hr : s.ring? g = some r) :
    ∃ n, (issueFetch g s).ring? g = some { r with reading := n } := by
  obtain h | ⟨q, req, n, hq, h⟩ := issueFetch_cases g s <;> rw [h]
  · exact ⟨r.reading, hr⟩
  · obtain rfl : q = r := Option.some.inj (hq.symm.trans hr)
    exact ⟨n, (State.ring?_congr (issueRead_rings ..) g).trans (s.setRing_ring?_same g _)⟩

/-- A storage queue's doorbell sets one controller leaving its power state, or does nothing (R411). -/
theorem wakeCtrl_cases (g : Nat) (s : State) : wakeCtrl g s = s ∨ ∃ n c, wakeCtrl g s = s.setCtrl n c := by
  unfold wakeCtrl
  split
  · exact .inl rfl
  · split
    · exact .inr ⟨_, _, rfl⟩
    · exact .inl rfl

@[simp] theorem wakeCtrl_rings (g : Nat) (s : State) : (wakeCtrl g s).rings = s.rings := by
  obtain h | ⟨n, c, h⟩ := wakeCtrl_cases g s <;> rw [h]
  rfl

@[simp] theorem wakeCtrl_regs (g : Nat) (s : State) : (wakeCtrl g s).regs = s.regs := by
  obtain h | ⟨n, c, h⟩ := wakeCtrl_cases g s <;> rw [h]
  rfl

/-! ## Doorbells (R174) -/

theorem idxSub_toNat (a : Nat) (b : BitVec 32) : idxSub a b.toNat = (a + 2 ^ 32 - b.toNat) % 2 ^ 32 := by
  rw [idxSub, Nat.mod_eq_of_lt b.isLt]

/-- The acceptance test is the three conditions of R174. -/
theorem Ring.piAccepted_iff (r : Ring) (pi : Nat) :
    r.piAccepted pi = true ↔ r.state = .running ∧ (pi + 2 ^ 32 - r.head.toNat) % 2 ^ 32 ≤ 2 ^ r.sizeLog2
      ∧ 1 ≤ (pi + 2 ^ 32 - r.pi.toNat) % 2 ^ 32 ∧ (pi + 2 ^ 32 - r.pi.toNat) % 2 ^ 32 ≤ 2 ^ 31 - 1 := by
  simp only [Ring.piAccepted, Ring.size, idxSub_toNat, Bool.and_eq_true, beq_iff_eq, decide_eq_true_eq, and_assoc,
    Nat.le_sub_one_iff_lt (show 0 < 2 ^ 31 by decide)]

/-- An index that is accepted lies ahead of PI. -/
theorem Ring.piAccepted_ne_pi {r : Ring} {pi : Nat} (h : r.piAccepted pi = true) : pi ≠ r.pi.toNat := by
  obtain ⟨-, -, hahead, -⟩ := (r.piAccepted_iff pi).1 h
  rintro rfl
  simp at hahead

theorem ringDoorbell_of_eq_pi (g : Nat) {r : Ring} {pi : Nat} (s : State) (h : pi = r.pi.toNat) :
    ringDoorbell g r pi s = s := if_pos h

theorem ringDoorbell_of_accepted (g : Nat) {r : Ring} {pi : Nat} (s : State) (h : r.piAccepted pi = true) :
    ringDoorbell g r pi s = wakeCtrl g (issueFetch g (s.setRing g { r with pi := BitVec.ofNat 32 pi })) := by
  rw [ringDoorbell, if_neg (Ring.piAccepted_ne_pi h), if_pos h]

theorem ringDoorbell_of_not_accepted (g : Nat) {r : Ring} {pi : Nat} (s : State) (hne : pi ≠ r.pi.toNat)
    (h : ¬ r.piAccepted pi = true) : ringDoorbell g r pi s = dropDoorbell s := by
  rw [ringDoorbell, if_neg hne, if_neg h]

/-- An accepted doorbell sets the ring's PI; of that ring nothing else but the entries being read may change. -/
theorem ringDoorbell_ring?_same {g : Nat} {r : Ring} {pi : Nat} (s : State) (h : r.piAccepted pi = true) :
    ∃ n, (ringDoorbell g r pi s).ring? g = some { r with pi := BitVec.ofNat 32 pi, reading := n } := by
  obtain ⟨n, hn⟩ := issueFetch_ring?_same (s.setRing_ring?_same g { r with pi := BitVec.ofNat 32 pi })
  rw [ringDoorbell_of_accepted g s h]
  exact ⟨n, (State.ring?_congr (wakeCtrl_rings ..) g).trans hn⟩

theorem ringDoorbell_ring?_ne {g k : Nat} {r : Ring} {pi : Nat} (s : State) (h : r.piAccepted pi = true) (hk : k ≠ g) :
    (ringDoorbell g r pi s).ring? k = s.ring? k := by
  rw [ringDoorbell_of_accepted g s h]
  calc (wakeCtrl g (issueFetch g (s.setRing g _))).ring? k
      = (issueFetch g (s.setRing g _)).ring? k := State.ring?_congr (wakeCtrl_rings ..) k
    _ = (s.setRing g _).ring? k := issueFetch_ring?_ne _ hk
    _ = s.ring? k := s.setRing_ring?_ne _ hk

theorem ringDoorbell_regs {g : Nat} {r : Ring} {pi : Nat} (s : State) (h : r.piAccepted pi = true) :
    (ringDoorbell g r pi s).regs = s.regs := by
  rw [ringDoorbell_of_accepted g s h]; simp

/-- DB_PRODUCE, written in 64 bits, reaches the doorbell of its own sheet with its RING and PI fields (Table 7.3). -/
theorem exec_doorbellWrite_wide {n loc pi : Nat} (s : State) (hloc : loc < 2 ^ 16) (hpi : pi < 2 ^ 32) :
    exec (.doorbellWrite n loc pi false) s = .next (doorbell n loc pi s) := by
  have hsheet : (0x20000000 + n * 0x1000 - 0x20000000) / 0x1000 = n := by omega
  have hoff : (0x20000000 + n * 0x1000) % 0x1000 = 0 := by omega
  have hring : (loc % 2 ^ 16 + pi % 2 ^ 32 * 2 ^ 32) % 2 ^ 16 = loc := by omega
  have hval : (loc % 2 ^ 16 + pi % 2 ^ 32 * 2 ^ 32) / 2 ^ 32 = pi := by omega
  change Host.Outcome.next (doorbellWrite _ 8 _ s) = _
  simp only [doorbellWrite, hsheet, hoff, hring, hval]
  rfl

/-- The doorbell of a sheet that takes doorbells (Table 6.7) and has no such ring is dropped. -/
theorem doorbell_of_no_ring {n loc : Nat} (pi : Nat) {s : State}
    (hs : (s.sheet n).state = .active ∨ (s.sheet n).state = .debug) (h : s.findRing n loc = none) :
    doorbell n loc pi s = dropDoorbell s := by
  simp only [doorbell, if_pos hs, h]

theorem doorbell_of_ring {n loc g : Nat} {r : Ring} (pi : Nat) {s : State}
    (hs : (s.sheet n).state = .active ∨ (s.sheet n).state = .debug) (h : s.findRing n loc = some (g, r)) :
    doorbell n loc pi s = ringDoorbell g r pi s := by
  simp only [doorbell, if_pos hs, h]

/-- Settles O59: the three outcomes of R174 are the three branches of a ring's doorbell. -/
theorem doorbellAcceptsOrCounts : Obligations.DoorbellAcceptsOrCounts := by
  intro n loc pi s _ hloc hpi hs
  rw [exec_doorbellWrite_wide s hloc hpi]
  refine ⟨fun h => by rw [doorbell_of_no_ring pi hs h]; rfl, fun g r h _ => ?_⟩
  rw [doorbell_of_ring pi hs h]
  refine ⟨fun heq => by rw [ringDoorbell_of_eq_pi g s heq], fun hacc => ?_, fun hne hrej => ?_⟩
  · have hok := (r.piAccepted_iff pi).2 hacc
    obtain ⟨reading, hring⟩ := ringDoorbell_ring?_same (g := g) s hok
    refine Answers.intro (t := ringDoorbell g r pi s) ?_ ⟨_, hring, ?_, rfl, rfl, rfl, hacc.1,
      fun k hk => ringDoorbell_ring?_ne s hok hk, ringDoorbell_regs s hok⟩
    · rw [exec_doorbellWrite_wide s hloc hpi, doorbell_of_ring pi hs h]
    · exact Nat.mod_eq_of_lt hpi
  · rw [ringDoorbell_of_not_accepted g s hne (mt (r.piAccepted_iff pi).1 hrej)]; rfl

/-! ## FENCE (R181) -/

/-- Jobs whose completions are written are passed over, and leave every earlier entry completed. -/
theorem nextJob_append_written (fences allDone : Bool) {earlier : List Job} (rest : List Job)
    (h : ∀ x ∈ earlier, x.phase = .written) : nextJob fences allDone (earlier ++ rest) = nextJob fences allDone rest := by
  induction earlier with
  | nil => rfl
  | cons x earlier ih =>
    obtain ⟨hx, hrest⟩ := List.forall_mem_cons.1 h
    simp only [List.cons_append, nextJob, hx, ih hrest]

/-- A running job is passed over, and keeps later fenced jobs waiting. -/
theorem nextJob_cons_running (fences allDone : Bool) {j : Job} (rest : List Job) (h : j.phase = .running) :
    nextJob fences allDone (j :: rest) = nextJob fences false rest := by
  simp only [nextJob, h]

/-- A fetched job without FENCE is next, whatever stands before it. -/
theorem nextJob_cons_unfenced (fences allDone : Bool) {j : Job} (rest : List Job) (h : j.phase = .fetched)
    (hf : fenceBit j.first = false) : nextJob fences allDone (j :: rest) = some j := by
  simp [nextJob, h, hf]

/-- Where FENCE orders, a fenced job is next only when every job before it is written. -/
theorem nextJob_fenced {allDone : Bool} {jobs : List Job} {j : Job} (h : nextJob true allDone jobs = some j)
    (hf : fenceBit j.first = true) :
    allDone = true ∧ ∃ earlier later, jobs = earlier ++ j :: later ∧ ∀ k ∈ earlier, k.phase = .written := by
  induction jobs generalizing allDone with
  | nil => cases h
  | cons x rest ih =>
    have blocked : nextJob true false rest ≠ some j := fun h => Bool.false_ne_true (ih h).1
    cases hx : x.phase <;> simp only [nextJob, hx] at h
    case fetched =>
      split at h
      · cases h
      · rename_i hstart
        obtain rfl := Option.some.inj h
        exact ⟨by simpa [hf] using hstart, [], rest, rfl, by simp⟩
    case written =>
      obtain ⟨hdone, earlier, later, rfl, hall⟩ := ih h
      exact ⟨hdone, x :: earlier, later, rfl, List.forall_mem_cons.2 ⟨hx, hall⟩⟩
    case posted => exact absurd (Option.filter_eq_some_iff.1 h).1 blocked
    case bad => exact absurd h blocked
    case running => exact absurd h blocked
    case ready => exact absurd h blocked

/-- FENCE orders on admin and DMA rings (Table 7.1). -/
theorem Ring.fences_of_kind {r : Ring} (h : r.kind = 0 ∨ r.kind = 3) : r.fences = true := by
  simpa [Ring.fences] using h

/-- The next job of a RUNNING ring of an ACTIVE or DEBUG sheet may start, by a command of its opcode. -/
theorem State.startable_of_nextJob {s : State} {g : Nat} {ops : Nat → Bool} {r : Ring} {j : Job} (hr : s.ring? g = some r)
    (hrun : r.state = .running) (hs : (s.sheet r.sheet).state = .active ∨ (s.sheet r.sheet).state = .debug)
    (hj : nextJob r.fences true r.jobs = some j) (hop : ops (opcode j.first) = true)
    (hkind : kindAccepts r.kind (opcode j.first) = true) : s.startable g ops = some (r, j) := by
  simp only [State.startable, hr, hj, if_pos (And.intro hrun hs), hop, hkind, Bool.and_self, if_true]

/-- Settles O60: a fenced job is next only behind written jobs, and a running fenced job holds back no unfenced one. -/
theorem fenceWaitsForEarlierEntries : Obligations.FenceWaitsForEarlierEntries := by
  refine ⟨fun g ops r j s hstart hkind hfence => ?_,
    fun g ops r j k earlier later s hr hrun hsheet hjobs hall _ hj hk hkf hop hkind => ?_⟩
  · obtain ⟨-, -, -, hnext, -, -⟩ := State.startable_some hstart
    rw [Ring.fences_of_kind hkind] at hnext
    exact (nextJob_fenced hnext hfence).2
  · refine State.startable_of_nextJob hr hrun (.inl hsheet) ?_ hop hkind
    rw [hjobs, nextJob_append_written _ _ _ hall, nextJob_cons_running _ _ _ hj, nextJob_cons_unfenced _ _ _ hk hkf]

end Sys2Proof.Machine

/-! PROOFS. What every command keeps: the queue of waiting commands and the canonical form of the state (Safety). Keeps s t says
it of a state t reached from s,
    and there is one lemma per update of the state and per function of the model; the lemma of a function
is the chain of the lemmas of what it does. -/

namespace Sys2Proof.Machine

/-- From s to t the queue of commands stays, and so does the canonical form. -/
structure Keeps (s t : State) : Prop where
  pending : t.pending = s.pending
  wf : s.Wf → t.Wf

/-- An outcome is a next state that keeps the queue and the canonical form of s. -/
def Goes (s : State) (o : Host.Outcome State Fault Refusal) : Prop := ∃ t, o = .next t ∧ Keeps s t

section
variable {s t u : State} {α β : Type}

theorem Keeps.refl (s : State) : Keeps s s := ⟨rfl, id⟩

theorem Goes.next (h : Keeps s t) : Goes s (.next t) := ⟨t, rfl, h⟩

theorem Keeps.ite {c : Prop} [Decidable c] (ht : Keeps s t) (hu : Keeps s u) : Keeps s (if c then t else u) := by
  split <;> assumption

theorem Keeps.ite_fst {c : Prop} [Decidable c] {p q : State × β} (hp : Keeps s p.1) (hq : Keeps s q.1) :
    Keeps s (if c then p else q).1 := by
  split <;> assumption

theorem Keeps.ite_snd {c : Prop} [Decidable c] {p q : β × State} (hp : Keeps s p.2) (hq : Keeps s q.2) :
    Keeps s (if c then p else q).2 := by
  split <;> assumption

theorem Goes.ite {c : Prop} [Decidable c] {o p : Host.Outcome State Fault Refusal} (ho : Goes s o) (hp : Goes s p) :
    Goes s (if c then o else p) := by
  split <;> assumption

/-- A fold of steps that keep them keeps them. -/
theorem Keeps.foldl {f : State → α → State} {l : List α} (hf : ∀ {u} (a : α), Keeps s u → Keeps s (f u a)) (h : Keeps s t) :
    Keeps s (l.foldl f t) :=
  List.foldlRecOn (motive := Keeps s) l f h fun _ hu a _ => hf a hu

theorem Keeps.foldl_snd {f : β × State → α → β × State} {p : β × State} {l : List α}
    (hf : ∀ {q : β × State} (a : α), Keeps s q.2 → Keeps s (f q a).2) (h : Keeps s p.2) : Keeps s (l.foldl f p).2 :=
  List.foldlRecOn (motive := fun q => Keeps s q.2) l f h fun _ hq a _ => hf a hq

theorem Keeps.foldl_fst {f : State × β → α → State × β} {p : State × β} {l : List α}
    (hf : ∀ {q : State × β} (a : α), Keeps s q.1 → Keeps s (f q a).1) (h : Keeps s p.1) : Keeps s (l.foldl f p).1 :=
  List.foldlRecOn (motive := fun q => Keeps s q.1) l f h fun _ hq a _ => hf a hq

/-- The state of a pair that an equation takes apart. -/
theorem Keeps.of_snd {p : β × State} {b : β} (e : p = (b, u)) (h : Keeps s p.2) : Keeps s u := by rwa [e] at h

theorem Keeps.of_fst {p : State × β} {b : β} (e : p = (u, b)) (h : Keeps s p.1) : Keeps s u := by rwa [e] at h

/-! ## Updates of the fields the canonical form does not name -/

theorem Keeps.outs (h : Keeps s t) {x : List Out} : Keeps s { t with outs := x } := ⟨h.pending, h.wf⟩
theorem Keeps.fresh (h : Keeps s t) {x : Nat} : Keeps s { t with fresh := x } := ⟨h.pending, h.wf⟩
theorem Keeps.datum (h : Keeps s t) {x : BitVec 80} : Keeps s { t with datum := x } := ⟨h.pending, h.wf⟩
theorem Keeps.dtm (h : Keeps s t) {x : DatumState} : Keeps s { t with dtm := x } := ⟨h.pending, h.wf⟩
theorem Keeps.grt (h : Keeps s t) {x : Graticule} : Keeps s { t with grt := x } := ⟨h.pending, h.wf⟩
theorem Keeps.reads (h : Keeps s t) {x : List ReadTag} : Keeps s { t with reads := x } := ⟨h.pending, h.wf⟩
theorem Keeps.flight (h : Keeps s t) {x : Flight} : Keeps s { t with flight := x } := ⟨h.pending, h.wf⟩
theorem Keeps.cxlNext (h : Keeps s t) {x : Nat} : Keeps s { t with cxlNext := x } := ⟨h.pending, h.wf⟩
theorem Keeps.cxlFree (h : Keeps s t) {x : List (Nat × Nat)} : Keeps s { t with cxlFree := x } := ⟨h.pending, h.wf⟩
theorem Keeps.health (h : Keeps s t) {x : Health} : Keeps s { t with health := x } := ⟨h.pending, h.wf⟩
theorem Keeps.mgmt (h : Keeps s t) {x : Mgmt} : Keeps s { t with mgmt := x } := ⟨h.pending, h.wf⟩
theorem Keeps.power (h : Keeps s t) {x : Power} : Keeps s { t with power := x } := ⟨h.pending, h.wf⟩
theorem Keeps.net (h : Keeps s t) {x : NetState} : Keeps s { t with net := x } := ⟨h.pending, h.wf⟩
theorem Keeps.pipe (h : Keeps s t) {x : Pipe} : Keeps s { t with pipe := x } := ⟨h.pending, h.wf⟩
theorem Keeps.swc (h : Keeps s t) {x : Switch} : Keeps s { t with swc := x } := ⟨h.pending, h.wf⟩
theorem Keeps.tables (h : Keeps s t) {x : Tables} : Keeps s { t with tables := x } := ⟨h.pending, h.wf⟩
theorem Keeps.cipher (h : Keeps s t) {x : Cipher} : Keeps s { t with cipher := x } := ⟨h.pending, h.wf⟩
theorem Keeps.rlt (h : Keeps s t) {x : Ralush} : Keeps s { t with rlt := x } := ⟨h.pending, h.wf⟩
theorem Keeps.sto (h : Keeps s t) {x : Storage} : Keeps s { t with sto := x } := ⟨h.pending, h.wf⟩


/-! ## Updates of the fields it names -/

theorem Keeps.regs {x : Tbl (BitVec 64)} (hx : regsWf t.regs → regsWf x) (h : Keeps s t) : Keeps s { t with regs := x } :=
  ⟨h.pending, fun w =>
    let ⟨hr, hm, hp, ho⟩ := h.wf w
    ⟨hx hr, hm, hp, ho⟩⟩

theorem Keeps.mem {x : List Host.Cell} (hx : memWf t.mem = true → memWf x = true) (h : Keeps s t) :
    Keeps s { t with mem := x } :=
  ⟨h.pending, fun w =>
    let ⟨hr, ⟨hm, hc, hs⟩, hp, ho⟩ := h.wf w
    ⟨hr, ⟨hx hm, hc, hs⟩, hp, ho⟩⟩

theorem Keeps.pnlMem {x : Penlith} (hx : memWf t.pnl.mem = true → memWf x.mem = true) (h : Keeps s t) :
    Keeps s { t with pnl := x } :=
  ⟨h.pending, fun w =>
    let ⟨hr, ⟨hm, hc, hs⟩, hp, ho⟩ := h.wf w
    ⟨hr, ⟨hm, hx hc, hs⟩, hp, ho⟩⟩

theorem Keeps.bootStaging {x : Boot} (hx : memWf t.boot.staging = true → memWf x.staging = true) (h : Keeps s t) :
    Keeps s { t with boot := x } :=
  ⟨h.pending, fun w =>
    let ⟨hr, ⟨hm, hc, hs⟩, hp, ho⟩ := h.wf w
    ⟨hr, ⟨hm, hc, hx hs⟩, hp, ho⟩⟩

theorem Keeps.contracts {x : Tbl Contract} (hx : tblWf t.contracts = true → tblWf x = true) (h : Keeps s t) : Keeps s
    { t with contracts := x } :=
  ⟨h.pending, fun w =>
    let ⟨hr, hm, ⟨h1, h2, h3, h4, h5⟩, ho⟩ := h.wf w
    ⟨hr, hm, ⟨hx h1, h2, h3, h4, h5⟩, ho⟩⟩

theorem Keeps.islands {x : Tbl Island} (hx : tblWf t.islands = true → tblWf x = true) (h : Keeps s t) : Keeps s
    { t with islands := x } :=
  ⟨h.pending, fun w =>
    let ⟨hr, hm, ⟨h1, h2, h3, h4, h5⟩, ho⟩ := h.wf w
    ⟨hr, hm, ⟨h1, hx h2, h3, h4, h5⟩, ho⟩⟩

theorem Keeps.ports {x : Tbl HostPort} (hx : tblWf t.ports = true → tblWf x = true) (h : Keeps s t) : Keeps s
    { t with ports := x } :=
  ⟨h.pending, fun w =>
    let ⟨hr, hm, ⟨h1, h2, h3, h4, h5⟩, ho⟩ := h.wf w
    ⟨hr, hm, ⟨h1, h2, hx h3, h4, h5⟩, ho⟩⟩

theorem Keeps.funcs {x : Tbl Func} (hx : tblWf t.funcs = true → tblWf x = true) (h : Keeps s t) : Keeps s
    { t with funcs := x } :=
  ⟨h.pending, fun w =>
    let ⟨hr, hm, ⟨h1, h2, h3, h4, h5⟩, ho⟩ := h.wf w
    ⟨hr, hm, ⟨h1, h2, h3, hx h4, h5⟩, ho⟩⟩

theorem Keeps.vectors {x : Tbl MsixVec} (hx : tblWf t.vectors = true → tblWf x = true) (h : Keeps s t) : Keeps s
    { t with vectors := x } :=
  ⟨h.pending, fun w =>
    let ⟨hr, hm, ⟨h1, h2, h3, h4, h5⟩, ho⟩ := h.wf w
    ⟨hr, hm, ⟨h1, h2, h3, h4, hx h5⟩, ho⟩⟩

theorem Keeps.sheets {x : Tbl Sheet} (hx : tblWf t.sheets = true → tblWf x = true) (h : Keeps s t) : Keeps s
    { t with sheets := x } :=
  ⟨h.pending, fun w =>
    let ⟨hr, hm, hp, ⟨h1, h2, h3, h4, h5, h6, h7⟩⟩ := h.wf w
    ⟨hr, hm, hp, ⟨hx h1, h2, h3, h4, h5, h6, h7⟩⟩⟩

theorem Keeps.rings {x : Tbl Ring} (hx : tblWf t.rings = true → tblWf x = true) (h : Keeps s t) : Keeps s
    { t with rings := x } :=
  ⟨h.pending, fun w =>
    let ⟨hr, hm, hp, ⟨h1, h2, h3, h4, h5, h6, h7⟩⟩ := h.wf w
    ⟨hr, hm, hp, ⟨h1, hx h2, h3, h4, h5, h6, h7⟩⟩⟩

theorem Keeps.cairns {x : Tbl CairnSrc} (hx : tblWf t.cairns = true → tblWf x = true) (h : Keeps s t) : Keeps s
    { t with cairns := x } :=
  ⟨h.pending, fun w =>
    let ⟨hr, hm, hp, ⟨h1, h2, h3, h4, h5, h6, h7⟩⟩ := h.wf w
    ⟨hr, hm, hp, ⟨h1, h2, hx h3, h4, h5, h6, h7⟩⟩⟩

theorem Keeps.voqs {x : Tbl (List Packet)} (hx : tblWf t.voqs = true → tblWf x = true) (h : Keeps s t) : Keeps s
    { t with voqs := x } :=
  ⟨h.pending, fun w =>
    let ⟨hr, hm, hp, ⟨h1, h2, h3, h4, h5, h6, h7⟩⟩ := h.wf w
    ⟨hr, hm, hp, ⟨h1, h2, h3, hx h4, h5, h6, h7⟩⟩⟩

theorem Keeps.sas {x : Tbl SA} (hx : tblWf t.sas = true → tblWf x = true) (h : Keeps s t) : Keeps s { t with sas := x } :=
  ⟨h.pending, fun w =>
    let ⟨hr, hm, hp, ⟨h1, h2, h3, h4, h5, h6, h7⟩⟩ := h.wf w
    ⟨hr, hm, hp, ⟨h1, h2, h3, h4, hx h5, h6, h7⟩⟩⟩

theorem Keeps.conns {x : Tbl Conn} (hx : tblWf t.conns = true → tblWf x = true) (h : Keeps s t) : Keeps s
    { t with conns := x } :=
  ⟨h.pending, fun w =>
    let ⟨hr, hm, hp, ⟨h1, h2, h3, h4, h5, h6, h7⟩⟩ := h.wf w
    ⟨hr, hm, hp, ⟨h1, h2, h3, h4, h5, hx h6, h7⟩⟩⟩

theorem Keeps.ctrls {x : Tbl Ctrl} (hx : tblWf t.ctrls = true → tblWf x = true) (h : Keeps s t) : Keeps s
    { t with ctrls := x } :=
  ⟨h.pending, fun w =>
    let ⟨hr, hm, hp, ⟨h1, h2, h3, h4, h5, h6, h7⟩⟩ := h.wf w
    ⟨hr, hm, hp, ⟨h1, h2, h3, h4, h5, h6, hx h7⟩⟩⟩

/-- Penlith's state beside the clusters' memories. -/
theorem Keeps.pnl {threads : Tbl Thread} {slots : Tbl SlotUse} {lost : List (Nat × Nat)} {seals : Tbl Nat}
    {declared : List Nat} {moving : Tbl (Nat × Nat × Nat × Nat)}
    (h : Keeps s t) :
    Keeps s { t with
      pnl := { t.pnl with
        threads := threads, slots := slots, lost := lost, seals := seals, declared := declared, moving := moving } } :=
  ⟨h.pending, h.wf⟩

/-- Boot's state beside the staging buffer. -/
theorem Keeps.boot {found : BootFound} {cfgDefault : Bool} {fuses : BitVec 32} {headers : Tbl Bytes}
    {copyStates floors runTime runSince : Tbl Nat} {hours recordSeq : Nat} {loads : Tbl Load}
    {outputs : Tbl (List HeldAccess)} {installing : Nat} {noticeOpen : Bool}
    (h : Keeps s t) :
    Keeps s { t with
      boot := { t.boot with
        found := found, cfgDefault := cfgDefault, fuses := fuses, headers := headers, copyStates := copyStates
        floors := floors, runTime := runTime, runSince := runSince, hours := hours, recordSeq := recordSeq
        loads := loads, outputs := outputs, installing := installing, noticeOpen := noticeOpen } } :=
  ⟨h.pending, h.wf⟩

theorem Keeps.fst {b : β} (h : Keeps s t) : Keeps s (t, b).1 := h

theorem Keeps.snd {b : β} (h : Keeps s t) : Keeps s (b, t).2 := h

/-! ## Updates of several fields at once -/

theorem Keeps.voqs_swc {x : Tbl (List Packet)} {y : Switch} (hx : tblWf t.voqs = true → tblWf x = true) (h : Keeps s t) :
    Keeps s { t with voqs := x, swc := y } :=
  ⟨h.pending, (h.voqs hx).wf⟩

theorem Keeps.sas_cipher {x : Tbl SA} {y : Cipher} (hx : tblWf t.sas = true → tblWf x = true) (h : Keeps s t) :
    Keeps s { t with sas := x, cipher := y } :=
  ⟨h.pending, (h.sas hx).wf⟩

theorem Keeps.datum_dtm_islands {x : BitVec 80} {y : DatumState} {z : Tbl Island} (hz : tblWf t.islands = true →
    tblWf z = true) (h : Keeps s t) :
    Keeps s { t with datum := x, dtm := y, islands := z } :=
  ⟨h.pending, (h.islands hz).wf⟩

theorem Keeps.mem_health {x : List Host.Cell} {y : Health} (hx : memWf t.mem = true → memWf x = true) (h : Keeps s t) :
    Keeps s { t with mem := x, health := y } :=
  ⟨h.pending, (h.mem hx).wf⟩

theorem Keeps.pipe_swc {x : Pipe} {y : Switch} (h : Keeps s t) :
    Keeps s { t with pipe := x, swc := y } :=
  ⟨h.pending, h.wf⟩

theorem Keeps.datum_dtm {x : BitVec 80} {y : DatumState} (h : Keeps s t) :
    Keeps s { t with datum := x, dtm := y } :=
  ⟨h.pending, h.wf⟩

theorem Keeps.rings_ctrls {x : Tbl Ring} {y : Tbl Ctrl} (hx : tblWf t.rings = true → tblWf x = true)
    (hy : tblWf t.ctrls = true → tblWf y = true) (h : Keeps s t) :
    Keeps s { t with rings := x, ctrls := y } :=
  ⟨h.pending, (Keeps.ctrls (t := { t with rings := x }) hy (h.rings hx)).wf⟩

theorem Keeps.sas_conns_rlt {x : Tbl SA} {y : Tbl Conn} {z : Ralush} (hx : tblWf t.sas = true → tblWf x = true)
    (hy : tblWf t.conns = true → tblWf y = true) (h : Keeps s t) :
    Keeps s { t with sas := x, conns := y, rlt := z } :=
  ⟨h.pending, (Keeps.conns (t := { t with sas := x }) hy (h.sas hx)).wf⟩

theorem Keeps.voqs_pipe_swc {x : Tbl (List Packet)} {y : Pipe} {z : Switch} (hx : tblWf t.voqs = true → tblWf x = true)
    (h : Keeps s t) :
    Keeps s { t with voqs := x, pipe := y, swc := z } :=
  ⟨h.pending, (h.voqs hx).wf⟩

theorem Keeps.cxlNext_cxlFree {x : Nat} {y : List (Nat × Nat)} (h : Keeps s t) :
    Keeps s { t with cxlNext := x, cxlFree := y } :=
  ⟨h.pending, h.wf⟩

theorem Keeps.mem_cxlFree {x : List Host.Cell} {y : List (Nat × Nat)} (hx : memWf t.mem = true → memWf x = true) (h :
    Keeps s t) :
    Keeps s { t with mem := x, cxlFree := y } :=
  ⟨h.pending, (h.mem hx).wf⟩

theorem Keeps.cipher_boot {x : Cipher} {found : BootFound} {cfgDefault : Bool} {fuses : BitVec 32} {headers : Tbl Bytes}
    {copyStates floors runTime runSince : Tbl Nat} {hours recordSeq : Nat} {loads : Tbl Load}
    {outputs : Tbl (List HeldAccess)} {installing : Nat} {noticeOpen : Bool}
    (h : Keeps s t) :
    Keeps s { t with
      cipher := x
      boot := { t.boot with
        found := found, cfgDefault := cfgDefault, fuses := fuses, headers := headers, copyStates := copyStates
        floors := floors, runTime := runTime, runSince := runSince, hours := hours, recordSeq := recordSeq
        loads := loads, outputs := outputs, installing := installing, noticeOpen := noticeOpen } } :=
  ⟨h.pending, h.wf⟩

theorem Keeps.mgmt_bootStaging {x : Mgmt} {y : Boot} (hy : memWf t.boot.staging = true → memWf y.staging = true)
    (h : Keeps s t) : Keeps s { t with mgmt := x, boot := y } :=
  ⟨h.pending, (h.bootStaging hy).wf⟩

end

/-! ## Tables under the model's own operations -/

theorem tblAbove_tblMap {α : Type} {f : Nat → α → α} {t : Tbl α} {lo : Nat} (h : tblAbove lo t = true) :
    tblAbove lo (tblMap f t) = true := by
  induction t generalizing lo with
  | nil => rfl
  | cons p t ih =>
    simp only [tblAbove, tblMap, Bool.and_eq_true] at h ⊢
    exact ⟨h.1, ih h.2⟩

theorem tblWf_tblMap {α : Type} {f : Nat → α → α} {t : Tbl α} (h : tblWf t = true) : tblWf (tblMap f t) = true := by
  cases t with
  | nil => rfl
  | cons p t => exact tblAbove_tblMap (lo := p.1) h

theorem tblWf_setQueue {t : Tbl (List Packet)} {k : Nat} {q : List Packet} (h : tblWf t = true) :
    tblWf (setQueue t k q) = true := by
  unfold setQueue
  split
  · exact tblWf_tblDel h
  · exact tblWf_tblPut _ h

theorem tblAbove_dropWhere {p : Packet → Bool} {t : Tbl (List Packet)} {lo : Nat} (h : tblAbove lo t = true) :
    tblAbove lo (dropWhere p t) = true := by
  induction t generalizing lo with
  | nil => rfl
  | cons x t ih =>
    simp only [tblAbove, Bool.and_eq_true, decide_eq_true_eq] at h
    simp only [dropWhere]
    split
    · exact ih (tblAbove_weaken h.1.le h.2)
    · simp only [tblAbove, Bool.and_eq_true, decide_eq_true_eq]
      exact ⟨h.1, ih h.2⟩

theorem tblWf_dropWhere {p : Packet → Bool} {t : Tbl (List Packet)} (h : tblWf t = true) : tblWf (dropWhere p t) = true :=
    by
  cases t with
  | nil => rfl
  | cons x t =>
    simp only [dropWhere]
    split
    · exact tblWf_of_above (tblAbove_dropWhere (lo := x.1) h)
    · exact tblAbove_dropWhere (lo := x.1) h

/-! ## The functions of the model -/

section
variable {s t u : State}

theorem Keeps.setReg {a : Nat} {v : BitVec 64} (h : Keeps s t) : Keeps s (t.setReg a v) :=
  ⟨h.pending, fun w => ⟨regsWf_setReg a v (h.wf w).1, (h.wf w).2⟩⟩

theorem Keeps.wr {f : Fld} {x : Nat} (h : Keeps s t) : Keeps s (t.wr f x) :=
  .setReg h

theorem Keeps.count {f : Fld} {n : Nat} (h : Keeps s t) : Keeps s (t.count f n) :=
  .wr h

theorem Keeps.emit {o : Out} (h : Keeps s t) : Keeps s (t.emit o) :=
  .outs h

theorem Keeps.drawn (h : Keeps s t) : Keeps s t.drawn :=
  .fresh h

theorem Keeps.drawnEntry (h : Keeps s t) : Keeps s t.drawnEntry :=
  .fresh h

theorem Keeps.setPort {p : Nat} {x : HostPort} (h : Keeps s t) : Keeps s (t.setPort p x) :=
  .ports tblWf_tblSet h

theorem Keeps.setFunc {p f : Nat} {x : Func} (h : Keeps s t) : Keeps s (t.setFunc p f x) :=
  .funcs tblWf_tblSet h

theorem Keeps.setVec {p f v : Nat} {x : MsixVec} (h : Keeps s t) : Keeps s (t.setVec p f v x) :=
  .vectors tblWf_tblSet h

theorem Keeps.setIsland {n : Nat} {x : Island} (h : Keeps s t) : Keeps s (t.setIsland n x) :=
  .islands tblWf_tblSet h

theorem Keeps.setSheet {n : Nat} {x : Sheet} (h : Keeps s t) : Keeps s (t.setSheet n x) :=
  .sheets tblWf_tblSet h

theorem Keeps.setRing {g : Nat} {x : Ring} (h : Keeps s t) : Keeps s (t.setRing g x) :=
  .rings (tblWf_tblPut _) h

theorem Keeps.setContract {c : Nat} {x : Contract} (h : Keeps s t) : Keeps s (t.setContract c x) :=
  .contracts (tblWf_tblPut _) h

theorem Keeps.sendVector {p f v : Nat} (h : Keeps s t) : Keeps s (t.sendVector p f v) := by
  unfold State.sendVector
  exact .ite h (.ite (.emit h) (.setVec h))

theorem Keeps.takeSlot {k : SlotKind} (h : Keeps s t) : Keeps s (t.takeSlot k) :=
  .flight h

theorem Keeps.freeSlot {k : SlotKind} (h : Keeps s t) : Keeps s (t.freeSlot k) :=
  .flight h

theorem Keeps.drawBytes {n : Nat} (h : Keeps s t) : Keeps s (drawBytes n t).2 := by
  induction n generalizing t with
  | zero => exact h
  | succ n ih => exact ih h.drawn

theorem Keeps.cairnEventIn {cluster src : Nat} (h : Keeps s t) : Keeps s (cairnEventIn cluster src t) := by
  unfold Machine.cairnEventIn
  exact .ite h (.cairns (tblWf_tblPut _) h)

theorem Keeps.cairnEvent {src : Nat} (h : Keeps s t) : Keeps s (cairnEvent src t) :=
  .foldl (fun _ h₁ => .cairnEventIn h₁) h

theorem Keeps.notifyPort {p : Nat} (h : Keeps s t) : Keeps s (notifyPort p t) := by
  unfold Machine.notifyPort
  refine .ite h ?_
  split
  · exact .health h
  · exact .health <| .sendVector h

theorem Keeps.notifyAll (h : Keeps s t) : Keeps s (notifyAll t) :=
  .foldl (fun _ h₁ => .notifyPort h₁) h

theorem Keeps.raise {f : Fld} (h : Keeps s t) : Keeps s (raise f t) := by
  unfold Machine.raise
  exact .ite h (.notifyAll <| .cairnEvent <| .wr h)

theorem Keeps.raisePnl {cluster : Nat} {f : Fld} (h : Keeps s t) : Keeps s (raisePnl cluster f t) := by
  unfold Machine.raisePnl
  exact .ite h (.notifyAll <| .cairnEventIn <| .wr h)

theorem Keeps.showProt (h : Keeps s t) : Keeps s (showProt t) := by
  unfold Machine.showProt
  split <;> exact .setReg <| .setReg h

theorem Keeps.protEvent {who : Party} {addr : Nat} {isWrite : Bool} {offset : Option Nat} (h : Keeps s t) :
    Keeps s (protEvent who addr isWrite offset t) := by
  unfold Machine.protEvent
  split
  · exact h
  · exact h
  · exact .ite (.count <| .count h) (.ite (.raise <| .showProt <| .health <| .count h) (.showProt <| .health <| .count h))

theorem Keeps.surveyRec {kind event index detail : Nat} {serial : Bytes} {vendor : Nat} (h : Keeps s t) :
    Keeps s (surveyRec kind event index detail serial vendor t) := by
  unfold Machine.surveyRec
  exact .cairnEvent <| .raise <| .ite (.count <| .wr <| .wr <| .health h) (.wr <| .health h)

theorem Keeps.sendMctp {b kind code : Nat} {bs : Bytes} (h : Keeps s t) : Keeps s (sendMctp b kind code bs t) := by
  unfold Machine.sendMctp
  exact .emit <| .ite (.emit h) h

theorem Keeps.platformEvent {sensor value : Nat} (h : Keeps s t) : Keeps s (platformEvent sensor value t) := by
  unfold Machine.platformEvent
  split
  · exact h
  · exact .mgmt <| .sendMctp h

theorem Keeps.followReplaceMe (h : Keeps s t) : Keeps s (followReplaceMe t) := by
  unfold Machine.followReplaceMe
  exact .ite h (.platformEvent <| .emit <| .wr h)

theorem Keeps.updateHealth (h : Keeps s t) : Keeps s (updateHealth t) := by
  unfold Machine.updateHealth
  exact .ite (.followReplaceMe h) (.followReplaceMe <| .platformEvent <| .raise <| .emit <| .wr h)

theorem Keeps.beyondModel {cause : Nat} (h : Keeps s t) : Keeps s (beyondModel cause t) := by
  unfold Machine.beyondModel
  exact .updateHealth <| .ite (.wr h) h

theorem Keeps.spareConsumed (h : Keeps s t) : Keeps s (spareConsumed t) := by
  unfold Machine.spareConsumed
  exact .updateHealth <| .raise <| .wr <| .wr <| .wr h

theorem Keeps.logFault {kind unit : Nat} {spare beyond permanent : Bool} (h : Keeps s t) :
    Keeps s (logFault kind unit spare beyond permanent t) := by
  unfold Machine.logFault
  exact .raise <| .ite (.health <| .swc <| .count <| .setReg <| .setReg h) (.swc <| .count <| .setReg <| .setReg h)

theorem Keeps.setShareRecord {n rec : Nat} (h : Keeps s t) : Keeps s (t.setShareRecord n rec) :=
  .wr <| .wr <| .wr <| .wr <| .wr h

theorem Keeps.mailVector {n : Nat} {up : Bool} (h : Keeps s t) : Keeps s (mailVector n up t) := by
  unfold Machine.mailVector
  exact .ite (.sendVector h) (.sendVector h)

theorem Keeps.postMsg {n : Nat} {up : Bool} {code : Nat} {body : Body} (h : Keeps s t) :
    Keeps s (postMsg n up code body t) := by
  unfold Machine.postMsg
  exact .ite h (.ite (.mailVector <| .setSheet h) (.ite (.setSheet h) (.setSheet h)))

theorem Keeps.postContractState {c sheet old new cause : Nat} (h : Keeps s t) :
    Keeps s (postContractState c sheet old new cause t) :=
  .postMsg h

theorem Keeps.postSheetState {n old new cause : Nat} (h : Keeps s t) :
    Keeps s (postSheetState n old new cause t) := by
  unfold Machine.postSheetState
  exact .postMsg <| .postMsg h

theorem Keeps.postShares {n : Nat} (h : Keeps s t) : Keeps s (postShares n t) := by
  unfold Machine.postShares
  exact .postMsg <| .postMsg h

theorem Keeps.postConnState {n conn old new cause : Nat} (h : Keeps s t) :
    Keeps s (postConnState n conn old new cause t) :=
  .postMsg h

theorem Keeps.resolveShrinks {n : Nat} (h : Keeps s t) : Keeps s (resolveShrinks n t) := by
  unfold Machine.resolveShrinks
  exact .ite h (.postShares <| .setSheet h)

theorem Keeps.claimSlot {n : Nat} {up : Bool} {who : Party} (h : Keeps s t) : Keeps s (claimSlot n up who t).2 := by
  unfold Machine.claimSlot
  exact .ite_snd (.snd <| .setSheet h) h

theorem Keeps.bellSlot {n : Nat} {up : Bool} {who : Party} (h : Keeps s t) : Keeps s (bellSlot n up who t) := by
  unfold Machine.bellSlot
  exact .ite (.mailVector <| .setSheet h) h

theorem Keeps.ackSlot {n : Nat} {up : Bool} {who : Party} (h : Keeps s t) : Keeps s (ackSlot n up who t) := by
  unfold Machine.ackSlot
  refine .ite ?_ h
  split
  · exact .setSheet h
  · exact .mailVector <| .setSheet h

theorem Keeps.writeSlot {n : Nat} {up : Bool} {who : Party} {off : Nat} {bytes : Bytes} (h : Keeps s t) :
    Keeps s (writeSlot n up who off bytes t) := by
  unfold Machine.writeSlot
  exact .ite (.setSheet h) h

theorem Goes.execMbxClaimTimeout {sheet : Nat} {up : Bool} (h : Keeps s t) :
    Goes s (execMbxClaimTimeout sheet up t) := by
  unfold Machine.execMbxClaimTimeout
  refine .ite ?_ (.next h)
  split
  · exact .next <| .setSheet <| .drawnEntry h
  · exact .next <| .mailVector <| .setSheet h

theorem Keeps.countSpoil {reason n : Nat} (h : Keeps s t) : Keeps s (countSpoil reason n t) :=
  .count h

theorem Keeps.dropPackets {p : Packet → Bool} (h : Keeps s t) : Keeps s (dropPackets p t) := by
  unfold Machine.dropPackets
  exact .voqs_pipe_swc tblWf_dropWhere h

theorem Keeps.markExternal {p : Packet → Bool} (h : Keeps s t) : Keeps s (markExternal p t) := by
  unfold Machine.markExternal
  exact .voqs_pipe_swc tblWf_tblMap h

theorem Keeps.addResident {writer : Nat} {r : Resident} (h : Keeps s t) : Keeps s (addResident writer r t).2 := by
  unfold Machine.addResident
  exact .snd <| .swc h

theorem Keeps.releaseSetts {id : Nat} (h : Keeps s t) : Keeps s (releaseSetts id t) := by
  unfold Machine.releaseSetts
  split
  · exact h
  · exact .ite (.swc h) (.swc h)

theorem Keeps.resizePool (h : Keeps s t) : Keeps s (resizePool t) :=
  .wr h

theorem Keeps.sendPfc {p : Nat} (h : Keeps s t) : Keeps s (sendPfc p t) :=
  .count <| .emit h

theorem Keeps.updatePfc {p : Nat} (h : Keeps s t) : Keeps s (updatePfc p t) := by
  unfold Machine.updatePfc
  exact .ite (.ite h (.sendPfc <| .wr h)) h

theorem Keeps.refreshPressure (h : Keeps s t) : Keeps s (refreshPressure t) := by
  unfold Machine.refreshPressure
  exact .foldl (fun _ h₁ => .updatePfc h₁) <| .ite (.raise <| .wr <| .swc h) (.wr <| .swc h)

theorem Keeps.pushVoq {p : Packet} (h : Keeps s t) : Keeps s (pushVoq p t) := by
  unfold Machine.pushVoq
  exact .voqs (tblWf_tblPut _) h

theorem Keeps.postWrite {n addr : Nat} {payload : Bool} {bytes : Bytes} (h : Keeps s t) :
    Keeps s (postWrite n addr payload bytes t) :=
  .foldl (fun _ h₁ => .emit h₁) h

theorem Keeps.sheetWrite {n addr : Nat} {bytes : Bytes} (h : Keeps s t) : Keeps s (sheetWrite n addr bytes t) :=
  .postWrite h

theorem Keeps.orderedWrite {n addr : Nat} {bytes : Bytes} (h : Keeps s t) : Keeps s (orderedWrite n addr bytes t) :=
  .postWrite h

theorem Keeps.sheetRead {n addr len : Nat} (h : Keeps s t) : Keeps s (sheetRead n addr len t) :=
  .foldl (fun _ h₁ => .emit h₁) h

theorem Keeps.publishHead {r : Ring} (h : Keeps s t) : Keeps s (publishHead r t) := by
  unfold Machine.publishHead
  exact .ite (.orderedWrite h) h

theorem Keeps.announce {g : Nat} (h : Keeps s t) : Keeps s (announce g t) := by
  unfold Machine.announce
  split
  · exact h
  · exact .ite (.sendVector <| .setRing <| .publishHead h) (.setRing <| .publishHead h)

theorem Keeps.afterWrites {g n : Nat} {int : Bool} (h : Keeps s t) : Keeps s (afterWrites g n int t) := by
  unfold Machine.afterWrites
  split
  · exact h
  · exact .ite h (.ite (.announce <| .setRing h) (.setRing h))

theorem Keeps.writeEntry {r : Ring} {i : Nat} {c : Entry} (h : Keeps s t) : Keeps s (writeEntry r i c t) := by
  unfold Machine.writeEntry
  exact .ite (.orderedWrite h) (.orderedWrite <| .orderedWrite h)

theorem Keeps.chainHeaders {r : Ring} {status n i : Nat} {es : List Entry} (h : Keeps s t) :
    Keeps s (chainHeaders r status n i es t) := by
  induction es generalizing i t with
  | nil => exact h
  | cons e rest ih => exact ih h.orderedWrite

theorem Keeps.writeLater {r : Ring} {i : Nat} {es : List Entry} (h : Keeps s t) :
    Keeps s (writeLater r i es t) := by
  induction es generalizing i with
  | nil => exact h
  | cons c rest ih => exact ih.writeEntry

theorem Keeps.writeJob {r : Ring} {j : Job} {c : Entry} {more : List Entry} (h : Keeps s t) :
    Keeps s (writeJob r j c more t) := by
  unfold Machine.writeJob
  exact .ite (.writeEntry <| .ite (.chainHeaders h) (.writeLater h)) h

theorem Keeps.releaseJob {j : Job} (h : Keeps s t) : Keeps s (releaseJob j t) := by
  unfold Machine.releaseJob
  split
  · exact .freeSlot h
  · exact h

theorem Keeps.flushRing {g : Nat} (h : Keeps s t) : Keeps s (flushRing g t) := by
  unfold Machine.flushRing
  split
  · exact h
  · exact .afterWrites <| .setRing <| .foldl (fun _ h₁ => .releaseJob <| .writeJob h₁) h

theorem Keeps.endJob {g idx status : Nat} {body : Body} (h : Keeps s t) : Keeps s (endJob g idx status body t) := by
  unfold Machine.endJob
  split
  · exact h
  · split
    · exact h
    · exact .flushRing <| .setRing h

theorem Keeps.passSlot {g idx : Nat} {k : SlotKind} (h : Keeps s t) : Keeps s (passSlot g idx k t) := by
  unfold Machine.passSlot
  split
  · exact .freeSlot h
  · exact .ite (.setRing h) (.freeSlot h)

theorem Keeps.beginJob {g : Nat} {ops : Nat → Bool} {slot : Option SlotKind} (h : Keeps s t) :
    Keeps s (beginJob g ops slot t).2 := by
  unfold Machine.beginJob
  split
  · exact h
  · split
    · exact .snd <| .setRing h
    · exact .ite_snd (.snd <| .setRing h) (.ite_snd (.snd <| .setRing <| .takeSlot h) (.snd <| .setRing h))

theorem Keeps.runEntry {g : Nat} {ops : Nat → Bool} {f : Ring → Job → State → State × Nat × Body} (hf : ∀ {u : State}
    (a : Ring) (b : Job), Keeps s u → Keeps s (f a b u).1) (h : Keeps s t) :
    Keeps s (runEntry g ops f t) := by
  unfold Machine.runEntry
  split
  · rename_i e
    exact .of_snd e <| .beginJob h
  · rename_i e
    exact .endJob <| hf _ _ <| .of_snd e <| .beginJob h

theorem Keeps.startEntry {g : Nat} {ops : Nat → Bool} {f : Ring → Job → State → State × Option (Nat × Body)} (hf : ∀
    {u : State} (a : Ring) (b : Job), Keeps s u → Keeps s (f a b u).1) (h : Keeps s t) :
    Keeps s (startEntry g ops f t) := by
  unfold Machine.startEntry
  split
  · rename_i e
    exact .of_snd e <| .beginJob h
  · rename_i e
    split
    · rename_i e₁
      exact .endJob <| .of_fst e₁ <| hf _ _ <| .of_snd e <| .beginJob h
    · rename_i e₁
      exact .flushRing <| .of_fst e₁ <| hf _ _ <| .of_snd e <| .beginJob h

theorem Keeps.endTx {g idx status egress bytes : Nat} {extra : Body} (h : Keeps s t) :
    Keeps s (endTx g idx status egress bytes extra t) :=
  .endJob h

theorem Keeps.capture {reason : Nat} {p : Packet} (h : Keeps s t) : Keeps s (capture reason p t) := by
  unfold Machine.capture
  exact .ite h (.ite (.count h) (.pushVoq <| .swc <| .swc h))

theorem Keeps.spoilPacket {reason : Nat} {p : Packet} (h : Keeps s t) : Keeps s (spoilPacket reason p t) := by
  unfold Machine.spoilPacket
  refine .ite (.count h) ?_
  split
  · exact .endTx <| .capture <| .countSpoil h
  · exact .capture <| .countSpoil h

theorem Keeps.spoilWhere {reason : Nat} {p : Packet → Bool} (h : Keeps s t) : Keeps s (spoilWhere reason p t) := by
  unfold Machine.spoilWhere
  exact .refreshPressure <| .foldl (fun _ h₁ => .spoilPacket h₁) <| .foldl (fun _ h₁ => .releaseSetts h₁) <| .dropPackets h

theorem Keeps.spoilRing {g : Nat} (h : Keeps s t) : Keeps s (spoilRing g t) :=
  .spoilWhere h

theorem Keeps.stopRing {g cause : Nat} (h : Keeps s t) : Keeps s (stopRing g cause t) := by
  unfold Machine.stopRing
  split
  · exact h
  · exact .ite (.ite (.spoilRing <| .setRing <| .ite (.freeSlot h) h) (.setRing <| .ite (.freeSlot h) h)) h

theorem Keeps.setSource {n : Nat} {x : DatumSource} (h : Keeps s t) : Keeps s (t.setSource n x) := by
  unfold State.setSource
  exact .dtm h

theorem Keeps.setOsc {n : Nat} {x : Oscillator} (h : Keeps s t) : Keeps s (t.setOsc n x) := by
  unfold State.setOsc
  exact .dtm h

theorem Keeps.breakMeasuring (h : Keeps s t) : Keeps s (breakMeasuring t) := by
  unfold Machine.breakMeasuring
  exact .dtm h

theorem Keeps.setDatumState {code : Nat} (h : Keeps s t) : Keeps s (setDatumState code t) := by
  unfold Machine.setDatumState
  exact .ite h (.raise <| .wr <| .ite (.wr <| .breakMeasuring <| .dtm h) (.breakMeasuring <| .dtm h))

theorem Keeps.acquire (h : Keeps s t) : Keeps s (acquire t) := by
  unfold Machine.acquire
  exact .ite h (.setDatumState h)

theorem Keeps.restampLearned (h : Keeps s t) : Keeps s (restampLearned t) := by
  unfold Machine.restampLearned
  exact .tables h

theorem Keeps.datumStep {off : ℤ} (h : Keeps s t) : Keeps s (datumStep off t) := by
  unfold Machine.datumStep
  exact .wr <| .wr <| .restampLearned <| .datum_dtm h

theorem Keeps.slewOrBlock {off : ℤ} (h : Keeps s t) : Keeps s (slewOrBlock off t) := by
  unfold Machine.slewOrBlock
  exact .ite (.wr <| .dtm h) (.raise <| .wr <| .dtm h)

theorem Keeps.deferredStep (h : Keeps s t) : Keeps s (deferredStep t) := by
  unfold Machine.deferredStep
  refine .ite ?_ h
  split
  · exact .wr h
  · exact .ite (.acquire <| .datumStep h) (.wr h)

theorem Keeps.settleAspm {p : Nat} (h : Keeps s t) : Keeps s (settleAspm p t) := by
  unfold Machine.settleAspm
  exact .ite (.emit <| .setPort h) h

theorem Keeps.settlePm {p : Nat} (h : Keeps s t) : Keeps s (settlePm p t) := by
  unfold Machine.settlePm
  exact .settleAspm <| .ite (.wr h) h

theorem Keeps.settleLink {n : Nat} (h : Keeps s t) : Keeps s (settleLink n t) := by
  unfold Machine.settleLink
  exact .ite (.settlePm h) h

theorem Keeps.settlePath {p : ContractParams} (h : Keeps s t) : Keeps s (settlePath p t) :=
  .settleLink <| .settleLink h

theorem Keeps.breakContract {c cause : Nat} (h : Keeps s t) : Keeps s (breakContract c cause t) := by
  unfold Machine.breakContract
  split
  · exact h
  · exact .ite (.postContractState <| .raise <| .setContract h) h

theorem Keeps.breakWhere {p : Contract → Bool} {cause : Nat} (h : Keeps s t) : Keeps s (breakWhere p cause t) :=
  .foldl (fun _ h₁ => .breakContract h₁) h

theorem Keeps.suspendSheet {n : Nat} {on : Bool} (h : Keeps s t) : Keeps s (suspendSheet n on t) := by
  unfold Machine.suspendSheet
  refine .foldl (fun _ h₁ => ?_) h
  split
  · exact h₁
  · exact .postContractState <| .raise <| .setContract h₁

theorem Keeps.withdrawContract {c : Nat} {waiter : Option (Nat × Nat)} {cause : Nat} (h : Keeps s t) :
    Keeps s (withdrawContract c waiter cause t) := by
  unfold Machine.withdrawContract
  split
  · exact h
  · exact .ite (.postContractState <| .setContract h) h

theorem Keeps.withdrawSheet {n cause : Nat} (h : Keeps s t) : Keeps s (withdrawSheet n cause t) :=
  .foldl (fun _ h₁ => .withdrawContract h₁) h

theorem Keeps.unbindRings {c : Nat} (h : Keeps s t) : Keeps s (unbindRings c t) := by
  unfold Machine.unbindRings
  exact .rings tblWf_tblMap h

theorem Keeps.freeContract {c : Nat} (h : Keeps s t) : Keeps s (freeContract c t) := by
  unfold Machine.freeContract
  split
  · exact h
  · exact .deferredStep <| .resolveShrinks <| .postContractState <| .settlePath <| .wr <| .unbindRings <|
      .contracts tblWf_tblDel h

theorem Keeps.plainWrite {a : Nat} {v : BitVec 64} (h : Keeps s t) : Keeps s (t.plainWrite a v) := by
  unfold State.plainWrite
  split
  · exact h
  · exact .setReg h

theorem Keeps.setQual {n : Nat} {on : Bool} (h : Keeps s t) : Keeps s (setQual n on t) := by
  unfold Machine.setQual
  exact .wr h

theorem Keeps.showOffset {off : ℤ} (h : Keeps s t) : Keeps s (showOffset off t) :=
  .wr h

theorem Keeps.restartCounts (h : Keeps s t) : Keeps s (restartCounts t) := by
  unfold Machine.restartCounts
  exact .dtm h

theorem Keeps.switchSource {n : Nat} (h : Keeps s t) : Keeps s (switchSource n t) := by
  unfold Machine.switchSource
  exact .setDatumState <| .restartCounts <| .slewOrBlock <| .showOffset <| .raise <| .wr h

theorem Keeps.enterHoldover (h : Keeps s t) : Keeps s (enterHoldover t) := by
  unfold Machine.enterHoldover
  exact .wr <| .setDatumState <| .wr <| .dtm <| .raise <| .wr h

theorem Keeps.holdCfgWrite {v : BitVec 64} (h : Keeps s t) : Keeps s (holdCfgWrite v t) := by
  unfold Machine.holdCfgWrite
  exact .ite (.plainWrite h) (.wr <| .plainWrite h)

theorem Keeps.disqualify {n : Nat} (h : Keeps s t) : Keeps s (disqualify n t) := by
  unfold Machine.disqualify
  refine .ite (.ite ?_ (.setQual <| .dtm <| .setSource h)) (.dtm <| .setSource h)
  split
  · exact .switchSource <| .setQual <| .dtm <| .setSource h
  · exact .enterHoldover <| .setQual <| .dtm <| .setSource h

theorem Keeps.qualify {n : Nat} (h : Keeps s t) : Keeps s (qualify n t) := by
  unfold Machine.qualify
  dsimp only
  split
  · exact .ite (.dtm <| .setQual <| .dtm h) (.setQual <| .dtm h)
  · exact .ite (.acquire <| .datumStep <| .showOffset <| .raise <| .wr <| .setQual <| .dtm h) (.ite (.slewOrBlock <|
      .showOffset <| .raise <| .wr <| .setQual <| .dtm h) (.acquire <| .slewOrBlock <| .showOffset <| .raise <| .wr <|
      .setQual <| .dtm h))

theorem Keeps.trackSample {off : ℤ} (h : Keeps s t) : Keeps s (trackSample off t) := by
  unfold Machine.trackSample
  exact .ite (.dtm <| .slewOrBlock <| .showOffset h) (.ite (.ite (.setDatumState <| .dtm <| .acquire <| .slewOrBlock <|
      .showOffset h) (.dtm <| .acquire <| .slewOrBlock <| .showOffset h)) (.ite (.setDatumState <| .dtm <| .acquire <|
      .slewOrBlock <| .showOffset h) (.dtm <| .acquire <| .slewOrBlock <| .showOffset h)))

theorem Keeps.takeSample {n good : Nat} (h : Keeps s t) : Keeps s (takeSample n good t) := by
  unfold Machine.takeSample
  exact .ite (.ite (.trackSample <| .dtm h) (.dtm h)) (.ite (.qualify <| .dtm h) (.dtm h))

theorem Goes.execPpsInEdge (h : Keeps s t) : Goes s (execPpsInEdge t) := by
  unfold Machine.execPpsInEdge
  exact .ite (.next <| .takeSample <| .setSource h) (.next h)

theorem Keeps.servoSample {n : Nat} {value : BitVec 64} (h : Keeps s t) : Keeps s (servoSample n value t) := by
  unfold Machine.servoSample
  exact .ite (.takeSample <| .setSource h) h

theorem Goes.execSourceDisqualify {n : Nat} (h : Keeps s t) : Goes s (execSourceDisqualify n t) :=
  .next <| .disqualify h

theorem Goes.execRef10mLoss (h : Keeps s t) : Goes s (execRef10mLoss t) := by
  unfold Machine.execRef10mLoss
  exact .ite (.next <| .disqualify h) (.next h)

theorem Goes.execWaitToRestoreExpiry {n : Nat} (h : Keeps s t) : Goes s (execWaitToRestoreExpiry n t) := by
  unfold Machine.execWaitToRestoreExpiry
  dsimp only
  split
  · exact .ite (.next <| .switchSource <| .dtm h) (.next <| .dtm h)
  · exact .next <| .dtm h

theorem Goes.execHoldoverLimitExpiry (h : Keeps s t) : Goes s (execHoldoverLimitExpiry t) := by
  unfold Machine.execHoldoverLimitExpiry
  exact .ite (.next <| .setDatumState h) (.next h)

theorem Keeps.stepRequest (h : Keeps s t) : Keeps s (stepRequest t) := by
  unfold Machine.stepRequest
  refine .ite ?_ h
  split
  · exact .raise h
  · exact .ite (.acquire <| .datumStep h) (.raise h)

theorem Goes.execSpineMeasure {node roundTripPs : Nat} (h : Keeps s t) :
    Goes s (execSpineMeasure node roundTripPs t) := by
  unfold Machine.execSpineMeasure
  exact .ite (.next <| .setIsland h) (.next h)

theorem Keeps.forgetSamples (h : Keeps s t) : Keeps s (forgetSamples t) := by
  unfold Machine.forgetSamples
  exact .restartCounts <| .dtm h

theorem Goes.execDatumRestart {firmware : Bool} (h : Keeps s t) : Goes s (execDatumRestart firmware t) := by
  unfold Machine.execDatumRestart
  exact .ite (.next h) (.next <| .logFault <| .ite (.forgetSamples <| .dtm h) (.setIsland <| .forgetSamples <| .dtm h))

theorem Goes.execSpinePathFail {node roundTripPs : Nat} (h : Keeps s t) :
    Goes s (execSpinePathFail node roundTripPs t) := by
  unfold Machine.execSpinePathFail
  exact .ite (.next <| .logFault <| .raise <| .setIsland h) (.next h)

theorem Keeps.setPulse {n : Nat} {on : Bool} (h : Keeps s t) : Keeps s (setPulse n on t) := by
  unfold Machine.setPulse
  exact .emit <| .dtm h

theorem Keeps.ppsWrite {n : Nat} {v : BitVec 64} (h : Keeps s t) : Keeps s (ppsWrite n v t) := by
  unfold Machine.ppsWrite
  exact .ite (.ite (.plainWrite h) (.dtm <| .plainWrite h)) (.emit <| .ite (.plainWrite h) (.dtm <| .plainWrite h))

theorem Goes.execPpsOutEdge {n : Nat} (h : Keeps s t) : Goes s (execPpsOutEdge n t) := by
  unfold Machine.execPpsOutEdge
  exact .ite (.next h) (.ite (.next <| .setPulse h) (.ite (.next <| .setPulse h) (.next h)))

theorem Keeps.resynce {n : Nat} {f : State → State} (hf : ∀ {u : State}, Keeps s u → Keeps s (f u)) (h : Keeps s t) :
    Keeps s (resynce n f t) := by
  unfold Machine.resynce
  exact .ite (hf h) (.emit <| hf h)

theorem Keeps.setSquelch {n : Nat} {on : Bool} (h : Keeps s t) : Keeps s (setSquelch n on t) := by
  unfold Machine.setSquelch
  exact .resynce (fun h₁ => .dtm h₁) h

theorem Keeps.loseSynce {n : Nat} (h : Keeps s t) : Keeps s (loseSynce n t) := by
  unfold Machine.loseSynce
  exact .ite (.raise <| .setSquelch h) h

theorem Keeps.synceWrite {n : Nat} {v : BitVec 64} (h : Keeps s t) : Keeps s (synceWrite n v t) := by
  unfold Machine.synceWrite
  exact .resynce (fun h₁ => .ite (.plainWrite h₁) (.dtm <| .plainWrite h₁)) h

theorem Goes.execSynceLos {n : Nat} (h : Keeps s t) : Goes s (execSynceLos n t) :=
  .next <| .loseSynce h

theorem Keeps.measureOsc {n : Nat} (h : Keeps s t) : Keeps s (measureOsc n t) := by
  unfold Machine.measureOsc
  exact .ite (.setOsc <| .drawn h) h

theorem Keeps.countTick (h : Keeps s t) : Keeps s (countTick t) := by
  unfold Machine.countTick
  exact .datum_dtm_islands tblWf_tblMap h

theorem Keeps.datumTick (h : Keeps s t) : Keeps s (datumTick t) := by
  unfold Machine.datumTick
  exact .ite h (.ite (.countTick h) (.measureOsc <| .measureOsc <| .countTick h))

theorem Keeps.bumpGen (h : Keeps s t) : Keeps s (bumpGen t) :=
  .wr h

theorem Goes.admGate {f : State → State} (hf : ∀ {u : State}, Keeps s u → Keeps s (f u)) (h : Keeps s t) :
    Goes s (admGate t f) := by
  unfold Machine.admGate
  exact .ite (.next <| hf h) (.next h)

theorem Goes.execAdmit {ring pick : Nat} (h : Keeps s t) : Goes s (execAdmit ring pick t) := by
  unfold Machine.execAdmit
  exact .admGate (fun h₁ => .runEntry (fun _ _ h₂ => .ite_fst (.fst <| .settlePath <| .bumpGen <| .setContract h₂) h₂) h₁) h

theorem Goes.execCheck {ring : Nat} (h : Keeps s t) : Goes s (execCheck ring t) := by
  unfold Machine.execCheck
  exact .admGate (fun h₁ => .runEntry (fun _ _ h₂ => h₂) h₁) h

theorem Keeps.keepDeadlines {p : ContractParams} (h : Keeps s t) : Keeps s (keepDeadlines p t) := by
  unfold Machine.keepDeadlines
  exact .voqs tblWf_tblMap h

theorem Goes.execModify {ring : Nat} (h : Keeps s t) : Goes s (execModify ring t) := by
  unfold Machine.execModify
  refine .admGate (fun h₁ => .runEntry (fun _ _ h₂ => ?_) h₁) h
  dsimp only
  split
  · exact h₂
  · exact .ite_fst h₂ (.ite_fst (.fst <| .settlePath <| .settlePath <| .bumpGen <| .setContract <| .keepDeadlines <|
      .keepDeadlines h₂) h₂)

theorem Goes.execAdmissionQuery {ring : Nat} (h : Keeps s t) : Goes s (execAdmissionQuery ring t) := by
  unfold Machine.execAdmissionQuery
  refine .admGate (fun h₁ => .runEntry (fun _ _ h₂ => ?_) h₁) h
  dsimp only
  split <;> exact h₂

theorem Goes.execWithdraw {ring : Nat} (h : Keeps s t) : Goes s (execWithdraw ring t) := by
  unfold Machine.execWithdraw
  refine .admGate (fun h₁ => .startEntry (fun _ _ h₂ => ?_) h₁) h
  dsimp only
  split
  · exact h₂
  · exact .fst <| .withdrawContract h₂

theorem Goes.execStageDump {ring : Nat} (h : Keeps s t) : Goes s (execStageDump ring t) := by
  unfold Machine.execStageDump
  exact .admGate (fun h₁ => .runEntry (fun _ _ h₂ => .ite_fst h₂ (.ite_fst h₂ (.fst <| .sheetWrite h₂))) h₁) h

theorem Keeps.police {id len start : Nat} (h : Keeps s t) : Keeps s (police id len start t).2 := by
  unfold Machine.police
  split
  · exact h
  · split <;> exact .ite_snd (.snd <| .setContract h) (.snd <| .setContract h)

theorem Keeps.nonConform {id : Nat} (h : Keeps s t) : Keeps s (nonConform id t) := by
  unfold Machine.nonConform
  split
  · exact h
  · exact .setContract h

theorem Keeps.settleOutlet {outlet : Option Nat} (h : Keeps s t) : Keeps s (settleOutlet outlet t) := by
  unfold Machine.settleOutlet
  split
  · exact .settleLink h
  · exact h

theorem Keeps.sizeShares {addr : Nat} (h : Keeps s t) : Keeps s (sizeShares addr t) := by
  unfold Machine.sizeShares
  exact .ite (.refreshPressure <| .resizePool h) h

theorem Keeps.admConfigWrite {addr : Nat} {value : BitVec 64} (h : Keeps s t) :
    Keeps s (admConfigWrite addr value t) := by
  unfold Machine.admConfigWrite
  split
  · exact h
  · exact .ite h (.ite (.raise <| .wr h) (.ite (.settleOutlet <| .sizeShares <| .wr <| .plainWrite h) (.ite
      (.settleOutlet <| .sizeShares <| .bumpGen <| .wr <| .plainWrite h) (.raise <| .wr h))))

theorem Goes.execAdmConfigWrite {addr : Nat} {value : BitVec 64} (h : Keeps s t) :
    Goes s (execAdmConfigWrite addr value t) :=
  .next <| .admConfigWrite h

theorem Keeps.breakNode {node : Nat} (h : Keeps s t) : Keeps s (breakNode node t) :=
  .breakWhere h

theorem Keeps.setArbiter {kind inst : Nat} {x : Arbiter} (h : Keeps s t) : Keeps s (t.setArbiter kind inst x) := by
  unfold State.setArbiter
  exact .grt h

theorem Goes.execArbiterGrant {kind inst raised : Nat} (h : Keeps s t) :
    Goes s (execArbiterGrant kind inst raised t) := by
  unfold Machine.execArbiterGrant
  refine .ite ?_ (.next h)
  split
  · exact .next <| .emit <| .setArbiter h
  · exact .next <| .setArbiter h

theorem Goes.execGrtCntClr (h : Keeps s t) : Goes s (execGrtCntClr t) :=
  .next <| .wr <| .wr h

theorem Keeps.releaseGrants {island : Nat} (h : Keeps s t) : Keeps s (releaseGrants island t) := by
  unfold Machine.releaseGrants
  exact .grt h

theorem Keeps.takeBudget {f : Flying} (h : Keeps s t) : Keeps s (takeBudget f t) := by
  unfold Machine.takeBudget
  exact .pipe h

theorem Keeps.sendToBench {f : Flying} (h : Keeps s t) : Keeps s (sendToBench f t) := by
  unfold Machine.sendToBench
  exact .ite (.count <| .pipe h) (.pipe h)

theorem Keeps.followLimit {i : Nat} (h : Keeps s t) : Keeps s (followLimit i t) := by
  unfold Machine.followLimit
  exact .ite (.refreshPressure h) h

theorem Keeps.holdAtInlet {f : Flying} (h : Keeps s t) : Keeps s (holdAtInlet f t) := by
  unfold Machine.holdAtInlet
  exact .pipe h

theorem Keeps.enterBench {f : Flying} (h : Keeps s t) : Keeps s (enterBench f t) := by
  unfold Machine.enterBench
  exact .ite (.ite (.followLimit <| .sendToBench h) (.refreshPressure <| .holdAtInlet h)) (.ite (.followLimit <|
      .sendToBench <| .takeBudget h) (.refreshPressure <| .ite (.count <| .holdAtInlet h) (.holdAtInlet h)))

theorem Keeps.pumpInlets (h : Keeps s t) : Keeps s (pumpInlets t) := by
  unfold Machine.pumpInlets
  exact .foldl (fun _ h₁ => .ite (.sendToBench <| .pipe h₁) h₁) h

theorem Keeps.setConn {n : Nat} {x : Conn} (h : Keeps s t) : Keeps s (t.setConn n x) :=
  .conns (tblWf_tblPut _) h

theorem Keeps.sendRlt {c : Nat} {own : Bool} {k : RltPkt} (h : Keeps s t) : Keeps s (sendRlt c own k t) := by
  unfold Machine.sendRlt
  split
  · exact h
  · exact .enterBench <| .setConn h

theorem Keeps.sendOwn {c : Nat} {type : RltType} {path msn : Nat} {body : Bytes} (h : Keeps s t) :
    Keeps s (sendOwn c type path msn body t) := by
  unfold Machine.sendOwn
  split
  · exact h
  · exact .sendRlt h

theorem Keeps.sendAnswer {c : Nat} {type : RltType} {path msn : Nat} {body : Bytes} (h : Keeps s t) :
    Keeps s (sendAnswer c type path msn body t) := by
  unfold Machine.sendAnswer
  split
  · exact h
  · exact .sendRlt h

theorem Keeps.flushSends {c fuel : Nat} (h : Keeps s t) : Keeps s (flushSends c fuel t) := by
  induction fuel generalizing t with
  | zero => exact h
  | succ fuel ih =>
    unfold Machine.flushSends
    split
    · exact h
    · split
      · exact h
      · split
        · exact h
        · dsimp only
          split
          · exact ih h.setConn.endJob
          · exact ih h.setConn

theorem Keeps.endSend {c : Nat} {msn : BitVec 32} {st : Nat} (h : Keeps s t) : Keeps s (endSend c msn st t) := by
  unfold Machine.endSend
  split
  · exact h
  · exact .flushSends <| .setConn h

theorem Keeps.writeRecv {handle : Nat} {m : RecvMsg} {st : Nat} (h : Keeps s t) :
    Keeps s (writeRecv handle m st t) := by
  unfold Machine.writeRecv
  split
  · exact .endJob <| .ite (.passSlot h) h
  · exact .ite (.freeSlot h) h

theorem Keeps.leaveFence {c msn : Nat} (h : Keeps s t) : Keeps s (leaveFence c msn t) := by
  unfold Machine.leaveFence
  exact .rlt h

theorem Keeps.flushRecvs {c fuel : Nat} (h : Keeps s t) : Keeps s (flushRecvs c fuel t) := by
  induction fuel generalizing t with
  | zero => exact h
  | succ fuel ih =>
    unfold Machine.flushRecvs
    split
    · exact h
    · split
      · exact h
      · split
        · exact h
        · exact ih h.setConn.leaveFence.writeRecv

theorem Keeps.endRecv {c : Nat} {msn : BitVec 32} {st : Nat} (h : Keeps s t) : Keeps s (endRecv c msn st t) := by
  unfold Machine.endRecv
  split
  · exact h
  · exact .flushRecvs <| .setConn h

theorem Keeps.peerArrive {key : Nat} (h : Keeps s t) : Keeps s (peerArrive key t) := by
  unfold Machine.peerArrive
  exact .ite h (.ite (.count h) (.surveyRec <| .health h))

theorem Keeps.peerLeave {key : Nat} (h : Keeps s t) : Keeps s (peerLeave key t) := by
  unfold Machine.peerLeave
  refine .ite h ?_
  split
  · exact h
  · exact .surveyRec <| .health h

theorem Keeps.moveConn {c : Nat} {st : ConnState} (h : Keeps s t) : Keeps s (moveConn c st t) := by
  unfold Machine.moveConn
  split
  · exact h
  · exact .ite (.peerLeave <| .setConn <| .ite (.raise <| .ite (.peerArrive h) h) (.ite (.peerArrive h) h)) (.setConn <|
      .ite (.raise <| .ite (.peerArrive h) h) (.ite (.peerArrive h) h))

theorem Keeps.openConn {c : Nat} (h : Keeps s t) : Keeps s (openConn c t) := by
  unfold Machine.openConn
  split
  · exact h
  · exact .ite (.postConnState <| .moveConn h) h

theorem Keeps.dropStalled {c : Nat} {p : Packet → Bool} (h : Keeps s t) : Keeps s (dropStalled c p t) := by
  unfold Machine.dropStalled
  split
  · exact h
  · exact .refreshPressure <| .foldl (fun _ h₁ => .releaseSetts h₁) <| .setConn h

theorem Keeps.refuseWaiting {g handle st : Nat} (h : Keeps s t) : Keeps s (refuseWaiting g handle st t) := by
  unfold Machine.refuseWaiting
  split
  · exact h
  · exact .foldl (fun _ h₁ => .endJob h₁) h

theorem Keeps.endAllSends {c st : Nat} (h : Keeps s t) : Keeps s (endAllSends c st t) := by
  unfold Machine.endAllSends
  split
  · exact h
  · exact .foldl (fun _ h₁ => .endSend h₁) h

theorem Keeps.endAllRecvs {c st : Nat} (h : Keeps s t) : Keeps s (endAllRecvs c st t) := by
  unfold Machine.endAllRecvs
  split
  · exact h
  · exact .foldl (fun _ h₁ => .writeRecv <| .leaveFence h₁) <| .setConn h

theorem Keeps.unstartJob {g idx : Nat} (h : Keeps s t) : Keeps s (unstartJob g idx t) := by
  unfold Machine.unstartJob
  split
  · exact h
  · exact .setRing h

theorem Keeps.abandonMessages {c : Nat} (h : Keeps s t) : Keeps s (abandonMessages c t) := by
  unfold Machine.abandonMessages
  split
  · exact h
  · refine .foldl (fun m hu => ?_) <| .foldl (fun m hu => ?_) <| .setConn h
    · have hl {c k : Nat} : Keeps s (if m.slot then
        (Machine.leaveFence c k _).freeSlot .msg else Machine.leaveFence c k _) :=
        .ite (.freeSlot <| .leaveFence hu) (.leaveFence hu)
      dsimp only
      split
      · exact .unstartJob hl
      · exact hl
    · split
      · exact .freeSlot <| .unstartJob hu
      · exact hu

theorem Keeps.sendClose {c cause : Nat} (h : Keeps s t) : Keeps s (sendClose c cause t) := by
  unfold Machine.sendClose
  split
  · exact h
  · exact .sendOwn h

theorem Keeps.forgetPages {c : Nat} (h : Keeps s t) : Keeps s (forgetPages c t) := by
  unfold Machine.forgetPages
  exact .rlt h

theorem Keeps.connError {c cause : Nat} (h : Keeps s t) : Keeps s (connError c cause t) := by
  unfold Machine.connError
  split
  · exact h
  · refine .ite h (.ite (.ite ?_ ?_) ?_)
    · split
      · exact .abandonMessages <| .forgetPages <| .dropStalled <| .raise <| .postConnState <| .setConn <| .moveConn h
      · exact .abandonMessages <| .forgetPages <| .dropStalled <| .raise <| .postConnState <| .moveConn h
    · split
      · exact .refuseWaiting <| .refuseWaiting <| .endAllRecvs <| .endAllSends <| .forgetPages <| .dropStalled <|
          .raise <| .postConnState <| .setConn <| .moveConn h
      · exact .refuseWaiting <| .refuseWaiting <| .endAllRecvs <| .endAllSends <| .forgetPages <| .dropStalled <|
          .raise <| .postConnState <| .moveConn h
    · split
      · split
        · exact .sendClose <| .abandonMessages <| .forgetPages <| .dropStalled <| .raise <| .postConnState <| .setConn <|
            .moveConn h
        · exact .sendClose <| .abandonMessages <| .forgetPages <| .dropStalled <| .raise <| .postConnState <| .moveConn h
      · split
        · exact .sendClose <| .refuseWaiting <| .refuseWaiting <| .endAllRecvs <| .endAllSends <| .forgetPages <|
            .dropStalled <| .raise <| .postConnState <| .setConn <| .moveConn h
        · exact .sendClose <| .refuseWaiting <| .refuseWaiting <| .endAllRecvs <| .endAllSends <| .forgetPages <|
            .dropStalled <| .raise <| .postConnState <| .moveConn h

theorem Keeps.eraseKeys {l : List Nat} (h : Keeps s t) : Keeps s (eraseKeys l t) := by
  unfold Machine.eraseKeys
  exact .cipher h

theorem Keeps.freeConn {c : Nat} (h : Keeps s t) : Keeps s (freeConn c t) := by
  unfold Machine.freeConn
  split
  · exact h
  · exact .foldl (fun _ h₁ => .endJob h₁) <| .resolveShrinks <| .forgetPages <| .eraseKeys <| .sas_conns_rlt
      (tblWf_tblDel ∘ tblWf_tblDel) tblWf_tblDel h

theorem Keeps.endMessages {n : Nat} (h : Keeps s t) : Keeps s (endMessages n t) :=
  .foldl (fun _ h₁ => .connError h₁) h

theorem Keeps.withdrawRecvs {c g : Nat} (h : Keeps s t) : Keeps s (withdrawRecvs c g t) := by
  unfold Machine.withdrawRecvs
  split
  · exact h
  · exact .dropStalled <| .foldl (fun _ h₁ => .writeRecv <| .ite (.leaveFence h₁) h₁) <| .setConn h

theorem Keeps.quiesceMessages {g : Nat} (h : Keeps s t) : Keeps s (quiesceMessages g t) :=
  .foldl (fun _ h₁ => .withdrawRecvs h₁) h

theorem Keeps.freeRegion {r : Nat} (h : Keeps s t) : Keeps s (freeRegion r t) := by
  unfold Machine.freeRegion
  exact .rlt h

theorem Keeps.setCtrl {n : Nat} {x : Ctrl} (h : Keeps s t) : Keeps s (t.setCtrl n x) :=
  .ctrls (tblWf_tblPut _) h

theorem Keeps.setVol {n : Nat} {x : Volume} (h : Keeps s t) : Keeps s (t.setVol n x) := by
  unfold State.setVol
  exact .sto h

theorem Keeps.setCmd {i : Nat} {x : NvmeCmd} (h : Keeps s t) : Keeps s (t.setCmd i x) := by
  unfold State.setCmd
  exact .sto h

theorem Keeps.resetQueue {g : Nat} {st : RingState} (h : Keeps s t) : Keeps s (resetQueue g st t) := by
  unfold Machine.resetQueue
  split
  · exact h
  · exact .setRing h

theorem Keeps.setQueues {c : Ctrl} {st : RingState} (h : Keeps s t) : Keeps s (setQueues c st t) := by
  unfold Machine.setQueues
  refine .foldl (fun _ h₁ => ?_) h
  split
  · exact .setRing h₁
  · exact h₁

theorem Keeps.announceCq {n q : Nat} (h : Keeps s t) : Keeps s (announceCq n q t) := by
  unfold Machine.announceCq
  split
  · exact h
  · split
    · exact h
    · exact .ite h (.ite (.sendVector <| .setCtrl h) (.setCtrl h))

theorem Keeps.postCqe {m : NvmeCmd} {status dw0 : Nat} (h : Keeps s t) : Keeps s (postCqe m status dw0 t) := by
  unfold Machine.postCqe
  split
  · exact h
  · split
    · exact h
    · split
      · split
        · exact h
        · exact .announceCq <| .setRing <| .ite (.orderedWrite h) h
      · exact h

theorem Keeps.dropCmd {i : Nat} (h : Keeps s t) : Keeps s (dropCmd i t) := by
  unfold Machine.dropCmd
  split
  · exact h
  · dsimp only
    split
    · exact .freeSlot <| .sto h
    · exact .setCtrl <| .freeSlot <| .sto h

theorem Keeps.detachDone {n nsid : Nat} (h : Keeps s t) : Keeps s (detachDone n nsid t) := by
  unfold Machine.detachDone
  split
  · exact h
  · split
    · exact h
    · split
      · exact h
      · exact .ite h (.endJob <| .setCtrl h)

theorem Keeps.finishNow {i : Nat} {m : NvmeCmd} {status dw0 : Nat} (h : Keeps s t) :
    Keeps s (finishNow i m status dw0 t) := by
  unfold Machine.finishNow
  exact .ite (.count <| .dropCmd <| .postCqe h) (.detachDone <| .count <| .dropCmd <| .postCqe h)

theorem Keeps.takeDeferred {m : NvmeCmd} {status : Nat} (h : Keeps s t) : Keeps s (takeDeferred m status t).2 := by
  unfold Machine.takeDeferred
  split
  · exact h
  · split
    · exact h
    · split
      · exact h
      · exact .ite_snd (.snd <| .setCtrl h) h

theorem Keeps.finishCmd {i status dw0 : Nat} (h : Keeps s t) : Keeps s (finishCmd i status dw0 t) := by
  unfold Machine.finishCmd
  split
  · exact h
  · split
    · rename_i e₁
      split
      · exact .dropCmd <| .of_snd e₁ <| .takeDeferred h
      · exact .ite (.setCmd <| .of_snd e₁ <| .takeDeferred h) (.finishNow <| .of_snd e₁ <| .takeDeferred h)

theorem Keeps.postHeld {n : Nat} (h : Keeps s t) : Keeps s (postHeld n t) := by
  unfold Machine.postHeld
  refine .foldl (fun _ h₁ => ?_) h
  refine .ite ?_ h₁
  split
  · exact .finishNow h₁
  · exact h₁
  · exact h₁
  · exact h₁
  · exact h₁

theorem Keeps.settleFlushes (h : Keeps s t) : Keeps s (settleFlushes t) := by
  unfold Machine.settleFlushes
  refine .foldl (fun _ h₁ => ?_) h
  split
  · exact h₁
  · exact .ite (.finishCmd h₁) h₁

theorem Keeps.tellDeferred {n nsid lo blocks cause : Nat} (h : Keeps s t) :
    Keeps s (tellDeferred n nsid lo blocks cause t) := by
  unfold Machine.tellDeferred
  split
  · exact h
  · split
    · exact .setCtrl h
    · exact .finishCmd <| .setCtrl h

theorem Keeps.deferredError {vol lo n cause : Nat} (h : Keeps s t) : Keeps s (deferredError vol lo n cause t) := by
  unfold Machine.deferredError
  split
  · exact h
  · exact .settleFlushes <| .raise <| .count <| .foldl (fun _ h₁ => .tellDeferred h₁) <| .sto <| .setVol h

theorem Keeps.followDirty (h : Keeps s t) : Keeps s (followDirty t) := by
  unfold Machine.followDirty
  exact .ite (.wr h) (.ite (.ite (.wr h) h) (.ite (.raise <| .wr h) h))

theorem Keeps.attachCache {p capacity : Nat} (h : Keeps s t) : Keeps s (attachCache p capacity t) := by
  unfold Machine.attachCache
  exact .ite h (.followDirty <| .sto h)

theorem Keeps.mirrorAgain {key : Nat} (h : Keeps s t) : Keeps s (mirrorAgain key t) := by
  unfold Machine.mirrorAgain
  split
  · refine .ite ?_ h
    split
    · exact .sto h
    · exact h
  · exact h

theorem Keeps.cacheRemoved {p : Nat} (h : Keeps s t) : Keeps s (cacheRemoved p t) := by
  unfold Machine.cacheRemoved
  exact .followDirty <| .foldl (fun _ h₁ => .mirrorAgain h₁) <| .foldl (fun _ h₁ => .deferredError h₁) <| .sto h

theorem Keeps.rootPortDown {p : Nat} (h : Keeps s t) : Keeps s (rootPortDown p t) := by
  unfold Machine.rootPortDown
  exact .ite (.cacheRemoved <| .ite (.raise h) h) (.ite (.raise h) h)

theorem Keeps.abandonCmds {n : Nat} (h : Keeps s t) : Keeps s (abandonCmds n t) :=
  .foldl (fun _ h₁ => .dropCmd h₁) h

theorem Keeps.endSetter {n status : Nat} (h : Keeps s t) : Keeps s (endSetter n status t) := by
  unfold Machine.endSetter
  split
  · exact h
  · split
    · exact h
    · exact .endJob <| .setCtrl h

theorem Keeps.resetCtrl {n : Nat} (h : Keeps s t) : Keeps s (resetCtrl n t) := by
  unfold Machine.resetCtrl
  split
  · exact h
  · dsimp only
    split
    · exact .abandonCmds <| .endSetter <| .setQueues h
    · exact .setCtrl <| .abandonCmds <| .endSetter <| .setQueues h

theorem Keeps.endStorage {n : Nat} (h : Keeps s t) : Keeps s (endStorage n t) :=
  .foldl (fun _ h₁ => .resetCtrl h₁) h

theorem Keeps.freeCtrl {n : Nat} (h : Keeps s t) : Keeps s (freeCtrl n t) := by
  unfold Machine.freeCtrl
  split
  · exact h
  · exact .resolveShrinks <| .rings_ctrls (tblWf_filter _) tblWf_tblDel <| .abandonCmds h

theorem Keeps.removeUnits {n : Nat} (h : Keeps s t) : Keeps s (removeUnits n t) := by
  unfold Machine.removeUnits
  exact .foldl (fun _ h₁ => .freeRegion h₁) <| .foldl (fun _ h₁ => .freeCtrl h₁) <| .eraseKeys <| .sas (tblWf_filter _) <|
      .foldl (fun _ h₁ => .freeConn h₁) h

theorem Keeps.wakeCtrl {g : Nat} (h : Keeps s t) : Keeps s (wakeCtrl g t) := by
  unfold Machine.wakeCtrl
  split
  · exact h
  · exact .ite (.setCtrl h) h

theorem Keeps.disableSheet {n cause : Nat} (h : Keeps s t) : Keeps s (disableSheet n cause t) := by
  unfold Machine.disableSheet
  exact .ite (.endStorage <| .endMessages <| .withdrawSheet <| .foldl (fun _ h₁ => .stopRing h₁) <| .spoilWhere <|
      .postSheetState <| .setSheet h) h

theorem Keeps.disableFunction {p f cause : Nat} (h : Keeps s t) : Keeps s (disableFunction p f cause t) :=
  .foldl (fun _ h₁ => .disableSheet h₁) h

theorem Keeps.issueRead {req : HostReq} {len : Nat} {use : ReadUse} (h : Keeps s t) :
    Keeps s (issueRead req len use t) := by
  unfold Machine.issueRead
  exact .emit <| .takeSlot <| .reads h

theorem Keeps.endRead {p tag : Nat} (h : Keeps s t) : Keeps s (endRead p tag t) := by
  unfold Machine.endRead
  exact .ite (.freeSlot <| .reads h) h

theorem Keeps.forgetFetch {g : Nat} (h : Keeps s t) : Keeps s (forgetFetch g t) := by
  unfold Machine.forgetFetch
  exact .reads h

theorem Keeps.issueFetch {g : Nat} (h : Keeps s t) : Keeps s (issueFetch g t) := by
  unfold Machine.issueFetch
  split
  · exact h
  · exact .ite (.issueRead <| .setRing h) h

theorem Keeps.fetchArrive {g : Nat} {entries : List Entry} (h : Keeps s t) : Keeps s (fetchArrive g entries t) := by
  unfold Machine.fetchArrive
  split
  · exact h
  · exact .ite (.flushRing <| .setRing h) (.setRing h)

theorem Keeps.fetchFault {g : Nat} (h : Keeps s t) : Keeps s (fetchFault g t) := by
  unfold Machine.fetchFault
  split
  · exact h
  · exact .ite (.raise <| .quiesceMessages <| .stopRing <| .setRing h) (.setRing h)

theorem Keeps.atsKeep {p f pasid addr : Nat} (h : Keeps s t) : Keeps s (atsKeep p f pasid addr t) := by
  unfold Machine.atsKeep
  exact .ite (.setFunc <| .drawn h) h

theorem Keeps.sheetAts {n addr : Nat} (h : Keeps s t) : Keeps s (sheetAts n addr t) :=
  .atsKeep h

theorem Goes.execFlightSlotWaitStart {ring : Nat} (h : Keeps s t) : Goes s (execFlightSlotWaitStart ring t) := by
  unfold Machine.execFlightSlotWaitStart
  split
  · exact .next h
  · exact .ite (.next <| .setRing <| .takeSlot h) (.next h)

theorem Goes.execUndefinedOpcode {ring : Nat} (h : Keeps s t) : Goes s (execUndefinedOpcode ring t) := by
  unfold Machine.execUndefinedOpcode
  split
  · exact .next h
  · split
    · exact .next h
    · exact .ite (.next h) (.ite (.next <| .endJob h) (.ite (.next <| .endJob h) (.next h)))

theorem Goes.execEntryFetch {ring : Nat} {data : Option (List Entry)} (h : Keeps s t) :
    Goes s (execEntryFetch ring data t) := by
  unfold Machine.execEntryFetch
  split
  · exact .next <| .issueFetch h
  · split
    · exact .next h
    · exact .next <| .issueFetch <| .fetchArrive <| .endRead h

theorem Keeps.quarantine {p f : Nat} (h : Keeps s t) : Keeps s (quarantine p f t) := by
  unfold Machine.quarantine
  exact .reads h

theorem Keeps.clearBme {p f cause : Nat} (h : Keeps s t) : Keeps s (clearBme p f cause t) := by
  unfold Machine.clearBme
  exact .disableFunction <| .quarantine <| .setFunc h

theorem Keeps.resetVectors {p f : Nat} (h : Keeps s t) : Keeps s (resetVectors p f t) :=
  .vectors (tblWf_filter _) h

theorem Keeps.releaseDp {p : Nat} (h : Keeps s t) : Keeps s (releaseDp p t) := by
  unfold Machine.releaseDp
  exact .ite (.wr <| .wr h) h

theorem Keeps.configWrite {p f : Nat} {effect : State → State} (heffect : ∀ {u : State}, Keeps s u → Keeps s (effect u))
    (h : Keeps s t) :
    Keeps s (configWrite p f effect t) := by
  unfold Machine.configWrite
  exact .ite (heffect h) (.emit h)

theorem Keeps.flrFunction {p f cause : Nat} (h : Keeps s t) : Keeps s (flrFunction p f cause t) := by
  unfold Machine.flrFunction
  exact .setFunc <| .rlt <| .resetVectors <| .clearBme <| .ite (.releaseDp h) h

theorem Keeps.consArrive {i kind : Nat} {serial : Bytes} {vendor : Nat} (h : Keeps s t) :
    Keeps s (consArrive i kind serial vendor t) := by
  unfold Machine.consArrive
  exact .health h

theorem Keeps.consLeave {i : Nat} (h : Keeps s t) : Keeps s (consLeave i t) := by
  unfold Machine.consLeave
  exact .ite (.health h) h

theorem Keeps.portDown {p : Nat} (h : Keeps s t) : Keeps s (portDown p t) := by
  unfold Machine.portDown
  exact .raise <| .wr <| .wr <| .wr <| .wr <| .wr h

theorem Keeps.peerOnes {fromPort pf len : Nat} (h : Keeps s t) : Keeps s (peerOnes fromPort pf len t) :=
  .emit h

theorem Keeps.strandReads {p : Nat} (h : Keeps s t) : Keeps s (strandReads p t) := by
  unfold Machine.strandReads
  exact .reads h

theorem Keeps.failReads {p : Nat} (h : Keeps s t) : Keeps s (failReads p t) := by
  unfold Machine.failReads
  refine .strandReads <| .foldl (fun _ h₁ => ?_) h
  split
  · exact .fetchFault h₁
  · exact .raise <| .peerOnes h₁
  · exact h₁

theorem Keeps.dropAsker {p : Nat} (h : Keeps s t) : Keeps s (dropAsker p t) := by
  unfold Machine.dropAsker
  exact .reads h

theorem Keeps.endpointLost {p : Nat} (h : Keeps s t) : Keeps s (endpointLost p t) := by
  unfold Machine.endpointLost
  exact .ite (.surveyRec <| .dropAsker <| .failReads <| .foldl (fun _ h₁ => .flrFunction h₁) <| .wr <| .portDown h) h

theorem Keeps.cxlDetach {p : Nat} (h : Keeps s t) : Keeps s (cxlDetach p t) := by
  unfold Machine.cxlDetach
  exact .ite h (.mem_cxlFree (memWf_filter _) <| .setPort h)

theorem Keeps.containPort {p : Nat} (h : Keeps s t) : Keeps s (containPort p t) := by
  unfold Machine.containPort
  exact .ite h (.setPort <| .ite (.rootPortDown <| .cxlDetach <| .breakWhere <| .raise <| .wr <| .wr <| .ite (.portDown <|
      .failReads h) (.failReads h)) (.consLeave <| .surveyRec <| .rootPortDown <| .cxlDetach <| .breakWhere <| .raise <|
      .wr <| .wr <| .ite (.portDown <| .failReads h) (.failReads h)))

theorem Keeps.linkLost {p : Nat} (h : Keeps s t) : Keeps s (linkLost p t) := by
  unfold Machine.linkLost
  exact .ite (.containPort h) (.endpointLost h)

theorem Keeps.netRefuse {p : Nat} (h : Keeps s t) : Keeps s (netRefuse p t) :=
  .raise <| .wr h

theorem Keeps.flagCages (h : Keeps s t) : Keeps s (flagCages t) :=
  .foldl (fun _ h₁ => .wr h₁) h

theorem Keeps.followLowPower {k : Nat} {on : Bool} (h : Keeps s t) : Keeps s (followLowPower k on t) := by
  unfold Machine.followLowPower
  exact .ite (.wr h) h

theorem Keeps.updateLowPower {k : Nat} (h : Keeps s t) : Keeps s (updateLowPower k t) := by
  unfold Machine.updateLowPower
  exact .ite h (.followLowPower <| .net <| .emit h)

theorem Keeps.reserveHeadroom {p : Nat} (h : Keeps s t) : Keeps s (reserveHeadroom p t) :=
  .wr <| .wr h

theorem Keeps.releaseHeadroom {p : Nat} (h : Keeps s t) : Keeps s (releaseHeadroom p t) :=
  .wr <| .wr h

theorem Keeps.pauseClass {p c quanta : Nat} (h : Keeps s t) : Keeps s (pauseClass p c quanta t) := by
  unfold Machine.pauseClass
  exact .ite (.net h) (.net h)

theorem Keeps.showPaused {p : Nat} (h : Keeps s t) : Keeps s (showPaused p t) :=
  .wr h

theorem Keeps.clearPauses {p : Nat} (h : Keeps s t) : Keeps s (clearPauses p t) := by
  unfold Machine.clearPauses
  exact .showPaused <| .net h

theorem Keeps.spliceVoqs {o a : Nat} (h : Keeps s t) : Keeps s (spliceVoqs o a t) := by
  unfold Machine.spliceVoqs
  exact .foldl (fun _ h₁ => .count <| .voqs (tblWf_tblPut _ ∘ tblWf_tblDel) h₁) h

theorem Keeps.rePin {o : Nat} (h : Keeps s t) : Keeps s (rePin o t) := by
  unfold Machine.rePin
  exact .ite (.refreshPressure <| .raise <| .foldl (fun _ h₁ => .wr h₁) <| .wr <| .wr <| .wr <| .swc <| .spliceVoqs h) h

theorem Keeps.spoilDead {p : Nat} (h : Keeps s t) : Keeps s (spoilDead p t) := by
  unfold Machine.spoilDead
  exact .ite (.foldl (fun _ h₁ => .spoilPacket h₁) <| .spoilWhere <| .swc h) h

theorem Keeps.servoDown {p : Nat} (h : Keeps s t) : Keeps s (servoDown p t) := by
  unfold Machine.servoDown
  exact .foldl (fun _ h₁ => .ite (.disqualify h₁) h₁) h

theorem Keeps.syncePort {p was st : Nat} (h : Keeps s t) : Keeps s (syncePort p was st t) := by
  unfold Machine.syncePort
  exact .ite (.foldl (fun _ h₁ => .loseSynce h₁) h) (.ite (.foldl (fun _ h₁ => .setSquelch h₁) h) h)

theorem Keeps.leaveService {p : Nat} (h : Keeps s t) : Keeps s (leaveService p t) :=
  .servoDown <| .resizePool <| .releaseHeadroom <| .wr <| .clearPauses h

theorem Keeps.withdrawOutlet {p : Nat} (h : Keeps s t) : Keeps s (withdrawOutlet p t) :=
  .breakWhere <| .rePin h

theorem Keeps.forgetFails {k : Nat} (h : Keeps s t) : Keeps s (forgetFails k t) := by
  unfold Machine.forgetFails
  exact .ite h (.net h)

theorem Keeps.moveNet {p st cause : Nat} (h : Keeps s t) : Keeps s (moveNet p st cause t) := by
  unfold Machine.moveNet
  split
  · dsimp only
    split
    · exact .refreshPressure <| .spoilDead <| .forgetFails <| .updateLowPower <| .raise <| .syncePort <| .ite
        (.withdrawOutlet <| .ite (.leaveService <| .wr <| .wr h) (.wr <| .wr h)) (.ite (.leaveService <| .wr <| .wr h)
        (.wr <| .wr h))
    · exact .refreshPressure <| .spoilDead <| .raise <| .syncePort <| .ite (.withdrawOutlet <| .ite (.leaveService <|
        .wr <| .wr h) (.wr <| .wr h)) (.ite (.leaveService <| .wr <| .wr h) (.wr <| .wr h))
  · dsimp only
    split
    · exact .refreshPressure <| .spoilDead <| .forgetFails <| .updateLowPower <| .raise <| .syncePort <| .ite
        (.withdrawOutlet <| .ite (.leaveService <| .wr h) (.wr h)) (.ite (.leaveService <| .wr h) (.wr h))
    · exact .refreshPressure <| .spoilDead <| .raise <| .syncePort <| .ite (.withdrawOutlet <| .ite (.leaveService <|
        .wr h) (.wr h)) (.ite (.leaveService <| .wr h) (.wr h))

theorem Keeps.initFailed {p cause : Nat} (h : Keeps s t) : Keeps s (initFailed p cause t) := by
  unfold Machine.initFailed
  exact .surveyRec <| .moveNet h

theorem Keeps.startPort {p : Nat} (h : Keeps s t) : Keeps s (startPort p t) := by
  unfold Machine.startPort
  refine .ite ?_ h
  split <;> exact .moveNet h

theorem Keeps.applyHeadroom {p : Nat} (h : Keeps s t) : Keeps s (applyHeadroom p t) := by
  unfold Machine.applyHeadroom
  exact .ite h (.refreshPressure <| .resizePool <| .reserveHeadroom h)

theorem Keeps.grownFrame {p : Nat} {s' : State} (h : Keeps s t) : Keeps s (grownFrame p s' t) := by
  unfold Machine.grownFrame
  exact .ite (.bumpGen <| .wr h) h

theorem Keeps.refuseFrame {p : Nat} (h : Keeps s t) : Keeps s (refuseFrame p t) :=
  .netRefuse <| .raise <| .wr h

theorem Keeps.followPrbs {p : Nat} {was : State} (h : Keeps s t) : Keeps s (followPrbs p was t) := by
  unfold Machine.followPrbs
  exact .ite h (.emit h)

theorem Keeps.cfgWritten {p : Nat} {v : BitVec 64} (h : Keeps s t) : Keeps s (t.cfgWritten p v) :=
  .wr <| .plainWrite h

theorem Keeps.netCfgWrite {p : Nat} {v : BitVec 64} (h : Keeps s t) : Keeps s (netCfgWrite p v t) := by
  unfold Machine.netCfgWrite
  exact .ite (.netRefuse h) (.ite (.refuseFrame h) (.followPrbs <| .ite (.startPort <| .applyHeadroom <| .grownFrame <|
      .wr <| .cfgWritten h) (.ite (.applyHeadroom <| .grownFrame <| .wr <| .cfgWritten h) (.moveNet <| .applyHeadroom <|
      .grownFrame <| .wr <| .cfgWritten h))))

theorem Goes.execNetModeWrite {port mode : Nat} (h : Keeps s t) : Goes s (execNetModeWrite port mode t) :=
  .next <| .netCfgWrite h

theorem Goes.execNetPortEnable {port : Nat} (h : Keeps s t) : Goes s (execNetPortEnable port t) :=
  .next <| .netCfgWrite h

theorem Goes.execNetPortDisable {port : Nat} (h : Keeps s t) : Goes s (execNetPortDisable port t) :=
  .next <| .netCfgWrite h

theorem Keeps.netHeadWrite {a p : Nat} {v : BitVec 64} (h : Keeps s t) : Keeps s (netHeadWrite a p v t) := by
  unfold Machine.netHeadWrite
  exact .ite (.netRefuse h) (.refreshPressure <| .applyHeadroom <| .wr <| .plainWrite h)

theorem Goes.execNetHeadroomConfigWrite {port reg value : Nat} (h : Keeps s t) :
    Goes s (execNetHeadroomConfigWrite port reg value t) := by
  unfold Machine.execNetHeadroomConfigWrite
  split
  · exact .next <| .netCfgWrite h
  · exact .next <| .netHeadWrite h
  · exact .next <| .netHeadWrite h

theorem Keeps.netPfcWrite {p : Nat} {v : BitVec 64} (h : Keeps s t) : Keeps s (netPfcWrite p v t) := by
  unfold Machine.netPfcWrite
  exact .showPaused <| .net <| .plainWrite h

theorem Goes.execNetPrbsTest {port test rate errors : Nat} (h : Keeps s t) :
    Goes s (execNetPrbsTest port test rate errors t) := by
  unfold Machine.execNetPrbsTest
  exact .ite (.next <| .count <| .netCfgWrite h) (.next <| .netCfgWrite h)

theorem Keeps.clearNetCounters {p : Nat} (h : Keeps s t) : Keeps s (clearNetCounters p t) :=
  .foldl (fun _ h₁ => .wr h₁) h

theorem Goes.execNetCntClr {port : Nat} (h : Keeps s t) : Goes s (execNetCntClr port t) :=
  .next <| .clearNetCounters h

theorem Keeps.netRetrain {p : Nat} (h : Keeps s t) : Keeps s (netRetrain p t) := by
  unfold Machine.netRetrain
  refine .ite h ?_
  split
  · exact .moveNet <| .net h
  · exact .moveNet h

theorem Goes.execNetRetrain {port : Nat} (h : Keeps s t) : Goes s (execNetRetrain port t) :=
  .next <| .netRetrain h

theorem Keeps.netRestore {p : Nat} (h : Keeps s t) : Keeps s (netRestore p t) := by
  unfold Machine.netRestore
  exact .ite (.moveNet <| .wr h) (.netRefuse h)

theorem Goes.execNetRestore {port : Nat} (h : Keeps s t) : Goes s (execNetRestore port t) :=
  .next <| .netRestore h

theorem Goes.execLinkLockAcquired {port : Nat} (h : Keeps s t) : Goes s (execLinkLockAcquired port t) := by
  unfold Machine.execLinkLockAcquired
  exact .next <| .ite (.moveNet h) h

theorem Goes.execCalibrationDone {port : Nat} (h : Keeps s t) : Goes s (execCalibrationDone port t) := by
  unfold Machine.execCalibrationDone
  exact .ite (.ite (.next <| .moveNet <| .resizePool <| .reserveHeadroom h) (.next <| .moveNet h)) (.next h)

theorem Goes.execLinkLossOfLock {port uncorrectable : Nat} (h : Keeps s t) :
    Goes s (execLinkLossOfLock port uncorrectable t) := by
  unfold Machine.execLinkLossOfLock
  exact .next <| .ite (.moveNet <| .count h) (.count h)

theorem Keeps.markPaused {p c : Nat} (h : Keeps s t) : Keeps s (markPaused p c t) :=
  .markExternal h

theorem Keeps.pausePrio {p prio quanta : Nat} (h : Keeps s t) : Keeps s (pausePrio p prio quanta t) := by
  unfold Machine.pausePrio
  exact .foldl (fun _ h₁ => .ite (.pauseClass h₁) (.markPaused <| .pauseClass h₁)) h

theorem Keeps.macControl {p op enables : Nat} {quanta : List Nat} (h : Keeps s t) :
    Keeps s (macControl p op enables quanta t) := by
  unfold Machine.macControl
  exact .ite (.count h) (.ite h (.ite (.showPaused <| .foldl (fun _ h₁ => .ite (.pausePrio h₁) h₁) <| .count h) (.ite
      (.ite (.showPaused <| .foldl (fun _ h₁ => .ite (.pauseClass h₁) (.markPaused <| .pauseClass h₁)) <| .count h)
      (.count h)) (.count h))))

theorem Goes.execPfcFrameReceive {port op enables : Nat} {quanta : List Nat} (h : Keeps s t) :
    Goes s (execPfcFrameReceive port op enables quanta t) :=
  .next <| .macControl h

theorem Goes.execRxPauseExpiry {port cls : Nat} (h : Keeps s t) : Goes s (execRxPauseExpiry port cls t) := by
  unfold Machine.execRxPauseExpiry
  exact .next <| .showPaused <| .net h

theorem Goes.execPfcRefresh {port : Nat} (h : Keeps s t) : Goes s (execPfcRefresh port t) := by
  unfold Machine.execPfcRefresh
  exact .next <| .ite (.sendPfc h) h

theorem Goes.execPauseLimitExpiry {port : Nat} (h : Keeps s t) : Goes s (execPauseLimitExpiry port t) := by
  unfold Machine.execPauseLimitExpiry
  exact .ite (.next <| .raise <| .moveNet h) (.next h)

theorem Goes.execModulePresenceDebounced {cage : Nat} {i3c : Bool} {serial : Bytes} {vendor : Nat} (h : Keeps s t) :
    Goes s (execModulePresenceDebounced cage i3c serial vendor t) := by
  unfold Machine.execModulePresenceDebounced
  exact .ite (.next h) (.next <| .foldl (fun _ h₁ => .moveNet h₁) <| .raise <| .surveyRec <| .consArrive <| .net <|
      .emit <| .wr <| .wr <| .wr h)

theorem Goes.execModuleReady {cage power : Nat} {matching : List Nat} (h : Keeps s t) :
    Goes s (execModuleReady cage power matching t) := by
  unfold Machine.execModuleReady
  exact .ite (.next h) (.next <| .foldl (fun _ h₁ => .ite (.initFailed h₁) (.ite (.net h₁) (.initFailed h₁))) <| .net <|
      .wr h)

theorem Keeps.accessWorked {port : Nat} (h : Keeps s t) : Keeps s (accessWorked port t) := by
  unfold Machine.accessWorked
  split
  · exact .net h
  · exact h

theorem Goes.execDataPathActivated {port : Nat} (h : Keeps s t) : Goes s (execDataPathActivated port t) := by
  unfold Machine.execDataPathActivated
  exact .ite (.next <| .moveNet <| .accessWorked <| .net h) (.next h)

theorem Goes.execModuleInitTimeout {port : Nat} (h : Keeps s t) : Goes s (execModuleInitTimeout port t) := by
  unfold Machine.execModuleInitTimeout
  exact .next <| .ite (.initFailed h) h

theorem Goes.execMgmtBusAccessFail {cage : Nat} (h : Keeps s t) : Goes s (execMgmtBusAccessFail cage t) := by
  unfold Machine.execMgmtBusAccessFail
  exact .ite (.next h) (.ite (.next <| .net h) (.next <| .foldl (fun _ h₁ => .initFailed h₁) <| .net h))

theorem Goes.execModuleRemove {cage : Nat} (h : Keeps s t) : Goes s (execModuleRemove cage t) := by
  unfold Machine.execModuleRemove
  exact .ite (.next h) (.next <| .raise <| .consLeave <| .surveyRec <| .net <| .foldl (fun _ h₁ => .moveNet h₁) <| .wr <|
      .wr <| .wr h)

theorem Goes.execModuleInterrupt {cage : Nat} {report : ModuleReport} (h : Keeps s t) :
    Goes s (execModuleInterrupt cage report t) := by
  unfold Machine.execModuleInterrupt
  exact .ite (.next <| .raise <| .wr <| .health h) (.next h)

theorem Keeps.cageAccWrite {k v : Nat} (h : Keeps s t) : Keeps s (cageAccWrite k v t) := by
  unfold Machine.cageAccWrite
  exact .ite h (.ite (.wr h) (.emit <| .net <| .wr h))

theorem Goes.execCageAccess {cage value : Nat} (h : Keeps s t) : Goes s (execCageAccess cage value t) :=
  .next <| .cageAccWrite h

theorem Goes.execCageAccessDone {cage : Nat} {ok : Bool} {data : Nat} (h : Keeps s t) :
    Goes s (execCageAccessDone cage ok data t) := by
  unfold Machine.execCageAccessDone
  split
  · exact .next h
  · exact .next <| .raise <| .ite (.ite (.wr <| .wr <| .net h) (.wr <| .wr <| .wr <| .net h)) (.drawn <| .wr <| .wr <|
      .wr <| .net h)

theorem Keeps.setLearned {k : Nat} {p : Machine.Partition} (h : Keeps s t) : Keeps s (t.setLearned k p) := by
  unfold State.setLearned
  exact .tables h

theorem Keeps.setPartition {hbm : Bool} {p : Machine.Partition} (h : Keeps s t) : Keeps s (t.setPartition hbm p) := by
  unfold State.setPartition
  exact .ite (.raise <| .ite (.tables h) (.tables h)) (.ite (.tables h) (.tables h))

theorem Keeps.tblCommand {ring op : Nat} {types : List Nat} {fieldsOk : State → Entry → Bool} {f : Nat → Entry → State →
    State × Nat × TblReply} (hf : ∀ {u : State} (a : Nat) (b : Entry), Keeps s u → Keeps s (f a b u).1) (h : Keeps s t) :
    Keeps s (tblCommand ring op types fieldsOk f t) := by
  unfold Machine.tblCommand
  exact .runEntry (fun _ _ h₁ => .ite_fst h₁ (.ite_fst h₁ (.ite_fst h₁ (.fst <| hf _ _ h₁)))) h

theorem Keeps.insertEntry {hbm : Bool} {e : TEntry} (h : Keeps s t) : Keeps s (insertEntry hbm e t).1 := by
  unfold Machine.insertEntry
  dsimp only
  split
  · exact h
  · split
    · exact h
    · exact .fst <| .setPartition h

theorem Goes.execTblInsert {ring : Nat} {hbmFault : Bool} (h : Keeps s t) :
    Goes s (execTblInsert ring hbmFault t) := by
  unfold Machine.execTblInsert
  exact .ite (.next h) (.next <| .tblCommand (fun _ _ h₁ => .ite_fst h₁ (.ite_fst h₁ (.insertEntry h₁))) h)

theorem Goes.execTblUpdate {ring : Nat} {hbmFault : Bool} (h : Keeps s t) :
    Goes s (execTblUpdate ring hbmFault t) := by
  unfold Machine.execTblUpdate
  refine .ite (.next h) (.next <| .tblCommand (fun _ _ h₁ => ?_) h)
  split
  · dsimp only
    split <;> exact h₁
  · dsimp only
    split
    · exact h₁
    · exact .fst <| .setPartition h₁

theorem Goes.execTblDelete {ring : Nat} {hbmFault : Bool} (h : Keeps s t) :
    Goes s (execTblDelete ring hbmFault t) := by
  unfold Machine.execTblDelete
  exact .ite (.next h) (.next <| .tblCommand (fun _ _ h₁ => .ite_fst h₁ (.ite_fst h₁ (.fst <| .setPartition h₁))) h)

theorem Goes.execTblLookup {ring : Nat} (h : Keeps s t) : Goes s (execTblLookup ring t) := by
  unfold Machine.execTblLookup
  refine .next <| .tblCommand (fun _ _ h₁ => ?_) h
  dsimp only
  split <;> exact h₁

theorem Goes.execLpmAdd {ring : Nat} {hbmFault : Bool} (h : Keeps s t) : Goes s (execLpmAdd ring hbmFault t) := by
  unfold Machine.execLpmAdd
  refine .ite (.next h) (.next <| .tblCommand (fun _ _ h₁ => ?_) h)
  split
  · split
    · dsimp only
      split
      · split
        · exact .fst <| .tables h₁
        · exact h₁
      · split <;> exact h₁
    · dsimp only
      split
      · split
        · exact .fst <| .tables h₁
        · exact h₁
      · split
        · exact .fst <| .setPartition h₁
        · exact h₁
  · split
    · dsimp only
      split
      · split <;> exact .fst <| .tables h₁
      · split
        · exact h₁
        · exact .ite_fst h₁ h₁
    · dsimp only
      split
      · split <;> exact .fst <| .tables h₁
      · split
        · exact .fst <| .setPartition h₁
        · exact .ite_fst h₁ (.insertEntry h₁)

theorem Goes.execLpmDel {ring : Nat} {hbmFault : Bool} (h : Keeps s t) : Goes s (execLpmDel ring hbmFault t) := by
  unfold Machine.execLpmDel
  exact .ite (.next h) (.next <| .tblCommand (fun _ _ h₁ => .ite_fst (.ite_fst h₁ (.fst <| .tables h₁)) (.ite_fst h₁
      (.ite_fst h₁ (.fst <| .setPartition h₁)))) h)

theorem Goes.execLpmLookup {ring : Nat} (h : Keeps s t) : Goes s (execLpmLookup ring t) := by
  unfold Machine.execLpmLookup
  refine .next <| .tblCommand (fun _ _ h₁ => ?_) h
  split <;> exact h₁

theorem Keeps.flushBench {t' : Nat} {inlet : Option Nat} {k : Nat} {x : Nat × State} (h : Keeps s x.2) :
    Keeps s (flushBench t' inlet k x).2 :=
  h.setLearned.tables

theorem Goes.execLearnFlush {ring : Nat} (h : Keeps s t) : Goes s (execLearnFlush ring t) := by
  unfold Machine.execLearnFlush
  exact .ite (.next h) (.next <| .runEntry (fun _ _ h₁ => .ite_fst h₁ (.ite_fst h₁ (.ite_fst h₁ (.fst <| .foldl_snd
      (fun _ h₂ => .flushBench h₂) h₁)))) h)

theorem Keeps.tblRefuse (h : Keeps s t) : Keeps s (tblRefuse t) :=
  .raise h

theorem Keeps.progWrite {n k : Nat} {v : BitVec 64} (h : Keeps s t) : Keeps s (progWrite n k v t) := by
  unfold Machine.progWrite
  exact .ite h (.ite (.tblRefuse h) (.plainWrite h))

theorem Goes.execTblProgWrite {prog stepNo : Nat} {value : BitVec 64} (h : Keeps s t) :
    Goes s (execTblProgWrite prog stepNo value t) :=
  .next <| .progWrite h

theorem Keeps.descWrite {t' : Nat} {v : BitVec 64} (h : Keeps s t) : Keeps s (descWrite t' v t) := by
  unfold Machine.descWrite
  exact .ite (.wr h) (.ite (.tblRefuse h) (.wr <| .wr <| .wr <| .wr <| .wr <| .wr h))

theorem Goes.execTblDescWrite {table : Nat} {value : BitVec 64} (h : Keeps s t) :
    Goes s (execTblDescWrite table value t) :=
  .next <| .descWrite h

theorem Keeps.learnCfgWrite {v : BitVec 64} (h : Keeps s t) : Keeps s (learnCfgWrite v t) := by
  unfold Machine.learnCfgWrite
  exact .ite (.wr h) (.ite (.tblRefuse h) (.tables <| .wr <| .wr h))

theorem Goes.execTblLearnCfgWrite {value : BitVec 64} (h : Keeps s t) : Goes s (execTblLearnCfgWrite value t) :=
  .next <| .learnCfgWrite h

theorem Keeps.refreshLearned {k t' : Nat} {key : Bytes} {inlet : Nat} {stamp : BitVec 64} (h : Keeps s t) :
    Keeps s (refreshLearned k t' key inlet stamp t) := by
  unfold Machine.refreshLearned
  split
  · exact h
  · exact .ite (.setLearned h) (.count <| .setLearned h)

theorem Keeps.learnStep {k t' : Nat} {key : Bytes} {inlet : Nat} {stamp : BitVec 64} (h : Keeps s t) :
    Keeps s (learnStep k t' key inlet stamp t) := by
  unfold Machine.learnStep
  exact .ite h (.ite (.refreshLearned h) (.ite (.count h) (.tables h)))

theorem Goes.execLearnInsert {bench : Nat} (h : Keeps s t) : Goes s (execLearnInsert bench t) := by
  unfold Machine.execLearnInsert
  split
  · exact .next h
  · refine .ite (.next <| .refreshLearned <| .tables h) ?_
    refine .ite (.next <| .raise <| .count <| .tables h) ?_
    split
    · exact .next <| .raise <| .count <| .tables h
    · exact .next <| .ite (.raise <| .count <| .setLearned <| .tables h) (.count <| .setLearned <| .tables h)

theorem Goes.execLearnAge {bench : Nat} (h : Keeps s t) : Goes s (execLearnAge bench t) := by
  unfold Machine.execLearnAge
  exact .ite (.next h) (.next <| .count <| .setLearned h)

theorem Keeps.learnSteps {f : Flying} (h : Keeps s t) : Keeps s (learnSteps f t) := by
  unfold Machine.learnSteps
  exact .foldl (fun _ h₁ => .ite (.learnStep h₁) h₁) h

theorem Keeps.policePacket {f : Flying} {named : Option Nat} {cls disp outlet : Nat} (h : Keeps s t) :
    Keeps s (policePacket f named cls disp outlet t).2 := by
  unfold Machine.policePacket
  split
  · exact .ite_snd h h
  · split
    · split
      · rename_i e₁
        exact .snd <| .of_snd e₁ <| .police h
      · rename_i e₁
        exact .snd <| .of_snd e₁ <| .police h
    · exact .snd <| .nonConform h

theorem Keeps.settleContour {c : Nat} (h : Keeps s t) : Keeps s (settleContour c t) := by
  unfold Machine.settleContour
  exact .foldl (fun _ h₁ => .pipe h₁) h

theorem Keeps.contourPass {k c : Nat} (h : Keeps s t) : Keeps s (contourPass k c t).2 := by
  unfold Machine.contourPass
  exact .ite_snd (.snd <| .pipe h) (.snd <| .pipe h)

theorem Keeps.defaultAct {f : Flying} {reason : Nat} (h : Keeps s t) : Keeps s (defaultAct f reason t).2 := by
  rw [Machine.defaultAct]
  have hc : Keeps s (t.count (BNC_DEFAULT_CNT f.bench) 1) := .count h
  generalize t.count (BNC_DEFAULT_CNT f.bench) 1 = u at hc
  split
  · exact .ite_snd (.snd <| .policePacket hc) (.snd hc)
  · split
    next e =>
      have hp := Keeps.of_snd e <| .contourPass hc
      exact .ite_snd (.snd <| .policePacket hp) (.snd <| .count hp)
  · exact .snd hc

theorem Keeps.resultAct {f : Flying} {result : Nat} (h : Keeps s t) : Keeps s (resultAct f result t).2 := by
  unfold Machine.resultAct
  split
  · split
    · dsimp only
      split
      · exact h
      · split
        · exact h
        · exact .snd <| .ite (.count <| .policePacket h) (.policePacket h)
    · dsimp only
      split
      · exact h
      · split
        · exact h
        · exact .snd <| .ite (.count <| .policePacket h) (.policePacket h)
  · split
    · dsimp only
      split
      · exact h
      · split
        · exact h
        · exact .snd <| .ite (.count <| .policePacket h) (.policePacket h)
    · dsimp only
      split
      · exact h
      · split
        · exact h
        · exact .snd <| .ite (.count <| .policePacket h) (.policePacket h)

theorem Keeps.storageAct {f : Flying} {o sa : Nat} (h : Keeps s t) : Keeps s (storageAct f o sa t).2 := by
  unfold Machine.storageAct
  split
  · rename_i e
    exact .snd <| .of_snd e <| .policePacket h

theorem Keeps.classifyAct {f : Flying} (h : Keeps s t) : Keeps s (classifyAct f t).2 := by
  unfold Machine.classifyAct
  split
  · exact .defaultAct <| .count h
  · dsimp only
    split
    · exact .defaultAct <| .ite (.learnSteps <| .count <| .count h) (.count <| .count h)
    · exact .resultAct <| .learnSteps <| .count <| .count h

theorem Keeps.actStage {f : Flying} (h : Keeps s t) : Keeps s (actStage f t).2 := by
  unfold Machine.actStage
  split
  · exact .storageAct h
  · exact .classifyAct h

theorem Keeps.exhaustSa {n : Nat} (h : Keeps s t) : Keeps s (exhaustSa n t) := by
  unfold Machine.exhaustSa
  exact .ite (.connError <| .raise <| .wr h) (.raise <| .wr h)

theorem Keeps.issueCounter {n version bench : Nat} (h : Keeps s t) : Keeps s (issueCounter n version bench t).2 := by
  unfold Machine.issueCounter
  split
  · exact h
  · exact .ite_snd (.snd <| .raise <| .wr <| .sas (tblWf_tblPut _) h) (.ite_snd (.snd <| .exhaustSa <| .sas
      (tblWf_tblPut _) h) (.snd <| .sas (tblWf_tblPut _) h))

theorem Keeps.dressWith {j : DressJob} {bs : Bytes} (h : Keeps s t) : Keeps s (dressWith j bs t).2 := by
  unfold Machine.dressWith
  split
  · exact h
  · exact h
  · split
    · split
      · exact h
      · split
        · rename_i e₄
          exact .snd <| .of_snd e₄ <| .issueCounter h
    · exact h

theorem Keeps.blankPacket {p : BitVec 32} {name status : Nat} {bs : Bytes} (h : Keeps s t) :
    Keeps s (blankPacket p name status bs t).2 :=
  .snd <| .count h

theorem Keeps.touchKey {n : Nat} (h : Keeps s t) : Keeps s (touchKey n t) := by
  unfold Machine.touchKey
  exact .cipher h

theorem Keeps.loadReg {k e n v half : Nat} {key : BitVec 256} (h : Keeps s t) :
    Keeps s (loadReg k e n v half key t) := by
  unfold Machine.loadReg
  exact .cipher <| .drawn <| .drawn <| .drawn <| .drawn h

theorem Keeps.loadRegs {k n v : Nat} {timed : Bool} {keys : List (Nat × BitVec 256)}
    (e : loadRegs k n v timed keys t = some u)
    (h : Keeps s t) : Keeps s u := by
  induction keys generalizing t with
  | nil => cases e; exact h
  | cons key rest ih =>
    unfold Machine.loadRegs at e
    split at e
    · exact ih e h
    · split at e
      · cases e
      · exact ih e h.loadReg

theorem Keeps.prepareKey {f : Flying} {a : Acted} (e : prepareKey f a t = some u) (h : Keeps s t) : Keeps s u := by
  unfold Machine.prepareKey at e
  split at e
  · cases e; exact h
  · split at e
    · cases e; exact h
    · split at e
      · cases e; exact h
      · dsimp only at e
        split at e
        · rename_i hload
          cases e
          exact h.loadRegs hload
        · split at e <;> cases e
          exact h

theorem Keeps.generate (h : Keeps s t) : Keeps s (generate t) := by
  unfold Machine.generate
  exact .ite (.cipher h) (.cipher h)

theorem Keeps.reseedGen {k e : Nat} (h : Keeps s t) : Keeps s (reseedGen k e t) := by
  unfold Machine.reseedGen
  exact .ite (.cipher h) (.cipher <| .generate <| .drawn h)

theorem Keeps.reseedBench {k : Nat} (h : Keeps s t) : Keeps s (reseedBench k t) :=
  .foldl (fun _ h₁ => .reseedGen h₁) h

theorem Keeps.maskBlocks {k n e : Nat} (h : Keeps s t) : Keeps s (maskBlocks k n e t) := by
  unfold Machine.maskBlocks
  exact .ite (.cipher h) (.cipher <| .reseedGen h)

theorem Keeps.useMasks {k n : Nat} (h : Keeps s t) : Keeps s (useMasks k n t) :=
  .foldl (fun _ h₁ => .maskBlocks h₁) h

theorem Keeps.forgetKeys {k : Nat} (h : Keeps s t) : Keeps s (forgetKeys k t) := by
  unfold Machine.forgetKeys
  exact .cipher h

theorem Keeps.dressStage {f : Flying} {a : Acted} {ok : Bool} (h : Keeps s t) : Keeps s (dressStage f a ok t).2 := by
  unfold Machine.dressStage
  split
  · exact h
  · split
    · exact .blankPacket h
    · split
      · exact .blankPacket h
      · dsimp only
        exact .ite_snd (.blankPacket h) (.ite_snd (.blankPacket h) (.snd <| .ite (.count <| .useMasks <| .count <|
            .dressWith <| .touchKey h) (.ite (.count <| .useMasks <| .count <| .dressWith <| .touchKey h) (.useMasks <|
            .count <| .dressWith <| .touchKey h))))

theorem Keeps.loadKey {n : Nat} (h : Keeps s t) : Keeps s (loadKey n t) := by
  unfold Machine.loadKey
  exact .cipher h

theorem Keeps.setThread {t' : Nat} {x : Thread} (h : Keeps s t) : Keeps s (t.setThread t' x) := by
  unfold State.setThread
  exact .pnl h

theorem Keeps.setThreadState {t' st : Nat} (h : Keeps s t) : Keeps s (t.setThreadState t' st) :=
  .wr h

theorem Keeps.setLatch {t' bit : Nat} (h : Keeps s t) : Keeps s (setLatch t' bit t) := by
  unfold Machine.setLatch
  exact .wr h

theorem Keeps.clearLatch {t' bits : Nat} (h : Keeps s t) : Keeps s (clearLatch t' bits t) := by
  unfold Machine.clearLatch
  exact .wr h

theorem Keeps.galEvent {k g bit : Nat} (h : Keeps s t) : Keeps s (galEvent k g bit t) :=
  .foldl (fun _ h₁ => .setLatch h₁) h

theorem Keeps.sealSlot {k g i : Nat} (h : Keeps s t) : Keeps s (sealSlot k g i t) := by
  unfold Machine.sealSlot
  exact .galEvent <| .cairnEventIn <| .wr <| .pnl h

theorem Keeps.freeSlotKey {key : Nat} (h : Keeps s t) : Keeps s (freeSlotKey key t) := by
  unfold Machine.freeSlotKey
  exact .galEvent <| .pnl h

theorem Keeps.queuePacket {hold : Option (BitVec 16)} {p : Packet} (h : Keeps s t) :
    Keeps s (queuePacket hold p t) := by
  unfold Machine.queuePacket
  split
  · exact .pipe h
  · exact .pushVoq h

theorem Keeps.mirrorCopy {a : Acted} {id : Nat} {p : Packet} {hold : Option (BitVec 16)} (h : Keeps s t) :
    Keeps s (mirrorCopy a id p hold t) := by
  unfold Machine.mirrorCopy
  refine .ite h ?_
  split
  · exact .spoilPacket <| .count h
  · refine .ite ?_ (.queuePacket <| .swc <| .count h)
    split
    · exact .queuePacket <| .swc <| .count h
    · exact .queuePacket <| .count h

theorem Keeps.spoilInBench {p : Packet} {reasons : List Nat} (h : Keeps s t) : Keeps s (spoilInBench p reasons t) :=
  .foldl (fun _ h₁ => .spoilPacket h₁) h

theorem Keeps.commitPacket {f : Flying} {a : Acted} {bs : Bytes} {ci : CipherInfo} (h : Keeps s t) :
    Keeps s (commitPacket f a bs ci t).2 := by
  unfold Machine.commitPacket
  split
  · dsimp only
    split
    · exact .snd <| .spoilInBench <| .count h
    · split
      · exact .snd <| .spoilInBench <| .count <| .spoilInBench <| .count h
      · exact .snd <| .mirrorCopy <| .foldl (fun _ h₁ => .queuePacket h₁) <| .addResident <| .spoilInBench <| .count h
  · dsimp only
    split
    · exact .snd <| .spoilInBench h
    · split
      · exact .snd <| .spoilInBench <| .count <| .spoilInBench h
      · exact .snd <| .mirrorCopy <| .foldl (fun _ h₁ => .queuePacket h₁) <| .addResident <| .spoilInBench h

theorem Keeps.acknowledge {f : Flying} (h : Keeps s t) : Keeps s (acknowledge f t) := by
  unfold Machine.acknowledge
  split
  · exact .pipe <| .freeSlotKey h
  · exact .pipe h

theorem Keeps.replaysDone (h : Keeps s t) : Keeps s (replaysDone t) := by
  unfold Machine.replaysDone
  exact .foldl (fun _ h₁ => .ite h₁ (.raise <| .wr <| .pipe h₁)) h

theorem Keeps.completeTx {f : Flying} {waits : Bool} {ci : CipherInfo} (h : Keeps s t) :
    Keeps s (completeTx f waits ci t) := by
  unfold Machine.completeTx
  split
  · exact .ite h (.endTx h)
  · exact h

theorem Keeps.leaveBench {f : Flying} {waits : Bool} {ci : CipherInfo} (h : Keeps s t) :
    Keeps s (leaveBench f waits ci t) :=
  .refreshPressure <| .pumpInlets <| .replaysDone <| .completeTx <| .acknowledge h

theorem Keeps.finishPacket {f : Flying} {a : Acted} {ok : Bool} (h : Keeps s t) :
    Keeps s (finishPacket f a ok t) := by
  unfold Machine.finishPacket
  split
  · rename_i e
    split
    · rename_i e₁
      exact .leaveBench <| .of_snd e₁ <| .commitPacket <| .of_snd e <| .dressStage h

theorem Keeps.mapBucket {k b : Nat} (h : Keeps s t) : Keeps s (mapBucket k b t) :=
  .wr h

theorem Keeps.remapBucket {k b : Nat} (h : Keeps s t) : Keeps s (remapBucket k b t) :=
  .wr <| .mapBucket h

theorem Keeps.setBench {k st : Nat} (h : Keeps s t) : Keeps s (setBench k st t) := by
  unfold Machine.setBench
  exact .ite h (.raise <| .wr h)

theorem Keeps.fillBudget {k : Nat} (h : Keeps s t) : Keeps s (fillBudget k t) := by
  unfold Machine.fillBudget
  exact .pipe h

theorem Keeps.activateBench {k : Nat} (h : Keeps s t) : Keeps s (activateBench k t) := by
  unfold Machine.activateBench
  exact .pumpInlets <| .foldl (fun _ h₁ => .mapBucket h₁) <| .fillBudget <| .setBench h

theorem Keeps.loseLeases {k : Nat} (h : Keeps s t) : Keeps s (loseLeases k t) := by
  unfold Machine.loseLeases
  exact .sas tblWf_tblMap h

theorem Keeps.forgetLearned {k : Nat} (h : Keeps s t) : Keeps s (forgetLearned k t) := by
  unfold Machine.forgetLearned
  exact .tables h

theorem Keeps.replayBench {k : Nat} {owed : List Nat} (h : Keeps s t) : Keeps s (replayBench k owed t) := by
  unfold Machine.replayBench
  exact .foldl (fun _ h₁ => .count h₁) <| .pipe h

theorem Keeps.releaseHeld {inlet : Option Nat} {bucket : Nat} (h : Keeps s t) :
    Keeps s (releaseHeld inlet bucket t) := by
  unfold Machine.releaseHeld
  exact .foldl (fun _ h₁ => .pushVoq h₁) <| .pipe h

theorem Keeps.endMove {status : Nat} (h : Keeps s t) : Keeps s (endMove status t) := by
  unfold Machine.endMove
  split
  · exact h
  · exact .refreshPressure <| .raise <| .bumpGen <| .wr <| .wr <| .wr <| .releaseHeld <| .pipe h

theorem Keeps.holdBench {k : Nat} (h : Keeps s t) : Keeps s (holdBench k t) := by
  unfold Machine.holdBench
  exact .forgetKeys <| .forgetLearned <| .loseLeases <| .releaseGrants <| .setIsland h

theorem Keeps.consumeBench (h : Keeps s t) : Keeps s (consumeBench t) :=
  .spareConsumed <| .wr h

theorem Keeps.failMoveTo {k : Nat} (h : Keeps s t) : Keeps s (failMoveTo k t) := by
  unfold Machine.failMoveTo
  split
  · exact .ite (.endMove h) h
  · exact h

theorem Keeps.benchFault {k : Nat} (h : Keeps s t) : Keeps s (benchFault k t) := by
  unfold Machine.benchFault
  refine .ite (.logFault <| .consumeBench <| .setBench <| .holdBench h) (.ite h ?_)
  dsimp only
  split
  · exact .refreshPressure <| .logFault <| .replaysDone <| .pipe <| .replayBench <| .failMoveTo <| .foldl
      (fun _ h₁ => .remapBucket h₁) <| .fillBudget <| .consumeBench <| .wr <| .setBench <| .holdBench h
  · exact .refreshPressure <| .beyondModel <| .logFault <| .setBench <| .replayBench <| .failMoveTo <| .foldl
      (fun _ h₁ => .mapBucket h₁) <| .breakWhere <| .holdBench h

theorem Keeps.benchReset {k : Nat} (h : Keeps s t) : Keeps s (benchReset k t) :=
  .refreshPressure <| .replayBench <| .holdBench h

theorem Keeps.controlFrame {p : Nat} {bs : Bytes} (h : Keeps s t) : Keeps s (controlFrame p bs t) := by
  unfold Machine.controlFrame
  exact .ite (.macControl h) (.macControl h)

theorem Goes.execNetworkFrameReceive {port : Nat} {frame : Bytes} {check : FrameCheck} (h : Keeps s t) :
    Goes s (execNetworkFrameReceive port frame check t) := by
  unfold Machine.execNetworkFrameReceive
  exact .ite (.next <| .ite (.count <| .count h) h) (.ite (.next <| .count <| .ite (.count <| .count h) h) (.ite (.next <|
      .ite (.count <| .count h) h) (.ite (.next <| .count <| .ite (.count <| .count h) h) (.ite (.next <| .count <| .ite
      (.count <| .count h) h) (.ite (.next <| .count <| .ite (.count <| .count h) h) (.ite (.next <| .controlFrame <| .ite
      (.count <| .count h) h) (.next <| .enterBench <| .count <| .count <| .ite (.count <| .count h) h)))))))

theorem Goes.execBudgetTokenRelease {inlet : Nat} (h : Keeps s t) : Goes s (execBudgetTokenRelease inlet t) := by
  unfold Machine.execBudgetTokenRelease
  split
  · exact .next h
  · exact .ite (.next <| .refreshPressure <| .sendToBench <| .takeBudget <| .pipe h) (.next h)

theorem Keeps.spoilActed {f : Flying} {x : Turned} (h : Keeps s t) : Keeps s (spoilActed f x t) := by
  unfold Machine.spoilActed
  exact .leaveBench <| .spoilPacket h

theorem Keeps.awaitKey {f : Flying} {a : Acted} (h : Keeps s t) : Keeps s (awaitKey f a t) := by
  unfold Machine.awaitKey
  exact .pipe h

theorem Keeps.passDress {f : Flying} {a : Acted} {ok waits : Bool} (h : Keeps s t) :
    Keeps s (passDress f a ok waits t) := by
  unfold Machine.passDress
  exact .ite (.awaitKey h) (.finishPacket h)

theorem Keeps.dressPacket {f : Flying} {a : Acted} {waits : Bool} (h : Keeps s t) :
    Keeps s (dressPacket f a waits t) := by
  unfold Machine.dressPacket
  refine .ite ?_ (.awaitKey h)
  split
  · rename_i e
    exact .passDress <| .prepareKey e h
  · exact .awaitKey h

theorem Goes.execBenchEnqueue {place : Nat} (h : Keeps s t) : Goes s (execBenchEnqueue place t) := by
  unfold Machine.execBenchEnqueue
  split
  · exact .next h
  · refine .ite (.next h) ?_
    split
    · split
      · exact .next <| .dressPacket h
      · exact .next <| .finishPacket h
      · exact .next <| .finishPacket h
    · refine .ite (.next <| .leaveBench h) ?_
      split
      · rename_i e₂
        exact .next <| .spoilActed <| .of_snd e₂ <| .actStage h
      · rename_i e₂
        exact .next <| .dressPacket <| .ite (.of_snd e₂ <| .actStage h) (.count <| .of_snd e₂ <| .actStage h)

theorem Keeps.loadSa {a : Acted} (h : Keeps s t) : Keeps s (loadSa a t) := by
  unfold Machine.loadSa
  split
  · exact .loadKey h
  · exact h

theorem Goes.execKeyLoadDone {place : Nat} {ok : Bool} (h : Keeps s t) : Goes s (execKeyLoadDone place ok t) := by
  unfold Machine.execKeyLoadDone
  split
  · exact .next h
  · split
    · exact .next h
    · exact .ite (.next h) (.ite (.next <| .dressPacket <| .loadSa h) (.next <| .passDress h))

theorem Keeps.activateProfiles (h : Keeps s t) : Keeps s (activateProfiles t) :=
  .foldl (fun _ h₁ => .setReg h₁) h

theorem Keeps.profCommit (h : Keeps s t) : Keeps s (profCommit t) := by
  unfold Machine.profCommit
  refine .ite (.raise h) ?_
  split
  · exact .raise <| .wr <| .wr <| .wr h
  · exact .wr <| .wr <| .wr <| .activateProfiles h

theorem Goes.execBncProfCommit (h : Keeps s t) : Goes s (execBncProfCommit t) :=
  .next <| .profCommit h

theorem Goes.execProfRetireDone (h : Keeps s t) : Goes s (execProfRetireDone t) := by
  unfold Machine.execProfRetireDone
  exact .ite (.next <| .raise <| .wr h) (.next h)

theorem Keeps.shadowWrite {a : Nat} {v : BitVec 64} (h : Keeps s t) : Keeps s (shadowWrite a v t) := by
  unfold Machine.shadowWrite
  exact .ite (.raise h) (.plainWrite h)

theorem Keeps.defaultWrite {i : Nat} {v : BitVec 64} (h : Keeps s t) : Keeps s (defaultWrite i v t) := by
  unfold Machine.defaultWrite
  exact .ite (.raise h) (.plainWrite h)

theorem Goes.execBncDefaultWrite {inlet : Nat} {value : BitVec 64} (h : Keeps s t) :
    Goes s (execBncDefaultWrite inlet value t) :=
  .next <| .defaultWrite h

theorem Keeps.bucketMove {bucket dest : Nat} {force : Bool} (h : Keeps s t) :
    Keeps s (bucketMove bucket dest force t) := by
  unfold Machine.bucketMove
  exact .ite h (.ite (.raise <| .wr h) (.pumpInlets <| .wr <| .pipe <| .wr <| .remapBucket h))

theorem Goes.execBucketMove {bucket dest : Nat} {force : Bool} (h : Keeps s t) :
    Goes s (execBucketMove bucket dest force t) :=
  .next <| .bucketMove h

theorem Goes.execDrainMarkerPass {inlet : Nat} (h : Keeps s t) : Goes s (execDrainMarkerPass inlet t) := by
  unfold Machine.execDrainMarkerPass
  split
  · exact .next h
  · exact .ite (.next h) (.next <| .ite (.endMove <| .releaseHeld <| .pipe <| .count h) (.refreshPressure <|
      .releaseHeld <| .pipe <| .count h))

theorem Goes.execBenchFault {bench : Nat} (h : Keeps s t) : Goes s (execBenchFault bench t) :=
  .next <| .benchFault h

theorem Keeps.sampleFunc {p f : Nat} (h : Keeps s t) : Keeps s (sampleFunc p f t) := by
  unfold Machine.sampleFunc
  exact .ite (.setFunc h) (.disableFunction <| .setFunc h)

theorem Keeps.sampleFuncs {p : Nat} (h : Keeps s t) : Keeps s (sampleFuncs p t) :=
  .foldl (fun _ h₁ => .sampleFunc h₁) h

theorem Keeps.showLink {p speed lanes : Nat} {flit infCredit : Bool} (h : Keeps s t) :
    Keeps s (showLink p speed lanes flit infCredit t) := by
  unfold Machine.showLink
  exact .setPort <| .wr <| .wr <| .wr <| .wr <| .wr <| .wr h

theorem Keeps.judgeLink {p speed lanes : Nat} {flit : Bool} (h : Keeps s t) :
    Keeps s (judgeLink p speed lanes flit t) := by
  unfold Machine.judgeLink
  exact .ite (.breakWhere <| .raise <| .wr h) (.wr h)

theorem Goes.execHostLinkUp {port speed lanes : Nat} {partner : LinkPartner} (h : Keeps s t) :
    Goes s (execHostLinkUp port speed lanes partner t) := by
  unfold Machine.execHostLinkUp
  exact .ite (.next h) (.next <| .judgeLink <| .ite (.ite (.refreshPressure <| .resizePool <| .ite (.showLink h)
      (.raise <| .showLink h)) (.setPort <| .refreshPressure <| .resizePool <| .ite (.showLink h) (.raise <|
      .showLink h))) (.ite (.ite (.sampleFuncs <| .refreshPressure <| .resizePool <| .ite (.showLink h) (.raise <|
      .showLink h)) (.surveyRec <| .sampleFuncs <| .refreshPressure <| .resizePool <| .ite (.showLink h) (.raise <|
      .showLink h))) (.surveyRec <| .sampleFuncs <| .refreshPressure <| .resizePool <| .ite (.showLink h) (.raise <|
      .showLink h))))

theorem Goes.execHostLinkDown {port : Nat} (h : Keeps s t) : Goes s (execHostLinkDown port t) := by
  unfold Machine.execHostLinkDown
  exact .ite (.next <| .endpointLost h) (.next h)

theorem Goes.execHpRetrain {port : Nat} (h : Keeps s t) : Goes s (execHpRetrain port t) := by
  unfold Machine.execHpRetrain
  exact .ite (.next <| .sampleFuncs h) (.next h)

theorem Goes.execHpLinkDisable {port : Nat} {on : Bool} (h : Keeps s t) : Goes s (execHpLinkDisable port on t) := by
  unfold Machine.execHpLinkDisable
  exact .ite (.next h) (.ite (.ite (.ite (.next <| .failReads <| .portDown <| .ite (.emit <| .wr h) (.wr h)) (.next <|
      .ite (.emit <| .wr h) (.wr h))) (.next <| .endpointLost <| .ite (.emit <| .wr h) (.wr h))) (.next <| .ite (.emit <|
      .wr h) (.wr h)))

theorem Goes.execHpObsClr {port : Nat} (h : Keeps s t) : Goes s (execHpObsClr port t) :=
  .next <| .wr h

theorem Goes.execPerstAssert {port : Nat} (h : Keeps s t) : Goes s (execPerstAssert port t) := by
  unfold Machine.execPerstAssert
  exact .ite (.next <| .endpointLost <| .setPort h) (.next h)

theorem Goes.execPerstDeassert {port : Nat} (h : Keeps s t) : Goes s (execPerstDeassert port t) := by
  unfold Machine.execPerstDeassert
  exact .next <| .setPort h

theorem Goes.execL0pEnter {port : Nat} (h : Keeps s t) : Goes s (execL0pEnter port t) := by
  unfold Machine.execL0pEnter
  exact .ite (.next <| .wr h) (.next h)

theorem Goes.execL0pExit {port : Nat} (h : Keeps s t) : Goes s (execL0pExit port t) := by
  unfold Machine.execL0pExit
  exact .ite (.next <| .wr h) (.next h)

theorem Goes.execL1Enter {port level : Nat} {enabled : Bool} (h : Keeps s t) :
    Goes s (execL1Enter port level enabled t) := by
  unfold Machine.execL1Enter
  exact .ite (.next <| .emit <| .setPort <| .wr h) (.next h)

theorem Goes.execL1Exit {port : Nat} (h : Keeps s t) : Goes s (execL1Exit port t) := by
  unfold Machine.execL1Exit
  exact .ite (.next <| .wr h) (.next h)

theorem Goes.execCreditWaitExceeded {port waitNs : Nat} (h : Keeps s t) :
    Goes s (execCreditWaitExceeded port waitNs t) := by
  unfold Machine.execCreditWaitExceeded
  exact .ite (.next <| .markExternal <| .raise <| .wr h) (.next <| .wr h)

theorem Keeps.sendPending {p f v : Nat} (h : Keeps s t) : Keeps s (sendPending p f v t) := by
  unfold Machine.sendPending
  exact .ite (.emit <| .setVec h) h

theorem Keeps.sendAllPending {p f : Nat} (h : Keeps s t) : Keeps s (sendAllPending p f t) :=
  .foldl (fun _ h₁ => .sendPending h₁) h

theorem Goes.execMsixUnmask {port pf vec : Nat} (h : Keeps s t) : Goes s (execMsixUnmask port pf vec t) := by
  unfold Machine.execMsixUnmask
  exact .ite (.next <| .sendPending <| .setVec h) (.next h)

theorem Goes.execBmeClear {port pf : Nat} (h : Keeps s t) : Goes s (execBmeClear port pf t) := by
  unfold Machine.execBmeClear
  exact .next <| .configWrite (fun h₁ => .ite (.clearBme h₁) h₁) h

theorem Goes.execBmeSet {port pf : Nat} {pasidEn funcMask : Bool} {control : DeviceControl} (h : Keeps s t) :
    Goes s (execBmeSet port pf pasidEn funcMask control t) := by
  unfold Machine.execBmeSet
  exact .next <| .configWrite (fun h₁ => .sendAllPending <| .setFunc h₁) h

theorem Goes.execFlr {port pf : Nat} (h : Keeps s t) : Goes s (execFlr port pf t) := by
  unfold Machine.execFlr
  exact .next <| .configWrite (fun h₁ => .surveyRec <| .setFunc <| .flrFunction h₁) h

theorem Goes.execFlrComplete {port pf : Nat} (h : Keeps s t) : Goes s (execFlrComplete port pf t) := by
  unfold Machine.execFlrComplete
  exact .ite (.next <| .setFunc h) (.next h)

theorem Goes.execPasidEnableClear {port pf : Nat} (h : Keeps s t) : Goes s (execPasidEnableClear port pf t) := by
  unfold Machine.execPasidEnableClear
  exact .next <| .configWrite (fun h₁ => .foldl (fun _ h₂ => .ite h₂ (.disableSheet h₂)) <| .setFunc h₁) h

theorem Goes.execAtsInvalidationRequest {port pf pasid page sizeLog2 : Nat} (h : Keeps s t) :
    Goes s (execAtsInvalidationRequest port pf pasid page sizeLog2 t) := by
  unfold Machine.execAtsInvalidationRequest
  exact .ite (.next <| .setFunc h) (.next h)

theorem Goes.execAtsInvalidationComplete {port pf : Nat} (h : Keeps s t) :
    Goes s (execAtsInvalidationComplete port pf t) := by
  unfold Machine.execAtsInvalidationComplete
  split
  · exact .next h
  · exact .ite (.next h) (.next <| .emit <| .setFunc h)

theorem Goes.execAtsPriEnableChange {port pf : Nat} {ats pri : Bool} (h : Keeps s t) :
    Goes s (execAtsPriEnableChange port pf ats pri t) := by
  unfold Machine.execAtsPriEnableChange
  exact .next <| .configWrite (fun h₁ => .setFunc h₁) h

theorem Goes.execHostReadCompletion {port tag : Nat} {ok : Bool} {entries : List Entry} {bytes : Bytes} (h : Keeps s t) :
    Goes s (execHostReadCompletion port tag ok entries bytes t) := by
  unfold Machine.execHostReadCompletion
  split
  · exact .next h
  · refine .ite (.next <| .raise <| .count <| .endRead h) ?_
    split
    · exact .ite (.next <| .issueFetch <| .fetchArrive <| .endRead h) (.next <| .fetchFault <| .endRead h)
    · exact .next <| .ite (.emit <| .endRead h) (.peerOnes <| .endRead h)
    · exact .next <| .endRead h

theorem Goes.execCompletionTimeout {port tag : Nat} (h : Keeps s t) : Goes s (execCompletionTimeout port tag t) := by
  unfold Machine.execCompletionTimeout
  split
  · exact .next h
  · refine .ite (.next <| .endRead h) ?_
    split
    · exact .next <| .fetchFault <| .endRead h
    · exact .next <| .peerOnes <| .endRead h
    · exact .next <| .endRead h

theorem Goes.execDpcTrigger {port : Nat} (h : Keeps s t) : Goes s (execDpcTrigger port t) :=
  .next <| .containPort h

theorem Goes.execDpcRelease {port : Nat} (h : Keeps s t) : Goes s (execDpcRelease port t) :=
  .next <| .wr h

theorem Keeps.configureFunc {port mps tagBits i : Nat} {bound msix : Bool} (h : Keeps s t) :
    Keeps s (configureFunc port mps tagBits i bound msix t) := by
  unfold Machine.configureFunc
  exact .emit <| .ite (.emit <| .emit <| .emit <| .emit <| .drawn <| .ite (.emit <| .emit h) (.emit h)) (.emit <| .emit <|
      .emit <| .drawn <| .ite (.emit <| .emit h) (.emit h))

theorem Keeps.configureFuncs {port : Nat} {cxl : Bool} {comp : Component} {mps tagBits vendor : Nat} {serial : Bytes}
    {i : Nat}
    {fs : List FoundFunc} (h : Keeps s t) : Keeps s (configureFuncs port cxl comp mps tagBits vendor serial i fs t) := by
  induction fs generalizing i t with
  | nil => exact h
  | cons f rest ih => exact ih (h.configureFunc.ite h.configureFunc.surveyRec)

theorem Goes.execRootPortEnumerate {port : Nat} {partner : RootPartner} {funcs : List FoundFunc} {vendor : Nat}
    {serial : Bytes} (h : Keeps s t) :
    Goes s (execRootPortEnumerate port partner funcs vendor serial t) := by
  unfold Machine.execRootPortEnumerate
  exact .ite (.ite (.next <| .consArrive <| .surveyRec <| .settleAspm <| .configureFuncs <| .setPort h) (.next <|
      .settleAspm <| .configureFuncs <| .setPort h)) (.next h)

theorem Goes.execRootPresenceChange {port : Nat} {present : Bool} (h : Keeps s t) :
    Goes s (execRootPresenceChange port present t) := by
  unfold Machine.execRootPresenceChange
  exact .ite (.ite (.next <| .raise <| .wr h) (.ite (.next <| .containPort <| .raise <| .wr h) (.next <| .raise <|
      .wr h))) (.next h)

theorem Keeps.programHdm {port base capacity : Nat} (h : Keeps s t) : Keeps s (programHdm port base capacity t) := by
  unfold Machine.programHdm
  exact .emit <| .emit <| .emit <| .emit h

theorem Goes.execCxlAttach {port capacity classCode vendor : Nat} (h : Keeps s t) :
    Goes s (execCxlAttach port capacity classCode vendor t) := by
  unfold Machine.execCxlAttach
  refine .ite ?_ (.next h)
  split
  · exact .next <| .consArrive <| .surveyRec <| .attachCache <| .wr <| .setPort <| .programHdm <| .cxlNext_cxlFree h
  · exact .next <| .surveyRec h

theorem Goes.execAerErrorMessage {port severity : Nat} (h : Keeps s t) :
    Goes s (execAerErrorMessage port severity t) := by
  unfold Machine.execAerErrorMessage
  refine .ite ?_ (.next h)
  split
  · exact .next <| .setPort h
  · exact .next <| .emit h
  · exact .next <| .containPort h

theorem Keeps.copyBank {p : Nat} {toActive : Bool} (h : Keeps s t) : Keeps s (copyBank p toActive t) := by
  unfold Machine.copyBank
  exact .foldl (fun _ h₁ => .ite (.setReg h₁) (.setReg h₁)) h

theorem Goes.execHpWinCommit {port : Nat} (h : Keeps s t) : Goes s (execHpWinCommit port t) := by
  unfold Machine.execHpWinCommit
  refine .ite (.next h) (.ite (.next <| .raise h) ?_)
  split
  · exact .next <| .raise <| .wr <| .wr <| .wr h
  · exact .next <| .wr <| .wr <| .wr <| .copyBank h

theorem Goes.execWinRetireDone {port : Nat} (h : Keeps s t) : Goes s (execWinRetireDone port t) := by
  unfold Machine.execWinRetireDone
  exact .ite (.next <| .raise <| .copyBank <| .wr h) (.next h)

theorem Keeps.writeShadow {p k : Nat} {v : BitVec 64} (h : Keeps s t) : Keeps s (writeShadow p k v t) := by
  unfold Machine.writeShadow
  exact .ite (.raise h) (.setReg h)

theorem Keeps.enableSheet {n : Nat} (h : Keeps s t) : Keeps s (enableSheet n t).2 := by
  unfold Machine.enableSheet
  exact .ite_snd h (.ite_snd h (.ite_snd h (.snd <| .foldl (fun _ h₁ => .issueFetch h₁) <| .postSheetState <| .setSheet h)))

theorem Goes.execSheetEnable {ring : Nat} (h : Keeps s t) : Goes s (execSheetEnable ring t) := by
  unfold Machine.execSheetEnable
  refine .next <| .runEntry (fun _ _ h₁ => ?_) h
  dsimp only
  split
  · exact h₁
  · exact .fst <| .enableSheet h₁

theorem Goes.execSheetDisable {ring : Nat} (h : Keeps s t) : Goes s (execSheetDisable ring t) := by
  unfold Machine.execSheetDisable
  refine .next <| .startEntry (fun _ _ h₁ => ?_) h
  dsimp only
  split
  · exact h₁
  · exact .ite_fst h₁ (.ite_fst h₁ (.fst <| .setSheet <| .disableSheet h₁))

theorem Goes.execSheetDisableDone {sheet : Nat} (h : Keeps s t) : Goes s (execSheetDisableDone sheet t) := by
  unfold Machine.execSheetDisableDone
  exact .ite (.next <| .foldl (fun _ h₁ => .endJob h₁) <| .resolveShrinks <| .postSheetState <| .setSheet h) (.next h)

theorem Goes.execSheetDebug {ring : Nat} (h : Keeps s t) : Goes s (execSheetDebug ring t) := by
  unfold Machine.execSheetDebug
  refine .next <| .runEntry (fun _ _ h₁ => ?_) h
  dsimp only
  split
  · exact h₁
  · split
    · exact .fst <| .suspendSheet <| .postSheetState <| .setSheet h₁
    · exact .fst <| .suspendSheet <| .postSheetState <| .setSheet h₁
    · exact h₁
    · exact h₁

theorem Goes.execSheetQuery {ring : Nat} (h : Keeps s t) : Goes s (execSheetQuery ring t) := by
  unfold Machine.execSheetQuery
  refine .next <| .runEntry (fun _ _ h₁ => ?_) h
  dsimp only
  split
  · exact h₁
  · split <;> exact h₁

theorem Goes.execReshape {ring : Nat} (h : Keeps s t) : Goes s (execReshape ring t) := by
  unfold Machine.execReshape
  refine .next <| .runEntry (fun _ _ h₁ => ?_) h
  dsimp only
  split
  · exact h₁
  · split
    · exact h₁
    · split
      · exact h₁
      · exact .fst <| .postShares <| .setSheet <| .setShareRecord h₁

theorem Keeps.opStatus {n status field : Nat} (h : Keeps s t) : Keeps s (opStatus n status field t) :=
  .wr <| .wr h

theorem Keeps.restoreShares {n : Nat} (h : Keeps s t) : Keeps s (restoreShares n t) :=
  .foldl (fun _ h₁ => .setReg h₁) h

theorem Keeps.createSheet {n : Nat} (h : Keeps s t) : Keeps s (createSheet n t) := by
  unfold Machine.createSheet
  refine .ite h ?_
  split
  · exact .opStatus h
  · exact .opStatus <| .setSheet h

theorem Goes.execCadOpCreate {sheet : Nat} (h : Keeps s t) : Goes s (execCadOpCreate sheet t) :=
  .next <| .createSheet h

theorem Keeps.cadEnable {n : Nat} (h : Keeps s t) : Keeps s (cadEnable n t) := by
  unfold Machine.cadEnable
  refine .ite h (.ite (.opStatus h) (.ite (.opStatus h) ?_))
  split
  · rename_i e
    exact .opStatus <| .of_snd e <| .enableSheet h

theorem Goes.execCadOpEnable {sheet : Nat} (h : Keeps s t) : Goes s (execCadOpEnable sheet t) :=
  .next <| .cadEnable h

theorem Keeps.cadDestroy {n : Nat} (h : Keeps s t) : Keeps s (cadDestroy n t) := by
  unfold Machine.cadDestroy
  exact .ite h (.ite (.opStatus h) (.ite (.opStatus h) (.ite (.opStatus h) (.wr <| .setSheet h))))

theorem Goes.execCadOpDestroy {sheet : Nat} (h : Keeps s t) : Goes s (execCadOpDestroy sheet t) :=
  .next <| .cadDestroy h

theorem Goes.execSheetDestroyDone {sheet : Nat} (h : Keeps s t) : Goes s (execSheetDestroyDone sheet t) := by
  unfold Machine.execSheetDestroyDone
  exact .ite (.next <| .wr <| .opStatus <| .setSheet <| .restoreShares <| .foldl (fun _ h₁ => .forgetFetch h₁) <| .rings
      (tblWf_filter _) <| .removeUnits h) (.next h)

theorem Keeps.dropDoorbell (h : Keeps s t) : Keeps s (dropDoorbell t) :=
  .raise <| .count h

theorem Keeps.ringDoorbell {g : Nat} {r : Ring} {pi : Nat} (h : Keeps s t) :
    Keeps s (ringDoorbell g r pi t) := by
  unfold Machine.ringDoorbell
  exact .ite h (.ite (.wakeCtrl <| .issueFetch <| .setRing h) (.dropDoorbell h))

theorem Keeps.placeRing {g : Nat} {r : Ring} (h : Keeps s t) : Keeps s (placeRing g r t) :=
  .issueFetch <| .setRing <| .sheetAts h

theorem Goes.execRingOpen {ring pick : Nat} (h : Keeps s t) : Goes s (execRingOpen ring pick t) := by
  unfold Machine.execRingOpen
  refine .next <| .runEntry (fun _ _ h₁ => ?_) h
  dsimp only
  split
  · exact h₁
  · split
    · exact h₁
    · split
      · exact h₁
      · split
        · exact h₁
        · exact .ite_fst h₁ (.fst <| .placeRing h₁)

theorem Keeps.restartRing {g : Nat} {r : Ring} {start pi : Nat} (h : Keeps s t) :
    Keeps s (restartRing g r start pi t) :=
  .issueFetch <| .setRing <| .forgetFetch h

theorem Goes.execRingEnable {ring : Nat} (h : Keeps s t) : Goes s (execRingEnable ring t) := by
  unfold Machine.execRingEnable
  refine .next <| .runEntry (fun _ _ h₁ => ?_) h
  split
  · exact h₁
  · exact .ite_fst h₁ (.fst <| .restartRing h₁)

theorem Goes.execRingDisable {ring : Nat} (h : Keeps s t) : Goes s (execRingDisable ring t) := by
  unfold Machine.execRingDisable
  refine .next <| .startEntry (fun _ _ h₁ => ?_) h
  split
  · exact h₁
  · split
    · exact h₁
    · split
      · dsimp only
        split
        · exact .fst <| .quiesceMessages <| .stopRing h₁
        · exact .fst <| .setRing <| .quiesceMessages <| .stopRing h₁
      · dsimp only
        split
        · exact h₁
        · exact .fst <| .setRing h₁

theorem Keeps.endWaiters {g : Nat} (h : Keeps s t) : Keeps s (endWaiters g t) := by
  unfold Machine.endWaiters
  split
  · exact h
  · exact .foldl (fun _ h₁ => .endJob h₁) <| .setRing h

theorem Goes.execRingQuiesceEnd {ring : Nat} {writesLeft : Bool} (h : Keeps s t) :
    Goes s (execRingQuiesceEnd ring writesLeft t) := by
  unfold Machine.execRingQuiesceEnd
  dsimp only
  split
  · exact .next <| .flushRing h
  · exact .ite (.ite (.next <| .endWaiters <| .announce <| .setRing <| .flushRing h) (.next <| .announce <| .setRing <|
      .flushRing h)) (.next <| .flushRing h)

theorem Goes.execRingIdle {ring : Nat} (h : Keeps s t) : Goes s (execRingIdle ring t) := by
  unfold Machine.execRingIdle
  split
  · exact .next h
  · exact .ite (.next <| .endWaiters <| .setRing h) (.next h)

theorem Keeps.closeRing {g : Nat} {r : Ring} (h : Keeps s t) : Keeps s (closeRing g r t) :=
  .resolveShrinks <| .rings tblWf_tblDel h

theorem Goes.execRingClose {ring : Nat} (h : Keeps s t) : Goes s (execRingClose ring t) := by
  unfold Machine.execRingClose
  refine .next <| .runEntry (fun _ _ h₁ => ?_) h
  split
  · exact h₁
  · exact .ite_fst (.fst <| .closeRing h₁) h₁

theorem Goes.execRingQuery {ring : Nat} (h : Keeps s t) : Goes s (execRingQuery ring t) := by
  unfold Machine.execRingQuery
  refine .next <| .runEntry (fun _ _ h₁ => ?_) h
  split <;> exact h₁

theorem Goes.execRingTune {ring : Nat} (h : Keeps s t) : Goes s (execRingTune ring t) := by
  unfold Machine.execRingTune
  refine .next <| .runEntry (fun _ _ h₁ => ?_) h
  dsimp only
  split
  · exact h₁
  · split
    · exact h₁
    · split
      · exact h₁
      · exact .fst <| .setRing h₁

theorem Goes.execRingNop {ring : Nat} (h : Keeps s t) : Goes s (execRingNop ring t) :=
  .next <| .runEntry (fun _ _ h₁ => h₁) h

theorem Goes.execCoalTimerExpiry {ring : Nat} (h : Keeps s t) : Goes s (execCoalTimerExpiry ring t) := by
  unfold Machine.execCoalTimerExpiry
  split
  · exact .next h
  · exact .ite (.next <| .announce h) (.next h)

theorem Goes.execRngDbDropClear (h : Keeps s t) : Goes s (execRngDbDropClear t) :=
  .next <| .wr h

theorem Keeps.adminStatus {n st : Nat} (h : Keeps s t) : Keeps s (adminStatus n st t) :=
  .wr h

theorem Keeps.adminOpen {n pick : Nat} {oneWrite : Bool} (h : Keeps s t) : Keeps s (adminOpen n pick oneWrite t) := by
  unfold Machine.adminOpen
  exact .ite (.adminStatus h) (.ite (.adminStatus h) (.ite (.adminStatus h) (.ite (.adminStatus h) (.adminStatus <|
      .placeRing h))))

theorem Goes.execAdminRingOpen {sheet pick : Nat} {oneWrite : Bool} (h : Keeps s t) :
    Goes s (execAdminRingOpen sheet pick oneWrite t) :=
  .next <| .adminOpen h

theorem Keeps.adminEnable {n : Nat} (h : Keeps s t) : Keeps s (adminEnable n t) := by
  unfold Machine.adminEnable
  refine .ite (.adminStatus h) ?_
  split
  · exact .adminStatus h
  · exact .ite (.adminStatus <| .restartRing h) (.adminStatus h)

theorem Goes.execAdminRingEnable {sheet : Nat} (h : Keeps s t) : Goes s (execAdminRingEnable sheet t) :=
  .next <| .adminEnable h

theorem Keeps.adminClose {n : Nat} (h : Keeps s t) : Keeps s (adminClose n t) := by
  unfold Machine.adminClose
  refine .ite (.adminStatus h) ?_
  split
  · exact .adminStatus h
  · exact .ite (.adminStatus <| .closeRing h) (.adminStatus h)

theorem Goes.execAdminRingClose {sheet : Nat} (h : Keeps s t) : Goes s (execAdminRingClose sheet t) :=
  .next <| .adminClose h

theorem Keeps.copyEntry {result : MemResult} {r : Ring} {j : Job} (h : Keeps s t) :
    Keeps s (copyEntry result r j t).1 := by
  unfold Machine.copyEntry
  split
  · exact .ite_fst h (.fst <| .sheetWrite <| .sheetRead h)
  · exact .ite_fst h (.fst <| .sheetRead h)
  · exact .ite_fst h (.fst <| .sheetRead h)
  · exact .ite_fst h (.fst <| .sheetRead h)
  · exact .ite_fst h (.fst <| .sheetWrite <| .sheetRead h)

theorem Goes.execCopy {ring : Nat} {result : MemResult} (h : Keeps s t) : Goes s (execCopy ring result t) := by
  unfold Machine.execCopy
  exact .ite (.next <| .runEntry (fun _ _ h₁ => .copyEntry h₁) h) (.next h)

theorem Keeps.fillEntry {result : MemResult} {r : Ring} {j : Job} (h : Keeps s t) :
    Keeps s (fillEntry result r j t).1 := by
  unfold Machine.fillEntry
  split
  · exact .ite_fst h (.fst <| .sheetWrite h)
  · exact .ite_fst h h
  · exact .ite_fst h h
  · exact .ite_fst h h
  · exact .ite_fst h (.fst <| .sheetWrite h)

theorem Goes.execFill {ring : Nat} {result : MemResult} (h : Keeps s t) : Goes s (execFill ring result t) :=
  .next <| .runEntry (fun _ _ h₁ => .fillEntry h₁) h

theorem Keeps.countLate {p : Packet} {beyond : Nat} (h : Keeps s t) : Keeps s (countLate p beyond t) := by
  unfold Machine.countLate
  split
  · exact h
  · split
    · exact h
    · exact .ite (.raise <| .ite (.count <| .count h) (.count h)) h

theorem Keeps.unreserve {c : Nat} (h : Keeps s t) : Keeps s (unreserve c t) := by
  unfold Machine.unreserve
  exact .swc h

theorem Keeps.fallbackQueued {c : Nat} (h : Keeps s t) : Keeps s (fallbackQueued c t) := by
  unfold Machine.fallbackQueued
  exact .refreshPressure <| .foldl (fun _ h₁ => .pushVoq h₁) <| .unreserve <| .voqs_pipe_swc tblWf_dropWhere h

theorem Goes.execWithdrawDrainEnd {contract : Nat} (h : Keeps s t) : Goes s (execWithdrawDrainEnd contract t) := by
  unfold Machine.execWithdrawDrainEnd
  split
  · exact .next h
  · refine .ite ?_ (.next h)
    split
    · exact .next <| .endJob <| .freeContract <| .fallbackQueued h
    · exact .next <| .freeContract <| .fallbackQueued h

theorem Keeps.takeHead {v : Nat} (h : Keeps s t) : Keeps s (takeHead v t) :=
  .voqs tblWf_setQueue h

theorem Keeps.advanceHead {v : Nat} {p : Packet} (h : Keeps s t) : Keeps s (advanceHead v p t) :=
  .voqs tblWf_setQueue h

theorem Keeps.handFrame {o : Nat} {p : Packet} (h : Keeps s t) : Keeps s (handFrame o p t) := by
  unfold Machine.handFrame
  exact .ite (.spoilPacket <| .count <| .releaseSetts h) (.swc <| .releaseSetts h)

theorem Keeps.handWhole {o : Nat} {p : Packet} (h : Keeps s t) : Keeps s (handWhole o p t) := by
  unfold Machine.handWhole
  exact .ite (.countLate <| .emit <| .releaseSetts h) (.swc h)

theorem Keeps.handUnit {o : Nat} {h' : Head} (h : Keeps s t) : Keeps s (handUnit o h' t) := by
  unfold Machine.handUnit
  exact .ite (.handFrame <| .takeHead h) (.ite (.handWhole <| .takeHead h) (.advanceHead h))

theorem Keeps.markStopped {o : Nat} (h : Keeps s t) : Keeps s (markStopped o t) := by
  unfold Machine.markStopped
  exact .ite (.foldl (fun _ h₁ => .markPaused h₁) h) (.ite (.markExternal h) h)

theorem Keeps.serveUnit {o : Nat} (h : Keeps s t) : Keeps s (serveUnit o t) := by
  unfold Machine.serveUnit
  refine .ite ?_ (.markStopped h)
  split
  · exact .markStopped h
  · exact .handUnit <| .swc <| .markStopped h

theorem Keeps.sendFrame {port : Nat} {p : Packet} {rest : List Packet} (h : Keeps s t) :
    Keeps s (sendFrame port p rest t) := by
  unfold Machine.sendFrame
  split
  · exact .endTx <| .countLate <| .emit <| .count <| .count <| .swc h
  · exact .countLate <| .emit <| .count <| .count <| .swc h

theorem Goes.execFrameEgress {port : Nat} (h : Keeps s t) : Goes s (execFrameEgress port t) := by
  unfold Machine.execFrameEgress
  split
  · exact .next h
  · exact .ite (.next <| .sendFrame h) (.next h)

theorem Keeps.placeData {n : Nat} {js : List Job} {bs : Bytes} (h : Keeps s t) : Keeps s (placeData n js bs t) := by
  induction js generalizing bs t with
  | nil => exact h
  | cons j rest ih => exact ih h.sheetWrite

theorem Keeps.unhand {o : Nat} {p : Packet} (h : Keeps s t) : Keeps s (unhand o p t) := by
  unfold Machine.unhand
  exact .swc h

theorem Keeps.markLacking {g : Nat} (h : Keeps s t) : Keeps s (markLacking g t) :=
  .markExternal h

theorem Keeps.placePacket {g : Nat} {r : Ring} {p : Packet} {used : List Job} (h : Keeps s t) :
    Keeps s (placePacket g r p used t) := by
  unfold Machine.placePacket
  exact .markLacking <| .issueFetch <| .refreshPressure <| .releaseSetts <| .countLate <| .flushRing <| .setRing <| .ite
      (.placeData <| .unhand h) (.takeSlot <| .placeData <| .unhand h)

theorem Keeps.dropHanded {r : Ring} {p : Packet} (h : Keeps s t) : Keeps s (dropHanded r p t) :=
  .releaseSetts <| .unhand h

theorem Goes.execRxPlacement {ring : Nat} {permitted : Bool} (h : Keeps s t) :
    Goes s (execRxPlacement ring permitted t) := by
  unfold Machine.execRxPlacement
  split
  · exact .next h
  · refine .ite (.next h) ?_
    split
    · exact .next h
    · split
      · refine .ite (.next <| .setRing h) (.ite (.next <| .placePacket h) ?_)
        split
        · exact .next <| .markLacking <| .endJob h
        · exact .next h
      · exact .ite (.next <| .refreshPressure <| .spoilPacket <| .dropHanded h) (.ite (.next <| .refreshPressure <|
          .count <| .dropHanded h) (.next <| .markExternal h))

theorem Keeps.takeBench {n len : Nat} (h : Keeps s t) : Keeps s (takeBench n len t) := by
  unfold Machine.takeBench
  exact .ite h (.setSheet h)

theorem Keeps.readSegments {r : Ring} {j : Job} (h : Keeps s t) : Keeps s (readSegments r j t) :=
  .foldl (fun _ h₁ => .sheetRead h₁) h

theorem Keeps.sendTx {g : Nat} {r : Ring} {j : Job} {data : Bytes} (h : Keeps s t) :
    Keeps s (sendTx g r j data t) := by
  unfold Machine.sendTx
  exact .enterBench h

theorem Keeps.startTx {g : Nat} {data : MemResult} (h : Keeps s t) : Keeps s (startTx g data t) := by
  unfold Machine.startTx
  split
  · exact h
  · refine .ite h ?_
    split
    · rename_i e₁
      exact .of_snd e₁ <| .beginJob h
    · rename_i e₁
      refine .ite (.endTx <| .of_snd e₁ <| .beginJob h) ?_
      split
      · exact .sendTx <| .readSegments <| .takeBench <| .of_snd e₁ <| .beginJob h
      · exact .endTx <| .readSegments <| .takeBench <| .of_snd e₁ <| .beginJob h
      · exact .endTx <| .readSegments <| .takeBench <| .of_snd e₁ <| .beginJob h
      · exact .endTx <| .readSegments <| .takeBench <| .of_snd e₁ <| .beginJob h
      · exact .endTx <| .readSegments <| .takeBench <| .of_snd e₁ <| .beginJob h

theorem Goes.execTxPkt {ring : Nat} {data : MemResult} (h : Keeps s t) : Goes s (execTxPkt ring data t) :=
  .next <| .startTx h

theorem Goes.execTxThrottleRelease {ring : Nat} {data : MemResult} (h : Keeps s t) :
    Goes s (execTxThrottleRelease ring data t) :=
  .next <| .startTx h

theorem Goes.execRxBuf {ring : Nat} (h : Keeps s t) : Goes s (execRxBuf ring t) := by
  unfold Machine.execRxBuf
  split
  · exact .next h
  · exact .ite (.next <| .flushRing <| .setRing h) (.next <| .sheetAts <| .setRing h)

theorem Keeps.runSwitch {g op : Nat} {f : Ring → Entry → State → State × Nat × Body} (hf : ∀ {u : State} (a : Ring)
    (b : Entry), Keeps s u → Keeps s (f a b u).1) (h : Keeps s t) :
    Keeps s (runSwitch g op f t) := by
  unfold Machine.runSwitch
  exact .ite h (.runEntry (fun _ _ h₁ => .ite_fst h₁ (.fst <| hf _ _ h₁)) h)

theorem Goes.execActWrite {ring : Nat} (h : Keeps s t) : Goes s (execActWrite ring t) := by
  unfold Machine.execActWrite
  exact .next <| .runSwitch (fun _ _ h₁ => .ite_fst h₁ (.ite_fst h₁ (.ite_fst h₁ (.fst <| .tables h₁)))) h

theorem Goes.execActRead {ring : Nat} (h : Keeps s t) : Goes s (execActRead ring t) := by
  unfold Machine.execActRead
  exact .next <| .runSwitch (fun _ _ h₁ => .ite_fst h₁ h₁) h

theorem Goes.execTmplWrite {ring : Nat} (h : Keeps s t) : Goes s (execTmplWrite ring t) := by
  unfold Machine.execTmplWrite
  exact .next <| .runSwitch (fun _ _ h₁ => .ite_fst h₁ (.fst <| .tables h₁)) h

theorem Goes.execPsetWrite {ring : Nat} (h : Keeps s t) : Goes s (execPsetWrite ring t) := by
  unfold Machine.execPsetWrite
  exact .next <| .runSwitch (fun _ _ h₁ => .ite_fst h₁ (.ite_fst h₁ (.fst <| .tables h₁))) h

theorem Goes.execMcgWrite {ring : Nat} (h : Keeps s t) : Goes s (execMcgWrite ring t) := by
  unfold Machine.execMcgWrite
  exact .next <| .runSwitch (fun _ _ h₁ => .ite_fst h₁ (.ite_fst h₁ (.fst <| .tables h₁))) h

theorem Goes.execVoqQuery {ring : Nat} (h : Keeps s t) : Goes s (execVoqQuery ring t) := by
  unfold Machine.execVoqQuery
  exact .next <| .runSwitch (fun _ _ h₁ => .ite_fst h₁ h₁) h

theorem Goes.execBankGroupFault {group : Nat} (h : Keeps s t) : Goes s (execBankGroupFault group t) := by
  unfold Machine.execBankGroupFault
  exact .ite (.next h) (.ite (.next <| .refreshPressure <| .resizePool <| .logFault <| .spareConsumed <| .wr <| .raise <|
      .swc h) (.next <| .beyondModel <| .breakWhere <| .logFault <| .raise <| .swc h))

theorem Goes.execBankGroupDrained (h : Keeps s t) : Goes s (execBankGroupDrained t) := by
  unfold Machine.execBankGroupDrained
  split
  · exact .next h
  · exact .next <| .wr <| .swc h

theorem Keeps.placeMarker {o v : Nat} (h : Keeps s t) : Keeps s (placeMarker o v t) := by
  unfold Machine.placeMarker
  split
  · exact h
  · exact .voqs (tblWf_tblPut _) h

theorem Keeps.endUnpin {o : Nat} (h : Keeps s t) : Keeps s (endUnpin o t) := by
  unfold Machine.endUnpin
  exact .ite h (.raise <| .wr h)

theorem Keeps.unpin {o : Nat} (h : Keeps s t) : Keeps s (unpin o t) := by
  unfold Machine.unpin
  exact .ite (.endUnpin <| .wr <| .wr <| .wr <| .swc <| .foldl (fun _ h₁ => .placeMarker h₁) h) h

theorem Keeps.altWrite {o : Nat} {v : BitVec 64} (h : Keeps s t) : Keeps s (altWrite o v t) := by
  unfold Machine.altWrite
  exact .ite (.raise h) (.ite (.unpin <| .wr <| .wr h) (.refreshPressure <| .spoilDead <| .wr <| .wr h))

theorem Goes.execSwcAltWrite {outlet : Nat} {value : BitVec 64} (h : Keeps s t) :
    Goes s (execSwcAltWrite outlet value t) := by
  unfold Machine.execSwcAltWrite
  exact .ite (.next h) (.next <| .altWrite h)

theorem Goes.execSwcUnpin {outlet : Nat} (h : Keeps s t) : Goes s (execSwcUnpin outlet t) := by
  unfold Machine.execSwcUnpin
  exact .ite (.next h) (.next <| .unpin h)

theorem Goes.execUnpinMarkerServed {voq : Nat} (h : Keeps s t) : Goes s (execUnpinMarkerServed voq t) := by
  unfold Machine.execUnpinMarkerServed
  split
  · exact .next h
  · split
    · exact .next h
    · exact .next <| .refreshPressure <| .endUnpin <| .voqs_swc tblWf_setQueue h

theorem Keeps.runCipher {g op : Nat} {f : Nat → Nat → Entry → State → State × Nat × Body} (hf : ∀ {u : State} (a b : Nat)
    (b₂ : Entry), Keeps s u → Keeps s (f a b b₂ u).1) (h : Keeps s t) :
    Keeps s (runCipher g op f t) := by
  unfold Machine.runCipher
  refine .runEntry (fun _ _ h₁ => ?_) h
  split
  · exact h₁
  · exact hf _ _ _ h₁

theorem Goes.execKeyInstall {ring pick : Nat} {block : MemResult} (h : Keeps s t) :
    Goes s (execKeyInstall ring pick block t) := by
  unfold Machine.execKeyInstall
  exact .next <| .runCipher (fun _ _ _ h₁ => .ite_fst h₁ (.ite_fst h₁ (.ite_fst h₁ (.ite_fst (.fst <| .sheetRead h₁)
      (.fst <| .sas (tblWf_tblPut _) <| .sheetRead h₁))))) h

theorem Goes.execKeyRetire {ring : Nat} (h : Keeps s t) : Goes s (execKeyRetire ring t) := by
  unfold Machine.execKeyRetire
  refine .next <| .startEntry (fun _ _ h₁ => ?_) h
  split
  · exact h₁
  · dsimp only
    split
    · exact h₁
    · exact .ite_fst h₁ (.fst <| .sas (tblWf_tblPut _) h₁)

theorem Goes.execSaRetireDone {sa : Nat} (h : Keeps s t) : Goes s (execSaRetireDone sa t) := by
  unfold Machine.execSaRetireDone
  split
  · exact .next h
  · refine .ite ?_ (.next h)
    split
    · exact .next <| .endJob <| .resolveShrinks <| .eraseKeys <| .sas tblWf_tblDel h
    · exact .next <| .resolveShrinks <| .eraseKeys <| .sas tblWf_tblDel h

theorem Goes.execKeyRekey {ring : Nat} {block : MemResult} (h : Keeps s t) : Goes s (execKeyRekey ring block t) := by
  unfold Machine.execKeyRekey
  refine .next <| .runCipher (fun _ _ _ h₁ => ?_) h
  split
  · dsimp only
    split
    · exact h₁
    · exact .ite_fst h₁ h₁
  · split
    · dsimp only
      split
      · exact h₁
      · exact .ite_fst h₁ h₁
    · split
      · dsimp only
        split
        · exact h₁
        · exact .ite_fst h₁ (.fst <| .sheetRead h₁)
      · dsimp only
        split
        · exact h₁
        · exact .ite_fst h₁ (.fst <| .sas_cipher (tblWf_tblPut _) <| .sheetRead h₁)

theorem Goes.execSaQuery {ring : Nat} (h : Keeps s t) : Goes s (execSaQuery ring t) := by
  unfold Machine.execSaQuery
  refine .next <| .runCipher (fun _ _ _ h₁ => ?_) h
  dsimp only
  split <;> exact h₁

theorem Goes.execEntropyRead {ring : Nat} {result : MemResult} (h : Keeps s t) :
    Goes s (execEntropyRead ring result t) := by
  unfold Machine.execEntropyRead
  exact .next <| .runCipher (fun _ _ _ h₁ => .ite_fst h₁ (.ite_fst h₁ (.ite_fst h₁ (.fst <| .sheetWrite <| .drawBytes <|
      .generate h₁)))) h

theorem Goes.execNoiseSourceFail {source : Nat} (h : Keeps s t) : Goes s (execNoiseSourceFail source t) := by
  unfold Machine.execNoiseSourceFail
  exact .ite (.next <| .raise <| .ite (.wr <| .logFault <| .cipher h) (.cipher <| .wr <| .logFault <| .cipher h)) (.next h)

theorem Goes.execDrbgReseed (h : Keeps s t) : Goes s (execDrbgReseed t) := by
  unfold Machine.execDrbgReseed
  exact .ite (.next h) (.next <| .cipher h)

theorem Goes.execKeyCacheError (h : Keeps s t) : Goes s (execKeyCacheError t) :=
  .next <| .raise <| .logFault h

theorem Goes.execRewrapDone (h : Keeps s t) : Goes s (execRewrapDone t) := by
  unfold Machine.execRewrapDone
  exact .ite (.next <| .raise <| .wr <| .sas_cipher tblWf_tblMap h) (.next h)

theorem Keeps.takeRlt {p : Packet} (h : Keeps s t) : Keeps s (takeRlt p t) :=
  .refreshPressure <| .releaseSetts <| .unhand h

theorem Keeps.dropRlt {counter : Fld} {p : Packet} (h : Keeps s t) : Keeps s (dropRlt counter p t) :=
  .count <| .takeRlt h

theorem Keeps.markRx {c : Nat} {h' : RltHdr} (h : Keeps s t) : Keeps s (markRx c h' t) := by
  unfold Machine.markRx
  split
  · exact h
  · exact .ite (.count <| .setConn h) (.setConn h)

theorem Keeps.sendAck {c path : Nat} (h : Keeps s t) : Keeps s (sendAck c path t) := by
  unfold Machine.sendAck
  split
  · exact h
  · exact .sendAnswer <| .setConn h

theorem Keeps.ackEight {c path : Nat} (h : Keeps s t) : Keeps s (ackEight c path t) := by
  unfold Machine.ackEight
  split
  · exact h
  · exact .ite (.sendAck h) h

theorem Keeps.sendNak {c path : Nat} {msn : BitVec 32} {code idx : Nat} (h : Keeps s t) :
    Keeps s (sendNak c path msn code idx t) := by
  unfold Machine.sendNak
  exact .sendAnswer <| .ite (.count h) h

theorem Keeps.sendRereq {c path : Nat} {msn : BitVec 32} {ranges : List (Nat × Nat)} (h : Keeps s t) :
    Keeps s (sendRereq c path msn ranges t) :=
  .sendAnswer <| .count h

theorem Keeps.releaseData {c path : Nat} {m : SendMsg} {k : Nat} {retx : Bool} {payload : Bytes} (h : Keeps s t) :
    Keeps s (releaseData c path m k retx payload t) := by
  unfold Machine.releaseData
  split
  · exact h
  · exact .sendRlt <| .ite (.count <| .count <| .setConn h) (.count <| .setConn h)

theorem Keeps.readPayload {x : Conn} {m : SendMsg} {k : Nat} (h : Keeps s t) : Keeps s (readPayload x m k t) := by
  unfold Machine.readPayload
  exact .ite (.sheetRead h) h

theorem Keeps.withSend {c : Nat} {msn : BitVec 32} {f : SendMsg → SendMsg} (h : Keeps s t) :
    Keeps s (withSend c msn f t) := by
  unfold Machine.withSend
  split
  · exact h
  · exact .setConn h

theorem Keeps.queueRetx {c : Nat} {msn : BitVec 32} {ks : List Nat} (h : Keeps s t) :
    Keeps s (queueRetx c msn ks t) := by
  unfold Machine.queueRetx
  split
  · exact h
  · exact .setConn h

theorem Keeps.withRecv {c : Nat} {msn : BitVec 32} {f : RecvMsg → RecvMsg} (h : Keeps s t) :
    Keeps s (withRecv c msn f t) := by
  unfold Machine.withRecv
  split
  · exact h
  · exact .setConn h

theorem Keeps.setRegion {r : Nat} {x : Region} (h : Keeps s t) : Keeps s (t.setRegion r x) := by
  unfold State.setRegion
  exact .rlt h

theorem Keeps.startMessage {c path : Nat} {m : SendMsg} {payload : Bytes} (h : Keeps s t) :
    Keeps s (startMessage c path m payload t) := by
  unfold Machine.startMessage
  split
  · exact h
  · exact .releaseData <| .setConn h

theorem Goes.execMsgSend {ring : Nat} {data : MemResult} (h : Keeps s t) : Goes s (execMsgSend ring data t) := by
  unfold Machine.execMsgSend
  split
  · exact .next h
  · split
    · exact .next <| .endJob h
    · split
      · exact .next h
      · exact .next <| .endJob h
      · exact .next <| .endJob h
      · split
        · exact .next h
        · refine .ite (.next h) ?_
          split
          · rename_i e₄
            exact .next <| .of_snd e₄ <| .beginJob h
          · rename_i e₄
            dsimp only
            split
            · exact .next <| .endJob <| .readPayload <| .of_snd e₄ <| .beginJob h
            · exact .next <| .startMessage <| .readPayload <| .of_snd e₄ <| .beginJob h

theorem Goes.execPacingRelease {conn : Nat} {data : MemResult} (h : Keeps s t) :
    Goes s (execPacingRelease conn data t) := by
  unfold Machine.execPacingRelease
  split
  · exact .next h
  · split
    · refine .ite (.next h) ?_
      split
      · exact .next <| .setConn h
      · split
        · exact .next <| .endSend <| .readPayload <| .setConn h
        · exact .next <| .releaseData <| .readPayload <| .setConn h
    · exact .next h

theorem Goes.execRateIncrease {conn path : Nat} (h : Keeps s t) : Goes s (execRateIncrease conn path t) := by
  unfold Machine.execRateIncrease
  split
  · exact .next h
  · exact .ite (.next <| .setConn h) (.next h)

theorem Keeps.receiveRlt {type : RltType} {f : Nat → Conn → RltHdr → State → State} (hf : ∀ {u : State} (a : Nat)
    (b : Conn) (b₂ : RltHdr), Keeps s u → Keeps s (f a b b₂ u)) (h : Keeps s t) :
    Keeps s (receiveRlt type f t) := by
  unfold Machine.receiveRlt
  split
  · exact h
  · refine .ite h ?_
    split
    · exact .dropRlt h
    · exact .ite (.dropRlt h) (hf _ _ _ <| .markRx <| .takeRlt h)

theorem Keeps.ackSends {c : Nat} {done : BitVec 32} (h : Keeps s t) : Keeps s (ackSends c done t) := by
  unfold Machine.ackSends
  split
  · exact h
  · exact .foldl (fun _ h₁ => .endSend h₁) h

theorem Keeps.restartPolls {c : Nat} {p : SendMsg → Bool} (h : Keeps s t) : Keeps s (restartPolls c p t) := by
  unfold Machine.restartPolls
  split
  · exact h
  · exact .setConn h

theorem Goes.execAckReceive (h : Keeps s t) : Goes s (execAckReceive t) := by
  unfold Machine.execAckReceive
  refine .next <| .receiveRlt (fun _ _ _ h₁ => ?_) h
  dsimp only
  split
  · exact .ackSends <| .restartPolls h₁
  · exact .ackSends <| .ite (.count <| .setConn <| .restartPolls h₁) (.setConn <| .restartPolls h₁)

theorem Keeps.rnrSend {c : Nat} {x : Conn} {m : SendMsg} (h : Keeps s t) : Keeps s (rnrSend c x m t) := by
  unfold Machine.rnrSend
  exact .ite (.ite (.connError <| .endSend h) (.endSend h)) (.withSend h)

theorem Goes.execNakReceive (h : Keeps s t) : Goes s (execNakReceive t) := by
  unfold Machine.execNakReceive
  refine .next <| .receiveRlt (fun _ _ _ h₁ => ?_) h
  dsimp only
  split
  · exact h₁
  · split
    · exact .rnrSend <| .withSend h₁
    · exact .endSend <| .withSend h₁
    · exact .endSend <| .withSend h₁
    · exact .withSend <| .withSend h₁
    · exact .endSend <| .withSend h₁
    · exact .endSend <| .withSend h₁
    · exact .withSend h₁

theorem Goes.execRereqReceive (h : Keeps s t) : Goes s (execRereqReceive t) := by
  unfold Machine.execRereqReceive
  refine .next <| .receiveRlt (fun _ _ _ h₁ => ?_) h
  dsimp only
  split
  · exact h₁
  · exact .queueRetx <| .restartPolls h₁

theorem Goes.execRnrRetryExpiry {conn msn : Nat} (h : Keeps s t) : Goes s (execRnrRetryExpiry conn msn t) := by
  unfold Machine.execRnrRetryExpiry
  split
  · exact .next h
  · dsimp only
    split
    · exact .next h
    · exact .next <| .queueRetx <| .withSend h

theorem Goes.execPollTimerExpiry {conn msn : Nat} (h : Keeps s t) : Goes s (execPollTimerExpiry conn msn t) := by
  unfold Machine.execPollTimerExpiry
  split
  · exact .next h
  · split
    · dsimp only
      split
      · exact .next h
      · exact .ite (.next h) (.ite (.next <| .connError h) (.next <| .sendOwn <| .count <| .withSend h))
    · dsimp only
      split
      · exact .next h
      · exact .ite (.next h) (.ite (.next <| .endSend h) (.next <| .sendOwn <| .count <| .withSend h))

theorem Goes.execProbeReceive (h : Keeps s t) : Goes s (execProbeReceive t) := by
  unfold Machine.execProbeReceive
  split
  · exact .next <| .receiveRlt (fun _ _ _ h₁ => h₁) h
  · dsimp only
    split
    · exact .ite (.next <| .sendClose <| .takeRlt h) (.next <| .receiveRlt (fun _ _ _ h₁ => .openConn <| .sendAnswer h₁) h)
    · exact .next <| .receiveRlt (fun _ _ _ h₁ => h₁) h

theorem Goes.execProbeAckReceive (h : Keeps s t) : Goes s (execProbeAckReceive t) := by
  unfold Machine.execProbeAckReceive
  refine .next <| .receiveRlt (fun _ _ _ h₁ => ?_) h
  split
  · exact h₁
  · exact .ite (.openConn h₁) (.ite (.setConn h₁) h₁)

theorem Goes.execCloseReceive (h : Keeps s t) : Goes s (execCloseReceive t) := by
  unfold Machine.execCloseReceive
  exact .next <| .receiveRlt (fun _ _ _ h₁ => .ite (.connError h₁) h₁) h

theorem Goes.execProbeTimer {conn path : Nat} (h : Keeps s t) : Goes s (execProbeTimer conn path t) := by
  unfold Machine.execProbeTimer
  split
  · exact .next h
  · exact .ite (.next <| .sendOwn h) (.next h)

theorem Goes.execOpenTimeout {conn : Nat} (h : Keeps s t) : Goes s (execOpenTimeout conn t) := by
  unfold Machine.execOpenTimeout
  split
  · exact .next h
  · exact .ite (.next <| .connError h) (.next h)

theorem Goes.execPathDownTimeout {conn path : Nat} (h : Keeps s t) : Goes s (execPathDownTimeout conn path t) := by
  unfold Machine.execPathDownTimeout
  split
  · exact .next h
  · exact .ite (.next <| .setConn h) (.next h)

theorem Goes.execPathsDownTimeout {conn : Nat} (h : Keeps s t) : Goes s (execPathsDownTimeout conn t) := by
  unfold Machine.execPathsDownTimeout
  split
  · exact .next h
  · exact .ite (.next <| .connError h) (.next h)

theorem Goes.execMsgRecv {ring : Nat} (h : Keeps s t) : Goes s (execMsgRecv ring t) := by
  unfold Machine.execMsgRecv
  split
  · exact .next h
  · split
    · exact .next <| .endJob h
    · refine .ite (.next <| .endJob h) ?_
      dsimp only
      split
      · exact .next <| .endJob h
      · exact .next <| .setRing <| .setConn h

theorem Keeps.askPage {n c : Nat} {msn : BitVec 32} {k page : Nat} (h : Keeps s t) :
    Keeps s (askPage n c msn k page t).2 := by
  unfold Machine.askPage
  exact .ite_snd h (.ite_snd (.snd <| .rlt h) (.ite_snd h (.snd <| .emit <| .rlt h)))

theorem Keeps.askPages {n c : Nat} {msn : BitVec 32} {k : Nat} {pages : List Nat} (h : Keeps s t) :
    Keeps s (askPages n c msn k pages t).2 := by
  unfold Machine.askPages
  refine .foldl_snd (fun _ h₁ => ?_) h
  split
  · exact h₁
  · split
    · rename_i e₁
      exact .snd <| .of_snd e₁ <| .askPage h₁

theorem Keeps.stallPacket {c : Nat} {p : Packet} (h : Keeps s t) : Keeps s (stallPacket c p t) := by
  unfold Machine.stallPacket
  split
  · exact .dropRlt h
  · exact .ite (.count <| .setConn <| .unhand h) (.dropRlt h)

theorem Keeps.failPage {c : Nat} {msn : BitVec 32} {idx status : Nat} (h : Keeps s t) :
    Keeps s (failPage c msn idx status t) := by
  unfold Machine.failPage
  split
  · exact h
  · split
    · exact h
    · exact .ite h (.raise <| .sendNak <| .endRecv <| .dropStalled h)

theorem Keeps.placeRlt {c : Nat} {x : Conn} {m : RecvMsg} {k : Nat} {p : Packet} {h' : RltHdr} {pinned : Bool} (h :
    Keeps s t) :
    Keeps s (placeRlt c x m k p h' pinned t) := by
  unfold Machine.placeRlt
  exact .count <| .takeRlt <| .ite (.countLate <| .withRecv <| .ite (.sheetWrite <| .ite h (.takeSlot h)) (.ite h
      (.takeSlot h))) (.withRecv <| .ite (.sheetWrite <| .ite h (.takeSlot h)) (.ite h (.takeSlot h)))

theorem Keeps.placeOrFault {c : Nat} {x : Conn} {m : RecvMsg} {k : Nat} {absent : List Nat} {p : Packet} {h' : RltHdr}
    (h : Keeps s t) :
    Keeps s (placeOrFault c x m k absent p h' t) := by
  unfold Machine.placeOrFault
  refine .ite (.placeRlt h) (.ite (.placeRlt <| .foldl (fun _ h₁ => .sheetAts h₁) h) ?_)
  split
  · split
    · dsimp only
      split
      · rename_i e₂
        exact .failPage <| .takeRlt <| .of_snd e₂ <| .askPages <| .count h
      · rename_i e₃
        exact .stallPacket <| .of_snd e₃ <| .askPages <| .count h
    · dsimp only
      split
      · rename_i e₂
        exact .failPage <| .takeRlt <| .of_snd e₂ <| .askPages <| .count h
      · rename_i e₃
        exact .sendNak <| .takeRlt <| .of_snd e₃ <| .askPages <| .count h
  · split
    · dsimp only
      split
      · rename_i e₂
        exact .failPage <| .takeRlt <| .of_snd e₂ <| .askPages <| .count h
      · rename_i e₃
        exact .stallPacket <| .of_snd e₃ <| .askPages <| .count h
    · dsimp only
      split
      · rename_i e₂
        exact .failPage <| .takeRlt <| .of_snd e₂ <| .askPages <| .count h
      · rename_i e₃
        exact .sendNak <| .takeRlt <| .of_snd e₃ <| .askPages <| .count h

theorem Keeps.handleData {c : Nat} {absent : List Nat} {p : Packet} (h : Keeps s t) :
    Keeps s (handleData c absent p t) := by
  unfold Machine.handleData
  split
  · exact .dropRlt h
  · dsimp only
    split
    · exact .sendAck <| .dropRlt h
    · exact .dropRlt h
    · exact .sendNak <| .dropRlt h
    · exact .sendNak <| .endRecv <| .takeRlt h
    · exact .dropRlt h
    · exact .sendNak <| .endRecv <| .takeRlt h
    · exact .withRecv <| .dropRlt h
    · split
      · exact .placeOrFault h
      · exact h

theorem Keeps.arriveData {c : Nat} {absent : List Nat} {p : Packet} (h : Keeps s t) :
    Keeps s (arriveData c absent p t) := by
  unfold Machine.arriveData
  split
  · exact .dropRlt h
  · exact .ite (.stallPacket h) (.handleData h)

theorem Keeps.postCapsule {c : Nat} {msn : BitVec 32} (h : Keeps s t) : Keeps s (postCapsule c msn t) := by
  unfold Machine.postCapsule
  split
  · exact h
  · exact .ite (.setConn h) h

theorem Goes.execDataReceive {absent : List Nat} (h : Keeps s t) : Goes s (execDataReceive absent t) := by
  unfold Machine.execDataReceive
  split
  · exact .next h
  · refine .ite (.next h) ?_
    split
    · exact .next <| .dropRlt h
    · exact .ite (.next <| .dropRlt h) (.ite (.next h) (.next <| .ackEight <| .arriveData <| .postCapsule <| .markRx h))

theorem Goes.execRalushMalformedDiscard (h : Keeps s t) : Goes s (execRalushMalformedDiscard t) := by
  unfold Machine.execRalushMalformedDiscard
  split
  · exact .next h
  · exact .ite (.next <| .dropRlt h) (.next h)

theorem Goes.execRecvComplete {conn msn : Nat} (h : Keeps s t) : Goes s (execRecvComplete conn msn t) := by
  unfold Machine.execRecvComplete
  split
  · exact .next h
  · dsimp only
    split
    · exact .next h
    · exact .ite (.next h) (.next <| .sendAck <| .endRecv <| .ite (.sto h) h)

theorem Goes.execReasmTimerExpiry {conn msn : Nat} (h : Keeps s t) : Goes s (execReasmTimerExpiry conn msn t) := by
  unfold Machine.execReasmTimerExpiry
  split
  · exact .next h
  · dsimp only
    split
    · exact .next h
    · exact .ite (.next h) (.ite (.next <| .sendNak <| .raise <| .endRecv h) (.next <| .sendRereq <| .withRecv h))

theorem Goes.execPollReceive (h : Keeps s t) : Goes s (execPollReceive t) := by
  unfold Machine.execPollReceive
  refine .next <| .receiveRlt (fun _ _ _ h₁ => ?_) h
  refine .ite (.sendAck h₁) ?_
  split
  · exact .sendRereq h₁
  · exact .ite (.sendAck h₁) (.ite h₁ (.sendRereq h₁))

theorem Goes.execAckTimerExpiry {conn path : Nat} (h : Keeps s t) : Goes s (execAckTimerExpiry conn path t) := by
  unfold Machine.execAckTimerExpiry
  split
  · exact .next h
  · exact .ite (.next <| .sendAck h) (.next h)

theorem Keeps.resumeConn {absent : List Nat} {c : Nat} (h : Keeps s t) : Keeps s (resumeConn absent c t) := by
  unfold Machine.resumeConn
  refine .ite ?_ h
  split
  · exact h
  · exact .foldl (fun _ h₁ => .arriveData h₁) <| .setConn h

theorem Keeps.resumeStalls {absent : List Nat} (h : Keeps s t) : Keeps s (resumeStalls absent t) :=
  .foldl (fun _ h₁ => .resumeConn h₁) h

theorem Keeps.failRequest {q : PageReq} {status : Nat} (h : Keeps s t) : Keeps s (failRequest q status t) :=
  .foldl (fun _ h₁ => .failPage h₁) h

theorem Keeps.dropRequest {q : PageReq} (h : Keeps s t) : Keeps s (dropRequest q t) := by
  unfold Machine.dropRequest
  exact .rlt h

theorem Goes.execPageRequestResponse {port pf pasid page code : Nat} {absent : List Nat} (h : Keeps s t) :
    Goes s (execPageRequestResponse port pf pasid page code absent t) := by
  unfold Machine.execPageRequestResponse
  split
  · exact .next h
  · exact .ite (.next <| .resumeStalls <| .dropRequest h) (.next <| .resumeStalls <| .failRequest <| .ite (.setFunc <|
      .dropRequest h) (.dropRequest h))

theorem Goes.execOdpWaitTimeout {port pf pasid page : Nat} (h : Keeps s t) :
    Goes s (execOdpWaitTimeout port pf pasid page t) := by
  unfold Machine.execOdpWaitTimeout
  split
  · exact .next h
  · exact .next <| .resumeStalls <| .failRequest <| .dropRequest h

theorem Keeps.runConn {g op : Nat} {f : Nat → Nat → Entry → State → State × Nat × Body} (hf : ∀ {u : State} (a b : Nat)
    (b₂ : Entry), Keeps s u → Keeps s (f a b b₂ u).1) (h : Keeps s t) :
    Keeps s (runConn g op f t) := by
  unfold Machine.runConn
  refine .ite h (.runEntry (fun _ _ h₁ => ?_) h)
  split
  · exact h₁
  · exact hf _ _ _ h₁

theorem Goes.execConnOpen {ring pick : Nat} {block : MemResult} (h : Keeps s t) :
    Goes s (execConnOpen ring pick block t) := by
  unfold Machine.execConnOpen
  refine .next <| .runConn (fun _ _ _ h₁ => .ite_fst h₁ ?_) h
  split
  · refine .ite_fst h₁ <| .ite_fst (.fst <| .sheetRead h₁) <| .fst <| .sas (fun w => ?_) <| .setConn <| .sheetRead h₁
    exact tblWf_tblPut _ (tblWf_tblPut _ w)
  · exact h₁

theorem Keeps.closeConn {c : Nat} {x : Conn} (h : Keeps s t) : Keeps s (closeConn c x t) := by
  unfold Machine.closeConn
  exact .refuseWaiting <| .refuseWaiting <| .moveConn h

theorem Goes.execConnClose {ring : Nat} (h : Keeps s t) : Goes s (execConnClose ring t) := by
  unfold Machine.execConnClose
  refine .ite (.next h) (.next <| .startEntry (fun _ _ h₁ => ?_) h)
  split
  · exact h₁
  · dsimp only
    split
    · exact h₁
    · exact .fst <| .ite (.setConn h₁) (.closeConn <| .setConn h₁)

theorem Goes.execCloseDrainEnd {conn : Nat} (h : Keeps s t) : Goes s (execCloseDrainEnd conn t) := by
  unfold Machine.execCloseDrainEnd
  split
  · exact .next h
  · exact .ite (.next <| .freeConn <| .sendClose <| .endAllRecvs <| .dropStalled h) (.next h)

theorem Goes.execConnQuery {ring : Nat} (h : Keeps s t) : Goes s (execConnQuery ring t) := by
  unfold Machine.execConnQuery
  refine .next <| .runConn (fun _ _ _ h₁ => ?_) h
  dsimp only
  split <;> exact h₁

theorem Goes.execConnPath {ring : Nat} (h : Keeps s t) : Goes s (execConnPath ring t) := by
  unfold Machine.execConnPath
  refine .next <| .runConn (fun _ _ _ h₁ => ?_) h
  dsimp only
  split
  · exact h₁
  · split
    · exact h₁
    · split
      · exact h₁
      · exact .ite_fst h₁ (.fst <| .setConn h₁)

theorem Goes.execRegOpen {ring pick : Nat} (h : Keeps s t) : Goes s (execRegOpen ring pick t) := by
  unfold Machine.execRegOpen
  exact .next <| .runConn (fun _ _ _ h₁ => .ite_fst h₁ (.ite_fst h₁ (.ite_fst h₁ (.fst <| .setRegion h₁)))) h

theorem Keeps.withdrawBound {key : Nat} {fenced : List (Nat × Nat)} (h : Keeps s t) :
    Keeps s (withdrawBound key fenced t) := by
  unfold Machine.withdrawBound
  exact .conns tblWf_tblMap h

theorem Goes.execRegRevoke {ring : Nat} (h : Keeps s t) : Goes s (execRegRevoke ring t) := by
  unfold Machine.execRegRevoke
  refine .ite (.next h) (.next <| .startEntry (fun _ _ h₁ => ?_) h)
  split
  · exact h₁
  · dsimp only
    split
    · exact h₁
    · exact .ite_fst h₁ (.fst <| .setRegion <| .withdrawBound h₁)

theorem Goes.execRevokeDone {region : Nat} (h : Keeps s t) : Goes s (execRevokeDone region t) := by
  unfold Machine.execRevokeDone
  split
  · exact .next h
  · refine .ite (.next h) ?_
    split
    · exact .next <| .raise <| .freeRegion h
    · exact .next <| .endJob <| .raise <| .freeRegion h

theorem Goes.execRegMode {ring : Nat} (h : Keeps s t) : Goes s (execRegMode ring t) := by
  unfold Machine.execRegMode
  refine .next <| .runConn (fun _ _ _ h₁ => ?_) h
  dsimp only
  split
  · exact h₁
  · exact .ite_fst h₁ (.ite_fst h₁ (.ite_fst h₁ (.fst <| .setRegion h₁)))

theorem Goes.execRegQuery {ring : Nat} (h : Keeps s t) : Goes s (execRegQuery ring t) := by
  unfold Machine.execRegQuery
  refine .next <| .runConn (fun _ _ _ h₁ => ?_) h
  dsimp only
  split <;> exact h₁

theorem Goes.execCcQuery {ring : Nat} (h : Keeps s t) : Goes s (execCcQuery ring t) := by
  unfold Machine.execCcQuery
  refine .next <| .runConn (fun _ _ _ h₁ => ?_) h
  dsimp only
  split <;> exact h₁

theorem Keeps.runSto {g op : Nat} {mgr : Bool} {f : Nat → Nat → Entry → State → State × Nat × Body} (hf : ∀ {u : State}
    (a b : Nat) (b₂ : Entry), Keeps s u → Keeps s (f a b b₂ u).1) (h : Keeps s t) :
    Keeps s (runSto g op mgr f t) := by
  unfold Machine.runSto
  refine .runEntry (fun _ _ h₁ => ?_) h
  split
  · exact h₁
  · split
    · exact h₁
    · exact hf _ _ _ h₁

theorem Goes.execCtrlCreate {ring pick pickSq pickCq : Nat} (h : Keeps s t) :
    Goes s (execCtrlCreate ring pick pickSq pickCq t) := by
  unfold Machine.execCtrlCreate
  exact .next <| .runSto (fun _ _ _ h₁ => .ite_fst h₁ (.ite_fst h₁ (.ite_fst h₁ (.ite_fst h₁ (.fst <| .setCtrl <|
      .setRing <| .setRing h₁))))) h

theorem Keeps.ctrlSet {g op : Nat} {f : Nat → Ctrl → Nat × Nat → State → State × Option Nat} (hf : ∀ {u : State} (a : Nat)
    (b : Ctrl) (b₂ : Nat × Nat), Keeps s u → Keeps s (f a b b₂ u).1) (h : Keeps s t) :
    Keeps s (ctrlSet g op f t) := by
  unfold Machine.ctrlSet
  split
  · exact h
  · refine .ite h (.startEntry (fun _ _ h₁ => ?_) h)
    split
    · exact h₁
    · split
      · exact h₁
      · split
        · exact h₁
        · split
          · rename_i e₄
            exact .fst <| .of_fst e₄ <| hf _ _ _ h₁
          · rename_i e₄
            exact .fst <| .of_fst e₄ <| hf _ _ _ h₁

theorem Goes.execCtrlEnable {ring : Nat} (h : Keeps s t) : Goes s (execCtrlEnable ring t) := by
  unfold Machine.execCtrlEnable
  exact .ite (.next h) (.next <| .ctrlSet (fun _ _ _ h₁ => .ite_fst (.fst <| .setCtrl <| .foldl
      (fun _ h₂ => .resetQueue h₂) h₁) h₁) h)

theorem Keeps.shutCtrl {normal : Bool} {k : Nat} {c : Ctrl} {w : Nat × Nat} (h : Keeps s t) :
    Keeps s (shutCtrl normal k c w t).1 := by
  unfold Machine.shutCtrl
  exact .ite_fst (.fst <| .setCtrl h) h

theorem Goes.execCtrlShutdownNormal {ring : Nat} (h : Keeps s t) : Goes s (execCtrlShutdownNormal ring t) :=
  .next <| .ctrlSet (fun _ _ _ h₁ => .shutCtrl h₁) h

theorem Goes.execCtrlShutdownAbrupt {ring : Nat} (h : Keeps s t) : Goes s (execCtrlShutdownAbrupt ring t) :=
  .next <| .ctrlSet (fun _ _ _ h₁ => .shutCtrl h₁) h

theorem Goes.execCtrlShutdownDone {ctrl : Nat} (h : Keeps s t) : Goes s (execCtrlShutdownDone ctrl t) := by
  unfold Machine.execCtrlShutdownDone
  split
  · exact .next h
  · exact .ite (.next <| .endSetter <| .abandonCmds <| .setCtrl h) (.next h)

theorem Goes.execCtrlReset {ring : Nat} (h : Keeps s t) : Goes s (execCtrlReset ring t) := by
  unfold Machine.execCtrlReset
  refine .next <| .ctrlSet (fun _ _ _ h₁ => ?_) h
  split
  · dsimp only
    split
    · exact .fst <| .setCtrl <| .resetCtrl h₁
    · exact .fst <| .resetCtrl h₁
  · exact h₁

theorem Goes.execCtrlResetDone {ctrl : Nat} (h : Keeps s t) : Goes s (execCtrlResetDone ctrl t) := by
  unfold Machine.execCtrlResetDone
  split
  · exact .next h
  · exact .ite (.next <| .endSetter <| .resolveShrinks <| .setCtrl <| .foldl (fun _ h₁ => .resetQueue h₁) <| .rings
      (tblWf_filter _) h) (.next h)

theorem Goes.execCtrlDestroy {ring : Nat} (h : Keeps s t) : Goes s (execCtrlDestroy ring t) := by
  unfold Machine.execCtrlDestroy
  refine .next <| .runSto (fun _ _ _ h₁ => ?_) h
  split
  · exact h₁
  · exact .ite_fst h₁ (.fst <| .freeCtrl h₁)

theorem Goes.execVolCreate {ring pick : Nat} {ident : Identified} (h : Keeps s t) :
    Goes s (execVolCreate ring pick ident t) := by
  unfold Machine.execVolCreate
  refine .next <| .runSto (fun _ _ _ h₁ => ?_) h
  split
  · exact h₁
  · split
    · exact h₁
    · exact h₁
    · dsimp only
      split
      · exact h₁
      · split
        · exact h₁
        · exact .fst <| .setVol h₁

theorem Keeps.dropCache {vol : Nat} (h : Keeps s t) : Keeps s (dropCache vol t) := by
  unfold Machine.dropCache
  exact .followDirty <| .sto h

theorem Goes.execVolDestroy {ring : Nat} (h : Keeps s t) : Goes s (execVolDestroy ring t) := by
  unfold Machine.execVolDestroy
  refine .next <| .runSto (fun _ _ _ h₁ => ?_) h
  split
  · exact h₁
  · exact .ite_fst h₁ (.fst <| .sto <| .dropCache h₁)

theorem Goes.execVolBind {ring : Nat} (h : Keeps s t) : Goes s (execVolBind ring t) := by
  unfold Machine.execVolBind
  refine .next <| .runSto (fun _ _ _ h₁ => ?_) h
  split
  · exact h₁
  · exact .ite_fst h₁ (.ite_fst h₁ (.fst <| .setVol h₁))

theorem Goes.execNsAttach {ring : Nat} (h : Keeps s t) : Goes s (execNsAttach ring t) := by
  unfold Machine.execNsAttach
  refine .next <| .runSto (fun _ _ _ h₁ => ?_) h
  split
  · exact h₁
  · exact h₁
  · exact .ite_fst h₁ (.ite_fst h₁ (.ite_fst h₁ (.fst <| .setCtrl h₁)))

theorem Goes.execNsDetach {ring : Nat} (h : Keeps s t) : Goes s (execNsDetach ring t) := by
  unfold Machine.execNsDetach
  refine .next <| .startEntry (fun _ _ h₁ => ?_) h
  dsimp only
  split
  · exact h₁
  · split
    · exact h₁
    · split
      · exact h₁
      · exact .ite_fst h₁ (.fst <| .detachDone <| .setCtrl h₁)

theorem Goes.execStoQuery {ring : Nat} (h : Keeps s t) : Goes s (execStoQuery ring t) := by
  unfold Machine.execStoQuery
  refine .next <| .runSto (fun _ _ _ h₁ => ?_) h
  split
  · split <;> exact h₁
  · split
    · exact h₁
    · split <;> exact h₁

theorem Keeps.takeSqe {n q : Nat} {e : Entry} (h : Keeps s t) : Keeps s (takeSqe n q e t) := by
  unfold Machine.takeSqe
  split
  · exact h
  · split
    · exact h
    · split
      · exact h
      · exact .ite h (.sto <| .setRing <| .takeSlot h)

theorem Goes.execSqFetch {ctrl queue : Nat} {entries : List Entry} (h : Keeps s t) :
    Goes s (execSqFetch ctrl queue entries t) := by
  unfold Machine.execSqFetch
  split
  · exact .next h
  · split
    · exact .next h
    · exact .ite (.next h) (.next <| .sheetRead <| .foldl (fun _ h₁ => .takeSqe h₁) h)

theorem Goes.execRangeLockRelease (h : Keeps s t) : Goes s (execRangeLockRelease t) := by
  unfold Machine.execRangeLockRelease
  exact .next <| .foldl (fun _ h₁ => .ite h₁ (.setCmd h₁)) h

theorem Keeps.chooseCtrl {n : Nat} (e : t.chooseCtrl = some (n, u)) (h : Keeps s t) : Keeps s u := by
  unfold State.chooseCtrl at e
  dsimp only at e
  split at e
  · cases e; exact h.sto
  · split at e
    · cases e
    · obtain ⟨k, -, hk⟩ := Option.map_eq_some_iff.1 e
      cases hk
      exact h.sto

theorem Keeps.startCmd {i : Nat} {m : NvmeCmd} {ranges : List (Nat × Nat)} (h : Keeps s t) :
    Keeps s (startCmd i m ranges t) := by
  unfold Machine.startCmd
  refine .ite (.setCmd <| .sto h) ?_
  split
  · exact .setCmd <| .sto h
  · exact .ite (.finishCmd <| .setCmd <| .sto h) (.ite (.setCmd <| .sto h) (.ite (.count <| .setCmd <| .sto h) (.setCmd <|
      .sto h)))

theorem Goes.execStorageCommandStart {ranges : List (Nat × Nat)} (h : Keeps s t) :
    Goes s (execStorageCommandStart ranges t) := by
  unfold Machine.execStorageCommandStart
  split
  · exact .next h
  · rename_i e
    split
    · exact .next h
    · split
      · exact .next h
      · split
        · exact .next h
        · exact .next <| .startCmd <| .ite (.sheetRead <| .setCtrl <| .chooseCtrl e h) (.setCtrl <| .chooseCtrl e h)

theorem Keeps.placePieces {n : Nat} {l : List (Nat × Nat)} {bs : Bytes} (h : Keeps s t) : Keeps s
    (placePieces n l bs t) := by
  induction l generalizing bs t with
  | nil => exact h
  | cons p rest ih => exact ih (h.ite h.sheetWrite)

theorem Keeps.fetchPieces {n : Nat} {e : Entry} {l : List (Nat × Nat)} (h : Keeps s t) :
    Keeps s (fetchPieces n e l t) := by
  unfold Machine.fetchPieces
  exact .foldl (fun _ h₁ => .sheetRead h₁) <| .ite (.sheetRead h) h

theorem Keeps.sendBlock {x : Volume} {block : Nat} {data : Bytes} (h : Keeps s t) :
    Keeps s (sendBlock x block data t) := by
  unfold Machine.sendBlock
  exact .enterBench h

theorem Keeps.sendBlocks {x : Volume} {data : Bytes} {lo n : Nat} (h : Keeps s t) : Keeps s (sendBlocks x data lo n t) := by
  induction n with
  | zero => exact h
  | succ n ih => exact ih.sendBlock

theorem Keeps.sendCapsule {x : Volume} {bytes : Bytes} (h : Keeps s t) : Keeps s (sendCapsule x bytes t) := by
  unfold Machine.sendCapsule
  split
  · exact h
  · exact .setConn h

theorem Keeps.issueBackend {vol : Nat} {x : Volume} {cmd : Option Nat} {op lo n : Nat} {data : Bytes} {tries : Nat}
    (h : Keeps s t) :
    Keeps s (issueBackend vol x cmd op lo n data tries t) := by
  unfold Machine.issueBackend
  refine .ite ?_ (.ite ?_ ?_)
  · split
    · exact .sendCapsule <| .setCmd <| .sto h
    · exact .sendCapsule <| .sto h
  · split
    · exact .sendBlocks <| .emit <| .setCmd <| .sto h
    · exact .sendBlocks <| .emit <| .sto h
  · split
    · exact .emit <| .setCmd <| .sto h
    · exact .emit <| .sto h

theorem Keeps.poisonBlock {vol block : Nat} (h : Keeps s t) : Keeps s (poisonBlock vol block t) := by
  unfold Machine.poisonBlock
  split
  · exact h
  · refine .ite ?_ (.sto h)
    split
    · exact .deferredError h
    · exact .deferredError h
    · exact .mirrorAgain <| .sto h

theorem Keeps.endRead' {i : Nat} {m : NvmeCmd} (h : Keeps s t) : Keeps s (endRead' i m t) := by
  unfold Machine.endRead'
  dsimp only
  split
  · exact .finishCmd h
  · exact .finishCmd <| .placePieces h

theorem Goes.execNvmeRead {cmd : Nat} {pages poisoned : List Nat} (h : Keeps s t) :
    Goes s (execNvmeRead cmd pages poisoned t) := by
  unfold Machine.execNvmeRead
  split
  · exact .next h
  · split
    · exact .next <| .finishCmd h
    · split
      · exact .next <| .finishCmd h
      · refine .ite (.next <| .finishCmd h) (.ite (.next <| .finishCmd <| .foldl (fun _ h₁ => .poisonBlock h₁) h) ?_)
        split
        · dsimp only
          split
          · exact .next <| .endRead' <| .count <| .setCmd <| .foldl (fun _ h₁ => .poisonBlock h₁) h
          · exact .next <| .finishCmd <| .foldl (fun _ h₁ => .poisonBlock h₁) h
        · split
          · dsimp only
            split
            · exact .next <| .endRead' <| .count <| .setCmd <| .foldl (fun _ h₁ => .poisonBlock h₁) h
            · exact .next <| .foldl (fun _ h₁ => .poisonBlock h₁) h
          · dsimp only
            split
            · exact .next <| .endRead' <| .count <| .setCmd <| .foldl (fun _ h₁ => .poisonBlock h₁) h
            · exact .next <| .issueBackend <| .count <| .setCmd <| .foldl (fun _ h₁ => .poisonBlock h₁) h

theorem Keeps.evictClean {p size : Nat} {keys : List Nat} (h : Keeps s t) : Keeps s (evictClean p size keys t) := by
  unfold Machine.evictClean
  exact .foldl (fun _ h₁ => .ite h₁ (.sto h₁)) h

theorem Keeps.findHome {size : Nat} {except : List Nat} {p : Nat} (e : findHome size except t = some (p, u)) (h :
    Keeps s t) :
    Keeps s u := by
  unfold Machine.findHome at e
  split at e
  · cases e; exact h
  · obtain ⟨r, -, hr⟩ := List.mem_map.1 (List.mem_of_find?_eq_some e)
    cases hr
    exact h.evictClean

theorem Keeps.cacheBlock {vol : Nat} {x : Volume} {copies block : Nat} {data : Bytes}
    (e : cacheBlock vol x copies block data t = some u)
    (h : Keeps s t) : Keeps s u := by
  unfold Machine.cacheBlock at e
  dsimp only at e
  split at e
  · cases e
  · rename_i hp
    have hv := h.sto.findHome hp
    split at e
    · cases e; exact hv.sto
    · split at e
      · cases e
      · rename_i hq
        cases e
        exact (hv.findHome hq).sto

theorem Keeps.cacheBlocks {vol : Nat} {x : Volume} {copies lo : Nat} {data : Bytes} {n : Nat}
    (e : cacheBlocks vol x copies lo data n t = some u)
    (h : Keeps s t) : Keeps s u := by
  induction n generalizing u with
  | zero => cases e; exact h
  | succ n ih =>
    obtain ⟨v, hv, hu⟩ := Option.bind_eq_some_iff.1 e
    exact (ih hv).cacheBlock hu

theorem Keeps.coverLost {vol lo n : Nat} (h : Keeps s t) : Keeps s (coverLost vol lo n t) := by
  unfold Machine.coverLost
  split
  · exact h
  · exact .setVol h

theorem Goes.execNvmeWrite {cmd : Nat} {pages : List Nat} {data : MemResult} (h : Keeps s t) :
    Goes s (execNvmeWrite cmd pages data t) := by
  unfold Machine.execNvmeWrite
  split
  · exact .next h
  · split
    · exact .next <| .finishCmd h
    · split
      · exact .next <| .finishCmd h
      · refine .ite (.next <| .finishCmd h) ?_
        split
        · exact .next <| .finishCmd h
        · split
          · dsimp only
            split
            · exact .next <| .ite (.finishCmd <| .fetchPieces h) (.ite h (.issueBackend <| .fetchPieces h))
            · split
              · exact .next <| .ite (.finishCmd <| .fetchPieces h) (.ite h (.issueBackend <| .fetchPieces h))
              · rename_i e₅
                exact .next <| .finishCmd <| .followDirty <| .coverLost <| .cacheBlocks e₅ <| .fetchPieces h
          · exact .next <| .finishCmd <| .fetchPieces h

theorem Goes.execNvmeFlush {cmd : Nat} (h : Keeps s t) : Goes s (execNvmeFlush cmd t) := by
  unfold Machine.execNvmeFlush
  split
  · exact .next h
  · split
    · exact .next <| .finishCmd h
    · exact .ite (.next <| .finishCmd h) (.next <| .setCmd h)

theorem Keeps.atBackend {cmd : Nat} {m : NvmeCmd} {vol : Nat} {a : Attach} {x : Volume} {op : Nat} {ranges : List
    (Nat × Nat)} (h : Keeps s t) :
    Keeps s (atBackend cmd m vol a x op ranges t) := by
  unfold Machine.atBackend
  refine .ite (.finishCmd h) (.ite (.finishCmd h) (.ite (.finishCmd h) (.ite (.finishCmd h) ?_)))
  split
  · exact .ite (.issueBackend <| .setCmd h) h
  · exact h

theorem Goes.execNvmeWriteZeroes {cmd : Nat} (h : Keeps s t) : Goes s (execNvmeWriteZeroes cmd t) := by
  unfold Machine.execNvmeWriteZeroes
  split
  · exact .next h
  · split
    · exact .next <| .finishCmd h
    · exact .next <| .atBackend h

theorem Goes.execNvmeDatasetManagement {cmd : Nat} (h : Keeps s t) : Goes s (execNvmeDatasetManagement cmd t) := by
  unfold Machine.execNvmeDatasetManagement
  split
  · exact .next h
  · split
    · exact .next <| .finishCmd h
    · exact .ite (.next <| .atBackend h) (.next <| .finishCmd h)

theorem Keeps.sendReply {x : Volume} {req : Nat} {b : Nat × Bytes} (h : Keeps s t) :
    Keeps s (sendReply x req t b) := by
  unfold Machine.sendReply
  exact .enterBench h

theorem Keeps.dropReq {req : Nat} (h : Keeps s t) : Keeps s (dropReq req t) := by
  unfold Machine.dropReq
  exact .sto h

theorem Keeps.backendWrote {vol lo n : Nat} (h : Keeps s t) : Keeps s (backendWrote vol lo n t) := by
  unfold Machine.backendWrote
  exact .settleFlushes <| .followDirty <| .coverLost <| .sto h

theorem Keeps.markClean {vol : Nat} {x : Volume} {lo : Nat} {data : Bytes} {n : Nat} (h : Keeps s t) :
    Keeps s (markClean vol x lo data n t) := by
  induction n with
  | zero => exact h
  | succ n ih =>
    unfold Machine.markClean
    dsimp only
    split
    · exact ih
    · exact ih.sto.ite ih

theorem Keeps.writeBackFailed {vol lo n : Nat} (h : Keeps s t) : Keeps s (writeBackFailed vol lo n t) := by
  unfold Machine.writeBackFailed
  split
  · exact .followDirty <| .deferredError h
  · exact .foldl (fun _ h₁ => .finishCmd h₁) h

theorem Keeps.backendDone {b : BackReq} {x : Volume} {status : Nat} {blocks : List (Nat × Bytes)} (h : Keeps s t) :
    Keeps s (backendDone b x status blocks t) := by
  unfold Machine.backendDone
  refine .ite (.ite (.settleFlushes <| .followDirty <| .count <| .markClean h) (.writeBackFailed h)) ?_
  split
  · split
    · exact .backendWrote h
    · split
      · dsimp only
        split
        · exact .backendWrote h
        · exact .ite (.backendWrote h) (.finishCmd <| .backendWrote h)
      · split
        · dsimp only
          split
          · exact .backendWrote h
          · exact .ite (.backendWrote h) (.endRead' <| .setCmd <| .backendWrote h)
        · dsimp only
          split
          · exact .backendWrote h
          · refine .ite (.backendWrote h) ?_
            split
            · exact .finishCmd <| .backendWrote h
            · exact .ite (.finishCmd <| .backendWrote h) (.ite (.setCmd <| .backendWrote h) (.issueBackend <| .setCmd <|
                .backendWrote h))
  · split
    · exact h
    · split
      · dsimp only
        split
        · exact h
        · exact .ite h (.finishCmd h)
      · split
        · dsimp only
          split
          · exact h
          · exact .ite h (.endRead' <| .setCmd h)
        · dsimp only
          split
          · exact h
          · refine .ite h ?_
            split
            · exact .finishCmd h
            · exact .ite (.finishCmd h) (.ite (.setCmd h) (.issueBackend <| .setCmd h))

theorem Keeps.endRequest {req status : Nat} {blocks : BackReq → Volume → List (Nat × Bytes)} (h : Keeps s t) :
    Keeps s (endRequest req status blocks t) := by
  unfold Machine.endRequest
  split
  · exact h
  · dsimp only
    split
    · exact .dropReq h
    · exact .backendDone <| .dropReq h

theorem Goes.execBackendCompletion {req status : Nat} {data : Bytes} (h : Keeps s t) :
    Goes s (execBackendCompletion req status data t) := by
  unfold Machine.execBackendCompletion
  split
  · exact .next h
  · split
    · exact .next h
    · exact .ite (.next h) (.ite (.next <| .foldl (fun _ h₁ => .sendReply h₁) <| .sto h) (.next <| .endRequest h))

theorem Goes.execBackendTimeout {req : Nat} (h : Keeps s t) : Goes s (execBackendTimeout req t) := by
  unfold Machine.execBackendTimeout
  split
  · exact .next h
  · split
    · split
      · dsimp only
        split
        · exact .next <| .count <| .dropReq h
        · exact .ite (.next <| .count <| .dropReq h) (.next <| .issueBackend <| .count <| .dropReq h)
      · dsimp only
        split
        · exact .next <| .count <| .dropReq h
        · exact .next <| .writeBackFailed <| .count <| .dropReq h
    · split
      · dsimp only
        split <;> exact .next <| .count <| .dropReq h
      · dsimp only
        split
        · exact .next <| .count <| .dropReq h
        · split
          · exact .next <| .count <| .dropReq h
          · exact .ite (.next <| .finishCmd <| .count <| .dropReq h) (.next <| .count <| .dropReq h)

theorem Goes.execWriteBack {vol lo n : Nat} {poisoned : List Nat} (h : Keeps s t) :
    Goes s (execWriteBack vol lo n poisoned t) := by
  unfold Machine.execWriteBack
  split
  · exact .next h
  · exact .ite (.next h) (.ite (.next <| .followDirty <| .foldl (fun _ h₁ => .poisonBlock h₁) h) (.next <|
      .issueBackend <| .foldl (fun _ h₁ => .poisonBlock h₁) h))

theorem Goes.execRemoteResponse (h : Keeps s t) : Goes s (execRemoteResponse t) := by
  unfold Machine.execRemoteResponse
  split
  · exact .next h
  · dsimp only
    split
    · exact .next <| .sto h
    · exact .next <| .endRequest <| .sto h

theorem Keeps.acceptBlock {p : Packet} (h : Keeps s t) : Keeps s (acceptBlock p t) := by
  unfold Machine.acceptBlock
  split
  · exact .countLate <| .refreshPressure <| .releaseSetts <| .unhand h
  · dsimp only
    split
    · exact .countLate <| .refreshPressure <| .releaseSetts <| .unhand h
    · exact .ite (.endRequest <| .sto <| .countLate <| .refreshPressure <| .releaseSetts <| .unhand h) (.sto <|
        .countLate <| .refreshPressure <| .releaseSetts <| .unhand h)

theorem Keeps.acceptBlocks (h : Keeps s t) : Keeps s (acceptBlocks t) :=
  .foldl (fun _ h₁ => .acceptBlock h₁) h

theorem Goes.execOutletUnitServe {outlet : Nat} (h : Keeps s t) : Goes s (execOutletUnitServe outlet t) :=
  .next <| .acceptBlocks <| .refreshPressure <| .serveUnit h

theorem Keeps.runAdmin {i op : Nat} {f : NvmeCmd → Ctrl → State → State × Nat × Nat} (hf : ∀ {u : State} (a : NvmeCmd)
    (b : Ctrl), Keeps s u → Keeps s (f a b u).1) (h : Keeps s t) :
    Keeps s (runAdmin i op f t) := by
  unfold Machine.runAdmin
  split
  · exact h
  · exact .ite (.finishCmd h) (.finishCmd <| hf _ _ h)

theorem Goes.execNvmeCreateIoCq {cmd pick : Nat} (h : Keeps s t) : Goes s (execNvmeCreateIoCq cmd pick t) := by
  unfold Machine.execNvmeCreateIoCq
  refine .next <| .runAdmin (fun _ _ h₁ => ?_) h
  split
  · exact .ite_fst h₁ h₁
  · exact .ite_fst h₁ (.ite_fst h₁ (.ite_fst h₁ (.ite_fst h₁ (.fst <| .setCtrl <| .setRing h₁))))

theorem Goes.execNvmeCreateIoSq {cmd pick : Nat} (h : Keeps s t) : Goes s (execNvmeCreateIoSq cmd pick t) := by
  unfold Machine.execNvmeCreateIoSq
  refine .next <| .runAdmin (fun _ _ h₁ => ?_) h
  split
  · dsimp only
    split
    · exact h₁
    · split <;> exact h₁
  · split
    · dsimp only
      split
      · exact h₁
      · split <;> exact h₁
    · split
      · dsimp only
        split
        · exact h₁
        · split <;> exact h₁
      · dsimp only
        split
        · exact h₁
        · split
          · exact h₁
          · exact .fst <| .setCtrl <| .setRing h₁

theorem Keeps.freeQueue {n g : Nat} (h : Keeps s t) : Keeps s (freeQueue n g t) :=
  .resolveShrinks <| .rings tblWf_tblDel h

theorem Goes.execNvmeDeleteIoCq {cmd : Nat} (h : Keeps s t) : Goes s (execNvmeDeleteIoCq cmd t) := by
  unfold Machine.execNvmeDeleteIoCq
  refine .next <| .runAdmin (fun _ _ h₁ => ?_) h
  dsimp only
  split
  · exact h₁
  · exact .ite_fst h₁ (.ite_fst h₁ (.fst <| .freeQueue <| .setCtrl h₁))

theorem Keeps.closeSq {k : SubQueue} (h : Keeps s t) : Keeps s (closeSq k t) := by
  unfold Machine.closeSq
  split
  · exact .setRing h
  · exact h

theorem Keeps.catchSq {n q : Nat} (h : Keeps s t) : Keeps s (catchSq n q t) := by
  unfold Machine.catchSq
  refine .foldl (fun _ h₁ => ?_) h
  split
  · exact .ite (.finishNow h₁) h₁
  · exact h₁

theorem Goes.execNvmeDeleteIoSq {cmd : Nat} (h : Keeps s t) : Goes s (execNvmeDeleteIoSq cmd t) := by
  unfold Machine.execNvmeDeleteIoSq
  split
  · exact .next h
  · refine .ite (.next <| .finishCmd h) ?_
    split
    · exact .next <| .finishCmd h
    · refine .ite (.next <| .finishCmd h) (.ite (.next <| .catchSq <| .closeSq h) ?_)
      split
      · exact .next <| .catchSq <| .closeSq h
      · exact .next <| .finishCmd <| .freeQueue <| .setCtrl <| .catchSq <| .closeSq h

theorem Keeps.identifyCtrl {n : Nat} (h : Keeps s t) : Keeps s (identifyCtrl n t).2 := by
  unfold Machine.identifyCtrl
  exact .snd <| .drawn <| .drawn <| .drawn <| .drawn <| .drawn <| .drawn <| .drawn <| .drawn <| .drawn <| .drawn <| .drawn h

theorem Keeps.placeAdmin {m : NvmeCmd} {c : Ctrl} {pages : List Nat} {data : Bytes} (h : Keeps s t) :
    Keeps s (placeAdmin m c pages data t).1 := by
  unfold Machine.placeAdmin
  split
  · exact h
  · exact .fst <| .placePieces h

theorem Goes.execNvmeIdentify {cmd : Nat} (h : Keeps s t) : Goes s (execNvmeIdentify cmd t) := by
  unfold Machine.execNvmeIdentify
  refine .next <| .runAdmin (fun _ _ h₁ => ?_) h
  split
  · exact .ite_fst h₁ (.placeAdmin h₁)
  · exact .placeAdmin <| .drawn <| .drawn <| .drawn <| .drawn <| .drawn <| .drawn <| .drawn <| .drawn <| .drawn <|
      .drawn <| .drawn h₁
  · exact .ite_fst h₁ (.placeAdmin h₁)
  · split
    · rename_i e₁
      dsimp only
      split
      · exact h₁
      · exact .placeAdmin <| .of_snd e₁ <| .drawBytes h₁
  · exact h₁

theorem Goes.execNvmeGetLogPage {cmd : Nat} {pages : List Nat} (h : Keeps s t) :
    Goes s (execNvmeGetLogPage cmd pages t) := by
  unfold Machine.execNvmeGetLogPage
  refine .next <| .runAdmin (fun _ _ h₁ => ?_) h
  split
  · dsimp only
    split
    · split
      · rename_i e₂
        exact .fst <| .of_fst e₂ <| .placeAdmin h₁
      · exact .placeAdmin h₁
    · exact .ite_fst (.placeAdmin <| .drawBytes h₁) h₁
  · dsimp only
    split
    · split
      · rename_i e₂
        exact .fst <| .setCtrl <| .of_fst e₂ <| .placeAdmin h₁
      · exact .placeAdmin h₁
    · exact .ite_fst (.placeAdmin <| .drawBytes h₁) h₁

theorem Goes.execNvmeAbort {cmd : Nat} (h : Keeps s t) : Goes s (execNvmeAbort cmd t) := by
  unfold Machine.execNvmeAbort
  refine .next <| .runAdmin (fun _ _ h₁ => ?_) h
  split
  · exact h₁
  · split
    · exact h₁
    · exact .ite_fst h₁ (.fst <| .count <| .ite (.postHeld <| .finishNow h₁) (.finishNow h₁))

theorem Goes.execNvmeSetFeatures {cmd : Nat} (h : Keeps s t) : Goes s (execNvmeSetFeatures cmd t) := by
  unfold Machine.execNvmeSetFeatures
  split
  · exact .next h
  · exact .ite (.next <| .finishCmd h) (.ite (.next <| .finishCmd h) (.ite (.ite (.next <| .finishCmd h) (.ite (.next h)
      (.next <| .setCtrl <| .setCmd h))) (.ite (.ite (.next <| .finishCmd h) (.ite (.next <| .finishCmd h) (.next <|
      .finishCmd h))) (.ite (.next <| .finishCmd <| .setCtrl h) (.next <| .finishCmd h)))))

theorem Goes.execNvmeGetFeatures {cmd : Nat} (h : Keeps s t) : Goes s (execNvmeGetFeatures cmd t) := by
  unfold Machine.execNvmeGetFeatures
  exact .next <| .runAdmin (fun _ _ h₁ => .ite_fst h₁ (.ite_fst h₁ (.ite_fst h₁ h₁))) h

theorem Goes.execNvmeAsyncEventRequest {cmd : Nat} (h : Keeps s t) : Goes s (execNvmeAsyncEventRequest cmd t) := by
  unfold Machine.execNvmeAsyncEventRequest
  split
  · exact .next h
  · exact .ite (.next <| .finishCmd h) (.next <| .setCtrl <| .setCmd h)

theorem Goes.execNvmeUnsupportedOpcode {cmd : Nat} (h : Keeps s t) : Goes s (execNvmeUnsupportedOpcode cmd t) := by
  unfold Machine.execNvmeUnsupportedOpcode
  split
  · exact .next h
  · exact .ite (.next <| .finishCmd h) (.next h)

theorem Goes.execPowerStateEntryEnd {ctrl : Nat} (h : Keeps s t) : Goes s (execPowerStateEntryEnd ctrl t) := by
  unfold Machine.execPowerStateEntryEnd
  split
  · exact .next h
  · split
    · exact .next h
    · split
      · exact .next h
      · exact .ite (.next h) (.next <| .ite (.finishNow <| .setCtrl h) (.postHeld <| .finishNow <| .setCtrl h))

theorem Goes.execPowerStateExitEnd {ctrl : Nat} (h : Keeps s t) : Goes s (execPowerStateExitEnd ctrl t) := by
  unfold Machine.execPowerStateExitEnd
  split
  · exact .next h
  · exact .ite (.next <| .postHeld <| .setCtrl h) (.next h)

theorem Goes.execInterruptCoalescingExpiry {ctrl queue : Nat} (h : Keeps s t) :
    Goes s (execInterruptCoalescingExpiry ctrl queue t) := by
  unfold Machine.execInterruptCoalescingExpiry
  split
  · exact .next h
  · split
    · exact .next h
    · exact .ite (.next h) (.next <| .sendVector <| .setCtrl h)

theorem Keeps.trapM {t' cause tval : Nat} (h : Keeps s t) : Keeps s (trapM t' cause tval t) := by
  unfold Machine.trapM
  exact .wr <| .setThread h

theorem Keeps.trapS {t' cause tval : Nat} (h : Keeps s t) : Keeps s (trapS t' cause tval t) := by
  unfold Machine.trapS
  exact .wr <| .setThread h

theorem Keeps.trap {t' cause tval : Nat} (h : Keeps s t) : Keeps s (trap t' cause tval t) := by
  unfold Machine.trap
  exact .ite (.trapS h) (.trapM h)

theorem Keeps.undeclare {t' : Nat} (h : Keeps s t) : Keeps s (undeclare t' t) := by
  unfold Machine.undeclare
  exact .pnl h

theorem Keeps.finishPn {t' rd : Nat} {v : BitVec 64} (h : Keeps s t) : Keeps s (finishPn t' rd v t) := by
  unfold Machine.finishPn
  exact .emit <| .undeclare <| .wr <| .setThread h

theorem Keeps.runPn {t' rd : Nat} {f : State → BitVec 64 × State} (hf : ∀ {u : State}, Keeps s u → Keeps s (f u).2)
    (h : Keeps s t) :
    Keeps s (runPn t' rd f t) := by
  unfold Machine.runPn
  exact .ite (.finishPn <| hf h) h

theorem Goes.execPnWfe {thread rd : Nat} {value : BitVec 64} (h : Keeps s t) :
    Goes s (execPnWfe thread rd value t) := by
  unfold Machine.execPnWfe
  exact .ite (.ite (.next <| .finishPn <| .clearLatch h) (.next <| .undeclare <| .setThreadState <| .setThread h)) (.next h)

theorem Goes.execWfeWake {thread : Nat} (h : Keeps s t) : Goes s (execWfeWake thread t) := by
  unfold Machine.execWfeWake
  split
  · exact .next h
  · exact .ite (.next <| .finishPn <| .clearLatch <| .setThreadState <| .setThread h) (.next h)

theorem Goes.execPnEvsend {thread : Nat} {value : BitVec 64} (h : Keeps s t) :
    Goes s (execPnEvsend thread value t) := by
  unfold Machine.execPnEvsend
  exact .next <| .runPn (fun h₁ => .snd <| .setLatch h₁) h

theorem Goes.execPnGrsv {thread rd : Nat} {value : BitVec 64} (h : Keeps s t) :
    Goes s (execPnGrsv thread rd value t) := by
  unfold Machine.execPnGrsv
  refine .next <| .runPn (fun h₁ => ?_) h
  dsimp only
  split
  · split
    · exact h₁
    · exact .snd <| .pnl h₁
  · exact h₁

theorem Goes.execPnGseal {thread rd : Nat} {value : BitVec 64} (h : Keeps s t) :
    Goes s (execPnGseal thread rd value t) := by
  unfold Machine.execPnGseal
  refine .next <| .runPn (fun h₁ => ?_) h
  split
  · exact h₁
  · exact .ite_snd (.snd <| .sealSlot h₁) (.ite_snd (.snd <| .pnl h₁) h₁)

theorem Goes.execPnGtake {thread rd : Nat} {value : BitVec 64} (h : Keeps s t) :
    Goes s (execPnGtake thread rd value t) := by
  unfold Machine.execPnGtake
  refine .next <| .runPn (fun h₁ => ?_) h
  dsimp only
  split
  · split
    · exact h₁
    · exact .snd <| .pnl h₁
  · exact h₁

theorem Goes.execPnGfree {thread : Nat} {value : BitVec 64} (h : Keeps s t) :
    Goes s (execPnGfree thread value t) := by
  unfold Machine.execPnGfree
  refine .next <| .runPn (fun h₁ => ?_) h
  split
  · exact h₁
  · split
    · exact h₁
    · exact .ite_snd (.snd <| .freeSlotKey h₁) h₁

theorem Goes.execPnDtime {thread rd : Nat} (h : Keeps s t) : Goes s (execPnDtime thread rd t) :=
  .next <| .runPn (fun h₁ => h₁) h

theorem Goes.execPenlithIllegalInstruction {thread : Nat} {word : BitVec 32} (h : Keeps s t) :
    Goes s (execPenlithIllegalInstruction thread word t) := by
  unfold Machine.execPenlithIllegalInstruction
  exact .ite (.next <| .undeclare <| .trap <| .drawn h) (.next h)

theorem Goes.execThreadTimerExpiry {thread : Nat} (h : Keeps s t) : Goes s (execThreadTimerExpiry thread t) := by
  unfold Machine.execThreadTimerExpiry
  exact .ite (.next <| .setLatch <| .wr h) (.next h)

theorem Keeps.snapshot {k g : Nat} (h : Keeps s t) : Keeps s (snapshot k g t) := by
  unfold Machine.snapshot
  exact .ite h (.setReg <| .wr <| .wr <| .foldl (fun _ h₁ => .wr <| .wr h₁) h)

theorem Goes.execWaitDeadlock {cluster group : Nat} (h : Keeps s t) : Goes s (execWaitDeadlock cluster group t) := by
  unfold Machine.execWaitDeadlock
  split
  · exact .next h
  · exact .ite (.next <| .trapM <| .setThreadState <| .pnl <| .raisePnl <| .snapshot h) (.next h)

theorem Goes.execDeadlockSnapshotClear {cluster : Nat} (h : Keeps s t) :
    Goes s (execDeadlockSnapshotClear cluster t) := by
  unfold Machine.execDeadlockSnapshotClear
  exact .ite (.next <| .wr h) (.next h)

theorem Keeps.cluWrite {a : Nat} {bs : Bytes} (h : Keeps s t) : Keeps s (cluWrite a bs t) := by
  unfold Machine.cluWrite
  exact .pnlMem ((memWf_memWrite · _ _)) h

theorem Goes.execGallerySend {cluster gallery : Nat} (h : Keeps s t) :
    Goes s (execGallerySend cluster gallery t) := by
  unfold Machine.execGallerySend
  refine .ite (.next h) ?_
  split
  · exact .next h
  · exact .ite (.next <| .freeSlotKey <| .count h) (.ite (.next h) (.next <| .enterBench <| .pnl h))

theorem Goes.execGalleryDelivery {cluster : Nat} (h : Keeps s t) : Goes s (execGalleryDelivery cluster t) := by
  unfold Machine.execGalleryDelivery
  refine .ite (.next h) ?_
  split
  · exact .next h
  · split
    · exact .next h
    · split
      · exact .next h
      · exact .next <| .refreshPressure <| .releaseSetts <| .sealSlot <| .cluWrite <| .unhand h

theorem Keeps.refusePnl {k : Nat} (h : Keeps s t) : Keeps s (refusePnl k t) :=
  .raisePnl h

theorem Keeps.galWrite {k g : Nat} {value : BitVec 64} (h : Keeps s t) : Keeps s (galWrite k g value t) := by
  unfold Machine.galWrite
  exact .ite (.ite h (.ite (.refusePnl h) (.wr h))) (.ite (.refusePnl h) (.ite (.galEvent <| .setReg h) (.setReg h)))

theorem Goes.execGalleryEnable {cluster gallery : Nat} {value : BitVec 64} (h : Keeps s t) :
    Goes s (execGalleryEnable cluster gallery value t) := by
  unfold Machine.execGalleryEnable
  exact .ite (.next <| .galWrite h) (.next h)

theorem Keeps.abandonSlots {t' : Nat} {keys : List Nat} (h : Keeps s t) : Keeps s (abandonSlots t' keys t) := by
  unfold Machine.abandonSlots
  exact .foldl (fun _ h₁ => .freeSlotKey <| .pnl <| .cluWrite <| .drawBytes h₁) h

theorem Keeps.startThread {t' : Nat} (h : Keeps s t) : Keeps s (startThread t' t) := by
  unfold Machine.startThread
  exact .ite h (.ite (.refusePnl h) (.setThreadState h))

theorem Keeps.stopThread {t' : Nat} (h : Keeps s t) : Keeps s (stopThread t' t) := by
  unfold Machine.stopThread
  exact .ite (.pnl <| .setThread <| .abandonSlots h) (.setThreadState <| .setThread <| .abandonSlots h)

theorem Keeps.haltThread {t' : Nat} (h : Keeps s t) : Keeps s (haltThread t' t) := by
  unfold Machine.haltThread
  exact .ite h (.ite (.wr h) (.wr <| .setThreadState <| .setThread h))

theorem Keeps.resumeThread {t' : Nat} (h : Keeps s t) : Keeps s (resumeThread t' t) := by
  unfold Machine.resumeThread
  exact .ite (.setLatch <| .setThreadState h) h

theorem Keeps.threadCtrl {t' op : Nat} (h : Keeps s t) : Keeps s (threadCtrl t' op t) := by
  unfold Machine.threadCtrl
  split
  · exact .startThread h
  · exact .stopThread h
  · exact .haltThread h
  · exact .resumeThread h
  · exact .setLatch h
  · exact h

theorem Keeps.onThread {t' op : Nat} (h : Keeps s t) : Keeps s (onThread t' op t) := by
  unfold Machine.onThread
  exact .ite (.threadCtrl h) h

theorem Goes.execThreadStart {thread : Nat} (h : Keeps s t) : Goes s (execThreadStart thread t) :=
  .next <| .onThread h

theorem Goes.execThreadStop {thread : Nat} (h : Keeps s t) : Goes s (execThreadStop thread t) :=
  .next <| .onThread h

theorem Goes.execThreadHalt {thread : Nat} (h : Keeps s t) : Goes s (execThreadHalt thread t) :=
  .next <| .onThread h

theorem Goes.execThreadResume {thread : Nat} (h : Keeps s t) : Goes s (execThreadResume thread t) :=
  .next <| .onThread h

theorem Goes.execThreadKick {thread : Nat} (h : Keeps s t) : Goes s (execThreadKick thread t) :=
  .next <| .onThread h

theorem Keeps.galAbandon {k t' g : Nat} (h : Keeps s t) : Keeps s (galAbandon k t' g t) := by
  unfold Machine.galAbandon
  exact .ite (.raisePnl <| .wr <| .abandonSlots h) (.wr h)

theorem Goes.execGalleryAbandon {cluster thread gallery : Nat} (h : Keeps s t) :
    Goes s (execGalleryAbandon cluster thread gallery t) := by
  unfold Machine.execGalleryAbandon
  exact .ite (.next <| .galAbandon h) (.next h)

theorem Keeps.stopForMove {t' : Nat} (h : Keeps s t) : Keeps s (stopForMove t' t) := by
  unfold Machine.stopForMove
  exact .ite (.setThreadState h) h

theorem Keeps.swapContexts {t' u : Nat} (h : Keeps s t) : Keeps s (swapContexts t' u t) := by
  unfold Machine.swapContexts
  exact .wr <| .wr <| .wr <| .wr h

theorem Keeps.migrate {k t' u : Nat} (h : Keeps s t) : Keeps s (migrate k t' u t) := by
  unfold Machine.migrate
  exact .ite (.wr h) (.stopForMove <| .stopForMove <| .wr <| .wr <| .pnl h)

theorem Goes.execThreadMigrate {cluster t' u : Nat} (h : Keeps s t) : Goes s (execThreadMigrate cluster t' u t) := by
  unfold Machine.execThreadMigrate
  exact .ite (.next <| .migrate h) (.next h)

theorem Keeps.endMoveOf {t' st : Nat} (h : Keeps s t) : Keeps s (endMoveOf t' st t) := by
  unfold Machine.endMoveOf
  exact .ite (.setThreadState h) h

theorem Goes.execMigrateDone {cluster : Nat} (h : Keeps s t) : Goes s (execMigrateDone cluster t) := by
  unfold Machine.execMigrateDone
  split
  · exact .next h
  · exact .next <| .raisePnl <| .wr <| .pnl <| .endMoveOf <| .endMoveOf <| .swapContexts h

theorem Keeps.clusterCfgWrite {k : Nat} {value : BitVec 64} (h : Keeps s t) :
    Keeps s (clusterCfgWrite k value t) := by
  unfold Machine.clusterCfgWrite
  exact .ite (.refusePnl h) (.plainWrite h)

theorem Goes.execClusterFreqWrite {cluster : Nat} {value : BitVec 32} (h : Keeps s t) :
    Goes s (execClusterFreqWrite cluster value t) := by
  unfold Machine.execClusterFreqWrite
  exact .ite (.next <| .clusterCfgWrite h) (.next h)

theorem Keeps.moveOff {core t' : Nat} {x : Bool × State} (h : Keeps s x.2) : Keeps s (moveOff core t' x).2 := by
  unfold Machine.moveOff
  split
  · exact h.swapContexts
  · exact h.stopThread

theorem Goes.execCoreFault {core : Nat} (h : Keeps s t) : Goes s (execCoreFault core t) := by
  unfold Machine.execCoreFault
  exact .ite (.next h) (.next <| .ite (.beyondModel <| .logFault <| .count <| .health <| .foldl_snd
      (fun _ h₁ => .moveOff h₁) h) (.updateHealth <| .logFault <| .count <| .health <| .foldl_snd
      (fun _ h₁ => .moveOff h₁) h))

theorem Keeps.claimCairn {k t' : Nat} (h : Keeps s t) : Keeps s (claimCairn k t' t).2 := by
  unfold Machine.claimCairn
  split
  · exact h
  · exact .snd <| .cairns (tblWf_tblPut _) h

theorem Keeps.completeCairn {k n : Nat} (h : Keeps s t) : Keeps s (completeCairn k n t) := by
  unfold Machine.completeCairn
  split
  · exact h
  · exact .ite (.cairns (tblWf_tblPut _) h) h

theorem Goes.execCairnComplete {cluster source : Nat} (h : Keeps s t) :
    Goes s (execCairnComplete cluster source t) := by
  unfold Machine.execCairnComplete
  exact .ite (.next <| .completeCairn h) (.next h)

theorem Keeps.raiseCairn {k n : Nat} (h : Keeps s t) : Keeps s (raiseCairn k n t) := by
  unfold Machine.raiseCairn
  exact .ite (.cairnEventIn h) h

theorem Goes.execCairnRaise {cluster source : Nat} (h : Keeps s t) : Goes s (execCairnRaise cluster source t) := by
  unfold Machine.execCairnRaise
  exact .ite (.next <| .raiseCairn h) (.next h)

/-- What an outcome leaves is its next state. -/
theorem Keeps.nextOr {o : Host.Outcome State Fault Refusal} (ho : Goes s o) : Keeps s (nextOr t o) := by
  obtain ⟨u, rfl, hu⟩ := ho
  exact hu

theorem Keeps.holdTransfer {t' : Transfer} (h : Keeps s t) : Keeps s (holdTransfer t' t) := by
  unfold Machine.holdTransfer
  exact .grt h

theorem Keeps.dropTransfer {t' : Transfer} (h : Keeps s t) : Keeps s (dropTransfer t' t) := by
  unfold Machine.dropTransfer
  exact .grt h

theorem Keeps.applyTransfer {t' : Transfer} (h : Keeps s t) : Keeps s (applyTransfer t' t) := by
  unfold Machine.applyTransfer
  exact .emit <| .grt h

theorem Keeps.receiveTransfer {t' : Transfer} {acked : Bool} (h : Keeps s t) :
    Keeps s (receiveTransfer t' acked t) := by
  unfold Machine.receiveTransfer
  exact .ite (.ite (.dropTransfer h) h) (.ite (.ite (.dropTransfer <| .applyTransfer h) (.applyTransfer h)) h)

theorem Keeps.cutOff {node : Nat} (h : Keeps s t) : Keeps s (cutOff node t) := by
  unfold Machine.cutOff
  exact .ite (.benchFault h) (.ite (.foldl (fun _ h₁ => .nextOr <| .execCoreFault h₁) h) (.breakNode h))

theorem Keeps.toReserve {link : Nat} (h : Keeps s t) : Keeps s (toReserve link t) := by
  unfold Machine.toReserve
  exact .spareConsumed <| .logFault <| .foldl (fun _ h₁ => .receiveTransfer h₁) <| .raise <| .wr <| .grt h

theorem Keeps.loseLink {link : Nat} {cut : List Nat} (h : Keeps s t) : Keeps s (loseLink link cut t) := by
  unfold Machine.loseLink
  exact .beyondModel <| .breakWhere <| .foldl (fun _ h₁ => .cutOff h₁) <| .logFault <| .raise <| .wr <| .wr <| .grt h

theorem Keeps.linkFail {link : Nat} {cut : List Nat} (h : Keeps s t) : Keeps s (linkFail link cut t) := by
  unfold Machine.linkFail
  split
  · exact .toReserve h
  · exact .loseLink h
  · exact h

theorem Goes.execGrtTransferReceive {link src dst : Nat} {seq : BitVec 8} {beats : List Beat} {course : Course}
    {cut : List Nat} (h : Keeps s t) :
    Goes s (execGrtTransferReceive link src dst seq beats course cut t) := by
  unfold Machine.execGrtTransferReceive
  exact .ite (.next h) (.ite (.next <| .holdTransfer h) (.ite (.next <| .receiveTransfer <| .holdTransfer h) (.ite
      (.next <| .receiveTransfer <| .count <| .holdTransfer h) (.next <| .linkFail <| .count <| .holdTransfer h))))

theorem Goes.execGrtAckTimeout {link : Nat} {cut : List Nat} (h : Keeps s t) :
    Goes s (execGrtAckTimeout link cut t) :=
  .next <| .linkFail h

theorem Keeps.postNotice (h : Keeps s t) : Keeps s (postNotice t) := by
  unfold Machine.postNotice
  exact .ite (.notifyAll <| .cairnEvent <| .foldl (fun _ h₁ => .sendVector h₁) <| .boot <| .setReg <| .setReg <|
      .setReg <| .setReg <| .setReg <| .setReg <| .setReg h) (.cairnEvent <| .foldl (fun _ h₁ => .sendVector h₁) <|
      .boot <| .setReg <| .setReg <| .setReg <| .setReg <| .setReg <| .setReg <| .setReg h)

theorem Keeps.setBootState {st : Nat} (h : Keeps s t) : Keeps s (setBootState st t) := by
  unfold Machine.setBootState
  exact .ite h (.platformEvent <| .updateHealth <| .postNotice <| .wr h)

theorem Keeps.setStrikes {n : Nat} (h : Keeps s t) : Keeps s (setStrikes n t) := by
  unfold Machine.setStrikes
  exact .ite h (.postNotice <| .wr h)

theorem Keeps.setCause {code cls ra rb : Nat} (h : Keeps s t) : Keeps s (setCause code cls ra rb t) := by
  unfold Machine.setCause
  exact .ite h (.updateHealth <| .postNotice <| .setReg h)

theorem Keeps.saveRecord (h : Keeps s t) : Keeps s (saveRecord t) := by
  unfold Machine.saveRecord
  exact .ite h (.emit <| .emit <| .boot h)

theorem Keeps.setCopy {c dev st : Nat} (h : Keeps s t) : Keeps s (setCopy c dev st t) := by
  unfold Machine.setCopy
  exact .wr <| .boot h

theorem Keeps.setLoad {c : Nat} {x : Load} (h : Keeps s t) : Keeps s (t.setLoad c x) := by
  unfold State.setLoad
  exact .boot h

theorem Keeps.releaseNode {n : Nat} (h : Keeps s t) : Keeps s (releaseNode t n) := by
  unfold Machine.releaseNode
  exact .ite (.reseedBench <| .setIsland <| .drawn h) (.setIsland <| .drawn h)

theorem Keeps.releaseNodes {l : List Nat} (h : Keeps s t) : Keeps s (releaseNodes l t) :=
  .foldl (fun _ h₁ => .releaseNode h₁) h

theorem Keeps.startSurveyor (h : Keeps s t) : Keeps s (startSurveyor t) := by
  unfold Machine.startSurveyor
  exact .wr <| .cipher <| .releaseNodes h

theorem Keeps.discardPort {p : Nat} (h : Keeps s t) : Keeps s (discardPort p t) := by
  unfold Machine.discardPort
  refine .refreshPressure <| .foldl (fun _ h₁ => ?_) <| .pipe_swc h
  split
  · exact .endTx h₁
  · exact h₁

theorem Keeps.discardDatapath {node : Nat} (h : Keeps s t) : Keeps s (discardDatapath node t) := by
  unfold Machine.discardDatapath
  exact .ite (.discardPort h) (.ite (.sto h) (.ite (.foldl (fun _ h₁ => .setFunc h₁) h) (.ite (.benchReset h) (.ite
      (.cipher h) (.ite (.forgetSamples h) h)))))

theorem Keeps.resetNodes {l : List Nat} (h : Keeps s t) : Keeps s (resetNodes l t) :=
  .foldl (fun _ h₁ => .discardDatapath <| .releaseGrants <| .setIsland h₁) h

theorem Keeps.stopClusters (h : Keeps s t) : Keeps s (stopClusters t) := by
  unfold Machine.stopClusters
  exact .boot <| .wr <| .foldl (fun _ h₁ => .ite h₁ (.stopThread h₁)) h

theorem Keeps.startCopy {c dev : Nat} {tried : List Nat} (h : Keeps s t) : Keeps s (startCopy c dev tried t) := by
  unfold Machine.startCopy
  exact .wr <| .wr <| .setLoad <| .ite (.saveRecord <| .setCopy h) h

theorem Keeps.tryCopies {c : Nat} {devs tried : List Nat} (h : Keeps s t) : Keeps s (tryCopies c devs tried t).2 := by
  induction devs generalizing tried t with
  | nil => exact h
  | cons dev rest ih =>
    unfold Machine.tryCopies
    split
    · exact ih h.wr
    · exact h.startCopy

theorem Keeps.loadClass {c : Nat} (h : Keeps s t) : Keeps s (loadClass c t).2 :=
  .tryCopies h

theorem Keeps.loadOrWait {c : Nat} (h : Keeps s t) : Keeps s (loadOrWait c t) := by
  unfold Machine.loadOrWait
  split
  · rename_i e
    exact .ite (.of_snd e <| .loadClass h) (.boot <| .wr <| .of_snd e <| .loadClass h)

theorem Keeps.loadNext (h : Keeps s t) : Keeps s (loadNext t) := by
  unfold Machine.loadNext
  exact .ite h (.ite (.loadOrWait <| .ite (.loadOrWait <| .ite (.loadOrWait <| .ite (.loadOrWait h) h) (.ite
      (.loadOrWait h) h)) (.ite (.loadOrWait <| .ite (.loadOrWait h) h) (.ite (.loadOrWait h) h))) (.ite (.loadOrWait <|
      .ite (.loadOrWait <| .ite (.loadOrWait h) h) (.ite (.loadOrWait h) h)) (.ite (.loadOrWait <| .ite (.loadOrWait h) h)
      (.ite (.loadOrWait h) h))))

theorem Keeps.putStations {l : List (BitVec 32)} (h : Keeps s t) : Keeps s (putStations l t) :=
  .foldl (fun _ h₁ => .setReg h₁) h

theorem Keeps.takeStations (h : Keeps s t) : Keeps s (takeStations t) := by
  unfold Machine.takeStations
  exact .releaseNodes <| .boot <| .ite (.putStations h) (.putStations h)

theorem Keeps.takeRecords (h : Keeps s t) : Keeps s (takeRecords t) := by
  unfold Machine.takeRecords
  exact .mgmt <| .flagCages <| .foldl (fun _ h₁ => .setReg h₁) <| .takeStations h

theorem Keeps.finishAdvance (h : Keeps s t) : Keeps s (finishAdvance t) := by
  unfold Machine.finishAdvance
  exact .ite (.cipher_boot h) h

theorem Keeps.rejectTrials (h : Keeps s t) : Keeps s (rejectTrials t) := by
  unfold Machine.rejectTrials
  exact .ite h (.saveRecord <| .foldl (fun _ h₁ => .setCopy h₁) h)

theorem Keeps.showCopies (h : Keeps s t) : Keeps s (showCopies t) :=
  .foldl (fun _ h₁ => .wr h₁) h

theorem memWf_nil : memWf [] = true := rfl

/-- A reset empties every table the canonical form names. -/
theorem Keeps.afterReset (h : Keeps s t) : Keeps s (afterReset t) :=
  ⟨h.pending, fun _ => by
    refine ⟨⟨rfl, by simp [Machine.afterReset, State.reset]⟩, ⟨rfl, rfl, rfl⟩, ⟨rfl, rfl, rfl, rfl, rfl⟩, ?_⟩
    exact ⟨rfl, rfl, rfl, rfl, rfl, rfl, rfl⟩⟩

/-- A failed start keeps the registers it names, the ports, functions and vectors, and empties the rest. -/
theorem Keeps.afterFailedStart (h : Keeps s t) : Keeps s (afterFailedStart t) := by
  refine Keeps.wr ⟨h.pending, fun w => ?_⟩
  obtain ⟨hr, -, ⟨-, -, hp, hf, hv⟩, -⟩ := h.wf w
  exact ⟨regsWf_filter _ hr, ⟨rfl, rfl, rfl⟩, ⟨rfl, rfl, hp, hf, hv⟩, rfl, rfl, rfl, rfl, rfl, rfl, rfl⟩

theorem Keeps.enterMinimal {code cls ra rb : Nat} (h : Keeps s t) : Keeps s (enterMinimal code cls ra rb t) := by
  unfold Machine.enterMinimal
  exact .foldl (fun _ h₁ => .foldl (fun _ h₂ => .sampleFunc h₂) h₁) <| .ite (.takeStations <| .setBootState <|
      .setCause h) (.setBootState <| .setCause h)

theorem Keeps.bootRun {n : Nat} (h : Keeps s t) : Keeps s (bootRun n t) := by
  induction n generalizing t with
  | zero => exact h
  | succ n ih =>
    have fail {code ra rb : Nat} {v : State} (hv : Keeps s v) : Keeps s (if 2 ≤ t.rd SVY_BOOT_STATUS_STRIKES
        then Machine.enterMinimal code 0 ra rb (Machine.setStrikes 3 v)
        else Machine.bootRun n (Machine.setStrikes (t.rd SVY_BOOT_STATUS_STRIKES + 1) (Machine.afterFailedStart v))) :=
      hv.setStrikes.enterMinimal.ite (ih hv.afterFailedStart.setStrikes)
    have hstart : Keeps s (Machine.setBootState 1 (Machine.startSurveyor t)) := h.startSurveyor.setBootState
    refine .ite (fail hstart) <| .ite (fail hstart) ?_
    have hload : Keeps s (Machine.loadClass 0 (Machine.rejectTrials (Machine.showCopies (Machine.takeRecords
        (Machine.finishAdvance ((Machine.setBootState 1 (Machine.startSurveyor t)).wr SVY_COMMIT_CFG_HOURS
          (Machine.setBootState 1 (Machine.startSurveyor t)).boot.hours)))))).2 :=
      .loadClass <| .rejectTrials <| .showCopies <| .takeRecords <| .finishAdvance <| .wr hstart
    exact .ite hload (fail (.wr hload))

theorem Keeps.startFails {code cls : Nat} (h : Keeps s t) : Keeps s (startFails code cls t) := by
  unfold Machine.startFails
  exact .ite (.setCause h) (.ite (.enterMinimal <| .setStrikes h) (.bootRun <| .setStrikes <| .afterFailedStart h))

theorem Keeps.classFails {c : Nat} (h : Keeps s t) : Keeps s (classFails c t) := by
  unfold Machine.classFails
  exact .ite (.loadNext <| .wr <| .boot h) (.startFails <| .wr <| .boot h)

theorem Keeps.resetClass {c : Nat} (h : Keeps s t) : Keeps s (resetClass c t) := by
  unfold Machine.resetClass
  exact .resetNodes <| .ite (.stopClusters h) h

theorem Keeps.attemptFails {c reason : Nat} (h : Keeps s t) : Keeps s (attemptFails c reason t) := by
  unfold Machine.attemptFails
  split
  · exact h
  · exact .ite (.tryCopies <| .resetClass <| .wr h) (.classFails <| .tryCopies <| .resetClass <| .wr h)

theorem Keeps.deviceReset {strikes : Nat} {tripped force : Bool} (h : Keeps s t) :
    Keeps s (deviceReset strikes tripped force t) := by
  unfold Machine.deviceReset
  exact .ite (.enterMinimal <| .startSurveyor <| .ite (.showCopies <| .takeRecords <| .finishAdvance <| .wr <| .wr <|
      .afterReset h) (.wr <| .wr <| .afterReset h)) (.bootRun <| .wr <| .wr <| .afterReset h)

theorem Goes.execPowerOnReset {found : BootFound} (h : Keeps s t) : Goes s (execPowerOnReset found t) := by
  unfold Machine.execPowerOnReset
  exact .next <| .deviceReset <| .emit <| .emit <| .boot h

theorem Keeps.failInstall (h : Keeps s t) : Keeps s (failInstall t) := by
  unfold Machine.failInstall
  exact .ite (.setCopy h) (.setCopy <| .setCopy h)

theorem Goes.execSysReset (h : Keeps s t) : Goes s (execSysReset t) := by
  unfold Machine.execSysReset
  exact .ite (.next h) (.next <| .deviceReset <| .emit <| .ite (.saveRecord <| .failInstall h) h)

theorem Keeps.startUnits {c entry : Nat} (h : Keeps s t) : Keeps s (startUnits c entry t) := by
  unfold Machine.startUnits
  exact .ite h (.foldl (fun _ h₁ => .setThreadState <| .wr h₁) <| .releaseNodes <| .wr h)

theorem Goes.execImageChunkWritten {cls : Nat} {ok : Bool} (h : Keeps s t) :
    Goes s (execImageChunkWritten cls ok t) := by
  unfold Machine.execImageChunkWritten
  split
  · exact .next h
  · exact .ite (.next h) (.ite (.next <| .attemptFails h) (.next <| .ite (.startUnits <| .setLoad h) (.setLoad h)))

theorem Keeps.benchUp {k : Nat} (h : Keeps s t) : Keeps s (benchUp k t) := by
  unfold Machine.benchUp
  exact .ite h (.ite (.setBench h) (.activateBench h))

theorem Keeps.applyPermanent {p : Permanent} (h : Keeps s t) : Keeps s (applyPermanent p t) := by
  unfold Machine.applyPermanent
  split
  · exact .linkFail h
  · exact .linkFail h
  · exact .benchFault h
  · exact .nextOr <| .execBankGroupFault h
  · exact .nextOr <| .execCoreFault h
  · exact .updateHealth <| .logFault <| .wr h

theorem Keeps.serveStorage (h : Keeps s t) : Keeps s (serveStorage t) := by
  unfold Machine.serveStorage
  exact .ite (.wr h) h

theorem Keeps.stepSeven (h : Keeps s t) : Keeps s (stepSeven t) := by
  unfold Machine.stepSeven
  exact .ite h (.serveStorage <| .wr <| .foldl (fun _ h₁ => .applyPermanent h₁) <| .health <| .foldl
      (fun _ h₁ => .benchUp h₁) h)

theorem Keeps.privilegedReady (h : Keeps s t) : Keeps s (privilegedReady t) := by
  unfold Machine.privilegedReady
  exact .ite h (.loadNext <| .ite (.foldl (fun _ h₁ => .foldl (fun _ h₂ => .sampleFunc h₂) h₁) <| .wr <| .releaseNodes <|
      .setBootState <| .setCause <| .setStrikes h) (.wr <| .releaseNodes <| .setBootState <| .setCause <| .setStrikes h))

theorem Keeps.fullService (h : Keeps s t) : Keeps s (fullService t) := by
  unfold Machine.fullService
  exact .ite (.setBootState <| .wr h) h

theorem Goes.execUnitReady {cls unit : Nat} {ok : Bool} (h : Keeps s t) : Goes s (execUnitReady cls unit ok t) := by
  unfold Machine.execUnitReady
  split
  · exact .next h
  · refine .ite (.next h) (.ite (.next <| .ite (.surveyRec <| .setLoad h) (.setLoad h)) (.ite (.ite ?_ (.next <| .ite
      (.privilegedReady <| .ite (.surveyRec <| .setLoad h) (.setLoad h)) (.ite (.surveyRec <| .setLoad h) (.setLoad h))))
      (.ite (.next <| .ite (.privilegedReady <| .ite (.surveyRec <| .setLoad h) (.setLoad h)) (.ite (.surveyRec <|
      .setLoad h) (.setLoad h))) (.next <| .fullService <| .stepSeven <| .loadNext <| .ite (.surveyRec <| .setLoad h)
      (.setLoad h)))))
    split
    · rename_i e₁
      exact .next <| .ite (.of_snd e₁ <| .loadClass <| .ite (.surveyRec <| .setLoad h) (.setLoad h)) (.classFails <|
          .of_snd e₁ <| .loadClass <| .ite (.surveyRec <| .setLoad h) (.setLoad h))

theorem Goes.execUnitReadyTimeout {cls unit : Nat} (h : Keeps s t) : Goes s (execUnitReadyTimeout cls unit t) := by
  unfold Machine.execUnitReadyTimeout
  split
  · exact .next h
  · exact .ite (.next h) (.next <| .attemptFails <| .ite (.surveyRec h) (.ite (.surveyRec h) h))

theorem Goes.execHoldRegionWriteFault {cls : Nat} {who : Party} {addr : Nat} (h : Keeps s t) :
    Goes s (execHoldRegionWriteFault cls who addr t) := by
  unfold Machine.execHoldRegionWriteFault
  split
  · exact .next h
  · exact .ite (.next h) (.next <| .attemptFails <| .protEvent <| .wr h)

theorem Goes.execMinimalRetry (h : Keeps s t) : Goes s (execMinimalRetry t) := by
  unfold Machine.execMinimalRetry
  refine .ite (.next h) ?_
  split
  · exact .next h
  · split
    · rename_i e₁
      exact .next <| .ite (.of_snd e₁ <| .loadClass h) (.classFails <| .of_snd e₁ <| .loadClass h)

theorem Keeps.commitClass {c : Nat} (h : Keeps s t) : Keeps s (commitClass c t) := by
  unfold Machine.commitClass
  split
  · exact .wr h
  · exact .ite (.boot <| .saveRecord <| .setCopy h) (.wr h)

theorem Goes.execSvyCommit {cls : Nat} (h : Keeps s t) : Goes s (execSvyCommit cls t) :=
  .next <| .commitClass h

theorem Keeps.addRunTime {c since : Nat} (h : Keeps s t) : Keeps s (addRunTime c since t) := by
  unfold Machine.addRunTime
  exact .ite (.boot h) (.boot h)

theorem Goes.execCommitTimeUpdate (h : Keeps s t) : Goes s (execCommitTimeUpdate t) := by
  unfold Machine.execCommitTimeUpdate
  exact .ite (.next h) (.next <| .saveRecord <| .foldl (fun _ h₁ => .addRunTime h₁) h)

theorem Keeps.dpDeny (h : Keeps s t) : Keeps s (dpDeny t) :=
  .wr h

theorem Keeps.endPackage {result : Nat} (h : Keeps s t) : Keeps s (endPackage result t) := by
  unfold Machine.endPackage
  exact .postNotice <| .boot <| .wr <| .wr h

theorem Keeps.checkPackage {len : Nat} (h : Keeps s t) : Keeps s (checkPackage len t) := by
  unfold Machine.checkPackage
  exact .ite (.boot <| .wr h) (.endPackage <| .wr h)

theorem Keeps.submitPackage {who : Party} (h : Keeps s t) : Keeps s (submitPackage who t) := by
  unfold Machine.submitPackage
  exact .ite (.dpDeny h) (.ite h (.checkPackage h))

theorem Keeps.writeCopy {c dev st : Nat} {h' : Bytes} (h : Keeps s t) : Keeps s (writeCopy c dev st h' t) := by
  unfold Machine.writeCopy
  exact .boot <| .emit <| .setCopy h

theorem Keeps.installImage (h : Keeps s t) : Keeps s (installImage t) := by
  unfold Machine.installImage
  refine .ite (.saveRecord <| .writeCopy h) (.ite (.boot <| .wr <| .resetClass <| .saveRecord <| .writeCopy <|
      .writeCopy h) ?_)
  split
  · rename_i e
    exact .ite (.of_snd e <| .loadClass <| .resetClass <| .saveRecord <| .writeCopy <| .writeCopy h) (.classFails <|
        .of_snd e <| .loadClass <| .resetClass <| .saveRecord <| .writeCopy <| .writeCopy h)

theorem Goes.execImagePackageInstall {ok : Bool} (h : Keeps s t) : Goes s (execImagePackageInstall ok t) := by
  unfold Machine.execImagePackageInstall
  exact .ite (.next h) (.next <| .endPackage <| .ite (.installImage h) (.failInstall h))

theorem Goes.execEpochAdvance {ok : Bool} (h : Keeps s t) : Goes s (execEpochAdvance ok t) := by
  unfold Machine.execEpochAdvance
  exact .ite (.next h) (.ite (.next <| .endPackage h) (.next <| .endPackage <| .wr <| .cipher_boot <| .foldl
      (fun _ h₁ => .saveRecord h₁) h))

theorem Goes.execOwnerSlotRevoke (h : Keeps s t) : Goes s (execOwnerSlotRevoke t) := by
  unfold Machine.execOwnerSlotRevoke
  exact .ite (.next h) (.next <| .endPackage <| .boot h)

theorem Goes.execNoticeAck (h : Keeps s t) : Goes s (execNoticeAck t) := by
  unfold Machine.execNoticeAck
  exact .next <| .boot h

theorem Goes.execHbmRowRepair {channel bank row : Nat} (h : Keeps s t) :
    Goes s (execHbmRowRepair channel bank row t) := by
  unfold Machine.execHbmRowRepair
  exact .ite (.next h) (.next <| .updateHealth <| .raise <| .logFault <| .ite (.wr <| .health h) (.health h))

theorem Goes.execUncorrectableError {channel : Option Nat} {lines : List Nat} (h : Keeps s t) :
    Goes s (execUncorrectableError channel lines t) := by
  unfold Machine.execUncorrectableError
  exact .next <| .beyondModel <| .breakWhere <| .logFault <| .health h

theorem Goes.execMemoryScrub {corrected : Nat} (h : Keeps s t) : Goes s (execMemoryScrub corrected t) := by
  unfold Machine.execMemoryScrub
  exact .next <| .health h

theorem Keeps.dropUpdate (h : Keeps s t) : Keeps s (dropUpdate t) := by
  unfold Machine.dropUpdate
  exact .ite (.wr <| .mgmt h) h

theorem Keeps.restartSurveyor (h : Keeps s t) : Keeps s (restartSurveyor t) := by
  unfold Machine.restartSurveyor
  dsimp only
  exact .ite (.loadClass <| .wr <| .wr <| .dropUpdate <| .health h) (.classFails <| .loadClass <| .wr <| .wr <|
      .dropUpdate <| .health h)

theorem Goes.execLockstepMismatch (h : Keeps s t) : Goes s (execLockstepMismatch t) := by
  unfold Machine.execLockstepMismatch
  exact .ite (.next <| .ite (.ite (.beyondModel <| .logFault <| .health h) (.logFault <| .health h)) (.restartSurveyor <|
      .ite (.beyondModel <| .logFault <| .health h) (.logFault <| .health h))) (.ite (.next <| .startFails <| .logFault h)
      (.next h))

theorem Goes.execSurveyorRestartDone (h : Keeps s t) : Goes s (execSurveyorRestartDone t) := by
  unfold Machine.execSurveyorRestartDone
  exact .ite (.next <| .saveRecord <| .wr <| .wr <| .health h) (.next h)

theorem Goes.execHealthCoalExpiry {port : Nat} (h : Keeps s t) : Goes s (execHealthCoalExpiry port t) := by
  unfold Machine.execHealthCoalExpiry
  split
  · exact .next h
  · exact .next <| .ite (.notifyPort <| .health h) (.health h)

theorem Keeps.popProt (h : Keeps s t) : Keeps s (popProt t) := by
  unfold Machine.popProt
  exact .showProt <| .health h

theorem Goes.execProtLogPop (h : Keeps s t) : Goes s (execProtLogPop t) :=
  .next <| .popProt h

theorem Keeps.surveyAdvance {v : Nat} (h : Keeps s t) : Keeps s (surveyAdvance v t) := by
  unfold Machine.surveyAdvance
  exact .wr h

theorem Goes.execSurveyReadAdvance {value : Nat} (h : Keeps s t) : Goes s (execSurveyReadAdvance value t) :=
  .next <| .surveyAdvance h

theorem Keeps.drawReading {r : WearReading} (h : Keeps s t) : Keeps s (drawReading r t) := by
  unfold Machine.drawReading
  split
  · exact .drawn h
  · exact h

theorem Goes.execWearSample {record : Nat} {reading : WearReading} (h : Keeps s t) :
    Goes s (execWearSample record reading t) := by
  unfold Machine.execWearSample
  exact .ite (.next h) (.next <| .ite (.raise <| .drawReading <| .health h) (.drawReading <| .health h))

theorem Goes.execConsumablesSave (h : Keeps s t) : Goes s (execConsumablesSave t) := by
  unfold Machine.execConsumablesSave
  exact .ite (.next h) (.next <| .saveRecord <| .health h)

theorem Goes.healthGate {ring op : Nat} {f : Ring → Entry → State → State × Nat × Body} (hf : ∀ {u : State} (a : Ring)
    (b : Entry), Keeps s u → Keeps s (f a b u).1) (h : Keeps s t) :
    Goes s (healthGate ring op f t) := by
  unfold Machine.healthGate
  exact .ite (.next h) (.next <| .runEntry (fun _ _ h₁ => .ite_fst h₁ (hf _ _ h₁)) h)

theorem Goes.execHltSnapshot {ring : Nat} {permitted : Bool} (h : Keeps s t) :
    Goes s (execHltSnapshot ring permitted t) := by
  unfold Machine.execHltSnapshot
  exact .healthGate (fun _ _ h₁ => .ite_fst h₁ (.ite_fst h₁ (.ite_fst h₁ (.fst <| .sheetWrite h₁)))) h

theorem Goes.execSurveyDrain {ring : Nat} {permitted : Bool} (h : Keeps s t) :
    Goes s (execSurveyDrain ring permitted t) := by
  unfold Machine.execSurveyDrain
  exact .healthGate (fun _ _ h₁ => .ite_fst h₁ (.ite_fst h₁ (.ite_fst h₁ (.fst <| .wr <| .ite h₁ (.sheetWrite h₁))))) h

theorem Keeps.respond {b kind code : Nat} {bs : Bytes} (h : Keeps s t) : Keeps s (respond b kind code bs t) :=
  .sendMctp h

theorem Keeps.notReady {b kind code : Nat} (h : Keeps s t) : Keeps s (notReady b kind code t) := by
  unfold Machine.notReady
  exact .ite (.respond h) (.ite (.respond h) (.ite (.respond h) h))

theorem Goes.serve {b kind code : Nat} {f : State → State} (hf : ∀ {u : State}, Keeps s u → Keeps s (f u)) (h : Keeps s t) :
    Goes s (serve b kind code f t) := by
  unfold Machine.serve
  exact .ite (.next h) (.ite (.next <| hf h) (.next <| .notReady h))

theorem Goes.execMctpNotReady {b kind code : Nat} (h : Keeps s t) : Goes s (execMctpNotReady b kind code t) :=
  .serve (fun hu => hu) h

theorem Goes.execMctpMessageDiscard (h : Keeps s t) : Goes s (execMctpMessageDiscard t) :=
  .next h

theorem Keeps.setEid {b eid : Nat} (h : Keeps s t) : Keeps s (setEid b eid t) := by
  unfold Machine.setEid
  exact .ite (.wr h) (.ite (.wr h) (.mgmt h))

theorem Keeps.mctpControl {b cmd op eid : Nat} (h : Keeps s t) : Keeps s (mctpControl b cmd op eid t) := by
  unfold Machine.mctpControl
  split
  · exact .ite (.respond <| .setEid h) (.respond h)
  · exact .respond h
  · exact .respond h
  · exact .respond h
  · exact .respond h

theorem Goes.execMctpControl {b cmd op eid : Nat} (h : Keeps s t) : Goes s (execMctpControl b cmd op eid t) := by
  unfold Machine.execMctpControl
  exact .next <| .ite (.mctpControl h) h

theorem Goes.execI3cAddressAssign {static : Option Nat} {dynamic : Nat} (h : Keeps s t) :
    Goes s (execI3cAddressAssign static dynamic t) := by
  unfold Machine.execI3cAddressAssign
  split
  · exact .next <| .mgmt h
  · exact .ite (.next <| .mgmt h) (.next h)

theorem Goes.execPldmGetPdr {b handle : Nat} (h : Keeps s t) : Goes s (execPldmGetPdr b handle t) := by
  unfold Machine.execPldmGetPdr
  exact .serve (fun h₁ => .respond h₁) h

theorem Goes.execPldmGetSensorReading {b sensor : Nat} (h : Keeps s t) :
    Goes s (execPldmGetSensorReading b sensor t) := by
  unfold Machine.execPldmGetSensorReading
  refine .serve (fun h₁ => ?_) h
  split <;> exact .respond h₁

theorem Goes.execPldmGetStateSensorReadings {b sensor : Nat} (h : Keeps s t) :
    Goes s (execPldmGetStateSensorReadings b sensor t) := by
  unfold Machine.execPldmGetStateSensorReadings
  refine .serve (fun h₁ => ?_) h
  split <;> exact .respond h₁

theorem Goes.execPldmSetEventReceiver {b eid enable : Nat} (h : Keeps s t) :
    Goes s (execPldmSetEventReceiver b eid enable t) := by
  unfold Machine.execPldmSetEventReceiver
  exact .serve (fun h₁ => .respond <| .mgmt h₁) h

theorem Goes.execPldmEventRetry {sensor : Nat} {acked : Bool} (h : Keeps s t) :
    Goes s (execPldmEventRetry sensor acked t) := by
  unfold Machine.execPldmEventRetry
  split
  · exact .ite (.next <| .mgmt h) (.next <| .mgmt <| .sendMctp h)
  · exact .next h

theorem Keeps.pldmBase {b cmd arg : Nat} (h : Keeps s t) : Keeps s (pldmBase b cmd arg t) := by
  unfold Machine.pldmBase
  split
  · exact .ite (.respond h) (.respond <| .mgmt h)
  · exact .respond h
  · exact .ite (.respond h) (.respond <| .drawn h)
  · exact .respond h
  · exact .ite (.respond h) (.respond h)
  · exact .respond h

theorem Goes.execPldmBaseRequest {b cmd arg : Nat} (h : Keeps s t) : Goes s (execPldmBaseRequest b cmd arg t) :=
  .serve (fun h₁ => .pldmBase h₁) h

theorem Keeps.requestPiece {b off len : Nat} (h : Keeps s t) : Keeps s (requestPiece b off len t) :=
  .respond h

theorem Keeps.touchUpdate (h : Keeps s t) : Keeps s (touchUpdate t) := by
  unfold Machine.touchUpdate
  exact .mgmt h

theorem Goes.execRequestUpdate {b cls len : Nat} (h : Keeps s t) : Goes s (execRequestUpdate b cls len t) := by
  unfold Machine.execRequestUpdate
  exact .serve (fun h₁ => .ite (.respond h₁) (.ite (.respond h₁) (.ite (.respond h₁) (.requestPiece <| .respond <|
      .touchUpdate <| .mgmt_bootStaging (fun _ => rfl) h₁)))) h

theorem Goes.execFirmwareDataReceive {b : Nat} {data : Bytes} (h : Keeps s t) :
    Goes s (execFirmwareDataReceive b data t) := by
  unfold Machine.execFirmwareDataReceive
  refine .serve (fun h₁ => ?_) h
  split
  · exact .respond h₁
  · exact .ite (.respond h₁) (.ite (.requestPiece <| .touchUpdate h₁) (.ite (.respond <| .wr <| .touchUpdate <|
      .mgmt_bootStaging ((memWf_memWrite · _ _)) h₁) (.requestPiece <| .touchUpdate <| .mgmt_bootStaging
      ((memWf_memWrite · _ _)) h₁)))

theorem Keeps.answerCancel (h : Keeps s t) : Keeps s (answerCancel t) := by
  unfold Machine.answerCancel
  split
  · exact h
  · exact .respond <| .mgmt h

theorem Goes.execFirmwareVerifyApply {b : Nat} {ok : Bool} (h : Keeps s t) :
    Goes s (execFirmwareVerifyApply b ok t) := by
  unfold Machine.execFirmwareVerifyApply
  split
  · exact .next h
  · exact .ite (.next h) (.ite (.next <| .answerCancel <| .mgmt <| .endPackage <| .respond h) (.ite (.next <|
      .answerCancel <| .mgmt <| .endPackage <| .respond <| .installImage <| .respond h) (.next <| .answerCancel <|
      .mgmt <| .endPackage <| .respond <| .failInstall <| .respond h)))

theorem Goes.execActivateFirmware {b : Nat} {selfContained : Bool} (h : Keeps s t) :
    Goes s (execActivateFirmware b selfContained t) := by
  unfold Machine.execActivateFirmware
  refine .serve (fun h₁ => ?_) h
  split
  · exact .ite (.respond <| .touchUpdate h₁) (.respond <| .mgmt h₁)
  · exact .respond <| .touchUpdate h₁
  · exact .respond h₁

theorem Goes.execCancelUpdate {b : Nat} (h : Keeps s t) : Goes s (execCancelUpdate b t) := by
  unfold Machine.execCancelUpdate
  refine .serve (fun h₁ => ?_) h
  split
  · exact .respond h₁
  · exact .ite (.mgmt h₁) (.respond <| .mgmt h₁)

theorem Goes.execUpdateIdleTimeout (h : Keeps s t) : Goes s (execUpdateIdleTimeout t) := by
  unfold Machine.execUpdateIdleTimeout
  exact .ite (.next <| .dropUpdate h) (.next h)

theorem Keeps.spdmRespond {b code : Nat} {request body : Bytes} (h : Keeps s t) :
    Keeps s (spdmRespond b code request body t) := by
  unfold Machine.spdmRespond
  exact .respond <| .mgmt h

theorem Keeps.spdmError {b code : Nat} (h : Keeps s t) : Keeps s (spdmError b code t) :=
  .respond h

theorem Keeps.setSpdmStep {b n : Nat} (h : Keeps s t) : Keeps s (setSpdmStep b n t) := by
  unfold Machine.setSpdmStep
  exact .mgmt h

theorem Keeps.spdmNegotiate {b code version : Nat} {offers : Bool} {request : Bytes} (h : Keeps s t) :
    Keeps s (spdmNegotiate b code version offers request t) := by
  unfold Machine.spdmNegotiate
  split
  · exact .spdmRespond <| .setSpdmStep <| .mgmt h
  · exact .ite (.spdmError h) (.ite (.spdmError h) (.spdmRespond <| .drawn <| .setSpdmStep <| .mgmt h))
  · exact .ite (.spdmError h) (.spdmRespond <| .ite (.setSpdmStep h) h)
  · exact .spdmError h

theorem Goes.execSpdmNegotiate {b code version : Nat} {offers : Bool} {request : Bytes} (h : Keeps s t) :
    Goes s (execSpdmNegotiate b code version offers request t) :=
  .serve (fun h₁ => .spdmNegotiate h₁) h

theorem Goes.spdmServe {b code : Nat} {f : State → State} (hf : ∀ {u : State}, Keeps s u → Keeps s (f u)) (h : Keeps s t) :
    Goes s (spdmServe b code f t) := by
  unfold Machine.spdmServe
  exact .serve (fun h₁ => .ite (.spdmError h₁) (hf h₁)) h

theorem Goes.execSpdmGetCertificate {b slot off len : Nat} {request : Bytes} (h : Keeps s t) :
    Goes s (execSpdmGetCertificate b slot off len request t) := by
  unfold Machine.execSpdmGetCertificate
  exact .spdmServe (fun h₁ => .ite (.spdmError h₁) (.spdmRespond h₁)) h

theorem Goes.execSpdmChallenge {b slot : Nat} {request : Bytes} (h : Keeps s t) :
    Goes s (execSpdmChallenge b slot request t) := by
  unfold Machine.execSpdmChallenge
  exact .spdmServe (fun h₁ => .ite (.spdmError h₁) (.spdmRespond <| .drawn <| .drawn <| .drawn <| .drawn h₁)) h

theorem Goes.execSpdmGetMeasurements {b index : Nat} {signed : Bool} {request : Bytes} (h : Keeps s t) :
    Goes s (execSpdmGetMeasurements b index signed request t) := by
  unfold Machine.execSpdmGetMeasurements
  exact .spdmServe (fun h₁ => .ite (.spdmError h₁) (.spdmRespond <| .drawn <| .drawn <| .drawn <| .drawn h₁)) h

theorem Keeps.dpTouch {who : Party} (h : Keeps s t) : Keeps s (dpTouch who t) := by
  unfold Machine.dpTouch
  exact .ite (.mgmt h) h

theorem Keeps.dpClaim {who : Party} (h : Keeps s t) : Keeps s (dpClaim who t) := by
  unfold Machine.dpClaim
  exact .ite (.dpTouch h) (.dpTouch <| .wr <| .wr h)

theorem Keeps.dpFree (h : Keeps s t) : Keeps s (dpFree t) :=
  .wr <| .wr h

theorem Keeps.dpRelease {who : Party} (h : Keeps s t) : Keeps s (dpRelease who t) := by
  unfold Machine.dpRelease
  exact .ite (.dpFree h) h

theorem Goes.execDpIdleTimeout (h : Keeps s t) : Goes s (execDpIdleTimeout t) := by
  unfold Machine.execDpIdleTimeout
  exact .ite (.next <| .dpFree h) (.next h)

theorem Keeps.dpMark {who : Party} {space a n : Nat} (h : Keeps s t) : Keeps s (dpMark who space a n t) := by
  unfold Machine.dpMark
  exact .ite (.dpDeny <| .ite (.wr h) h) (.ite (.wr h) h)

theorem Keeps.dpAdvance {off n : Nat} (h : Keeps s t) : Keeps s (dpAdvance off n t) := by
  unfold Machine.dpAdvance
  exact .ite (.wr h) h

theorem Keeps.dpRead {who : Party} {off n : Nat} (h : Keeps s t) : Keeps s (dpRead who off n t).2 := by
  unfold Machine.dpRead
  exact .ite_snd h (.ite_snd (.snd <| .dpDeny h) (.snd <| .dpAdvance <| .dpMark <| .dpTouch h))

theorem Keeps.dpWrite {who : Party} {off : Nat} {bs : Bytes} (h : Keeps s t) : Keeps s (dpWrite who off bs t) := by
  unfold Machine.dpWrite
  refine .ite (.dpDeny h) ?_
  dsimp only
  split
  · exact .dpAdvance <| .ite (.dpDeny <| .dpMark <| .dpTouch h) (.ite (.dpMark <| .dpTouch h) (.bootStaging
      ((memWf_memWrite · _ _)) <| .dpMark <| .dpTouch h))
  · exact .dpAdvance <| .mgmt <| .dpMark <| .dpTouch h
  · exact .dpAdvance <| .dpDeny <| .dpMark <| .dpTouch h

theorem Goes.execTheivoDpRead {b off n : Nat} (h : Keeps s t) : Goes s (execTheivoDpRead b off n t) := by
  unfold Machine.execTheivoDpRead
  refine .serve (fun h₁ => ?_) h
  refine .ite (.respond h₁) ?_
  split
  · rename_i e
    exact .respond <| .of_snd e <| .dpRead h₁

theorem Goes.execTheivoDpWrite {b off : Nat} {data : Bytes} (h : Keeps s t) :
    Goes s (execTheivoDpWrite b off data t) := by
  unfold Machine.execTheivoDpWrite
  exact .serve (fun h₁ => .ite (.respond h₁) (.respond <| .dpWrite h₁)) h

theorem Keeps.startDump (h : Keeps s t) : Keeps s (startDump t) :=
  .wr h

theorem Keeps.dpCtrlWrite {who : Party} {v : BitVec 64} (h : Keeps s t) : Keeps s (dpCtrlWrite who v t) := by
  unfold Machine.dpCtrlWrite
  exact .ite (.dpDeny h) (.ite (.startDump <| .plainWrite <| .dpTouch h) (.plainWrite <| .dpTouch h))

theorem Keeps.dpAddrWrite {who : Party} {v : BitVec 64} (h : Keeps s t) : Keeps s (dpAddrWrite who v t) := by
  unfold Machine.dpAddrWrite
  exact .ite (.dpDeny h) (.wr <| .dpTouch h)

theorem Keeps.newNonce (h : Keeps s t) : Keeps s (newNonce t) := by
  unfold Machine.newNonce
  exact .mgmt <| .foldl (fun _ h₁ => .setReg h₁) <| .drawn <| .drawn <| .drawn <| .drawn h

theorem Goes.execDebugNonceNew (h : Keeps s t) : Goes s (execDebugNonceNew t) :=
  .next <| .newNonce h

theorem Keeps.submitToken (h : Keeps s t) : Keeps s (submitToken t) :=
  .wr h

theorem Goes.execDebugTokenSubmit (h : Keeps s t) : Goes s (execDebugTokenSubmit t) :=
  .next <| .submitToken h

theorem Goes.execDebugTokenCheckDone (h : Keeps s t) : Goes s (execDebugTokenCheckDone t) := by
  unfold Machine.execDebugTokenCheckDone
  exact .ite (.next h) (.next <| .ite (.wr <| .mgmt <| .wr <| .wr h) (.wr <| .mgmt <| .wr <| .wr h))

theorem Keeps.lockDebug (h : Keeps s t) : Keeps s (lockDebug t) :=
  .wr h

theorem Goes.execDebugLock (h : Keeps s t) : Goes s (execDebugLock t) :=
  .next <| .lockDebug h

theorem Keeps.dbgCtrlWrite {v : BitVec 64} (h : Keeps s t) : Keeps s (dbgCtrlWrite v t) := by
  unfold Machine.dbgCtrlWrite
  exact .ite (.lockDebug <| .ite (.submitToken <| .ite (.newNonce h) h) (.ite (.newNonce h) h)) (.ite (.submitToken <|
      .ite (.newNonce h) h) (.ite (.newNonce h) h))

theorem Goes.execTapInstructionLoad {instr : Nat} (h : Keeps s t) : Goes s (execTapInstructionLoad instr t) := by
  unfold Machine.execTapInstructionLoad
  exact .ite (.next <| .emit <| .mgmt h) (.next h)

theorem Keeps.heldDown {tripped : Bool} {trip : Nat} (h : Keeps s t) : Keeps s (heldDown tripped trip t) := by
  unfold Machine.heldDown
  exact .emit <| .wr <| .power <| .afterReset h

theorem Goes.execSupplyFault (h : Keeps s t) : Goes s (execSupplyFault t) :=
  .next <| .heldDown h

theorem Keeps.trip (h : Keeps s t) : Keeps s (trip t) :=
  .heldDown h

theorem Goes.execThermalTrip (h : Keeps s t) : Goes s (execThermalTrip t) := by
  unfold Machine.execThermalTrip
  exact .ite (.next h) (.next <| .trip h)

theorem Keeps.stepAvs {rail : Nat} (h : Keeps s t) : Keeps s (stepAvs rail t) := by
  unfold Machine.stepAvs
  exact .ite h (.emit <| .power h)

theorem Keeps.aimAvs {rail : Nat} (h : Keeps s t) : Keeps s (aimAvs rail t) := by
  unfold Machine.aimAvs
  exact .ite h (.stepAvs <| .wr h)

theorem Keeps.aimRails (h : Keeps s t) : Keeps s (aimRails t) :=
  .foldl (fun _ h₁ => .aimAvs h₁) h

theorem Goes.execAvsStepAck {rail : Nat} (h : Keeps s t) : Goes s (execAvsStepAck rail t) := by
  unfold Machine.execAvsStepAck
  split
  · exact .next h
  · exact .next <| .stepAvs <| .wr <| .power h

theorem Goes.execAvsTimeout {rail : Nat} {marginOk : Bool} (h : Keeps s t) :
    Goes s (execAvsTimeout rail marginOk t) := by
  unfold Machine.execAvsTimeout
  split
  · exact .next h
  · exact .ite (.next <| .trip <| .wr h) (.next <| .emit <| .wr h)

theorem Keeps.putTemp {n : Nat} {t' : ℤ} (h : Keeps s t) : Keeps s (putTemp n t' t) :=
  .wr <| .wr h

theorem Goes.execSensorSample {temps : List ℤ} {power : Nat} (h : Keeps s t) :
    Goes s (execSensorSample temps power t) := by
  unfold Machine.execSensorSample
  exact .ite (.next h) (.ite (.next <| .trip <| .wr <| .wr <| .wr <| .wr <| .wr <| .foldl (fun _ h₁ => .putTemp h₁) h)
      (.next <| .aimRails <| .wr <| .wr <| .wr <| .wr <| .wr <| .foldl (fun _ h₁ => .putTemp h₁) h))

theorem Keeps.setStationClock {st : Nat} {lost : Bool} (h : Keeps s t) : Keeps s (setStationClock st lost t) := by
  unfold Machine.setStationClock
  exact .foldl (fun _ h₁ => .setPort h₁) h

theorem Goes.execRefclkLoss {clock : Nat} (h : Keeps s t) : Goes s (execRefclkLoss clock t) := by
  unfold Machine.execRefclkLoss
  exact .ite (.next <| .foldl (fun _ h₁ => .ite (.linkLost h₁) h₁) <| .setStationClock h) (.ite (.next <| .foldl
      (fun _ h₁ => .nextOr <| .execLinkLossOfLock h₁) <| .power h) (.ite (.next <| .power h) (.next h)))

theorem Goes.execRefclkReturn {clock : Nat} (h : Keeps s t) : Goes s (execRefclkReturn clock t) := by
  unfold Machine.execRefclkReturn
  exact .ite (.next <| .setStationClock h) (.ite (.next <| .power h) (.ite (.next <| .power h) (.next h)))

theorem Keeps.readNow (h : Keeps s t) : Keeps s (readNow t).2 :=
  .snd <| .wr h

theorem Keeps.readReg {who : Party} {a : Nat} (h : Keeps s t) : Keeps s (readReg who a t).2 := by
  unfold Machine.readReg
  split
  · split
    · rename_i e₁
      exact .snd <| .of_snd e₁ <| .claimSlot h
  · split
    · exact h
    · split
      · exact .readNow h
      · split
        · exact .snd <| .dpClaim h
        · split
          · exact .claimCairn h
          · exact h

theorem Goes.execDumpDone (h : Keeps s t) : Goes s (execDumpDone t) := by
  unfold Machine.execDumpDone
  exact .ite (.next <| .wr <| .wr <| .mgmt h) (.next h)

theorem Keeps.svyWrite {who : Party} {b : Nat} {v : BitVec 64} (h : Keeps s t) : Keeps s (svyWrite who b v t) := by
  unfold Machine.svyWrite
  exact .ite (.commitClass h) (.ite (.boot <| .plainWrite h) (.ite (.ite (.submitPackage h) (.ite h (.dpDeny h))) (.ite
      (.ite (.boot h) h) (.ite (.ite (.dpRelease h) h) (.ite (.dpCtrlWrite h) (.ite (.dpAddrWrite h) (.plainWrite h)))))))

theorem Keeps.dtmWrite {b : Nat} {v : BitVec 64} (h : Keeps s t) : Keeps s (dtmWrite b v t) := by
  unfold Machine.dtmWrite
  refine .ite (.ite (.stepRequest <| .plainWrite h) (.plainWrite h)) (.ite (.servoSample h) (.ite (.servoSample h) (.ite
      (.holdCfgWrite h) (.ite (.plainWrite h) (.ite (.plainWrite h) ?_)))))
  split
  · exact .ppsWrite h
  · split
    · exact .synceWrite h
    · exact .plainWrite h

theorem Keeps.grtWrite {b : Nat} {v : BitVec 64} (h : Keeps s t) : Keeps s (grtWrite b v t) := by
  unfold Machine.grtWrite
  exact .ite (.nextOr <| .execGrtCntClr <| .plainWrite h) (.plainWrite h)

theorem Keeps.portCfgWrite {p : Nat} {v : BitVec 64} (h : Keeps s t) : Keeps s (portCfgWrite p v t) := by
  unfold Machine.portCfgWrite
  exact .ite (.nextOr <| .execHpObsClr <| .ite (.nextOr <| .execHpRetrain <| .ite (.plainWrite h) (.nextOr <|
      .execHpLinkDisable <| .plainWrite h)) (.ite (.plainWrite h) (.nextOr <| .execHpLinkDisable <| .plainWrite h))) (.ite
      (.nextOr <| .execHpRetrain <| .ite (.plainWrite h) (.nextOr <| .execHpLinkDisable <| .plainWrite h)) (.ite
      (.plainWrite h) (.nextOr <| .execHpLinkDisable <| .plainWrite h)))

theorem Keeps.pfCfgWrite {p f : Nat} {v : BitVec 64} (h : Keeps s t) : Keeps s (pfCfgWrite p f v t) := by
  unfold Machine.pfCfgWrite
  exact .plainWrite h

theorem Keeps.hpWrite {b : Nat} {v : BitVec 64} (h : Keeps s t) : Keeps s (hpWrite b v t) := by
  unfold Machine.hpWrite
  refine .ite (.plainWrite h) <| .ite h <| .ite (.admConfigWrite h) <| .ite (.portCfgWrite h) <|
    .ite (.ite (.nextOr <| .execHpWinCommit h) h) ?_
  cases arrIndex (HP_PF_CFG ((b - 0x4000000) / 0x10000) 0) 8 4 b with
  | some f => exact .pfCfgWrite h
  | none =>
    cases arrIndex (winAddr ((b - 0x4000000) / 0x10000) 0 0 0) 1024 8 b with
    | some k => exact .writeShadow h
    | none => exact .plainWrite h

theorem Keeps.cadOp {n op : Nat} (h : Keeps s t) : Keeps s (cadOp n op t) := by
  unfold Machine.cadOp
  split
  · exact .createSheet h
  · exact .cadDestroy h
  · exact .cadEnable h
  · exact h

theorem Keeps.cadWrite {b : Nat} {v : BitVec 64} (h : Keeps s t) : Keeps s (cadWrite b v t) := by
  unfold Machine.cadWrite
  exact .ite (.cadOp h) (.ite (.ite (.plainWrite h) h) (.plainWrite h))

theorem Keeps.mailWrite {who : Party} {a : Nat} {v : BitVec 64} (h : Keeps s t) : Keeps s (mailWrite who a v t) := by
  unfold Machine.mailWrite
  refine .ite h ?_
  split
  · exact .bellSlot h
  · exact .ackSlot h
  · exact .bellSlot h
  · exact .ackSlot h
  · exact h

theorem Keeps.adminOp {n : Nat} {v : BitVec 64} (h : Keeps s t) : Keeps s (adminOp n v t) := by
  unfold Machine.adminOp
  split
  · exact .adminOpen <| .drawn h
  · exact .adminEnable h
  · exact .adminClose h
  · exact h

theorem Keeps.rngWrite {b : Nat} {v : BitVec 64} (h : Keeps s t) : Keeps s (rngWrite b v t) := by
  unfold Machine.rngWrite
  exact .ite (.wr h) (.ite (.plainWrite h) (.ite (.adminOp h) (.ite (.ite h (.ite (.plainWrite h) (.plainWrite h)))
      (.plainWrite h))))

theorem Keeps.portCtrlWrite {p : Nat} {v : BitVec 64} (h : Keeps s t) : Keeps s (portCtrlWrite p v t) := by
  unfold Machine.portCtrlWrite
  exact .ite (.netRetrain <| .ite (.netRestore <| .ite (.clearNetCounters h) h) (.ite (.clearNetCounters h) h)) (.ite
      (.netRestore <| .ite (.clearNetCounters h) h) (.ite (.clearNetCounters h) h))

theorem Keeps.netWrite {b : Nat} {v : BitVec 64} (h : Keeps s t) : Keeps s (netWrite b v t) := by
  unfold Machine.netWrite
  exact .ite (.ite (.netCfgWrite h) (.ite (.portCtrlWrite h) (.ite (.netHeadWrite h) (.ite (.netPfcWrite h)
      (.plainWrite h))))) (.ite (.cageAccWrite h) (.plainWrite h))

theorem Keeps.bncWrite {b : Nat} {v : BitVec 64} (h : Keeps s t) : Keeps s (bncWrite b v t) := by
  unfold Machine.bncWrite
  refine .ite (.ite (.profCommit h) h) (.ite (.ite (.bucketMove h) h) (.ite (.shadowWrite h) ?_))
  split
  · exact .defaultWrite h
  · split
    · exact .plainWrite <| .settleContour h
    · exact .plainWrite h

theorem Keeps.tblWrite {b : Nat} {v : BitVec 64} (h : Keeps s t) : Keeps s (tblWrite b v t) := by
  unfold Machine.tblWrite
  refine .ite (.learnCfgWrite h) ?_
  split
  · exact .descWrite h
  · split
    · exact .progWrite h
    · exact .plainWrite h

theorem Keeps.swcRefuse (h : Keeps s t) : Keeps s (swcRefuse t) :=
  .raise h

theorem Keeps.rxdefWrite {p : Nat} {v : BitVec 64} (h : Keeps s t) : Keeps s (rxdefWrite p v t) := by
  unfold Machine.rxdefWrite
  exact .ite h (.ite (.swcRefuse h) (.plainWrite h))

theorem Keeps.swcWrite {b : Nat} {v : BitVec 64} (h : Keeps s t) : Keeps s (swcWrite b v t) := by
  unfold Machine.swcWrite
  refine .ite (.ite (.swcRefuse h) (.plainWrite h)) (.ite (.refreshPressure <| .plainWrite h) (.ite (.ite (.swcRefuse h)
      (.plainWrite h)) ?_))
  split
  · exact .ite (.plainWrite h) h
  · split
    · exact .altWrite h
    · split
      · exact .rxdefWrite h
      · exact .plainWrite h

theorem Keeps.stoWrite {b : Nat} {v : BitVec 64} (h : Keeps s t) : Keeps s (stoWrite b v t) := by
  unfold Machine.stoWrite
  exact .ite h (.plainWrite h)

theorem Keeps.thrCfgWrite {k t' : Nat} {v : BitVec 64} (h : Keeps s t) : Keeps s (thrCfgWrite k t' v t) := by
  unfold Machine.thrCfgWrite
  exact .plainWrite h

theorem Keeps.pnlWrite {b : Nat} {v : BitVec 64} (h : Keeps s t) : Keeps s (pnlWrite b v t) := by
  unfold Machine.pnlWrite
  refine .ite (.clusterCfgWrite h) <| .ite (.ite (.galAbandon h) h) <| .ite (.ite (.migrate h) h) ?_
  cases arrIndex (PNL_THR_CFG ((b - 0xF000000) / 0x100000) 0) 32 4 b with
  | some _ => exact .thrCfgWrite h
  | none =>
    cases arrIndex (PNL_THR_CTRL ((b - 0xF000000) / 0x100000) 0) 32 4 b with
    | some _ => exact .threadCtrl h
    | none =>
      cases arrIndex (PNL_THR_PC ((b - 0xF000000) / 0x100000) 0) 32 8 b with
      | some _ => exact .ite (.plainWrite h) h
      | none =>
        cases arrIndex (PNL_THR_TIMER ((b - 0xF000000) / 0x100000) 0) 32 8 b with
        | some _ => exact .wr <| .plainWrite h
        | none =>
          cases arrIndex (PNL_GAL ((b - 0xF000000) / 0x100000) 0) 64 8 b with
          | some _ => exact .galWrite h
          | none => exact .plainWrite h

theorem Keeps.crnWrite {b : Nat} {v : BitVec 64} (h : Keeps s t) : Keeps s (crnWrite b v t) := by
  unfold Machine.crnWrite
  exact .ite (.completeCairn h) (.ite (.raiseCairn h) (.plainWrite h))

theorem Keeps.hltCtrlWrite {v : BitVec 64} (h : Keeps s t) : Keeps s (hltCtrlWrite v t) := by
  unfold Machine.hltCtrlWrite
  exact .ite (.plainWrite h) (.emit <| .plainWrite h)

theorem Keeps.hltWrite {b : Nat} {v : BitVec 64} (h : Keeps s t) : Keeps s (hltWrite b v t) := by
  unfold Machine.hltWrite
  exact .ite (.ite (.popProt h) h) (.ite (.surveyAdvance h) (.ite (.hltCtrlWrite h) (.plainWrite h)))

theorem Keeps.mgtWrite {who : Party} {b : Nat} {v : BitVec 64} (h : Keeps s t) : Keeps s (mgtWrite who b v t) := by
  unfold Machine.mgtWrite
  exact .ite (.ite (.dpDeny h) (.plainWrite h)) (.ite (.dbgCtrlWrite h) (.plainWrite h))

theorem Keeps.routedWrite {who : Party} {b : Nat} {v : BitVec 64} (h : Keeps s t) :
    Keeps s (routedWrite who b v t) := by
  unfold Machine.routedWrite
  split
  · exact .svyWrite h
  · exact .dtmWrite h
  · exact .ite (.admConfigWrite h) (.plainWrite h)
  · exact .grtWrite h
  · exact .hpWrite h
  · exact .cadWrite h
  · exact .rngWrite h
  · exact .netWrite h
  · exact .bncWrite h
  · exact .bncWrite h
  · exact .tblWrite h
  · exact .swcWrite h
  · exact .stoWrite h
  · exact .ite (.pnlWrite h) (.crnWrite h)
  · exact .hltWrite h
  · exact .mgtWrite h
  · exact .plainWrite h

theorem Keeps.writeReg {who : Party} {a : Nat} {v : BitVec 64} (h : Keeps s t) : Keeps s (writeReg who a v t) := by
  unfold Machine.writeReg
  refine .ite (.mailWrite h) ?_
  split
  · exact h
  · exact .routedWrite h

theorem Keeps.read4 {who : Party} {a : Nat} (h : Keeps s t) : Keeps s (read4 who a t).2 := by
  unfold Machine.read4
  exact .ite_snd (.readReg h) h

theorem Keeps.readPart {who : Party} {a n : Nat} (h : Keeps s t) : Keeps s (readPart who a n t).2 := by
  unfold Machine.readPart
  split
  · exact .read4 h
  · split
    · split
      · exact .readReg h
      · split
        · rename_i e₃
          split
          · rename_i e₄
            exact .snd <| .of_snd e₄ <| .read4 <| .of_snd e₃ <| .read4 h
    · exact h

theorem Keeps.write4 {who : Party} {a v : Nat} (h : Keeps s t) : Keeps s (write4 who a v t) := by
  unfold Machine.write4
  exact .ite (.writeReg h) h

theorem Keeps.writePart {who : Party} {a n v : Nat} (h : Keeps s t) : Keeps s (writePart who a n v t) := by
  unfold Machine.writePart
  exact .ite (.write4 h) (.ite (.ite (.writeReg h) (.write4 <| .write4 h)) h)

theorem Keeps.writePage {k off : Nat} {who : Party} {bs : Bytes} (h : Keeps s t) :
    Keeps s (writePage k off who bs t) := by
  unfold Machine.writePage
  exact .ite h (.ite (.writeSlot <| .ite (.writeSlot h) h) (.ite (.writeSlot h) h))

theorem Keeps.doorbell {n loc pi : Nat} (h : Keeps s t) : Keeps s (doorbell n loc pi t) := by
  unfold Machine.doorbell
  refine .ite ?_ h
  split
  · exact .ringDoorbell h
  · exact .dropDoorbell h

theorem Keeps.doorbellWrite {a n v : Nat} (h : Keeps s t) : Keeps s (doorbellWrite a n v t) := by
  unfold Machine.doorbellWrite
  exact .ite h (.ite (.doorbell h) (.ite (.dropDoorbell h) h))

theorem Goes.execDoorbellWrite {sheet loc pi : Nat} {narrow : Bool} (h : Keeps s t) :
    Goes s (execDoorbellWrite sheet loc pi narrow t) := by
  unfold Machine.execDoorbellWrite
  exact .next <| .doorbellWrite h

theorem Keeps.memStore {a : Nat} {bs : Bytes} (h : Keeps s t) : Keeps s (memStore a bs t) := by
  unfold Machine.memStore
  exact .mem_health ((memWf_memWrite · _ _)) h

theorem Keeps.memAccess {who : Party} {a : Nat} {bs : Bytes} (h : Keeps s t) : Keeps s (memAccess who a bs t) := by
  unfold Machine.memAccess
  exact .ite (.nextOr <| .execHoldRegionWriteFault h) (.ite (.memStore h) h)

theorem Keeps.readPiece {who : Party} {a n : Nat} (h : Keeps s t) : Keeps s (readPiece who a n t).2 := by
  unfold Machine.readPiece
  split
  · exact .snd <| .protEvent h
  · split
    · exact h
    · split
      · exact h
      · exact .dpRead h
      · exact h
      · exact h
      · exact h
      · split
        · exact h
        · split
          · rename_i e₄
            exact .snd <| .of_snd e₄ <| .readPart h

theorem Keeps.writePiece {who : Party} {a : Nat} {bs : Bytes} (h : Keeps s t) : Keeps s (writePiece who a bs t) := by
  unfold Machine.writePiece
  refine .ite (.protEvent h) (.ite h ?_)
  split
  · exact .writePage h
  · exact .dpWrite h
  · exact .cluWrite h
  · exact .memAccess h
  · exact .doorbellWrite h
  · exact .writePart h

theorem Keeps.readPieces {who : Party} {l : List (Nat × Nat)} (h : Keeps s t) : Keeps s (readPieces who l t).2 := by
  induction l generalizing t with
  | nil => exact h
  | cons p rest ih => exact ih h.readPiece

theorem Keeps.writePieces {who : Party} {l : List (Nat × Nat)} {bs : Bytes} (h : Keeps s t) :
    Keeps s (writePieces who l bs t) := by
  induction l generalizing bs t with
  | nil => exact h
  | cons p rest ih => exact ih h.writePiece

theorem Keeps.readSpace {who : Party} {a n : Nat} (h : Keeps s t) : Keeps s (readSpace who a n t).2 :=
  .readPieces h

theorem Keeps.writeSpace {who : Party} {a : Nat} {bs : Bytes} (h : Keeps s t) : Keeps s (writeSpace who a bs t) :=
  .writePieces h

theorem Keeps.perform {h' : HeldAccess} (h : Keeps s t) : Keeps s (perform h' t) := by
  unfold Machine.perform
  exact .ite (.writeSpace h) (.emit <| .readPieces h)

theorem Keeps.access {h' : HeldAccess} (h : Keeps s t) : Keeps s (access h' t) := by
  unfold Machine.access
  split
  · exact .ite (.boot h) h
  · split
    · exact .setIsland h
    · exact .perform h

theorem Goes.execRegisterWrite {who : Party} {addr size value : Nat} (h : Keeps s t) :
    Goes s (execRegisterWrite who addr size value t) :=
  .next <| .access h

theorem Keeps.endIslandReset {node roundTripPs : Nat} (h : Keeps s t) :
    Keeps s (endIslandReset node roundTripPs t) := by
  unfold Machine.endIslandReset
  exact .refreshPressure <| .serveStorage <| .foldl (fun _ h₁ => .access h₁) <| .ite (.reseedBench <| .setIsland h)
      (.setIsland h)

theorem Goes.execIslandResetEnd {node roundTripPs : Nat} (h : Keeps s t) :
    Goes s (execIslandResetEnd node roundTripPs t) := by
  unfold Machine.execIslandResetEnd
  exact .ite (.next h) (.next <| .endIslandReset h)

theorem Goes.execDatumResume (h : Keeps s t) : Goes s (execDatumResume t) := by
  unfold Machine.execDatumResume
  exact .ite (.ite (.next <| .endIslandReset <| .drawn <| .dtm h) (.next <| .dtm h)) (.next h)

theorem Keeps.devWrite {a n v : Nat} (h : Keeps s t) : Keeps s (devWrite a n v t) :=
  .access h

theorem Goes.execServoSampleWrite {b : Bool} {value : BitVec 64} (h : Keeps s t) :
    Goes s (execServoSampleWrite b value t) := by
  unfold Machine.execServoSampleWrite
  exact .next <| .devWrite h

theorem Goes.execDtmStepRequest (h : Keeps s t) : Goes s (execDtmStepRequest t) := by
  unfold Machine.execDtmStepRequest
  exact .ite (.next <| .devWrite h) (.ite (.next h) (.next <| .stepRequest h))

theorem Goes.execDtmPortCorrWrite {port : Nat} {value : BitVec 32} (h : Keeps s t) :
    Goes s (execDtmPortCorrWrite port value t) := by
  unfold Machine.execDtmPortCorrWrite
  exact .ite (.next <| .devWrite h) (.next h)

theorem Goes.execDtmNowRead {who : Party} (h : Keeps s t) : Goes s (execDtmNowRead who t) :=
  .next <| .access h

theorem Goes.execMbxClaim {sheet : Nat} {up : Bool} {who : Party} (h : Keeps s t) :
    Goes s (execMbxClaim sheet up who t) := by
  unfold Machine.execMbxClaim
  exact .next <| .access h

theorem Goes.execMbxBell {sheet : Nat} {up : Bool} {who : Party} (h : Keeps s t) :
    Goes s (execMbxBell sheet up who t) := by
  unfold Machine.execMbxBell
  exact .next <| .access h

theorem Goes.execMbxAck {sheet : Nat} {up : Bool} {who : Party} (h : Keeps s t) :
    Goes s (execMbxAck sheet up who t) := by
  unfold Machine.execMbxAck
  exact .next <| .access h

theorem Goes.execCairnClaim {cluster t' : Nat} {who : Party} (h : Keeps s t) :
    Goes s (execCairnClaim cluster t' who t) := by
  unfold Machine.execCairnClaim
  exact .ite (.next <| .access h) (.next h)

theorem Goes.execDpLockClaim {who : Party} (h : Keeps s t) : Goes s (execDpLockClaim who t) :=
  .next <| .access h

theorem Goes.execDpApertureAccess {who : Party} {off n : Nat} {data : Option Bytes} (h : Keeps s t) :
    Goes s (execDpApertureAccess who off n data t) := by
  unfold Machine.execDpApertureAccess
  refine .ite (.next h) ?_
  split <;> exact .next <| .access h

theorem Keeps.setsBit {who : Party} {a : Nat} {f : State → State} (hf : ∀ {u : State}, Keeps s u → Keeps s (f u)) (h :
    Keeps s t) :
    Keeps s (setsBit who a f t) := by
  unfold Machine.setsBit
  exact .ite (hf h) (.protEvent h)

theorem Goes.execDpRelease {who : Party} (h : Keeps s t) : Goes s (execDpRelease who t) :=
  .next <| .setsBit (fun h₁ => .dpRelease h₁) h

theorem Goes.execDpDump {who : Party} (h : Keeps s t) : Goes s (execDpDump who t) := by
  unfold Machine.execDpDump
  exact .next <| .setsBit (fun h₁ => .ite (.startDump <| .dpTouch h₁) (.dpDeny h₁)) h

theorem Goes.execPackageSubmit {who : Party} (h : Keeps s t) : Goes s (execPackageSubmit who t) :=
  .next <| .setsBit (fun h₁ => .submitPackage h₁) h

theorem Goes.execTheivoRegRead {b addr : Nat} (h : Keeps s t) : Goes s (execTheivoRegRead b addr t) := by
  unfold Machine.execTheivoRegRead
  exact .serve (fun h₁ => .ite (.respond h₁) (.respond <| .readPieces h₁)) h

theorem Goes.execTheivoRegWrite {b addr : Nat} {data : Bytes} (h : Keeps s t) :
    Goes s (execTheivoRegWrite b addr data t) := by
  unfold Machine.execTheivoRegWrite
  exact .serve (fun h₁ => .ite (.respond h₁) (.ite (.respond h₁) (.respond <| .writeSpace h₁))) h

theorem Keeps.vecWrite {p f v off : Nat} {bs : Bytes} (h : Keeps s t) : Keeps s (vecWrite p f v off bs t) := by
  unfold Machine.vecWrite
  exact .ite h (.sendPending <| .setVec h)

theorem Keeps.msixWrite {p f off : Nat} {bs : Bytes} (h : Keeps s t) : Keeps s (msixWrite p f off bs t) := by
  unfold Machine.msixWrite
  exact .ite (.vecWrite h) h

theorem Keeps.hostMemRead {p f a n : Nat} (h : Keeps s t) : Keeps s (hostMemRead p f a n t) := by
  unfold Machine.hostMemRead
  exact .ite (.emit <| .protEvent h) (.ite (.emit h) (.ite (.emit h) (.emit h)))

theorem Keeps.hostMemWrite {p f a : Nat} {bs : Bytes} (h : Keeps s t) : Keeps s (hostMemWrite p f a bs t) := by
  unfold Machine.hostMemWrite
  exact .ite (.protEvent h) (.memAccess h)

theorem Keeps.peerRequest {p f : Nat} {w : Win} {a n : Nat} {data : Option Bytes} (h : Keeps s t) :
    Keeps s (peerRequest p f w a n data t) := by
  unfold Machine.peerRequest
  refine .ite ?_ ?_
  · split
    · exact .raise h
    · exact .emit <| .raise h
  · split
    · exact .emit h
    · exact .issueRead h

theorem Keeps.hostControl {p f a n : Nat} {data : Option Bytes} (h : Keeps s t) :
    Keeps s (hostControl p f a n data t) := by
  unfold Machine.hostControl
  split <;> exact .access h

theorem Keeps.hostMemory {p f a n : Nat} {data : Option Bytes} (h : Keeps s t) :
    Keeps s (hostMemory p f a n data t) := by
  unfold Machine.hostMemory
  split
  · exact .hostMemWrite h
  · exact .hostMemRead h

theorem Keeps.hostRefused {p f addr n : Nat} {bar : Option Nat} {isWrite : Bool} (h : Keeps s t) :
    Keeps s (hostRefused p f addr n bar isWrite t) := by
  unfold Machine.hostRefused
  exact .ite (.protEvent h) (.emit <| .protEvent h)

theorem Keeps.hostThrough {p f : Nat} {w : Win} {off n : Nat} {data : Option Bytes} (h : Keeps s t) :
    Keeps s (hostThrough p f w off n data t) := by
  unfold Machine.hostThrough
  split
  · exact .hostControl h
  · exact .hostControl h
  · refine .ite (.hostControl h) ?_
    split
    · exact h
    · exact .emit h
  · exact .hostMemory h
  · exact .hostMemory h
  · exact .peerRequest h
  · exact h

theorem Goes.execHostMmioRequest {port pf bar off n : Nat} {data : Option Bytes} (h : Keeps s t) :
    Goes s (execHostMmioRequest port pf bar off n data t) := by
  unfold Machine.execHostMmioRequest
  refine .ite (.next h) (.ite ?_ ?_)
  · split
    · exact .next <| .msixWrite h
    · exact .next <| .emit h
  · split
    · exact .next <| .hostRefused h
    · exact .ite (.next <| .hostRefused h) (.ite (.next <| .hostRefused h) (.next <| .hostThrough h))

theorem Keeps.unitFails {node : Nat} (h : Keeps s t) : Keeps s (unitFails node t) :=
  .breakNode <| .beyondModel <| .logFault h

theorem Keeps.resetIsland {node : Nat} (h : Keeps s t) : Keeps s (resetIsland node t) := by
  unfold Machine.resetIsland
  exact .discardDatapath <| .releaseGrants <| .setIsland h

theorem Keeps.recordBite {kind inst requester : Nat} (h : Keeps s t) :
    Keeps s (recordBite kind inst requester t) := by
  unfold Machine.recordBite
  exact .raise <| .setReg <| .setReg <| .count h

theorem Keeps.setBites {l : List Bite} (h : Keeps s t) : Keeps s (setBites l t) := by
  unfold Machine.setBites
  exact .grt h

theorem Keeps.repeatFail {node core : Nat} {l : List Bite} (h : Keeps s t) : Keeps s (repeatFail node core l t) := by
  unfold Machine.repeatFail
  exact .ite (.ite (.nextOr <| .execCoreFault <| .setBites <| .raise h) (.raise h)) (.ite (.benchFault <| .setBites <|
      .raise h) (.unitFails <| .setBites <| .raise h))

theorem Keeps.bite {kind inst i core : Nat} (h : Keeps s t) : Keeps s (bite kind inst i core t) := by
  unfold Machine.bite
  exact .ite (.repeatFail <| .setBites <| .logFault <| .recordBite <| .resetIsland <| .setArbiter h) (.setBites <|
      .logFault <| .recordBite <| .resetIsland <| .setArbiter h)

theorem Goes.execWatchdogBite {kind inst core : Nat} (h : Keeps s t) :
    Goes s (execWatchdogBite kind inst core t) := by
  unfold Machine.execWatchdogBite
  split
  · exact .next h
  · exact .ite (.next <| .bite h) (.next h)

theorem Keeps.releaseOutputs {k : Nat} (h : Keeps s t) : Keeps s (releaseOutputs k t) := by
  unfold Machine.releaseOutputs
  exact .foldl (fun _ h₁ => .access h₁) <| .boot h

theorem Keeps.classRuns {c : Nat} {x : Load} (h : Keeps s t) : Keeps s (classRuns c x t) := by
  unfold Machine.classRuns
  exact .ite (.aimRails <| .ite (.ite (.boot <| .releaseNodes <| .wr <| .wr <| .wr <| .setLoad h) (.releaseNodes <| .wr <|
      .wr <| .wr <| .setLoad h)) (.wr <| .ite (.boot <| .releaseNodes <| .wr <| .wr <| .wr <| .setLoad h)
      (.releaseNodes <| .wr <| .wr <| .wr <| .setLoad h))) (.ite (.boot <| .releaseNodes <| .wr <| .wr <| .wr <|
      .setLoad h) (.releaseNodes <| .wr <| .wr <| .wr <| .setLoad h))

theorem Goes.execImageTagCheck {cls : Nat} {ok : Bool} (h : Keeps s t) : Goes s (execImageTagCheck cls ok t) := by
  unfold Machine.execImageTagCheck
  split
  · exact .next h
  · exact .ite (.next h) (.ite (.next <| .attemptFails h) (.next <| .ite (.loadNext <| .ite (.foldl
      (fun _ h₁ => .releaseOutputs h₁) <| .classRuns h) (.classRuns h)) (.ite (.foldl (fun _ h₁ => .releaseOutputs h₁) <|
      .classRuns h) (.classRuns h))))

/-- Every command answers a next state that keeps the queue and the canonical form. -/
theorem Goes.exec {c : Instr} (h : Keeps s t) : Goes s (exec c t) := by
  cases c with
  | registerWrite => exact .execRegisterWrite h
  | islandResetEnd => exact .execIslandResetEnd h
  | flightSlotWaitStart => exact .execFlightSlotWaitStart h
  | undefinedOpcode => exact .execUndefinedOpcode h
  | networkFrameReceive => exact .execNetworkFrameReceive h
  | budgetTokenRelease => exact .execBudgetTokenRelease h
  | benchEnqueue => exact .execBenchEnqueue h
  | keyLoadDone => exact .execKeyLoadDone h
  | outletUnitServe => exact .execOutletUnitServe h
  | frameEgress => exact .execFrameEgress h
  | rxPlacement => exact .execRxPlacement h
  | ppsInEdge => exact .execPpsInEdge h
  | servoSampleWrite => exact .execServoSampleWrite h
  | sourceDisqualify => exact .execSourceDisqualify h
  | ref10mLoss => exact .execRef10mLoss h
  | waitToRestoreExpiry => exact .execWaitToRestoreExpiry h
  | holdoverLimitExpiry => exact .execHoldoverLimitExpiry h
  | dtmStepRequest => exact .execDtmStepRequest h
  | spineMeasure => exact .execSpineMeasure h
  | datumRestart => exact .execDatumRestart h
  | datumResume => exact .execDatumResume h
  | spinePathFail => exact .execSpinePathFail h
  | ppsOutEdge => exact .execPpsOutEdge h
  | synceLos => exact .execSynceLos h
  | dtmPortCorrWrite => exact .execDtmPortCorrWrite h
  | dtmNowRead => exact .execDtmNowRead h
  | admitContract => exact .execAdmit h
  | withdraw => exact .execWithdraw h
  | withdrawDrainEnd => exact .execWithdrawDrainEnd h
  | modify => exact .execModify h
  | check => exact .execCheck h
  | admissionQuery => exact .execAdmissionQuery h
  | stageDump => exact .execStageDump h
  | admConfigWrite => exact .execAdmConfigWrite h
  | grtTransferReceive => exact .execGrtTransferReceive h
  | grtAckTimeout => exact .execGrtAckTimeout h
  | arbiterGrant => exact .execArbiterGrant h
  | watchdogBite => exact .execWatchdogBite h
  | grtCntClr => exact .execGrtCntClr h
  | hostLinkUp => exact .execHostLinkUp h
  | hostLinkDown => exact .execHostLinkDown h
  | l0pEnter => exact .execL0pEnter h
  | l0pExit => exact .execL0pExit h
  | l1Enter => exact .execL1Enter h
  | l1Exit => exact .execL1Exit h
  | creditWaitExceeded => exact .execCreditWaitExceeded h
  | msixUnmask => exact .execMsixUnmask h
  | hostMmioRequest => exact .execHostMmioRequest h
  | hpWinCommit => exact .execHpWinCommit h
  | winRetireDone => exact .execWinRetireDone h
  | atsInvalidationRequest => exact .execAtsInvalidationRequest h
  | atsInvalidationComplete => exact .execAtsInvalidationComplete h
  | pageRequestResponse => exact .execPageRequestResponse h
  | hostReadCompletion => exact .execHostReadCompletion h
  | completionTimeout => exact .execCompletionTimeout h
  | bmeClear => exact .execBmeClear h
  | bmeSet => exact .execBmeSet h
  | flr => exact .execFlr h
  | flrComplete => exact .execFlrComplete h
  | pasidEnableClear => exact .execPasidEnableClear h
  | dpcTrigger => exact .execDpcTrigger h
  | dpcRelease => exact .execDpcRelease h
  | rootPortEnumerate => exact .execRootPortEnumerate h
  | rootPresenceChange => exact .execRootPresenceChange h
  | cxlAttach => exact .execCxlAttach h
  | hpRetrain => exact .execHpRetrain h
  | hpLinkDisable => exact .execHpLinkDisable h
  | hpObsClr => exact .execHpObsClr h
  | perstAssert => exact .execPerstAssert h
  | perstDeassert => exact .execPerstDeassert h
  | mbxClaim => exact .execMbxClaim h
  | mbxBell => exact .execMbxBell h
  | mbxAck => exact .execMbxAck h
  | mbxClaimTimeout => exact .execMbxClaimTimeout h
  | reshape => exact .execReshape h
  | sheetEnable => exact .execSheetEnable h
  | sheetDisable => exact .execSheetDisable h
  | sheetDisableDone => exact .execSheetDisableDone h
  | sheetDebug => exact .execSheetDebug h
  | sheetQuery => exact .execSheetQuery h
  | cadOpCreate => exact .execCadOpCreate h
  | cadOpEnable => exact .execCadOpEnable h
  | cadOpDestroy => exact .execCadOpDestroy h
  | sheetDestroyDone => exact .execSheetDestroyDone h
  | doorbellWrite => exact .execDoorbellWrite h
  | entryFetch => exact .execEntryFetch h
  | coalTimerExpiry => exact .execCoalTimerExpiry h
  | ringNop => exact .execRingNop h
  | ringOpen => exact .execRingOpen h
  | ringEnable => exact .execRingEnable h
  | ringDisable => exact .execRingDisable h
  | ringQuiesceEnd => exact .execRingQuiesceEnd h
  | ringIdle => exact .execRingIdle h
  | ringClose => exact .execRingClose h
  | ringQuery => exact .execRingQuery h
  | ringTune => exact .execRingTune h
  | adminRingOpen => exact .execAdminRingOpen h
  | adminRingEnable => exact .execAdminRingEnable h
  | adminRingClose => exact .execAdminRingClose h
  | rngDbDropClear => exact .execRngDbDropClear h
  | txPkt => exact .execTxPkt h
  | txThrottleRelease => exact .execTxThrottleRelease h
  | rxBuf => exact .execRxBuf h
  | copy => exact .execCopy h
  | fill => exact .execFill h
  | netModeWrite => exact .execNetModeWrite h
  | netPortEnable => exact .execNetPortEnable h
  | netPortDisable => exact .execNetPortDisable h
  | netHeadroomConfigWrite => exact .execNetHeadroomConfigWrite h
  | netPrbsTest => exact .execNetPrbsTest h
  | netCntClr => exact .execNetCntClr h
  | netRetrain => exact .execNetRetrain h
  | netRestore => exact .execNetRestore h
  | pfcFrameReceive => exact .execPfcFrameReceive h
  | rxPauseExpiry => exact .execRxPauseExpiry h
  | pfcRefresh => exact .execPfcRefresh h
  | pauseLimitExpiry => exact .execPauseLimitExpiry h
  | modulePresenceDebounced => exact .execModulePresenceDebounced h
  | moduleReady => exact .execModuleReady h
  | dataPathActivated => exact .execDataPathActivated h
  | moduleInitTimeout => exact .execModuleInitTimeout h
  | mgmtBusAccessFail => exact .execMgmtBusAccessFail h
  | moduleRemove => exact .execModuleRemove h
  | moduleInterrupt => exact .execModuleInterrupt h
  | cageAccess => exact .execCageAccess h
  | cageAccessDone => exact .execCageAccessDone h
  | linkLockAcquired => exact .execLinkLockAcquired h
  | calibrationDone => exact .execCalibrationDone h
  | linkLossOfLock => exact .execLinkLossOfLock h
  | bncProfCommit => exact .execBncProfCommit h
  | profRetireDone => exact .execProfRetireDone h
  | bncDefaultWrite => exact .execBncDefaultWrite h
  | bucketMove => exact .execBucketMove h
  | drainMarkerPass => exact .execDrainMarkerPass h
  | benchFault => exact .execBenchFault h
  | tblInsert => exact .execTblInsert h
  | tblUpdate => exact .execTblUpdate h
  | tblDelete => exact .execTblDelete h
  | tblLookup => exact .execTblLookup h
  | lpmAdd => exact .execLpmAdd h
  | lpmDel => exact .execLpmDel h
  | lpmLookup => exact .execLpmLookup h
  | learnFlush => exact .execLearnFlush h
  | tblProgWrite => exact .execTblProgWrite h
  | tblDescWrite => exact .execTblDescWrite h
  | tblLearnCfgWrite => exact .execTblLearnCfgWrite h
  | learnInsert => exact .execLearnInsert h
  | learnAge => exact .execLearnAge h
  | actWrite => exact .execActWrite h
  | actRead => exact .execActRead h
  | tmplWrite => exact .execTmplWrite h
  | psetWrite => exact .execPsetWrite h
  | mcgWrite => exact .execMcgWrite h
  | voqQuery => exact .execVoqQuery h
  | bankGroupFault => exact .execBankGroupFault h
  | bankGroupDrained => exact .execBankGroupDrained h
  | swcAltWrite => exact .execSwcAltWrite h
  | swcUnpin => exact .execSwcUnpin h
  | unpinMarkerServed => exact .execUnpinMarkerServed h
  | keyInstall => exact .execKeyInstall h
  | keyRetire => exact .execKeyRetire h
  | saRetireDone => exact .execSaRetireDone h
  | keyRekey => exact .execKeyRekey h
  | saQuery => exact .execSaQuery h
  | entropyRead => exact .execEntropyRead h
  | noiseSourceFail => exact .execNoiseSourceFail h
  | drbgReseed => exact .execDrbgReseed h
  | keyCacheError => exact .execKeyCacheError h
  | rewrapDone => exact .execRewrapDone h
  | connOpen => exact .execConnOpen h
  | connClose => exact .execConnClose h
  | closeDrainEnd => exact .execCloseDrainEnd h
  | connQuery => exact .execConnQuery h
  | connPath => exact .execConnPath h
  | msgSend => exact .execMsgSend h
  | msgRecv => exact .execMsgRecv h
  | dataReceive => exact .execDataReceive h
  | recvComplete => exact .execRecvComplete h
  | ackReceive => exact .execAckReceive h
  | nakReceive => exact .execNakReceive h
  | rereqReceive => exact .execRereqReceive h
  | pollReceive => exact .execPollReceive h
  | probeReceive => exact .execProbeReceive h
  | probeAckReceive => exact .execProbeAckReceive h
  | closeReceive => exact .execCloseReceive h
  | probeTimer => exact .execProbeTimer h
  | openTimeout => exact .execOpenTimeout h
  | pathDownTimeout => exact .execPathDownTimeout h
  | pathsDownTimeout => exact .execPathsDownTimeout h
  | reasmTimerExpiry => exact .execReasmTimerExpiry h
  | pollTimerExpiry => exact .execPollTimerExpiry h
  | ackTimerExpiry => exact .execAckTimerExpiry h
  | rnrRetryExpiry => exact .execRnrRetryExpiry h
  | pacingRelease => exact .execPacingRelease h
  | rateIncrease => exact .execRateIncrease h
  | regOpen => exact .execRegOpen h
  | regRevoke => exact .execRegRevoke h
  | revokeDone => exact .execRevokeDone h
  | regMode => exact .execRegMode h
  | regQuery => exact .execRegQuery h
  | ccQuery => exact .execCcQuery h
  | odpWaitTimeout => exact .execOdpWaitTimeout h
  | sqFetch => exact .execSqFetch h
  | storageCommandStart => exact .execStorageCommandStart h
  | rangeLockRelease => exact .execRangeLockRelease h
  | nvmeRead => exact .execNvmeRead h
  | nvmeWrite => exact .execNvmeWrite h
  | nvmeFlush => exact .execNvmeFlush h
  | nvmeWriteZeroes => exact .execNvmeWriteZeroes h
  | nvmeDatasetManagement => exact .execNvmeDatasetManagement h
  | nvmeCreateIoSq => exact .execNvmeCreateIoSq h
  | nvmeCreateIoCq => exact .execNvmeCreateIoCq h
  | nvmeDeleteIoSq => exact .execNvmeDeleteIoSq h
  | nvmeDeleteIoCq => exact .execNvmeDeleteIoCq h
  | nvmeIdentify => exact .execNvmeIdentify h
  | nvmeGetLogPage => exact .execNvmeGetLogPage h
  | nvmeAbort => exact .execNvmeAbort h
  | nvmeSetFeatures => exact .execNvmeSetFeatures h
  | nvmeGetFeatures => exact .execNvmeGetFeatures h
  | nvmeAsyncEventRequest => exact .execNvmeAsyncEventRequest h
  | nvmeUnsupportedOpcode => exact .execNvmeUnsupportedOpcode h
  | powerStateEntryEnd => exact .execPowerStateEntryEnd h
  | backendCompletion => exact .execBackendCompletion h
  | backendTimeout => exact .execBackendTimeout h
  | writeBack => exact .execWriteBack h
  | remoteResponse => exact .execRemoteResponse h
  | ctrlCreate => exact .execCtrlCreate h
  | ctrlEnable => exact .execCtrlEnable h
  | ctrlShutdownNormal => exact .execCtrlShutdownNormal h
  | ctrlShutdownAbrupt => exact .execCtrlShutdownAbrupt h
  | ctrlShutdownDone => exact .execCtrlShutdownDone h
  | ctrlReset => exact .execCtrlReset h
  | ctrlResetDone => exact .execCtrlResetDone h
  | ctrlDestroy => exact .execCtrlDestroy h
  | volCreate => exact .execVolCreate h
  | volDestroy => exact .execVolDestroy h
  | volBind => exact .execVolBind h
  | nsAttach => exact .execNsAttach h
  | nsDetach => exact .execNsDetach h
  | stoQuery => exact .execStoQuery h
  | pnWfe => exact .execPnWfe h
  | wfeWake => exact .execWfeWake h
  | pnEvsend => exact .execPnEvsend h
  | pnGrsv => exact .execPnGrsv h
  | pnGseal => exact .execPnGseal h
  | pnGtake => exact .execPnGtake h
  | pnGfree => exact .execPnGfree h
  | pnDtime => exact .execPnDtime h
  | penlithIllegalInstruction => exact .execPenlithIllegalInstruction h
  | threadTimerExpiry => exact .execThreadTimerExpiry h
  | waitDeadlock => exact .execWaitDeadlock h
  | deadlockSnapshotClear => exact .execDeadlockSnapshotClear h
  | gallerySend => exact .execGallerySend h
  | galleryDelivery => exact .execGalleryDelivery h
  | galleryEnable => exact .execGalleryEnable h
  | threadStart => exact .execThreadStart h
  | threadStop => exact .execThreadStop h
  | threadHalt => exact .execThreadHalt h
  | threadResume => exact .execThreadResume h
  | threadKick => exact .execThreadKick h
  | galleryAbandon => exact .execGalleryAbandon h
  | threadMigrate => exact .execThreadMigrate h
  | migrateDone => exact .execMigrateDone h
  | clusterFreqWrite => exact .execClusterFreqWrite h
  | cairnClaim => exact .execCairnClaim h
  | cairnComplete => exact .execCairnComplete h
  | cairnRaise => exact .execCairnRaise h
  | coreFault => exact .execCoreFault h
  | powerOnReset => exact .execPowerOnReset h
  | sysReset => exact .execSysReset h
  | imageChunkWritten => exact .execImageChunkWritten h
  | imageTagCheck => exact .execImageTagCheck h
  | unitReady => exact .execUnitReady h
  | unitReadyTimeout => exact .execUnitReadyTimeout h
  | holdRegionWriteFault => exact .execHoldRegionWriteFault h
  | minimalRetry => exact .execMinimalRetry h
  | svyCommit => exact .execSvyCommit h
  | commitTimeUpdate => exact .execCommitTimeUpdate h
  | packageSubmit => exact .execPackageSubmit h
  | imagePackageInstall => exact .execImagePackageInstall h
  | epochAdvance => exact .execEpochAdvance h
  | ownerSlotRevoke => exact .execOwnerSlotRevoke h
  | noticeAck => exact .execNoticeAck h
  | hbmRowRepair => exact .execHbmRowRepair h
  | uncorrectableError => exact .execUncorrectableError h
  | memoryScrub => exact .execMemoryScrub h
  | lockstepMismatch => exact .execLockstepMismatch h
  | surveyorRestartDone => exact .execSurveyorRestartDone h
  | healthCoalExpiry => exact .execHealthCoalExpiry h
  | protLogPop => exact .execProtLogPop h
  | surveyReadAdvance => exact .execSurveyReadAdvance h
  | wearSample => exact .execWearSample h
  | consumablesSave => exact .execConsumablesSave h
  | hltSnapshot => exact .execHltSnapshot h
  | surveyDrain => exact .execSurveyDrain h
  | mctpControl => exact .execMctpControl h
  | i3cAddressAssign => exact .execI3cAddressAssign h
  | mctpNotReady => exact .execMctpNotReady h
  | theivoRegRead => exact .execTheivoRegRead h
  | theivoRegWrite => exact .execTheivoRegWrite h
  | theivoDpRead => exact .execTheivoDpRead h
  | theivoDpWrite => exact .execTheivoDpWrite h
  | pldmGetPdr => exact .execPldmGetPdr h
  | pldmGetSensorReading => exact .execPldmGetSensorReading h
  | pldmGetStateSensorReadings => exact .execPldmGetStateSensorReadings h
  | pldmSetEventReceiver => exact .execPldmSetEventReceiver h
  | pldmEventRetry => exact .execPldmEventRetry h
  | pldmBaseRequest => exact .execPldmBaseRequest h
  | requestUpdate => exact .execRequestUpdate h
  | firmwareDataReceive => exact .execFirmwareDataReceive h
  | firmwareVerifyApply => exact .execFirmwareVerifyApply h
  | activateFirmware => exact .execActivateFirmware h
  | cancelUpdate => exact .execCancelUpdate h
  | updateIdleTimeout => exact .execUpdateIdleTimeout h
  | spdmNegotiate => exact .execSpdmNegotiate h
  | spdmGetCertificate => exact .execSpdmGetCertificate h
  | spdmChallenge => exact .execSpdmChallenge h
  | spdmGetMeasurements => exact .execSpdmGetMeasurements h
  | dpLockClaim => exact .execDpLockClaim h
  | dpRelease => exact .execDpRelease h
  | dpIdleTimeout => exact .execDpIdleTimeout h
  | dpApertureAccess => exact .execDpApertureAccess h
  | dpDump => exact .execDpDump h
  | dumpDone => exact .execDumpDone h
  | debugNonceNew => exact .execDebugNonceNew h
  | debugTokenSubmit => exact .execDebugTokenSubmit h
  | debugTokenCheckDone => exact .execDebugTokenCheckDone h
  | debugLock => exact .execDebugLock h
  | supplyFault => exact .execSupplyFault h
  | thermalTrip => exact .execThermalTrip h
  | sensorSample => exact .execSensorSample h
  | avsStepAck => exact .execAvsStepAck h
  | avsTimeout => exact .execAvsTimeout h
  | refclkLoss => exact .execRefclkLoss h
  | aerErrorMessage => exact .execAerErrorMessage h
  | atsPriEnableChange => exact .execAtsPriEnableChange h
  | interruptCoalescingExpiry => exact .execInterruptCoalescingExpiry h
  | powerStateExitEnd => exact .execPowerStateExitEnd h
  | ralushMalformedDiscard => exact .execRalushMalformedDiscard h
  | mctpMessageDiscard => exact .execMctpMessageDiscard h
  | tapInstructionLoad => exact .execTapInstructionLoad h
  | refclkReturn => exact .execRefclkReturn h

/-- A step runs the front command with the rest of the queue, which it keeps, or ticks Datum. -/
theorem wf_of_step (hw : s.Wf) (e : step s = .next t) : t.Wf := by
  unfold step at e
  split at e
  · cases e
    exact (Keeps.datumTick (Keeps.refl s)).wf hw
  next c rest _ =>
    obtain ⟨u, hu, hk⟩ := Goes.exec (c := c) (Keeps.refl { s with pending := rest })
    cases hu.symm.trans e
    exact hk.wf hw

end

/-- Settles O54: each command and each tick keeps the form, by one lemma per function of the model. -/
theorem stepKeepsCanonicalForm : Obligations.StepKeepsCanonicalForm := by
  unfold Obligations.StepKeepsCanonicalForm
  exact fun _ _ hw e => wf_of_step hw e

/-- Settles O55: the same lemmas say that every command answers a next state with the queue kept. -/
theorem everyCommandAnswersAndKeepsTheQueue : Obligations.EveryCommandAnswersAndKeepsTheQueue := by
  unfold Obligations.EveryCommandAnswersAndKeepsTheQueue
  intro c s
  obtain ⟨t, e, hk⟩ := Goes.exec (c := c) (Keeps.refl s)
  exact ⟨t, e, hk.pending⟩

end Sys2Proof.Machine

/-! PROOFS. What an event leaves (R486, R487), and a host's write to internal memory (R122, R30). -/

namespace Sys2Proof.Machine

/-! ## What reporting leaves: events, messages and log entries -/

/-- From s to t only registers, cairns, vectors, the health record and the messages sent changed. -/
def Reports (s t : State) : Prop :=
  t = { s with regs := t.regs, outs := t.outs, vectors := t.vectors, cairns := t.cairns, health := t.health }

theorem Reports.refl (s : State) : Reports s s := rfl

theorem Reports.trans {s t u : State} (hst : Reports s t) (htu : Reports t u) : Reports s u := by
  unfold Reports at *
  exact htu.trans (by rw [hst])

theorem Reports.foldl {α : Type} {f : State → α → State} (hf : ∀ s a, Reports s (f s a)) (l : List α) (s : State) :
    Reports s (l.foldl f s) := by
  induction l generalizing s with
  | nil => exact .refl s
  | cons a l ih => exact (hf s a).trans (ih _)

theorem reports_setReg (s : State) (a : Nat) (v : BitVec 64) : Reports s (s.setReg a v) := rfl

theorem reports_wr (s : State) (f : Fld) (x : Nat) : Reports s (s.wr f x) := rfl

theorem reports_count (s : State) (f : Fld) (n : Nat) : Reports s (s.count f n) := rfl

theorem reports_health (s : State) (x : Health) : Reports s { s with health := x } := rfl

theorem reports_cairnEventIn (k src : Nat) (s : State) : Reports s (cairnEventIn k src s) := by
  unfold cairnEventIn
  dsimp only
  split <;> rfl

theorem reports_sendVector (s : State) (p f v : Nat) : Reports s (s.sendVector p f v) := by
  unfold State.sendVector
  dsimp only
  split_ifs <;> rfl

theorem reports_notifyPort (p : Nat) (s : State) : Reports s (notifyPort p s) := by
  unfold notifyPort
  split
  · rfl
  · split
    · rfl
    · exact (reports_sendVector ..).trans rfl

theorem reports_raise (f : Fld) (s : State) : Reports s (raise f s) := by
  unfold raise
  split
  · rfl
  · exact ((reports_wr s f 1).trans (.foldl (fun t k => reports_cairnEventIn k _ t) _ _)).trans <|
      .foldl (fun t p => reports_notifyPort p t) _ _

@[simp] theorem raise_mem (f : Fld) (s : State) : (raise f s).mem = s.mem := by rw [reports_raise f s]
@[simp] theorem raise_contracts (f : Fld) (s : State) : (raise f s).contracts = s.contracts := by rw [reports_raise f s]
@[simp] theorem raise_rings (f : Fld) (s : State) : (raise f s).rings = s.rings := by rw [reports_raise f s]
@[simp] theorem raise_sheets (f : Fld) (s : State) : (raise f s).sheets = s.sheets := by rw [reports_raise f s]

theorem reports_showProt (s : State) : Reports s (showProt s) := by
  unfold showProt
  split <;> rfl

/-- A protection event is counted, and the log shows its oldest entry (R488): the steps of its record. -/
theorem reports_protEvent (who : Party) (addr : Nat) (isWrite : Bool) (offset : Option Nat) (s : State) :
    Reports s (protEvent who addr isWrite offset s) := by
  unfold protEvent
  split
  · rfl
  · rfl
  · extract_lets t first log _ u
    have ht : Reports s t := reports_count ..
    have hu : Reports s u := (ht.trans (reports_health t _)).trans (reports_showProt _)
    split_ifs
    · exact ht.trans (reports_count ..)
    · exact hu.trans (reports_raise ..)
    · exact hu

/-! ## The registers a report writes -/

theorem filter_tblPut {α : Type} {p : Nat × α → Bool} {k : Nat} {x : α} (t : Tbl α) (hp : ∀ y, p (k, y) = false) :
    (tblPut t k x).filter p = t.filter p := by
  induction t with
  | nil => simp [tblPut, hp]
  | cons c t ih =>
    obtain ⟨n, y⟩ := c
    simp only [tblPut]
    split_ifs with _ he
    · simp [hp]
    · subst he; simp [hp]
    · simp [List.filter_cons, ih]

theorem filter_tblDel {α : Type} {p : Nat × α → Bool} {k : Nat} (t : Tbl α) (hp : ∀ y, p (k, y) = false) :
    (tblDel t k).filter p = t.filter p := by
  induction t with
  | nil => rfl
  | cons c t ih =>
    obtain ⟨n, y⟩ := c
    simp only [tblDel]
    split_ifs with he
    · subst he; simp [hp]
    · simp [List.filter_cons, ih]

section
variable {p : Nat → Bool}

/-- A register outside those picked is written: those picked stay. -/
theorem State.setReg_regs_filter (s : State) {a : Nat} (v : BitVec 64) (hp : p (canonAddr a) = false) :
    (s.setReg a v).regs.filter (fun r => p r.1) = s.regs.filter (fun r => p r.1) := by
  unfold State.setReg
  dsimp only
  split_ifs
  · exact filter_tblDel _ fun _ => hp
  · exact filter_tblPut _ fun _ => hp

theorem State.wr_regs_filter (s : State) {f : Fld} (x : Nat) (hp : p (canonAddr f.addr) = false) :
    (s.wr f x).regs.filter (fun r => p r.1) = s.regs.filter (fun r => p r.1) := s.setReg_regs_filter _ hp

theorem raise_regs_filter (s : State) {f : Fld} (hp : p (canonAddr f.addr) = false) :
    (raise f s).regs.filter (fun r => p r.1) = s.regs.filter (fun r => p r.1) := by
  rw [raise_regs]
  split
  · rfl
  · exact s.wr_regs_filter _ hp

end

/-- An address outside the health block. -/
def beyondHealth (a : Nat) : Bool := a / 0x1000000 != 0x10

theorem showProt_regs_filter (s : State) :
    (showProt s).regs.filter (fun r => beyondHealth r.1) = s.regs.filter (fun r => beyondHealth r.1) := by
  unfold showProt
  split <;> rw [State.setReg_regs_filter (p := beyondHealth) _ _ (by decide), State.setReg_regs_filter (p := beyondHealth) _ _ (by decide)]

/-- The registers of a protection event are all of the health block. -/
theorem protEvent_regs_filter (who : Party) (addr : Nat) (isWrite : Bool) (offset : Option Nat) (s : State) :
    (protEvent who addr isWrite offset s).regs.filter (fun r => beyondHealth r.1)
      = s.regs.filter (fun r => beyondHealth r.1) := by
  unfold protEvent
  split
  · rfl
  · rfl
  · extract_lets t first log _ u
    have ht : t.regs.filter (fun r => beyondHealth r.1) = s.regs.filter (fun r => beyondHealth r.1) :=
      s.wr_regs_filter (p := beyondHealth) _ (by decide)
    have hu := (showProt_regs_filter { t with health := { t.health with protLog := log } }).trans ht
    split_ifs
    · exact (t.wr_regs_filter (p := beyondHealth) _ (by decide)).trans ht
    · exact (raise_regs_filter (p := beyondHealth) u (by decide)).trans hu
    · exact hu

/-! ## A host's write through a window -/

/-- Bytes of a host's request: of its data, or as many as it reads. -/
def requestLength (n : Nat) (data : Option Bytes) : Nat := (data.map List.length).getD n

/-- A host's request that nothing refuses goes through the window it falls in (R122). -/
theorem exec_hostMmioRequest_through {p f bar off n : Nat} {data : Option Bytes} {w : Win} {s : State} (hlink : s.linkUp p = true)
    (hf : (s.func p f).present = true) (hbar : bar ≤ 1) (hlen : 0 < requestLength n data)
    (hsize : off + requestLength n data ≤ s.barSize p f bar) (hmsix : bar = 0 → off < s.barSize p f bar - 65536)
    (hw : s.windowAt p f bar off = some w) (hend : off + requestLength n data ≤ w.offset + 2 ^ w.sizeLog2)
    (hdis : data.isSome = true → w.wrDis = false) (hboot : s.rd SVY_BOOT_STATUS_STATE = 4 → w = s.window true p 0 0) :
    exec (.hostMmioRequest p f bar off n data) s = .next (hostThrough p f w off (requestLength n data) data s) := by
  change execHostMmioRequest p f bar off n data s = _
  unfold execHostMmioRequest
  cases data with
  | none =>
    simp only [requestLength, Option.map_none, Option.getD_none] at hlen hsize hend ⊢
    rw [if_neg (by simp [hlink, hf]; omega), if_neg (by omega), hw]
    dsimp only
    rw [if_neg (by simpa using hboot), if_neg (by simp; omega)]
  | some bs =>
    simp only [requestLength, Option.map_some, Option.getD_some] at hlen hsize hend ⊢
    rw [if_neg (by simp [hlink, hf, -List.length_eq_zero_iff]; omega), if_neg (by omega), hw]
    dsimp only
    rw [if_neg (by simpa using hboot), if_neg (by simp [hdis]; omega)]

/-- A window onto memory hands a write to the address it is translated to. -/
theorem hostThrough_memory {p f off n : Nat} {bs : Bytes} {w : Win} (s : State) (hkind : w.kind = 4 ∨ w.kind = 5) :
    hostThrough p f w off n (some bs) s = hostMemWrite p f (w.target + (off - w.offset)) bs s := by
  unfold hostThrough
  rcases hkind with hk | hk <;> rw [hk] <;> rfl

/-- A write that no locked hold region refuses, to memory that is there, stores its bytes. -/
theorem memAccess_of_there {who : Party} {a : Nat} {s : State} (bs : Bytes) (hhold : s.lockedHold a = none)
    (hthere : s.memThere a = true) : memAccess who a bs s = memStore a bs s := by
  unfold memAccess
  rw [if_neg (by simp [hhold]), if_pos hthere]

/-- Settles O57: what the firewall keeps is a protection event, and every other write is the store of its bytes. -/
theorem hostMemoryWriteChangesItsBytesOnly : Obligations.HostMemoryWriteChangesItsBytesOnly := by
  unfold Obligations.HostMemoryWriteChangesItsBytesOnly
  intro p f bar off a bs w s hs hlink hf hbar hbs hsize hmsix hw hend hdis hboot hkind ha hhold hthere
  refine ⟨_, exec_hostMmioRequest_through hlink hf hbar (List.length_pos_iff.2 hbs) hsize (by omega) hw hend (fun _ => hdis)
    (fun h => absurd h hboot), ?_⟩
  rw [hostThrough_memory s hkind, ← ha]
  unfold hostMemWrite
  split
  next =>
    have hr := reports_protEvent (.host p f) a true none s
    refine ⟨fun _ _ => by rw [hr], ?_, protEvent_regs_filter .., ?_⟩ <;> rw [hr]
    exact ⟨rfl, rfl, rfl⟩
  next =>
    rw [memAccess_of_there bs hhold hthere]
    obtain ⟨-, ⟨hm, -, -⟩, -, -⟩ := hs
    refine ⟨fun x hx => memGet_memWrite_outside s.mem bs hx, fun i hi => ?_, rfl, rfl, rfl, rfl⟩
    rw [List.getD_eq_getElem _ _ hi]
    exact memGet_memWrite_inside hm bs hi

end Sys2Proof.Machine

/-! PROOFS. The access codes of a register's fields (Table 0.5), where the register file is in no canonical form. -/

namespace Sys2Proof.Machine

/-- SVY_CTRL, the register at address 0: FORCE_MIN (RWS, reset 0) and RETRY_S (RWS, reset 0x3C). -/
def svyCtrl : RegSpec :=
  ⟨"SVY_CTRL", 0x0, [], 4, [⟨"FORCE_MIN", 0, 1, .rws, [], 0⟩, ⟨"RETRY_S", 1, 16, .rws, [(0, 0, 1)], 0x3c⟩]⟩

/-- The reset state with SVY_CTRL listed twice, FORCE_MIN being 1 in both entries. -/
def svyCtrlTwice : State := { State.reset with regs := [(0, 1), (0, 1)] }

theorem findReg_svyCtrl : findReg 0 = some (svyCtrl, 0) := rfl

/-- The write of SVY_CTRL's reset value takes one of its two entries away, and the other is then read. -/
theorem svyCtrlTwice_plainWrite_reg : (svyCtrlTwice.plainWrite 0 0x78).reg 0 = 1 := by decide +kernel

/-- Refutes O58: the statement asks for no canonical form of the register file. Of a state that lists a register twice, a
write of the reset value drops the first entry alone, so FORCE_MIN of SVY_CTRL reads 1 after 0 was written to it. -/
theorem not_registerWriteFollowsAccessCodes : ¬ Obligations.RegisterWriteFollowsAccessCodes := by
  unfold Obligations.RegisterWriteFollowsAccessCodes
  intro h
  obtain ⟨hfields, -, -⟩ := h 0 0 0x78 svyCtrl svyCtrlTwice findReg_svyCtrl
  have hforce := hfields ⟨"FORCE_MIN", 0, 1, .rws, [], 0⟩ (List.mem_cons_self ..)
  rw [svyCtrlTwice_plainWrite_reg] at hforce
  exact absurd hforce (by decide)

/-! PROOFS. A step, and the state after reset. -/

/-- Settles O50: the step's own equation on a queue with a front. -/
theorem stepRunsTheFrontCommand : Obligations.StepRunsTheFrontCommand := by
  unfold Obligations.StepRunsTheFrontCommand
  intro c s rest hq
  simp only [step, hq]

/-- Settles O52: the register file lists nothing, so every register reads its reset value. -/
theorem resetLeavesRegisterMaps : Obligations.ResetLeavesRegisterMaps := by
  unfold Obligations.ResetLeavesRegisterMaps
  exact ⟨fun _ => rfl, rfl, rfl, rfl, rfl, rfl, rfl, rfl, rfl, rfl, by decide, by decide, by decide, by decide⟩

/-- Settles O53: every table and memory of the state after reset lists nothing. -/
theorem resetIsCanonical : Obligations.ResetIsCanonical := by
  unfold Obligations.ResetIsCanonical State.Wf
  refine ⟨⟨rfl, fun x hx => ?_⟩, ⟨rfl, rfl, rfl⟩, ⟨rfl, rfl, rfl, rfl, rfl⟩, ⟨rfl, rfl, rfl, rfl, rfl, rfl, rfl⟩⟩
  simp [State.reset] at hx
end Sys2Proof.Machine

namespace Sys2Proof.Machine
/-! ## An idle step (R35, R36, R43) -/

/-- What slewing adds is within the limit and what is left to slew, and less than a unit is carried. -/
theorem slewStep_bounds (limit acc : Nat) (slew : Int) :
    (slewStep limit acc slew).1.natAbs * 1000000 ≤ acc + limit * 65536 ∧ (slewStep limit acc slew).1.natAbs ≤ slew.natAbs
      ∧ (slewStep limit acc slew).2 < 1000000 := by
  unfold slewStep
  split
  · simp
  · extract_lets a most
    have hsign : (if 0 < slew then (most : Int) else -(most : Int)).natAbs = most := by split <;> simp
    simp only [hsign]
    omega

/-- What the learned error adds and what is carried forward together are the error's share of the nanosecond. -/
theorem holdStep_exact (e : Int) (acc : Nat) :
    (holdStep e acc).1 * 1000000000000 + (holdStep e acc).2 = acc - 65536 * e ∧ (holdStep e acc).2 < 1000000000000 := by
  unfold holdStep
  dsimp only
  omega

/-- A measurement of an oscillator changes its record and draws a free value, or nothing. -/
theorem measureOsc_frame (n : Nat) (s : State) :
    ∃ (o : Tbl Oscillator) (k : Nat), measureOsc n s = { s with dtm := { s.dtm with osc := o }, fresh := k } := by
  unfold measureOsc
  split
  · exact ⟨_, _, rfl⟩
  · exact ⟨s.dtm.osc, s.fresh, rfl⟩

/-- A tick is Datum's count, and at the end of a second the measurement of the oscillators. -/
theorem datumTick_frame {s : State} (h : s.power.inReset = false) :
    ∃ (o : Tbl Oscillator) (k : Nat),
      datumTick s = { countTick s with dtm := { (countTick s).dtm with osc := o }, fresh := k } := by
  unfold datumTick
  rw [if_neg (by simp [h])]
  dsimp only
  split
  · exact ⟨_, _, rfl⟩
  · obtain ⟨o, k, h0⟩ := measureOsc_frame 0 (countTick s)
    obtain ⟨o', k', h1⟩ := measureOsc_frame 1 (measureOsc 0 (countTick s))
    exact ⟨o', k', by rw [h1, h0]⟩

/-- Settles O51: a step on an empty queue is a tick of Datum. -/
theorem idleStepCountsDatum : Obligations.IdleStepCountsDatum := by
  unfold Obligations.IdleStepCountsDatum
  refine ⟨fun s hq hr => ?_, fun s hq hr => ?_⟩
  · simp [step, hq, datumTick, hr]
  · obtain ⟨o, k, h⟩ := datumTick_frame hr
    obtain ⟨hlimit, hleft, hacc⟩ := slewStep_bounds (s.rd DTM_CTRL_SLEW_LIMIT) s.dtm.slewAcc s.dtm.slew
    obtain ⟨hexact, hcarry⟩ := holdStep_exact s.holdError s.dtm.holdAcc
    refine ⟨_, _, _, _, o, k, ?_, hlimit, hleft, hacc, hexact, hcarry⟩
    have hstep : step s = .next (datumTick s) := by simp only [step, hq]
    rw [hstep, h]
    rfl
end Sys2Proof.Machine

/-! PROOFS. Accesses to control space (R8, R16, R30), and the obligations on registers, islands and slot waits. -/

namespace Sys2Proof.Machine

/-! ## Little-endian bytes -/

@[simp] theorem length_leBytes (n x : Nat) : (leBytes n x).length = n := by
  induction n generalizing x with
  | zero => rfl
  | succ n ih => simp [leBytes, ih]

/-- The bytes of a number spell what of it fits them. -/
theorem ofLe_leBytes (n x : Nat) : ofLe (leBytes n x) = x % 2 ^ (8 * n) := by
  induction n generalizing x with
  | zero => simp [leBytes, ofLe, Nat.mod_one]
  | succ n ih =>
    have hp : 2 ^ (8 * (n + 1)) = 256 * 2 ^ (8 * n) := by rw [Nat.mul_succ, pow_add]; ring
    simp only [leBytes, ofLe, ih, BitVec.toNat_ofNat, hp, Nat.mod_mul]

/-! ## An aligned access of a register -/

section
variable {a n : Nat} (hn : n = 4 ∨ n = 8) (ha : a % n = 0)
include hn ha

/-- An aligned access of 4 or 8 bytes is held where its first byte is. -/
theorem State.holderOf_aligned (s : State) : s.holderOf a n = s.heldBy a := by
  have hone : (a % 8 + n + 7) / 8 = 1 := by rcases hn with rfl | rfl <;> omega
  unfold State.holderOf
  rw [hone]
  cases h : s.heldBy a <;> simp [List.range_succ, h]

/-- An aligned access of 4 or 8 bytes lies in one line. -/
theorem State.reachesAll_aligned (who : Party) (s : State) : s.reachesAll who a n = s.reaches who a := by
  have hone : (a % 64 + n + 63) / 64 = 1 := by rcases hn with rfl | rfl <;> omega
  unfold State.reachesAll linesOf
  rw [hone]
  have hmax : max a (64 * (a / 64)) = a := by omega
  simp [List.range_succ, hmax]

theorem writePart_aligned (who : Party) (v : Nat) (s : State) (hreg : regBytes a = n) :
    writePart who a n (v % 2 ^ (8 * n)) s = writeReg who a (BitVec.ofNat 64 (v % 2 ^ (8 * n))) s := by
  unfold writePart
  rcases hn with rfl | rfl
  · rw [if_pos ⟨rfl, ha⟩]
    simp [write4, hreg]
  · rw [if_neg (by omega), if_pos ⟨rfl, ha⟩, if_pos hreg]

/-- A write that its party and island allow, to a register of its width, writes it. -/
theorem perform_write_aligned {who : Party} {s : State} {v gen : Nat} (hreach : s.reaches who a = true)
    (hrel : s.unreleased a = false) (hplace : placeOf a = .registers) (hreg : regBytes a = n) :
    perform ⟨who, true, a, n, v, gen⟩ s = writeReg who a (BitVec.ofNat 64 (v % 2 ^ (8 * n))) s := by
  have hpieces : piecesOf a n = [(a, n)] := by
    unfold piecesOf partsOf
    rw [hplace, if_neg (by simp [Place.takesWhole]), if_pos (by omega)]
  have htake : (leBytes n v).take n = leBytes n v := List.take_of_length_le (by simp)
  unfold perform writeSpace
  simp only [if_true, length_leBytes, hpieces, writePieces, htake]
  unfold writePiece
  simp only [length_leBytes, s.reachesAll_aligned hn ha, hreach, hrel, hplace, ofLe_leBytes]
  simpa using writePart_aligned hn ha who v s hreg

end

/-- Settles O1: each access is unfolded to the write, the hold or the completion it is. -/
theorem controlAccessesComplete : Obligations.ControlAccessesComplete := by
  unfold Obligations.ControlAccessesComplete
  refine ⟨fun who a n v s hreach hrel hout hheld hplace hn ha hreg => ?_, fun who a n v k s hout hheld hn ha => ?_,
    fun node rt s hrel hin hstay hdatum => ?_, fun g r s hr hwait hrun hroom => ?_,
    fun g r j s hr hj hrun => ⟨fun hop => ?_, fun hop hkind => ?_⟩⟩
  · change Host.Outcome.next (access _ s) = _
    unfold access
    simp only [hout, s.holderOf_aligned hn ha, hheld, perform_write_aligned hn ha hreach hrel hplace hreg]
  · change Host.Outcome.next (access _ s) = _
    unfold access
    simp only [hout, s.holderOf_aligned hn ha, hheld]
  · change execIslandResetEnd node rt s = _
    unfold execIslandResetEnd
    rw [if_neg (by simp [hrel, hin, hstay]; tauto)]
    rfl
  · change execFlightSlotWaitStart g s = _
    simp only [execFlightSlotWaitStart, hr]
    rw [if_pos ⟨hwait, hrun, hroom⟩]
  · change execUndefinedOpcode g s = _
    simp [execUndefinedOpcode, hr, hj, hrun, hop]
  · change execUndefinedOpcode g s = _
    simp [execUndefinedOpcode, hr, hj, hrun, hop, hkind]
end Sys2Proof.Machine

/-! PROOFS. Packets between inlet, bench and outlet (chapters 8, 9, 11 and 12). -/

namespace Sys2Proof.Machine

/-! ## Registers beside the one written -/

/-- Below the bench blocks every register has one address. -/
theorem canonAddr_of_lt {a : Nat} (h : a < 0x8000000) : canonAddr a = a := if_neg (by omega)

/-- A count leaves every field of another register below the bench blocks. -/
theorem State.rd_count_ne_of_lt (s : State) {f g : Fld} (n : Nat) (hne : g.addr ≠ f.addr) (hg : g.addr < 0x8000000)
    (hf : f.addr < 0x8000000) : (s.count f n).rd g = s.rd g :=
  s.rd_wr_ne (by rwa [canonAddr_of_lt hg, canonAddr_of_lt hf]) _

section
variable {p : Nat} (hp : p < 64) (s : State) (cor unc : Nat)
include hp

/-- The codeword counters of a port leave its state. -/
theorem rd_netStatus_codewords :
    ((s.count (NET_FEC_CORR_CW p) cor).count (NET_FEC_UNCORR_CW p) unc).rd (NET_PORT_STATUS_STATE p)
      = s.rd (NET_PORT_STATUS_STATE p) := by
  simp only [NET_FEC_CORR_CW, NET_FEC_UNCORR_CW, NET_PORT_STATUS_STATE, NET_PORT_STATUS]
  rw [State.rd_count_ne_of_lt, State.rd_count_ne_of_lt] <;> dsimp only <;> omega

/-- The codeword counters of a port leave its configuration. -/
theorem rd_maxFrame_codewords :
    ((s.count (NET_FEC_CORR_CW p) cor).count (NET_FEC_UNCORR_CW p) unc).rd (NET_PORT_CFG_MAX_FRAME p)
      = s.rd (NET_PORT_CFG_MAX_FRAME p) := by
  simp only [NET_FEC_CORR_CW, NET_FEC_UNCORR_CW, NET_PORT_CFG_MAX_FRAME, NET_PORT_CFG]
  rw [State.rd_count_ne_of_lt, State.rd_count_ne_of_lt] <;> dsimp only <;> omega

end

theorem State.island_of_islands {s t : State} (h : t.islands = s.islands) (k : Nat) : t.island k = s.island k := by
  rw [State.island, State.island, h]

/-- A port that sends PFC is UP or PAUSE_FAILED: its lanes are locked, and it is not in CALIBRATING. -/
theorem State.netState_of_sendsPfc {s : State} {p : Nat} (h : s.sendsPfc p = true) :
    lanesLocked (s.netState p) = true ∧ s.netState p ≠ 4 := by
  simp only [State.sendsPfc, Bool.or_eq_true, beq_iff_eq] at h
  unfold State.netState
  rcases h with h | h <;> rw [h] <;> decide

/-- A good frame of an allowed length that is no MAC control frame is handed to the selector without its FCS (R216, R232). -/
theorem exec_networkFrameReceive_data {p : Nat} (cor unc : Nat) {frame : Bytes} {s : State} (hin : (s.island p).inReset = false)
    (hpfc : s.sendsPfc p = true) (hmin : 64 ≤ frame.length) (hmax : frame.length ≤ s.rd (NET_PORT_CFG_MAX_FRAME p))
    (hmac : isMacControl frame = false) (hp : p < 64) :
    exec (.networkFrameReceive p frame ⟨true, cor, unc⟩) s =
      .next (let v := (s.count (NET_FEC_CORR_CW p) cor).count (NET_FEC_UNCORR_CW p) unc
        let u := (v.count (NET_RX_FRAMES p) 1).count (NET_RX_BYTES p) frame.length
        enterBench (u.newFlying p (frame.take (frame.length - 4)) (u.ingressStamp p)) u) := by
  change execNetworkFrameReceive p frame ⟨true, cor, unc⟩ s = _
  obtain ⟨hlanes, hstate⟩ := State.netState_of_sendsPfc hpfc
  have hmax' := hmax.trans_eq (rd_maxFrame_codewords hp s cor unc).symm
  have hrd := rd_netStatus_codewords hp s cor unc
  unfold execNetworkFrameReceive
  rw [if_pos (And.intro hlanes hin)]
  have hin' : (((s.count (NET_FEC_CORR_CW p) cor).count (NET_FEC_UNCORR_CW p) unc).island p).inReset = false := by
    rwa [State.island_of_islands ((State.count_islands ..).trans (State.count_islands ..))]
  generalize (s.count (NET_FEC_CORR_CW p) cor).count (NET_FEC_UNCORR_CW p) unc = v at hrd hmax' hin' ⊢
  have hstate' : v.netState p ≠ 4 := by rwa [State.netState, hrd]
  have hpfc' : v.sendsPfc p = true := by rwa [State.sendsPfc, hrd]
  dsimp only
  rw [if_neg (by simp [hin']), if_neg hstate', if_neg (by simp [hpfc']), if_neg (by omega), if_neg (by simp),
    if_neg (by omega), if_neg (by simp [hmac])]

/-- Settles O2: each event takes the branch that its hypotheses pick. -/
theorem benchPathCompletes : Obligations.BenchPathCompletes := by
  unfold Obligations.BenchPathCompletes
  refine ⟨fun p cor unc frame s _ hin hpfc hmin hmax hmac hp => exec_networkFrameReceive_data cor unc hin hpfc hmin hmax hmac hp,
    fun i f s hf hsend hbudget hbehind => ?_,
    fun k f s hf hruns horder hacted hreplayed => ?_, fun k f a s hf hruns horder hacted hkey => ?_,
    fun k f a s hf hacted hkey hruns => ⟨?_, ?_⟩⟩
  · change execBudgetTokenRelease i s = _
    simp only [execBudgetTokenRelease, hf]
    rw [if_pos ⟨hsend, hbudget, hbehind⟩]
  · change execBenchEnqueue k s = _
    simp only [execBenchEnqueue, hf, hruns, horder, hacted, hreplayed]
    rw [if_neg (by simp), if_neg (by simp)]
    obtain ⟨a | x, t⟩ := actStage f s
    · rfl
    · rfl
  · change execBenchEnqueue k s = _
    simp only [execBenchEnqueue, hf, hruns, horder, hacted, hkey]
    rw [if_neg (by simp)]
  · change execKeyLoadDone k true s = _
    simp [execKeyLoadDone, hf, hacted, hkey, hruns]
  · change execKeyLoadDone k false s = _
    simp [execKeyLoadDone, hf, hacted, hkey, hruns]
end Sys2Proof.Machine

namespace Sys2Proof.Machine
/-- Settles O3: each event takes the branch that its hypotheses pick. -/
theorem egressCompletes : Obligations.EgressCompletes := by
  unfold Obligations.EgressCompletes
  refine ⟨fun o h sc s hserves hchoose => ?_, fun p x rest s hmac hsends => ?_, fun g r p used s hr hrun hhost hhanded hused hslot => ?_⟩
  · change Host.Outcome.next (acceptBlocks (refreshPressure (serveUnit o s))) = _
    simp only [serveUnit, hserves, hchoose]
    rfl
  · change execFrameEgress p s = _
    simp only [execFrameEgress, hmac, hsends, if_true]
    rfl
  · change execRxPlacement g true s = _
    simp only [execRxPlacement, hr, hhanded, hused]
    rw [if_neg (by simp [hrun, hhost]), if_neg (by rcases hslot with h | h <;> simp [h])]
    rfl
end Sys2Proof.Machine

/-! PROOFS. Register writes that the device makes itself, and Datum (chapter 2). -/

namespace Sys2Proof.Machine

/-! ## Writes of the device's own register map -/

/-- An aligned write of the device to a register of its width, at an island that is released and not in reset. -/
theorem devWrite_aligned {a n : Nat} (hn : n = 4 ∨ n = 8) (ha : a % n = 0) {s : State} (v : Nat) (hheld : s.heldBy a = none)
    (hrel : s.unreleased a = false) (hplace : placeOf a = .registers) (hreg : regBytes a = n) :
    devWrite a n v s = writeReg .surveyor a (BitVec.ofNat 64 (v % 2 ^ (8 * n))) s := by
  unfold devWrite access
  rw [show s.outputOf .surveyor a = none from rfl]
  simp only [s.holderOf_aligned hn ha, hheld]
  exact perform_write_aligned hn ha rfl hrel hplace hreg

/-- A write outside the mailbox pages goes to its block. -/
theorem writeReg_routed {who : Party} {a b : Nat} {r : RegSpec} (v : BitVec 64) (s : State)
    (hmail : ¬(0x5000000 ≤ a ∧ a < 0x6000000 ∧ a % 0x1000 < 0x800)) (hfound : findReg a = some (r, b)) :
    writeReg who a v s = routedWrite who b v s := by
  unfold writeReg
  rw [if_neg hmail, hfound]

/-! ## The Datum island -/

section
variable {s : State} {a : Nat} (hup : s.datumUp = true) (ha : s.islandAt a = some datumNode)
include hup ha

theorem State.heldBy_of_datumUp : s.heldBy a = none := by
  unfold State.datumUp at hup
  unfold State.heldBy
  simp_all

theorem State.unreleased_of_datumUp : s.unreleased a = false := by
  unfold State.datumUp at hup
  unfold State.unreleased
  simp_all [datumNode]

end

/-- A servo sample written while Datum is up is taken in: source 1 by DTM_SERVO_A, source 2 by DTM_SERVO_B (R43). -/
theorem exec_servoSampleWrite (b : Bool) (value : BitVec 64) {s : State} (hup : s.datumUp = true) :
    exec (.servoSampleWrite b value) s = .next (servoSample (if b then 2 else 1) value s) := by
  have hvalue : BitVec.ofNat 64 (value.toNat % 2 ^ (8 * 8)) = value := by
    rw [Nat.mod_eq_of_lt value.isLt, BitVec.ofNat_toNat, BitVec.setWidth_eq]
  cases b with
  | true =>
    change Host.Outcome.next (devWrite DTM_SERVO_B 8 value.toNat s) = _
    rw [devWrite_aligned (.inr rfl) (by decide) _ (State.heldBy_of_datumUp hup rfl) (State.unreleased_of_datumUp hup rfl)
      (by decide) (by decide), hvalue, writeReg_routed (b := DTM_SERVO_B) _ _ (by decide) rfl]
    rfl
  | false =>
    change Host.Outcome.next (devWrite DTM_SERVO_A 8 value.toNat s) = _
    rw [devWrite_aligned (.inr rfl) (by decide) _ (State.heldBy_of_datumUp hup rfl) (State.unreleased_of_datumUp hup rfl)
      (by decide) (by decide), hvalue, writeReg_routed (b := DTM_SERVO_A) _ _ (by decide) rfl]
    rfl

theorem testBit_ofBits (l : List Bool) (n : Nat) : (ofBits l).testBit n = l.getD n false := by
  induction l generalizing n with
  | nil => simp [ofBits]
  | cons b l ih =>
    cases n with
    | zero => cases b <;> simp [ofBits, Nat.testBit_zero, Nat.add_mod]
    | succ n =>
      have hhalf : ((if b then 1 else 0) + 2 * ofBits l) / 2 = ofBits l := by split <;> omega
      simp only [ofBits, Nat.testBit_succ, hhalf, ih, List.getD_cons_succ]

/-- Writing the qualified sources changes that of one source, and not the source selected. -/
theorem setQual_fields {s : State} (hs : tblWf s.regs = true) {n : Nat} (hn : n < 3) (on : Bool) :
    (setQual n on s).qualified n = on ∧ (setQual n on s).rd DTM_STATUS_SRC = s.rd DTM_STATUS_SRC := by
  refine ⟨?_, s.rd_wr_disjoint hs (f := DTM_STATUS_QUAL) (g := DTM_STATUS_SRC) rfl (by decide) (by decide) _⟩
  unfold setQual State.qualified
  rw [s.rd_wr_same hs DTM_STATUS_QUAL (by decide), Nat.testBit_mod_two_pow, testBit_ofBits]
  simp [hn, DTM_STATUS_QUAL]

/-- A source that is lost while another, or none, is selected is qualified no more, and the selection stays (R41). -/
theorem disqualify_unselected {s : State} (hs : tblWf s.regs = true) {n : Nat} (hn : n < 3) (hq : s.qualified n = true)
    (hsel : s.selected ≠ some n) :
    (disqualify n s).qualified n = false ∧ (disqualify n s).rd DTM_STATUS_SRC = s.rd DTM_STATUS_SRC := by
  unfold disqualify
  extract_lets was _ t _ u v
  have hfields : v.qualified n = false ∧ v.rd DTM_STATUS_SRC = s.rd DTM_STATUS_SRC := setQual_fields (s := u) hs hn false
  have hkeep : v.selected ≠ some n := by rwa [State.selected, hfields.2]
  rw [if_pos (show was = true from hq), if_neg hkeep]
  exact hfields

/-- Settles O4: edges and samples, sources lost and restored, holdover and the step. -/
theorem datumDisciplineCompletes : Obligations.DatumDisciplineCompletes := by
  unfold Obligations.DatumDisciplineCompletes
  refine ⟨fun s hup => ?_, fun b value n s hup hn hseq => ?_, fun n s hs hn hq hsel => ?_, fun s hs haid hq hsel => ?_,
    fun n k s hsel hwtr hq hrev hprio => ?_, fun s hstate => ?_, fun n s hup hsel hjust hoff hheld => ?_⟩
  · exact if_pos hup
  · subst hn
    rw [exec_servoSampleWrite b value hup]
    unfold servoSample
    rw [if_pos (And.intro hup hseq)]
  · exact ⟨_, rfl, disqualify_unselected hs.1.1 hn hq hsel⟩
  · exact ⟨_, if_pos haid, disqualify_unselected hs.1.1 (by decide) hq hsel⟩
  · change execWaitToRestoreExpiry n s = _
    unfold execWaitToRestoreExpiry
    dsimp only
    rw [show State.selected { s with dtm := { s.dtm with wtr := s.dtm.wtr.filter (· != n) } } = some k from hsel]
    exact if_pos ⟨hwtr, hq, hrev, hprio⟩
  · change execHoldoverLimitExpiry s = _
    unfold execHoldoverLimitExpiry setDatumState
    rw [if_pos hstate, if_neg (by simp [hstate])]
    rfl
  · change execDtmStepRequest s = _
    unfold execDtmStepRequest stepRequest
    rw [State.heldBy_of_datumUp hup rfl, State.unreleased_of_datumUp hup rfl, if_neg (by decide), if_neg (by decide), if_pos hup, hsel]
    dsimp only
    rw [if_pos (And.intro hjust (And.intro hoff hheld))]
end Sys2Proof.Machine

/-! PROOFS. Reads of a register, a register write of two fields, and the spine and outputs of Datum (chapter 2). -/

namespace Sys2Proof.Machine

/-! ## An aligned read of a register -/

/-- A read that its party and island allow, of a register of its width outside the records, reads it. -/
theorem perform_read_aligned {a n : Nat} (hn : n = 4 ∨ n = 8) (ha : a % n = 0) {who : Party} {s : State} {v gen : Nat}
    (hreach : s.reaches who a = true) (hrel : s.unreleased a = false) (hplace : placeOf a = .registers) (hreg : regBytes a = n)
    (hrec : s.recordBytes a n = none) :
    perform ⟨who, false, a, n, v, gen⟩ s = (readReg who a s).2.emit (.reply who (leBytes n (readReg who a s).1)) := by
  have hpieces : piecesOf a n = [(a, n)] := by
    unfold piecesOf partsOf
    rw [hplace, if_neg (by simp [Place.takesWhole]), if_pos (by omega)]
  have hpart : readPart who a n s = readReg who a s := by
    unfold readPart
    rcases hn with rfl | rfl
    · rw [if_pos ⟨rfl, ha⟩, read4, if_pos hreg]
    · rw [if_neg (by omega), if_pos ⟨rfl, ha⟩, if_pos hreg]
  unfold perform readSpace
  simp only [hpieces, readPieces, List.append_nil]
  unfold readPiece
  simp [s.reachesAll_aligned hn ha, hreach, hrel, hplace, hrec, hpart]

/-! ## A register of two stored fields -/

/-- A write of a register whose fields are two of RW, side by side, stores both. -/
theorem State.rd_plainWrite_pair {s : State} (hs : tblWf s.regs = true) {a : Nat} {r : RegSpec} {f g : FieldSpec} (v : BitVec 64)
    (hfound : findReg a = some (r, a)) (hr : r.fields = [f, g]) (hf : f.acc = .rw ∧ f.stored = []) (hg : g.acc = .rw ∧ g.stored = [])
    (hfg : f.lo + f.width ≤ g.lo) (hend : g.lo + g.width ≤ 64) :
    (s.plainWrite a v).rd ⟨a, f.lo, f.width⟩ = getField v f.lo f.width
      ∧ (s.plainWrite a v).rd ⟨a, g.lo, g.width⟩ = getField v g.lo g.width := by
  have hmod : ∀ lo w, getField v lo w % 2 ^ w = getField v lo w := fun _ _ => Nat.mod_mod _ _
  unfold State.plainWrite State.rd
  simp only [hfound, hr, fieldsAfter, fieldAfter, hf, hg, storedAs]
  rw [s.reg_setReg_same hs]
  refine ⟨?_, ?_⟩
  · rw [getField_putField_below _ hend hfg, getField_putField_same _ (by omega), hmod]
  · rw [getField_putField_same _ hend, hmod]

/-- The correction of a port: where its register lies and what it holds (Table 2.9). -/
theorem findReg_portCorr : ∀ p < 64, findReg (DTM_PORT_CORR p) = some (⟨"DTM_PORT_CORR", 0x1001000, [(64, 0x4)], 4,
    [⟨"RX_PS", 0, 16, .rw, [], 0⟩, ⟨"TX_PS", 16, 16, .rw, [], 0⟩]⟩, DTM_PORT_CORR p) := by
  intro p hp
  interval_cases p <;> rfl

/-- Below the mailbox pages, and beside the data port's aperture, there are registers alone. -/
theorem placeOf_of_lt {a : Nat} (h : a < 0x5000000) (haperture : a < 0x1800 ∨ 0x2000 ≤ a) : placeOf a = .registers := by
  have hslot : slotAt a = none := if_neg (by omega)
  simp only [placeOf, hslot, isAperture, isClusterMem, isHbm, isCxl, isDoorbell, Bool.and_eq_true, decide_eq_true_eq]
  rw [if_neg (by omega), if_neg (by omega), if_neg (by omega), if_neg (by omega)]

/-- An address behind the last element of an array is none of its. -/
theorem arrIndex_of_ge {base n stride b : Nat} (hs : 0 < stride) (h : base + n * stride ≤ b) : arrIndex base n stride b = none := by
  refine if_neg fun hin => ?_
  have hdiv : n ≤ (b - base) / stride := (Nat.le_div_iff_mul_le hs).2 (by omega)
  omega

/-- The registers of the DTM_ block behind its outputs have no effect of their own. -/
theorem routedWrite_dtm_plain {b : Nat} (h : 0x1000400 ≤ b) (hend : b < 0x2000000) (who : Party) (v : BitVec 64) (s : State) :
    routedWrite who b v s = s.plainWrite b v := by
  have hblock : b / 0x1000000 = 1 := by omega
  have hne : ∀ c, c < 0x1000400 → b ≠ c := by omega
  unfold routedWrite
  simp only [hblock]
  unfold dtmWrite
  rw [if_neg (hne _ (by decide)), if_neg (hne _ (by decide)), if_neg (hne _ (by decide)), if_neg (hne _ (by decide)),
    if_neg (hne _ (by decide)), if_neg (not_or.2 ⟨hne _ (by decide), hne _ (by decide)⟩),
    arrIndex_of_ge (by decide) (le_trans (by decide) h)]
  dsimp only
  rw [arrIndex_of_ge (by decide) (le_trans (by decide) h)]

/-- A port correction written while Datum is up is stored (R60). -/
theorem exec_dtmPortCorrWrite {p : Nat} (hp : p < 64) (v : BitVec 32) {s : State} (hup : s.datumUp = true) :
    exec (.dtmPortCorrWrite p v) s = .next (s.plainWrite (DTM_PORT_CORR p) (BitVec.ofNat 64 v.toNat)) := by
  have hfound := findReg_portCorr p hp
  have hv : v.toNat % 2 ^ (8 * 4) = v.toNat := Nat.mod_eq_of_lt v.isLt
  change execDtmPortCorrWrite p v s = _
  unfold execDtmPortCorrWrite
  rw [if_pos hp]
  obtain ⟨a, ha⟩ : ∃ a, a = DTM_PORT_CORR p := ⟨_, rfl⟩
  have haddr : a = 0x1001000 + 4 * p := ha
  rw [← ha] at hfound ⊢
  have hisland : s.islandAt a = some datumNode := by
    have hblock : a / 0x1000000 = 1 := by omega
    simp only [State.islandAt, hblock, datumNode]
  rw [devWrite_aligned (.inl rfl) (by omega) _ (State.heldBy_of_datumUp hup hisland) (State.unreleased_of_datumUp hup hisland)
    (placeOf_of_lt (by omega) (by omega)) (by rw [regBytes, hfound]), hv, writeReg_routed _ _ (by omega) hfound,
    routedWrite_dtm_plain (by omega) (by omega)]

/-- A read of DTM_NOW while Datum is up answers Datum's nanoseconds and latches its fraction (R59). -/
theorem exec_dtmNowRead {who : Party} {s : State} (hup : s.datumUp = true) (hreach : s.reaches who DTM_NOW = true)
    (hout : s.outputOf who DTM_NOW = none) :
    exec (.dtmNowRead who) s
      = .next ((s.wr DTM_NOW_FRAC_FRAC (s.datum.toNat % 65536)).emit (.reply who (leBytes 8 (s.ns % 2 ^ 64)))) := by
  change Host.Outcome.next (access _ s) = _
  unfold access
  simp only [hout, s.holderOf_aligned (.inr rfl) (show DTM_NOW % 8 = 0 by decide),
    State.heldBy_of_datumUp (a := DTM_NOW) hup rfl]
  rw [perform_read_aligned (.inr rfl) (by decide) hreach (State.unreleased_of_datumUp hup rfl) (by decide) (by decide) rfl]
  rfl

/-- Settles O5: the spine, a restart of Datum and its end, the outputs, and the registers of Datum. -/
theorem datumSpineCompletes : Obligations.DatumSpineCompletes := by
  unfold Obligations.DatumSpineCompletes
  refine ⟨fun n rt s hrel hin hup => ?_, fun firmware s hup => ?_, fun s hres hin => ?_, fun s hres hin => ?_,
    fun n rt s hrel hpath => ?_, fun n s hn hen hdue => ?_, fun n s hn hen hsq hnot => ?_, fun p v s hs hup hp => ?_,
    fun who s hs hup hreach hout => ?_⟩
  · exact if_pos ⟨hrel, hin, hup⟩
  · exact if_neg (by simp [hup])
  · change execDatumResume s = _
    unfold execDatumResume
    rw [if_pos hres]
    exact if_neg fun h => absurd (hin.symm.trans h) (by decide)
  · change execDatumResume s = _
    unfold execDatumResume
    rw [if_pos hres]
    exact if_pos hin
  · exact if_pos ⟨hrel, hpath⟩
  · change execPpsOutEdge n s = _
    unfold execPpsOutEdge
    dsimp only
    rw [if_neg (by simp [hen]; omega), if_pos hdue]
    simp only [setPulse, State.ppsLevel, if_true, List.contains_cons, beq_self_eq_true, Bool.true_or, Bool.true_and]
    rw [show State.bit { s with dtm := { s.dtm with pulsing := n :: s.dtm.pulsing.filter (· != n) } } (DTM_PPS_CFG_EN n) = true
      from hen, show State.bit { s with dtm := { s.dtm with pulsing := n :: s.dtm.pulsing.filter (· != n) } } (DTM_PPS_CFG_POL n)
      = s.bit (DTM_PPS_CFG_POL n) from rfl]
    cases s.bit (DTM_PPS_CFG_POL n) <;> rfl
  · change Host.Outcome.next (loseSynce n s) = _
    unfold loseSynce
    rw [if_pos ⟨hn, hen, hsq⟩]
    have hsome : s.synceClock n ≠ none := by
      rw [State.synceClock, if_pos ⟨hen, hnot⟩]
      exact Option.some_ne_none _
    have hnone : State.synceClock { s with dtm := { s.dtm with squelched := n :: s.dtm.squelched.filter (· != n) } } n = none := by
      simp [State.synceClock]
    unfold setSquelch resynce
    simp only [if_true, hnone, if_neg hsome.symm]
  · refine ⟨_, exec_dtmPortCorrWrite hp v hup, ?_⟩
    have hv : (BitVec.ofNat 64 v.toNat).toNat = v.toNat := Nat.mod_eq_of_lt (v.isLt.trans (by decide))
    obtain ⟨hrx, htx⟩ := State.rd_plainWrite_pair hs.1.1 (BitVec.ofNat 64 v.toNat) (findReg_portCorr p hp) rfl ⟨rfl, rfl⟩
      ⟨rfl, rfl⟩ (by decide) (by decide)
    refine ⟨hrx.trans ?_, htx.trans ?_⟩ <;> rw [getField, hv]
    · simp
    · exact Nat.mod_eq_of_lt (by have := v.isLt; simp; omega)
  · refine ⟨_, exec_dtmNowRead hup hreach hout, ?_, rfl, rfl⟩
    exact (s.rd_wr_same hs.1.1 DTM_NOW_FRAC_FRAC (by decide) _).trans (Nat.mod_mod _ _)

end Sys2Proof.Machine

/-! PROOFS. Entries that start and complete in one step, and admission (chapter 3). -/

namespace Sys2Proof.Machine

/-- An entry that starts and whose effect is known completes after it. -/
theorem runEntry_ends {s t u : State} {g op st : Nat} {r : Ring} {j : Job} {body : Body}
    {f : Ring → Job → State → State × Nat × Body} (h : s.Starts g op r j u) (hf : f r j u = (t, st, body)) :
    runEntry g (· == op) f s = done g j st body t := by
  rw [runEntry_starts f h, hf]

/-- Settles O6: what each command does once its entry has started, and the two events. -/
theorem admissionCompletes : Obligations.AdmissionCompletes := by
  unfold Obligations.AdmissionCompletes
  refine ⟨fun g pick r j s u hready h hpass => ?_, fun g r j s u hready h => ?_,
    fun g id c r j s u hready h hname hadm hpass => ?_, fun g id c r j s u hready h hname => ?_,
    fun g id c r j s u hready h hname => ?_, fun id g idx c s hc hstate hend hwait => ?_,
    fun g r j s u hready h hmgr hlen => ?_, fun a o v s ha hout hshare hneeds hfits => ?_⟩
  · refine (if_pos hready).trans (congrArg _ (runEntry_ends h ?_))
    dsimp only
    rw [if_pos hpass]
  · exact (if_pos hready).trans (congrArg _ (runEntry_ends h rfl))
  · refine (if_pos hready).trans (congrArg _ (runEntry_ends h ?_))
    simp only [hname]
    rw [if_neg (by simp [hadm]), if_pos hpass]
  · refine (if_pos hready).trans (congrArg _ (runEntry_ends h ?_))
    simp only [hname]
  · refine (if_pos hready).trans (congrArg _ (startEntry_runs _ h ?_))
    simp only [hname]
  · change execWithdrawDrainEnd id s = _
    simp only [execWithdrawDrainEnd, hc, hwait]
    rw [if_pos ⟨hstate, hend⟩]
  · refine (if_pos hready).trans (congrArg _ (runEntry_ends h ?_))
    dsimp only
    rw [if_neg (by simp [hmgr]), if_neg (by omega)]
  · change Host.Outcome.next (admConfigWrite a v s) = _
    have hshare' : ¬(a = ADM_RES_SHARE ∧ 0xB7 < (s.plainWrite a (admMask a v)).rd ADM_RES_SHARE_BENCH) :=
      fun h => absurd (hshare h.1) (by omega)
    unfold admConfigWrite
    simp only [ha]
    cases o with
    | none => rw [if_neg (by simp), if_neg hshare', if_neg (by simp [hneeds]), if_pos hfits]
    | some n => rw [if_neg (by simp [hout n rfl]), if_neg hshare', if_neg (by simp [hneeds]), if_pos hfits]

end Sys2Proof.Machine

/-! PROOFS. The graticule (chapter 4). -/

namespace Sys2Proof.Machine

theorem regsWf_wr {s : State} (f : Fld) (x : Nat) (h : regsWf s.regs) : regsWf (s.wr f x).regs := regsWf_setReg _ _ h

/-- A transfer that is the next in order is applied whole, and dropped by its sender when it is acknowledged (R94, R95). -/
theorem receiveTransfer_next {t : Transfer} {s : State} (acked : Bool)
    (hnew : alreadyApplied (tblGet s.grt.applied (pairKey t.src t.dst)) t.seq = false)
    (hnext : nextInOrder (tblGet s.grt.applied (pairKey t.src t.dst)) t.seq = true) :
    receiveTransfer t acked s = if acked then dropTransfer t (applyTransfer t s) else applyTransfer t s := by
  rw [receiveTransfer, if_neg (by rw [hnew]; decide), if_pos hnext]

theorem holdTransfer_applied (t : Transfer) (s : State) : (holdTransfer t s).grt.applied = s.grt.applied := rfl

/-- Settles O7: a transfer in order, a link's first failure, a grant, a bite and the clear of the counters. -/
theorem graticuleCompletes : Obligations.GraticuleCompletes := by
  unfold Obligations.GraticuleCompletes
  refine ⟨fun l src dst seq beats ok fate cut s hlen hlink hbeats hfate hnext hnew => ?_, fun l cut s hlink => ?_,
    fun kind inst raised i s hinst hgrant => ?_, fun kind inst core i t s hgranted hinst hlate => ?_, fun s hs => ?_⟩
  · change execGrtTransferReceive l src dst seq beats ⟨ok, fate⟩ cut s = _
    have hempty : beats.isEmpty = false := by
      cases beats with
      | nil => simp at hlen
      | cons => rfl
    unfold execGrtTransferReceive
    dsimp only
    rw [if_neg (by simp [hempty, hlink]), if_neg hfate, if_pos hbeats,
      receiveTransfer_next (t := ⟨l, src, dst, seq, _⟩) _ (by rwa [holdTransfer_applied]) (by rwa [holdTransfer_applied])]
    cases fate <;> rfl
  · change Host.Outcome.next (linkFail l cut s) = _
    simp only [linkFail, hlink]
    rfl
  · change execArbiterGrant kind inst raised s = _
    unfold execArbiterGrant
    rw [if_pos hinst, hgrant]
  · change execWatchdogBite kind inst core s = _
    simp only [execWatchdogBite, hgranted]
    rw [if_pos ⟨hinst, hlate⟩]
  · refine ⟨_, rfl, ?_, ?_, by rw [State.wr_grt, State.wr_grt], by rw [State.wr_contracts, State.wr_contracts]⟩
    · rw [State.rd_wr_ne _ (by decide)]
      exact (s.rd_wr_same hs.1.1 GRT_BITE_CNT_COUNT (by decide) 0).trans (Nat.zero_mod _)
    · exact (State.rd_wr_same _ (regsWf_wr _ _ hs.1).1 GRT_RETRY_CNT_COUNT (by decide) 0).trans (Nat.zero_mod _)

end Sys2Proof.Machine

/-! PROOFS. Links of host ports (chapter 5). -/

namespace Sys2Proof.Machine

/-! ## Registers that keep their values -/

theorem tblGet_filter_key {α : Type} {p : Nat → Bool} {n : Nat} (hn : p n = true) (t : Tbl α) :
    tblGet (t.filter (fun r => p r.1)) n = tblGet t n := by
  induction t with
  | nil => rfl
  | cons c t ih =>
    obtain ⟨k, v⟩ := c
    by_cases hk : p k
    · simp [hk, tblGet, ih]
    · have hne : n ≠ k := fun h => hk (h ▸ hn)
      simp [hk, tblGet, hne, ih]

/-- Where the registers picked stay, so do their fields. -/
theorem State.rd_of_filter {s t : State} {p : Nat → Bool}
    (h : t.regs.filter (fun r => p r.1) = s.regs.filter (fun r => p r.1)) {f : Fld} (hf : p (canonAddr f.addr) = true) :
    t.rd f = s.rd f := by
  unfold State.rd State.reg
  rw [← tblGet_filter_key hf t.regs, h, tblGet_filter_key hf]

/-- The registers picked stay. -/
def KeepsRegs (p : Nat → Bool) (s t : State) : Prop := t.regs.filter (fun r => p r.1) = s.regs.filter (fun r => p r.1)

section
variable {p : Nat → Bool} {s t : State}

theorem KeepsRegs.refl (p : Nat → Bool) (s : State) : KeepsRegs p s s := rfl

theorem KeepsRegs.rd (h : KeepsRegs p s t) {f : Fld} (hf : p (canonAddr f.addr) = true) : t.rd f = s.rd f := State.rd_of_filter h hf

theorem KeepsRegs.emit (h : KeepsRegs p s t) {o : Out} : KeepsRegs p s (t.emit o) := h

theorem KeepsRegs.swc (h : KeepsRegs p s t) {x : Switch} : KeepsRegs p s { t with swc := x } := h

theorem KeepsRegs.setPort (h : KeepsRegs p s t) {k : Nat} {x : HostPort} : KeepsRegs p s (t.setPort k x) := h

theorem KeepsRegs.wr (h : KeepsRegs p s t) {f : Fld} {x : Nat} (hf : p (canonAddr f.addr) = false) : KeepsRegs p s (t.wr f x) :=
  (t.wr_regs_filter x hf).trans h

theorem KeepsRegs.count (h : KeepsRegs p s t) {f : Fld} {n : Nat} (hf : p (canonAddr f.addr) = false) :
    KeepsRegs p s (t.count f n) := h.wr hf

theorem KeepsRegs.raise (h : KeepsRegs p s t) {f : Fld} (hf : p (canonAddr f.addr) = false) : KeepsRegs p s (raise f t) :=
  (raise_regs_filter t hf).trans h

/-- A predicate that picks no register of the network ports' blocks and of the switch core's status. -/
def beyondPressure (p : Nat → Bool) : Prop :=
  (∀ a, 0x7000000 ≤ a → a < 0x8000000 → p a = false) ∧ p (canonAddr SWC_STATUS_FLOOR.addr) = false
    ∧ p (canonAddr SWC_EVENT_FLOOR.addr) = false ∧ p (canonAddr SWC_POOL_SHARED.addr) = false

theorem KeepsRegs.updatePfc (h : KeepsRegs p s t) (hp : beyondPressure p) {k : Nat} (hk : k < 64) :
    KeepsRegs p s (updatePfc k t) := by
  have haddr : ∀ f : Fld, 0x7000000 ≤ f.addr → f.addr < 0x8000000 → p (canonAddr f.addr) = false := by
    intro f hlo hhi
    rw [canonAddr_of_lt hhi, hp.1 _ hlo hhi]
  have hxoff : p (canonAddr (NET_PORT_STATUS_TX_XOFF k).addr) = false := by
    refine haddr _ ?_ ?_ <;> simp only [NET_PORT_STATUS_TX_XOFF, NET_PORT_STATUS] <;> omega
  have hsent : p (canonAddr (NET_TX_PFC k).addr) = false := by
    refine haddr _ ?_ ?_ <;> simp only [NET_TX_PFC] <;> omega
  unfold Machine.updatePfc sendPfc
  split_ifs
  · exact h
  · exact .count (.emit <| .wr h hxoff) hsent
  · exact h

theorem KeepsRegs.refreshPressure (h : KeepsRegs p s t) (hp : beyondPressure p) : KeepsRegs p s (refreshPressure t) := by
  have ⟨_, hstatus, hevent, _⟩ := hp
  unfold Machine.refreshPressure
  refine List.foldlRecOn (motive := KeepsRegs p s) _ _ ?_ fun u hu k hk => hu.updatePfc hp (List.mem_range.1 hk)
  dsimp only
  split
  · exact .raise (.wr (.swc h) hstatus) hevent
  · exact .wr (.swc h) hstatus

theorem KeepsRegs.resizePool (h : KeepsRegs p s t) (hp : beyondPressure p) : KeepsRegs p s (resizePool t) := by
  obtain ⟨-, -, -, hpool⟩ := hp
  exact h.wr hpool

end

@[simp] theorem raise_ports (f : Fld) (s : State) : (raise f s).ports = s.ports := by rw [reports_raise f s]

theorem updatePfc_ports (k : Nat) (s : State) : (updatePfc k s).ports = s.ports := by
  unfold updatePfc sendPfc
  split_ifs
  · rfl
  · rw [State.count_ports, State.emit_ports, State.wr_ports]
  · rfl

@[simp] theorem refreshPressure_ports (s : State) : (refreshPressure s).ports = s.ports := by
  unfold refreshPressure
  refine List.foldlRecOn (motive := fun t => t.ports = s.ports) _ _ ?_ fun u hu k _ => (updatePfc_ports k u).trans hu
  dsimp only
  split <;> simp

@[simp] theorem resizePool_ports (s : State) : (resizePool s).ports = s.ports := by
  unfold resizePool
  exact State.wr_ports ..

/-! ## What a host port's registers say -/

theorem State.lt_of_portPresent {s : State} {p : Nat} (h : s.portPresent p = true) : p < 48 := by
  unfold State.portPresent at h
  simp only [Bool.and_eq_true, decide_eq_true_eq] at h
  exact h.1

/-- An address of a station's configuration. -/
def inStation (a : Nat) : Bool := a / 0x1000000 == 4 && a % 0x10000 == 0x10

/-- An address of a port's or a station's configuration. -/
def inPortConfig (a : Nat) : Bool := a / 0x1000000 == 4 && (a % 0x10000 == 0 || a % 0x10000 == 0x10)

/-- An address of a host port's registers. -/
def inHostPorts (a : Nat) : Bool := a / 0x1000000 == 4

theorem beyondPressure_inStation : beyondPressure inStation :=
  ⟨fun a _ _ => by simp only [inStation, Bool.and_eq_false_iff, beq_eq_false_iff_ne]; omega, by decide, by decide, by decide⟩

theorem beyondPressure_inPortConfig : beyondPressure inPortConfig :=
  ⟨fun a _ _ => by simp only [inPortConfig, Bool.and_eq_false_iff, beq_eq_false_iff_ne]; omega, by decide, by decide, by decide⟩

theorem beyondPressure_inHostPorts : beyondPressure inHostPorts :=
  ⟨fun a _ _ => by simp only [inHostPorts, beq_eq_false_iff_ne]; omega, by decide, by decide, by decide⟩

section
variable {p : Nat} (hp : p < 48)
include hp

theorem canonAddr_hostPort {off : Nat} (hoff : off < 0x10000) :
    canonAddr (0x4000000 + off + 0x10000 * p) = 0x4000000 + off + 0x10000 * p := canonAddr_of_lt (by omega)

theorem inStation_stationCfg : inStation (canonAddr (HP_STN_CFG (p / 4))) = true := by
  rw [canonAddr_of_lt (by unfold HP_STN_CFG; omega)]
  simp only [inStation, HP_STN_CFG, Bool.and_eq_true, beq_iff_eq]
  omega

theorem inPortConfig_stationCfg : inPortConfig (canonAddr (HP_STN_CFG (p / 4))) = true := by
  rw [canonAddr_of_lt (by unfold HP_STN_CFG; omega)]
  simp only [inPortConfig, HP_STN_CFG, Bool.and_eq_true, Bool.or_eq_true, beq_iff_eq]
  omega

theorem inPortConfig_portCfg : inPortConfig (canonAddr (HP_PORT_CFG p)) = true := by
  rw [canonAddr_of_lt (by unfold HP_PORT_CFG; omega)]
  simp only [inPortConfig, HP_PORT_CFG, Bool.and_eq_true, Bool.or_eq_true, beq_iff_eq]
  omega

/-- A port's own registers are none of a station's. -/
theorem inStation_of_port {off : Nat} (hoff : off < 0x10) : inStation (canonAddr (0x4000000 + off + 0x10000 * p)) = false := by
  rw [canonAddr_hostPort hp (by omega)]
  simp only [inStation, Bool.and_eq_false_iff, beq_eq_false_iff_ne]
  omega

/-- A port's status and events are none of its configuration. -/
theorem inPortConfig_of_port {off : Nat} (hpos : 0 < off) (hoff : off < 0x10) :
    inPortConfig (canonAddr (0x4000000 + off + 0x10000 * p)) = false := by
  rw [canonAddr_hostPort hp (by omega)]
  simp only [inPortConfig, Bool.and_eq_false_iff, Bool.or_eq_false_iff, beq_eq_false_iff_ne]
  omega

end

/-- The role of a port is what its station's configuration says. -/
theorem State.portIsRoot_congr {s t : State} {p : Nat} (hmode : t.rd (HP_STN_CFG_MODE (p / 4)) = s.rd (HP_STN_CFG_MODE (p / 4)))
    (hrole : t.rd (HP_STN_CFG_ROLE (p / 4)) = s.rd (HP_STN_CFG_ROLE (p / 4))) : t.portIsRoot p = s.portIsRoot p := by
  unfold State.portIsRoot State.portPresent
  rw [hmode, hrole]

theorem KeepsRegs.portIsRoot {s t : State} (h : KeepsRegs inStation s t) {p : Nat} (hp : p < 48) :
    t.portIsRoot p = s.portIsRoot p :=
  State.portIsRoot_congr (h.rd (inStation_stationCfg hp)) (h.rd (inStation_stationCfg hp))

theorem KeepsRegs.showLink {q : Nat → Bool} {s t : State} (h : KeepsRegs q s t) {p sp w : Nat} {flit inf : Bool}
    (hq : q (canonAddr (HP_PORT_STATUS p)) = false) : KeepsRegs q s (showLink p sp w flit inf t) :=
  .setPort <| .wr (.wr (.wr (.wr (.wr (.wr h hq) hq) hq) hq) hq) hq

/-- A link that comes up at an endpoint port: its functions are sampled and the partner reported (R110, R118). -/
theorem exec_hostLinkUp_endpoint {p sp w : Nat} {flit inf : Bool} {s : State} (htrain : s.mayTrain p = true)
    (hrole : s.portIsRoot p = false) (hdown : s.linkUp p = false) (hsp : 0 < sp) (hw : 0 < w) :
    exec (.hostLinkUp p sp w ⟨flit, inf⟩) s = .next (
        let sp' := min sp (s.rd (HP_PORT_CFG_MAX_SPEED p))
        let w' := min w (s.portWidth p)
        let u := refreshPressure (resizePool (raise (HP_EVENT_LINK p) (showLink p sp' w' (flit || sp' == 6) inf s)))
        judgeLink p sp' w' (flit || sp' == 6) (surveyRec 0 1 p (sp' + w' * 16) [] 0 (sampleFuncs p u))) := by
  have hp : p < 48 := by
    simp only [State.mayTrain, Bool.and_eq_true] at htrain
    exact State.lt_of_portPresent htrain.1.1.1.1.1
  have hstation : ∀ sp' w' fl, KeepsRegs inStation s (refreshPressure (resizePool (raise (HP_EVENT_LINK p)
      (showLink p sp' w' fl inf s)))) := fun _ _ _ =>
    ((((KeepsRegs.refl inStation s).showLink (inStation_of_port (off := 4) hp (by decide))).raise
      (inStation_of_port (off := 8) hp (by decide))).resizePool beyondPressure_inStation).refreshPressure beyondPressure_inStation
  change execHostLinkUp p sp w ⟨flit, inf⟩ s = _
  unfold execHostLinkUp
  rw [if_neg (by simp [htrain]; omega)]
  simp only [hdown, Bool.false_eq_true, if_false, (hstation _ _ _).portIsRoot hp, hrole]

/-- A field that lies in 64 bits and shares no bit with another of its register. -/
def fieldsApart (f g : Fld) : Bool := decide (f.lo + f.width ≤ 64) && (decide (g.lo + g.width ≤ f.lo) || decide (f.lo + f.width ≤ g.lo))

theorem State.rd_wr_beside {s : State} (hs : regsWf s.regs) {f g : Fld} (ha : g.addr = f.addr) (h : fieldsApart f g = true) (x : Nat) :
    (s.wr f x).rd g = s.rd g := by
  simp only [fieldsApart, Bool.and_eq_true, Bool.or_eq_true, decide_eq_true_eq] at h
  exact s.rd_wr_disjoint hs.1 (congrArg canonAddr ha) h.1 h.2 x

theorem State.rd_setPort (s : State) (k : Nat) (x : HostPort) (f : Fld) : (s.setPort k x).rd f = s.rd f := rfl

/-- The status of a link that is up: its speed, and that it is up (Table 5.7). -/
theorem showLink_status {s : State} (hs : regsWf s.regs) (p sp w : Nat) (flit inf : Bool) :
    (showLink p sp w flit inf s).rd (HP_PORT_STATUS_LINK_UP p) = 1
      ∧ (showLink p sp w flit inf s).rd (HP_PORT_STATUS_SPEED p) = sp % 2 ^ 3 := by
  have h1 := regsWf_wr (HP_PORT_STATUS_LINK_UP p) 1 hs
  have h2 := regsWf_wr (HP_PORT_STATUS_SPEED p) sp h1
  have h3 := regsWf_wr (HP_PORT_STATUS_WIDTH p) w h2
  have h4 := regsWf_wr (HP_PORT_STATUS_FLIT p) (if flit then 1 else 0) h3
  have h5 := regsWf_wr (HP_PORT_STATUS_PRESENT p) 1 h4
  unfold showLink
  dsimp only
  rw [State.rd_setPort, State.rd_wr_beside h5 (by rfl) (by rfl), State.rd_wr_beside h4 (by rfl) (by rfl), State.rd_wr_beside h3 (by rfl) (by rfl),
    State.rd_wr_beside h2 (by rfl) (by rfl), State.rd_wr_beside h1 (by rfl) (by rfl), State.rd_setPort, State.rd_wr_beside h5 (by rfl) (by rfl),
    State.rd_wr_beside h4 (by rfl) (by rfl), State.rd_wr_beside h3 (by rfl) (by rfl), State.rd_wr_beside h2 (by rfl) (by rfl)]
  exact ⟨State.rd_wr_same _ hs.1 (HP_PORT_STATUS_LINK_UP p) (Nat.le_of_ble_eq_true rfl) 1,
    State.rd_wr_same _ h1.1 (HP_PORT_STATUS_SPEED p) (Nat.le_of_ble_eq_true rfl) sp⟩

theorem State.port_setPort_same {s : State} (hs : tblWf s.ports = true) (k : Nat) (x : HostPort) : (s.setPort k x).port k = x :=
  tblGetD_tblSet_same hs

theorem showLink_port {s : State} (hs : tblWf s.ports = true) (p sp w : Nat) (flit inf : Bool) :
    ((showLink p sp w flit inf s).port p).infCredit = inf := by
  unfold showLink
  dsimp only
  rw [State.port_setPort_same]
  rwa [State.wr_ports, State.wr_ports, State.wr_ports, State.wr_ports, State.wr_ports, State.wr_ports]

/-! ## A root port's link that trains in full -/

/-- What is told of a link that came up: the event when it was down, then the pool and the back pressure. -/
def linkTold (p : Nat) (was : Bool) (s : State) : State :=
  refreshPressure (resizePool (if was then s else raise (HP_EVENT_LINK p) s))

/-- A root port whose link came up enumerates what is behind it (R140). -/
def enumerates (p : Nat) (was : Bool) (s : State) : State :=
  if was then s else s.setPort p { s.port p with enumerating := true }

section
variable {p : Nat} {s : State} {was : Bool}

theorem KeepsRegs.linkTold {q : Nat → Bool} {t : State} (h : KeepsRegs q s t) (hq : beyondPressure q)
    (hevent : was = true ∨ q (canonAddr (HP_EVENT p)) = false) : KeepsRegs q s (linkTold p was t) := by
  unfold Machine.linkTold
  refine .refreshPressure (.resizePool ?_ hq) hq
  split
  · exact h
  · exact h.raise (hevent.resolve_left ‹_›)

theorem Keeps.linkTold {t : State} (h : Keeps s t) : Keeps s (linkTold p was t) := by
  unfold Machine.linkTold
  exact .refreshPressure <| .resizePool <| .ite h (.raise h)

theorem KeepsRegs.enumerates {q : Nat → Bool} {t : State} (h : KeepsRegs q s t) : KeepsRegs q s (enumerates p was t) := by
  unfold Machine.enumerates
  split
  · exact h
  · exact h.setPort

theorem enumerates_regs (p : Nat) (was : Bool) (s : State) : (enumerates p was s).regs = s.regs := by
  unfold enumerates
  split <;> rfl

theorem linkTold_ports (p : Nat) (was : Bool) (s : State) : (linkTold p was s).ports = s.ports := by
  unfold linkTold
  rw [refreshPressure_ports, resizePool_ports]
  split
  · rfl
  · rw [raise_ports]

theorem enumerates_infCredit (hs : tblWf s.ports = true) : ((enumerates p was s).port p).infCredit = (s.port p).infCredit := by
  unfold enumerates
  split
  · rfl
  · rw [State.port_setPort_same hs]

/-- A link trained at its configured width and speed in FLIT mode is not degraded (R111). -/
theorem judgeLink_full (hs : s.portWidth p ≤ w) (hsp : s.rd (HP_PORT_CFG_MAX_SPEED p) ≤ sp) :
    judgeLink p sp w true s = s.wr (HP_PORT_STATUS_DEGRADED p) 0 := if_neg (by simp; omega)

theorem exec_hostLinkUp_root {sp w : Nat} {flit inf : Bool} (htrain : s.mayTrain p = true) (hrole : s.portIsRoot p = true)
    (hsp : sp = s.rd (HP_PORT_CFG_MAX_SPEED p)) (hpos : 0 < sp) (hw : w = s.portWidth p) (hwpos : 0 < w) (hflit : flit = true ∨ sp = 6)
    (hp : p < 48) :
    exec (.hostLinkUp p sp w ⟨flit, inf⟩) s
      = .next ((enumerates p (s.linkUp p) (linkTold p (s.linkUp p) (showLink p sp w true inf s))).wr (HP_PORT_STATUS_DEGRADED p) 0) := by
  have hfl : (flit || sp == 6) = true := by rcases hflit with h | h <;> simp [h]
  have hstatus : inPortConfig (canonAddr (HP_PORT_STATUS p)) = false := inPortConfig_of_port (off := 4) hp (by decide) (by decide)
  have hevent : inPortConfig (canonAddr (HP_EVENT p)) = false := inPortConfig_of_port (off := 8) hp (by decide) (by decide)
  have hcfg : KeepsRegs inPortConfig s (linkTold p (s.linkUp p) (showLink p sp w true inf s)) :=
    ((KeepsRegs.refl inPortConfig s).showLink hstatus).linkTold beyondPressure_inPortConfig (.inr hevent)
  have hroot : (linkTold p (s.linkUp p) (showLink p sp w true inf s)).portIsRoot p = true :=
    (State.portIsRoot_congr (hcfg.rd (inPortConfig_stationCfg hp)) (hcfg.rd (inPortConfig_stationCfg hp))).trans hrole
  have hmode : (enumerates p (s.linkUp p) (linkTold p (s.linkUp p) (showLink p sp w true inf s))).rd (HP_STN_CFG_MODE (p / 4))
      = s.rd (HP_STN_CFG_MODE (p / 4)) := hcfg.enumerates.rd (inPortConfig_stationCfg hp)
  have hmax : (enumerates p (s.linkUp p) (linkTold p (s.linkUp p) (showLink p sp w true inf s))).rd (HP_PORT_CFG_MAX_SPEED p)
      = s.rd (HP_PORT_CFG_MAX_SPEED p) := hcfg.enumerates.rd (inPortConfig_portCfg hp)
  have hwidth : (enumerates p (s.linkUp p) (linkTold p (s.linkUp p) (showLink p sp w true inf s))).portWidth p = w := by
    rw [State.portWidth, hmode, ← State.portWidth, hw]
  rw [← judgeLink_full (sp := sp) hwidth.le (by omega)]
  change execHostLinkUp p sp w ⟨flit, inf⟩ s = _
  unfold execHostLinkUp
  rw [if_neg (by simp [htrain]; omega)]
  simp only [← hsp, ← hw, min_self, hfl]
  rw [← linkTold, if_pos hroot, ← enumerates]

/-- The status of a root port whose link trained in full. -/
theorem hostLinkUp_root_status (hs : s.Wf) (hp : p < 48) (sp w : Nat) (inf : Bool) :
    (linkTold p was (showLink p sp w true inf s)).rd (HP_PORT_STATUS_LINK_UP p) = 1
      ∧ (linkTold p was (showLink p sp w true inf s)).rd (HP_PORT_STATUS_SPEED p) = sp % 2 ^ 3 := by
  have haddr : canonAddr (HP_PORT_STATUS p) = HP_PORT_STATUS p := canonAddr_of_lt (by unfold HP_PORT_STATUS; omega)
  have hstatus : (canonAddr (HP_PORT_STATUS p) == HP_PORT_STATUS p) = true := by rw [haddr, beq_self_eq_true]
  have hevent : (canonAddr (HP_EVENT p) == HP_PORT_STATUS p) = false := by
    rw [canonAddr_of_lt (by unfold HP_EVENT; omega), beq_eq_false_iff_ne]
    unfold HP_EVENT HP_PORT_STATUS
    omega
  have hpressure : beyondPressure (· == HP_PORT_STATUS p) := by
    refine ⟨fun a ha hb => ?_, ?_, ?_, ?_⟩ <;> rw [beq_eq_false_iff_ne] <;> unfold HP_PORT_STATUS
    · omega
    all_goals exact ne_of_gt (lt_of_lt_of_le (show _ < 0x8000000 by omega) (by decide))
  have hkeep := (KeepsRegs.refl (· == HP_PORT_STATUS p) (showLink p sp w true inf s)).linkTold (was := was) hpressure (.inr hevent)
  obtain ⟨hup, hspeed⟩ := showLink_status hs.1 p sp w true inf
  exact ⟨(hkeep.rd hstatus).trans hup, (hkeep.rd hstatus).trans hspeed⟩

end

/-- Writing a port's own configuration leaves the roles of ports. -/
theorem portIsRoot_wr_linkDis {p : Nat} (hp : p < 48) (x : Nat) (s : State) :
    (s.wr (HP_PORT_CFG_LINK_DIS p) x).portIsRoot p = s.portIsRoot p :=
  ((KeepsRegs.refl inStation s).wr (inStation_of_port (off := 0) hp (by decide))).portIsRoot hp

theorem linkUp_wr_linkDis {p : Nat} (hp : p < 48) (x : Nat) (s : State) :
    (s.wr (HP_PORT_CFG_LINK_DIS p) x).linkUp p = s.linkUp p := by
  unfold State.linkUp State.bit
  rw [State.rd_wr_ne]
  simp only [HP_PORT_STATUS_LINK_UP, HP_PORT_CFG_LINK_DIS, HP_PORT_STATUS, HP_PORT_CFG]
  rw [canonAddr_of_lt (by omega), canonAddr_of_lt (by omega)]
  omega

theorem State.portIsRoot_emit (s : State) (o : Out) (p : Nat) : (s.emit o).portIsRoot p = s.portIsRoot p := rfl

theorem State.linkUp_emit (s : State) (o : Out) (p : Nat) : (s.emit o).linkUp p = s.linkUp p := rfl

/-- Settles O8: a link comes up, is lost, trained again, disabled and held by PERST_N, and the credit observation is cleared. -/
theorem hostLinksComplete : Obligations.HostLinksComplete := by
  unfold Obligations.HostLinksComplete
  refine ⟨fun p sp w flit inf s hs htrain hrole hsp hpos hw hwpos hflit => ?_,
    fun p sp w flit inf s _ htrain hrole hdown hsp hw => exec_hostLinkUp_endpoint htrain hrole hdown hsp hw,
    fun p s hrole hup => ?_, fun p s hrole hup => if_pos ⟨hrole, hup⟩, fun p s _ hpresent hrole => ?_,
    fun p s _ hpresent hrole hup => ?_, fun p s hs hpresent => ?_, fun p s hs hp => ?_, fun p s hrole => if_pos hrole,
    fun p s hs => ?_⟩
  · have hp : p < 48 := by
      simp only [State.mayTrain, Bool.and_eq_true] at htrain
      exact State.lt_of_portPresent htrain.1.1.1.1.1
    have hwf := (Keeps.linkTold (p := p) (was := s.linkUp p) (Keeps.showLink (p := p) (speed := sp) (lanes := w) (flit := true)
      (infCredit := inf) (Keeps.refl s))).wf hs
    obtain ⟨hregs, -, ⟨-, -, hports, -⟩, -⟩ := hwf
    obtain ⟨hup, hspeed⟩ := hostLinkUp_root_status (was := s.linkUp p) hs hp sp w inf
    have hsmall : sp < 2 ^ 3 := by rw [hsp]; exact Nat.mod_lt _ (Nat.two_pow_pos _)
    rw [← enumerates_regs p (s.linkUp p)] at hregs
    refine ⟨_, exec_hostLinkUp_root htrain hrole hsp hpos hw hwpos hflit hp, ?_, ?_, ?_, ?_⟩
    · rw [State.linkUp, State.bit, State.rd_wr_beside hregs (by rfl) (by rfl), State.rd_of_regs (enumerates_regs ..), hup]
      rfl
    · rw [State.rd_wr_beside hregs (by rfl) (by rfl), State.rd_of_regs (enumerates_regs ..), hspeed, Nat.mod_eq_of_lt hsmall]
    · rw [State.rd_wr_same _ hregs.1 _ (Nat.le_of_ble_eq_true rfl), Nat.zero_mod]
    · rw [State.port, State.wr_ports, ← State.port, enumerates_infCredit hports, State.port, linkTold_ports, ← State.port]
      obtain ⟨-, -, ⟨-, -, hports', -⟩, -⟩ := hs
      exact showLink_port hports' p sp w true inf
  · change execHostLinkDown p s = _
    unfold execHostLinkDown endpointLost
    rw [if_pos hrole, if_pos hup]
  · have hp := State.lt_of_portPresent hpresent
    change execHpLinkDisable p true s = _
    unfold execHpLinkDisable
    rw [if_neg (by simp [hpresent])]
    simp only [if_true, portIsRoot_wr_linkDis hp, hrole, Bool.false_eq_true, if_false]
  · have hp := State.lt_of_portPresent hpresent
    change execHpLinkDisable p true s = _
    unfold execHpLinkDisable
    rw [if_neg (by simp [hpresent])]
    simp only [if_true, portIsRoot_wr_linkDis hp, hrole, State.portIsRoot_emit, State.linkUp_emit, linkUp_wr_linkDis hp, hup]
  · have hrd := (s.rd_wr_same hs.1.1 (HP_PORT_CFG_LINK_DIS p) (Nat.le_of_ble_eq_true rfl) 0).trans (Nat.zero_mod _)
    have hkeeps : (s.wr (HP_PORT_CFG_LINK_DIS p) 0).ports = s.ports ∧ (s.wr (HP_PORT_CFG_LINK_DIS p) 0).funcs = s.funcs
        ∧ (s.wr (HP_PORT_CFG_LINK_DIS p) 0).mem = s.mem := ⟨State.wr_ports .., State.wr_funcs .., State.wr_mem ..⟩
    refine ⟨if (s.wr (HP_PORT_CFG_LINK_DIS p) 0).portIsRoot p then (s.wr (HP_PORT_CFG_LINK_DIS p) 0).emit (.ball 3 p 1)
      else s.wr (HP_PORT_CFG_LINK_DIS p) 0, ?_, ?_⟩
    · exact if_neg (by simp [hpresent])
    · split
      · exact ⟨hrd, hkeeps⟩
      · exact ⟨hrd, hkeeps⟩
  · refine ⟨_, rfl, (s.rd_wr_same hs.1.1 (HP_CREDIT_OBS_MAX_NS p) (Nat.le_of_ble_eq_true rfl) 0).trans (Nat.zero_mod _), ?_, ?_⟩
    · rw [State.wr_ports]
    · rw [State.wr_outs]
  · obtain ⟨-, -, ⟨-, -, hports, -⟩, -⟩ := hs
    refine ⟨_, rfl, ?_, rfl, rfl⟩
    rw [State.port_setPort_same hports]

end Sys2Proof.Machine

/-! PROOFS. Power states of host ports (R77, R112, R113, R116). -/

namespace Sys2Proof.Machine

/-- A field reads back a value that fits it. -/
theorem State.rd_wr_fits {s : State} (hs : regsWf s.regs) (f : Fld) {x : Nat} (hf : decide (f.lo + f.width ≤ 64) = true)
    (hx : x < 2 ^ f.width) : (s.wr f x).rd f = x :=
  (s.rd_wr_same hs.1 f (of_decide_eq_true hf) x).trans (Nat.mod_eq_of_lt hx)

@[simp] theorem markExternal_regs (q : Packet → Bool) (s : State) : (markExternal q s).regs = s.regs := rfl

/-- Settles O9: each entry and exit writes the port's power state, and a long wait for credit is recorded and raised. -/
theorem hostPowerStatesComplete : Obligations.HostPowerStatesComplete := by
  unfold Obligations.HostPowerStatesComplete
  refine ⟨fun p s hs hp hup hflit hpm hlanes hpermits => ?_, fun p s hs hp hpm => ?_,
    fun p level e s hs hp hup hlo hhi hen hpm htags hqueue hpermits => ?_, fun p s hs hp hpm => ?_,
    fun p ns s hs hp hlong hfit hmax => ?_⟩
  · refine ⟨_, if_pos ⟨hup, hflit, hpm, hlanes, hpermits⟩, ?_, State.wr_ports .., State.wr_contracts ..⟩
    exact State.rd_wr_fits hs.1 (HP_PORT_STATUS_PM p) rfl (show 1 < 2 ^ 2 by decide)
  · refine ⟨_, if_pos hpm, ?_, State.wr_ports .., State.wr_contracts ..⟩
    exact State.rd_wr_fits hs.1 (HP_PORT_STATUS_PM p) rfl (show 0 < 2 ^ 2 by decide)
  · have hdepth : s.pmPermits p (l1Depth level) = true := by
      have heq : l1Depth level = if level = 1 then 2 else 3 := if_congr (by omega) rfl rfl
      rwa [heq]
    have hports : tblWf (s.wr (HP_PORT_STATUS_PM p) 2).ports = true := by
      obtain ⟨-, -, ⟨-, -, hports, -⟩, -⟩ := hs
      rwa [State.wr_ports]
    refine ⟨_, if_pos ⟨hup, hlo, hhi, hen, hpm, htags, hqueue, hdepth⟩, ?_, ?_, rfl, State.wr_contracts s (HP_PORT_STATUS_PM p) 2⟩
    · exact State.rd_wr_fits hs.1 (HP_PORT_STATUS_PM p) rfl (show 2 < 2 ^ 2 by decide)
    · exact congrArg HostPort.l1 (State.port_setPort_same hports p _)
  · refine ⟨_, if_pos hpm, ?_, State.wr_ports .., State.wr_contracts ..⟩
    exact State.rd_wr_fits hs.1 (HP_PORT_STATUS_PM p) rfl (show 0 < 2 ^ 2 by decide)
  · have hns : max (s.rd (HP_CREDIT_OBS_MAX_NS p)) (min ns (2 ^ 20 - 1)) = ns := by omega
    have hregs := regsWf_wr (HP_CREDIT_OBS_MAX_NS p) ns hs.1
    have hobs : canonAddr (HP_CREDIT_OBS p) = HP_CREDIT_OBS p := canonAddr_of_lt (by unfold HP_CREDIT_OBS; omega)
    have hlimit : (s.wr (HP_CREDIT_OBS_MAX_NS p) ns).rd (ADM_OUT_CFG_CREDIT_NS (64 + p)) = s.rd (ADM_OUT_CFG_CREDIT_NS (64 + p)) := by
      refine s.rd_wr_ne ?_ ns
      change canonAddr (ADM_OUT_CFG (64 + p)) ≠ canonAddr (HP_CREDIT_OBS p)
      rw [hobs, canonAddr_of_lt (by unfold ADM_OUT_CFG; omega)]
      unfold ADM_OUT_CFG HP_CREDIT_OBS
      omega
    refine ⟨markExternal (fun x => x.outlet == 64 + p) (raise (HP_EVENT_CREDIT p) (s.wr (HP_CREDIT_OBS_MAX_NS p) ns)), ?_, ?_, ?_⟩
    · change execCreditWaitExceeded p ns s = _
      unfold execCreditWaitExceeded
      dsimp only
      rw [hns, hlimit, if_pos hlong]
    · rw [State.rd_of_regs (markExternal_regs ..), raise_rd_ne]
      · exact State.rd_wr_fits hs.1 (HP_CREDIT_OBS_MAX_NS p) rfl hfit
      · change canonAddr (HP_CREDIT_OBS p) ≠ canonAddr (HP_EVENT p)
        rw [hobs, canonAddr_of_lt (by unfold HP_EVENT; omega)]
        unfold HP_CREDIT_OBS HP_EVENT
        omega
    · rw [State.bit, State.rd_of_regs (markExternal_regs ..), ← State.bit]
      exact raise_bit _ _ hregs.1 rfl (Nat.le_of_ble_eq_true rfl)

end Sys2Proof.Machine

/-! PROOFS. Functions of endpoint ports (R119-R137). -/

namespace Sys2Proof.Machine

/-- A window onto control space hands a request to the access of the address it is translated to. -/
theorem hostThrough_control {p f off n : Nat} {w : Win} {data : Option Bytes} (s : State) (hkind : w.kind = 1 ∨ w.kind = 2) :
    hostThrough p f w off n data s = hostControl p f (w.target + (off - w.offset)) n data s := by
  unfold hostThrough
  rcases hkind with hk | hk <;> rw [hk] <;> rfl

/-- A configuration write of a function that answers takes effect, and of one in FLR does not (R136). -/
theorem configWrite_of_open {p f : Nat} {effect : State → State} {s : State} (h : s.configOpen p f = true) :
    configWrite p f effect s = effect s := if_pos h

theorem configWrite_of_flr {p f : Nat} {effect : State → State} {s : State} (h : (s.func p f).flr = true) :
    configWrite p f effect s = s.emit (.portMessage p 6 f) := if_neg (by simp [State.configOpen, h])

theorem State.func_setFunc_same {s : State} (hs : s.Wf) (p f : Nat) (x : Func) : (s.setFunc p f x).func p f = x := by
  obtain ⟨-, -, ⟨-, -, -, hfuncs, -⟩, -⟩ := hs
  exact tblGetD_tblSet_same hfuncs

/-- Settles O10: what each request of a host to a function does. -/
theorem hostFunctionsComplete : Obligations.HostFunctionsComplete := by
  unfold Obligations.HostFunctionsComplete
  refine ⟨fun p f v s hf hv => if_pos ⟨hf, hv⟩,
    fun p f bar off n w s hlink hf hbar hn hsize hmsix hw hend hkind hboot => ?_,
    fun p f bar off bs w s hlink hf hbar hn hsize hmsix hw hend hdis hkind hboot => ?_, fun p f s hopen hbme => ?_,
    fun p f range pe ro fm s hopen => ?_, fun p f s hopen => ?_, fun p f s hs hflr => ?_, fun p f s hopen => ?_,
    fun p f pasid page k s hs hf => ?_, fun p f x page k rest s hinv hnone => ?_, fun p f ats pri s hs hopen => ?_,
    fun p f s hf hflr => ⟨congrArg Host.Outcome.next (configWrite_of_flr hflr), congrArg Host.Outcome.next (configWrite_of_flr hflr)⟩⟩
  · rw [exec_hostMmioRequest_through (data := none) hlink hf hbar hn hsize hmsix hw hend (by simp) hboot, hostThrough_control s hkind]
    rfl
  · rw [exec_hostMmioRequest_through (data := some bs) hlink hf hbar hn hsize hmsix hw hend (fun _ => hdis) hboot, hostThrough_control s hkind]
    rfl
  · refine (congrArg Host.Outcome.next (configWrite_of_open hopen)).trans ?_
    rw [if_pos hbme]
    rfl
  · exact congrArg Host.Outcome.next (configWrite_of_open hopen)
  · exact congrArg Host.Outcome.next (configWrite_of_open hopen)
  · exact ⟨_, if_pos hflr, State.func_setFunc_same hs .., rfl, rfl, rfl⟩
  · exact congrArg Host.Outcome.next (configWrite_of_open hopen)
  · refine ⟨_, if_pos hf, ?_, ?_, rfl, rfl⟩
    · rw [State.func_setFunc_same hs]
      intro e he
      simpa using (List.mem_filter.1 he).2
    · rw [State.func_setFunc_same hs]
  · change execAtsInvalidationComplete p f s = _
    simp only [execAtsInvalidationComplete, hinv, hnone]
    rfl
  · refine ⟨_, congrArg Host.Outcome.next (configWrite_of_open hopen), ?_⟩
    dsimp only
    rw [State.func_setFunc_same hs]
    exact ⟨rfl, rfl, fun h => by simp [h], fun h h' => by simp [h, h'], rfl, rfl⟩

end Sys2Proof.Machine

/-! PROOFS. Windows, and the device's own reads of host memory (R125-R135). -/

namespace Sys2Proof.Machine

/-- Settles O11: the branch of each event that its hypotheses pick. -/
theorem windowsAndReadsComplete : Obligations.WindowsAndReadsComplete := by
  unfold Obligations.WindowsAndReadsComplete
  refine ⟨fun p s hpresent hretiring hgood => ?_, fun p s hretiring hold => if_pos ⟨hretiring, hold⟩,
    fun p f pasid page absent q s hq => ?_, fun p tag g r entries bytes s hr hquar huse => ?_,
    fun p tag q f gen n r entries bytes s hr hquar huse => ?_, fun p tag g r s hr hquar huse => ?_, fun p tag r s hr hquar => ?_⟩
  · change execHpWinCommit p s = _
    unfold execHpWinCommit
    rw [if_neg (by simp [hpresent]), if_neg (by simp [hretiring]), hgood]
  · change execPageRequestResponse p f pasid page 0 absent s = _
    simp only [execPageRequestResponse, hq, if_true]
  · change execHostReadCompletion p tag true entries bytes s = _
    simp only [execHostReadCompletion, hr, hquar, huse, if_true, Bool.false_eq_true, if_false]
  · change execHostReadCompletion p tag true entries bytes s = _
    simp only [execHostReadCompletion, hr, hquar, huse, if_true, Bool.false_eq_true, if_false]
  · change execCompletionTimeout p tag s = _
    simp only [execCompletionTimeout, hr, hquar, huse, Bool.false_eq_true, if_false]
  · change execCompletionTimeout p tag s = _
    simp only [execCompletionTimeout, hr, hquar, if_true]

end Sys2Proof.Machine

/-! PROOFS. Root ports and their components (R28, R139-R143). -/

namespace Sys2Proof.Machine

/-- A first function of NVMe class code is bound as NVMe, and so is its component (R141). -/
theorem foundComponent_nvme {cxl : Bool} {f : FoundFunc} {rest : List FoundFunc} (h : f.classCode = 0x010802) :
    foundComponent cxl (f :: rest) = .nvme ∧ boundAs cxl f = .nvme := by
  have hbound : boundAs cxl f = .nvme := by simp [boundAs, h]
  exact ⟨by simp [foundComponent, hbound], hbound⟩

theorem State.portPresent_of_isRoot {s : State} {p : Nat} (h : s.portIsRoot p = true) : s.portPresent p = true := by
  simp only [State.portIsRoot, Bool.and_eq_true] at h
  exact h.1

theorem canonAddr_portStatus_ne_event {p : Nat} (hp : p < 48) : canonAddr (HP_PORT_STATUS p) ≠ canonAddr (HP_EVENT p) := by
  unfold HP_PORT_STATUS HP_EVENT
  rw [canonAddr_of_lt (by omega), canonAddr_of_lt (by omega)]
  omega

/-- Settles O12: containment, its release, enumeration, presence, an expander, and error messages. -/
theorem rootPortsComplete : Obligations.RootPortsComplete := by
  unfold Obligations.RootPortsComplete
  refine ⟨fun p s => rfl, fun p s hs hp => ?_, fun p mps bits ven cxl f rest ser s hroot hup henum hclass => ?_,
    fun p s hs hroot => ?_, fun p cap cc ven base nxt free s hcomp hsize hup hcxl hcap hfit hplace => ?_, fun p s hs hroot => ?_,
    fun p s hroot => ⟨if_pos hroot, if_pos hroot⟩⟩
  · refine ⟨_, rfl, ?_, State.wr_ports .., State.wr_outs ..⟩
    rw [State.bit, State.rd_wr_fits hs.1 (HP_PORT_STATUS_DPC p) rfl (show 0 < 2 ^ 1 by decide)]
    rfl
  · obtain ⟨hcomp, hbound⟩ := foundComponent_nvme (cxl := cxl && s.cxlLink p) (rest := rest) hclass
    change execRootPortEnumerate p ⟨cxl, mps, bits⟩ (f :: rest) ven ser s = _
    unfold execRootPortEnumerate
    dsimp only
    rw [if_pos ⟨hroot, hup, henum⟩, hcomp, if_pos rfl, List.find?_cons_of_pos (by simp [hbound])]
    simp only [hclass]
  · refine ⟨raise (HP_EVENT_PRESENCE p) (s.wr (HP_PORT_STATUS_PRESENT p) 1), if_pos hroot, ?_, ?_, ?_, ?_⟩
    · rw [raise_rd_ne _ (canonAddr_portStatus_ne_event (State.lt_of_portPresent (State.portPresent_of_isRoot hroot)))]
      exact State.rd_wr_fits hs.1 (HP_PORT_STATUS_PRESENT p) rfl (show 1 < 2 ^ 1 by decide)
    · exact raise_bit _ _ (regsWf_wr _ _ hs.1).1 rfl (Nat.le_of_ble_eq_true rfl)
    · rw [raise_ports, State.wr_ports]
    · rw [raise_mem, State.wr_mem]
  · change execCxlAttach p cap cc ven s = _
    unfold execCxlAttach
    dsimp only
    rw [if_pos ⟨hcomp, hsize, hup, hcxl, hcap⟩, if_pos hfit, hplace]
  · obtain ⟨-, -, ⟨-, -, hports, -⟩, -⟩ := hs
    refine ⟨_, if_pos hroot, ?_, rfl, rfl⟩
    rw [State.port_setPort_same hports]

end Sys2Proof.Machine

/-! PROOFS. Mailbox slots (R148, R153-R155). -/

namespace Sys2Proof.Machine

/-! ## The registers of a mailbox page -/

/-- An island that runs holds no access and refuses none. -/
theorem State.open_of_islandRuns {s : State} {a : Nat} (ha : s.islandAt a = some 0xA9) (hruns : s.islandRuns 0xA9 = true) :
    s.heldBy a = none ∧ s.unreleased a = false := by
  simp only [State.islandRuns, Bool.and_eq_true, Bool.not_eq_true'] at hruns
  obtain ⟨hrel, hin⟩ := hruns
  exact ⟨by simp [State.heldBy, ha, hin], by simp [State.unreleased, ha, hrel]⟩

theorem findIn_of_no_hit {l : List RegSpec} {a : Nat} (h : ∀ r ∈ l, r.hit a = none) : findIn l a = none := by
  induction l with
  | nil => rfl
  | cons r l ih =>
    simp only [findIn, h r (List.mem_cons_self ..)]
    exact ih fun q hq => h q (List.mem_cons_of_mem _ hq)

/-- A register that stands once in each sheet's page is not hit where its offset in the page is not. -/
theorem RegSpec.hit_of_page {r : RegSpec} {rest : List (Nat × Nat)} {a : Nat} (hdims : r.dims = (4096, 0x1000) :: rest)
    (h : a < r.base ∨ ∀ o, elementOffset rest ((a - r.base) % 0x1000) = some o → r.bytes ≤ o) : r.hit a = none := by
  unfold RegSpec.hit
  rw [hdims]
  simp only [elementOffset]
  rcases h with h | h
  · rw [if_pos h]
  · split_ifs
    · rfl
    · split
      · rename_i o ho
        rw [if_neg (by have := h o ho; omega)]
      · rfl
    · rfl

theorem mailReg_page (n : Nat) {off : Nat} (h : off < 0x1000) :
    (mailReg n off - 0x5000000) / 0x1000 = n ∧ mailReg n off % 0x1000 = off := by
  unfold mailReg
  omega

theorem mailReg_align (n : Nat) {off : Nat} (h : off % 4 = 0) : mailReg n off % 4 = 0 := by
  unfold mailReg
  omega

section
variable {n off : Nat} (hn : n < 4096) (hlo : 0x84 ≤ off) (hhi : off < 0x800)
include hn hlo hhi

theorem islandAt_mailReg (s : State) : s.islandAt (mailReg n off) = some 0xA9 := by
  have hblock : mailReg n off / 0x1000000 = 5 := by unfold mailReg; omega
  simp only [State.islandAt, hblock]

theorem placeOf_mailReg : placeOf (mailReg n off) = .registers := by
  have haddr : mailReg n off = 0x5000000 + n * 0x1000 + off := rfl
  have hslot : slotAt (mailReg n off) = none := if_neg (by omega)
  simp only [placeOf, hslot, isAperture, isClusterMem, isHbm, isCxl, isDoorbell, Bool.and_eq_true, decide_eq_true_eq]
  rw [if_neg (by omega), if_neg (by omega), if_neg (by omega), if_neg (by omega)]

/-- No register of the map lies where a page's claims, bells and acknowledgements do. -/
theorem findReg_mailReg : findReg (mailReg n off) = none := by
  obtain ⟨a, ha⟩ : ∃ a, a = mailReg n off := ⟨_, rfl⟩
  have haddr : a = 0x5000000 + n * 0x1000 + off := ha
  have hblock : blockRegs a = cadRegs := by
    unfold blockRegs
    rw [show a / 0x1000000 = 5 by omega]
    rfl
  rw [← ha, findReg, canonAddr_of_lt (by omega), hblock]
  refine findIn_of_no_hit fun r hr => ?_
  simp only [cadRegs, cadRegs0, List.mem_cons, List.not_mem_nil, or_false] at hr
  rcases hr with rfl | rfl | rfl | rfl | rfl | rfl
  · exact RegSpec.hit_of_page (rest := []) rfl (by dsimp only; simp [elementOffset]; omega)
  · exact RegSpec.hit_of_page (rest := []) rfl (by dsimp only; simp [elementOffset]; omega)
  · exact RegSpec.hit_of_page (rest := [(5, 8)]) rfl (by dsimp only; simp [elementOffset]; omega)
  · exact RegSpec.hit_of_page (rest := []) rfl (by dsimp only; simp [elementOffset]; omega)
  · exact RegSpec.hit_of_page (rest := []) rfl (by dsimp only; simp [elementOffset]; omega)
  · exact RegSpec.hit_of_page (rest := [(5, 8)]) rfl (by dsimp only; simp [elementOffset]; omega)

theorem regBytes_mailReg : regBytes (mailReg n off) = 4 := by rw [regBytes, findReg_mailReg hn hlo hhi]

/-- A read of a page's register that its party and island allow. -/
theorem access_mailReg_read {who : Party} {s : State} (h4 : off % 4 = 0) (hruns : s.islandRuns 0xA9 = true)
    (hreach : s.reaches who (mailReg n off) = true) (hout : s.outputOf who (mailReg n off) = none) :
    access ⟨who, false, mailReg n off, 4, 0, 0⟩ s
      = (readReg who (mailReg n off) s).2.emit (.reply who (leBytes 4 (readReg who (mailReg n off) s).1)) := by
  obtain ⟨hheld, hrel⟩ := State.open_of_islandRuns (islandAt_mailReg hn hlo hhi s) hruns
  have h4' := mailReg_align n h4
  have hrec : s.recordBytes (mailReg n off) 4 = none := by
    have haddr : mailReg n off = 0x5000000 + n * 0x1000 + off := rfl
    unfold State.recordBytes
    rw [if_neg (by omega), if_neg (by omega)]
  unfold access
  simp only [hout, s.holderOf_aligned (.inl rfl) h4', hheld]
  exact perform_read_aligned (.inl rfl) h4' hreach hrel (placeOf_mailReg hn hlo hhi) (regBytes_mailReg hn hlo hhi) hrec

/-- A write of 1 to a page's register that its party and island allow. -/
theorem access_mailReg_write {who : Party} {s : State} (h4 : off % 4 = 0) (hruns : s.islandRuns 0xA9 = true)
    (hreach : s.reaches who (mailReg n off) = true) (hout : s.outputOf who (mailReg n off) = none) :
    access ⟨who, true, mailReg n off, 4, 1, 0⟩ s = mailWrite who (mailReg n off) 1 s := by
  obtain ⟨hheld, hrel⟩ := State.open_of_islandRuns (islandAt_mailReg hn hlo hhi s) hruns
  have h4' := mailReg_align n h4
  unfold access
  simp only [hout, s.holderOf_aligned (.inl rfl) h4', hheld]
  rw [perform_write_aligned (.inl rfl) h4' hreach hrel (placeOf_mailReg hn hlo hhi) (regBytes_mailReg hn hlo hhi)]
  have haddr : mailReg n off = 0x5000000 + n * 0x1000 + off := rfl
  exact if_pos (by omega)

end

/-- A claim read answers whether the slot was claimed (R153). -/
theorem readReg_claim {n : Nat} (hn : n < 4096) (up : Bool) (who : Party) (s : State) :
    readReg who (mailReg n (if up then 0x84 else 0x90)) s
      = (if (claimSlot n up who s).1 then 1 else 0, (claimSlot n up who s).2) := by
  have hclaim : claimAt (mailReg n (if up then 0x84 else 0x90)) = some (n, up) := by
    unfold claimAt
    cases up
    · obtain ⟨h, h'⟩ := mailReg_page n (off := 0x90) (by decide)
      rw [if_pos (by simp [mailReg]; omega)]
      simp [h, h']
    · obtain ⟨h, h'⟩ := mailReg_page n (off := 0x84) (by decide)
      rw [if_pos (by simp [mailReg]; omega)]
      simp [h, h']
  unfold readReg
  rw [hclaim]

/-- A write of 1 rings a slot's bell, at 0x88 of its page for UP and 0x94 for DOWN, or acknowledges it, at 0x8C and 0x98. -/
theorem mailWrite_bell (n : Nat) (up : Bool) (who : Party) (s : State) :
    mailWrite who (mailReg n (if up then 0x88 else 0x94)) 1 s = bellSlot n up who s := by
  unfold mailWrite
  cases up
  · obtain ⟨h, h'⟩ := mailReg_page n (off := 0x94) (by decide)
    simp [h, h']
  · obtain ⟨h, h'⟩ := mailReg_page n (off := 0x88) (by decide)
    simp [h, h']

theorem mailWrite_ack (n : Nat) (up : Bool) (who : Party) (s : State) :
    mailWrite who (mailReg n (if up then 0x8C else 0x98)) 1 s = ackSlot n up who s := by
  unfold mailWrite
  cases up
  · obtain ⟨h, h'⟩ := mailReg_page n (off := 0x98) (by decide)
    simp [h, h']
  · obtain ⟨h, h'⟩ := mailReg_page n (off := 0x8C) (by decide)
    simp [h, h']

/-- Settles O13: a slot is claimed, filled, acknowledged, and freed by the claim's time-out. -/
theorem mailboxCompletes : Obligations.MailboxCompletes := by
  unfold Obligations.MailboxCompletes
  refine ⟨fun n up who s hn hruns hfree hacts hreach hout hempty hqueue => ?_,
    fun n up who s hn hruns hfree hacts hreach hout hclaimed => ?_, fun n up who s hn hruns hfree hacts hreach hout hfull => ?_,
    fun n up s hclaimed hqueue => ?_⟩
  · change Host.Outcome.next (access _ s) = _
    rw [access_mailReg_read hn (by split <;> decide) (by split <;> decide) (by split <;> decide) hruns hreach hout,
      readReg_claim hn]
    have hclaim : claimSlot n up who s
        = (true, s.setSheet n ((s.sheet n).withSlot up { (s.sheet n).slot up with state := .claimed })) :=
      if_pos ⟨hfree, hacts, hempty, hqueue⟩
    rw [hclaim]
    simp only [if_true]
    rfl
  · change Host.Outcome.next (access _ s) = _
    rw [access_mailReg_write hn (by split <;> decide) (by split <;> decide) (by split <;> decide) hruns hreach hout,
      mailWrite_bell]
    exact congrArg _ (if_pos ⟨hfree, hacts, hclaimed⟩)
  · change Host.Outcome.next (access _ s) = _
    rw [access_mailReg_write hn (by split <;> decide) (by split <;> decide) (by split <;> decide) hruns hreach hout,
      mailWrite_ack]
    exact congrArg _ (if_pos ⟨hfree, hacts, hfull⟩)
  · change execMbxClaimTimeout n up s = _
    simp only [execMbxClaimTimeout, hclaimed, hqueue, if_true]

end Sys2Proof.Machine

/-! PROOFS. Sheets (chapter 6). -/

namespace Sys2Proof.Machine

/-- A DISABLED sheet whose function is there, may read host memory and takes its PASID becomes ACTIVE (R157, R161). -/
theorem enableSheet_of_ready {n : Nat} {s : State} (hst : (s.sheet n).state = .disabled) (hdes : (s.sheet n).destroying = false)
    (hpres : (s.sheetFunc n).present = true) (hbme : (s.sheetFunc n).bme = true)
    (hpasid : s.rd (CAD_ID_PASID n) = 0 ∨ (s.sheetFunc n).pasidEn = true) :
    enableSheet n s = (0, let v := postSheetState n 1 2 0 (s.setSheet n { s.sheet n with state := .active })
      (v.sheetRings n).foldl (fun t g => issueFetch g t) v) := by
  have hfunc : ¬((s.sheetFunc n).bme = false ∨ s.rd (CAD_ID_PASID n) ≠ 0 ∧ (s.sheetFunc n).pasidEn = false) := by
    rcases hpasid with h | h <;> simp [hbme, h]
  unfold enableSheet
  dsimp only
  rw [if_neg (by simp [hst, hdes]), if_neg (by simp [hpres]), if_neg hfunc]

/-- Settles O14: each command's effect once its entry has started, the manager's operations, and the ends they lead to. -/
theorem sheetsComplete : Obligations.SheetsComplete := by
  unfold Obligations.SheetsComplete
  refine ⟨fun g r j s u h href hdes hres => ?_, fun g r j s u h href hst hdes hpres hbme hpasid => ?_,
    fun g r j s u h href hne hdes hst => ?_, fun n s hst hdrained => if_pos ⟨hst, hdrained⟩,
    fun g r j s u h href hst hon => ?_, fun g r j s u h href hst hoff => ?_, fun g r j s u h hne href => ?_,
    fun n s hbusy hcreate => ?_, fun n s hbusy hport hst hdes hpres hbme hpasid => ?_, fun n s hbusy hport hst => ?_,
    fun n s hdes => if_pos hdes⟩
  · refine congrArg Host.Outcome.next (runEntry_ends h ?_)
    simp only [href, hres]
    rw [if_neg (by simp [hdes])]
  · refine congrArg Host.Outcome.next (runEntry_ends h ?_)
    simp only [href, enableSheet_of_ready hst hdes hpres hbme hpasid]
  · refine congrArg Host.Outcome.next (startEntry_runs _ h ?_)
    simp only [href]
    rw [if_neg (by simp [hne, hdes]), if_neg (by simp [hst])]
  · refine congrArg Host.Outcome.next (runEntry_ends h ?_)
    simp only [href, hst, hon]
    rfl
  · refine congrArg Host.Outcome.next (runEntry_ends h ?_)
    simp only [href, hst, hoff]
    rfl
  · refine congrArg Host.Outcome.next (runEntry_ends h ?_)
    simp only [href]
    rw [if_neg (by simp [hne])]
  · refine congrArg Host.Outcome.next ?_
    unfold createSheet
    rw [if_neg (by simp [hbusy]), hcreate]
  · refine congrArg Host.Outcome.next ?_
    unfold cadEnable
    rw [if_neg (by simp [hbusy]), if_neg (Option.isSome_iff_ne_none.1 hport), if_neg (by simp [hst]),
      enableSheet_of_ready hst hdes hpres hbme hpasid]
  · refine congrArg Host.Outcome.next ?_
    unfold cadDestroy
    dsimp only
    rw [if_neg (by simp [hbusy]), if_neg (Option.isSome_iff_ne_none.1 hport), if_neg (by simp [hst]),
      if_neg (by simp [hst])]

end Sys2Proof.Machine

/-! PROOFS. Ring commands, doorbells and admin rings (chapter 7). -/

namespace Sys2Proof.Machine

/-- A ring reaches its own sheet. -/
theorem State.ringReach_self (s : State) (n : Nat) : s.ringReach n n = true := by
  unfold State.ringReach
  simp

/-- Settles O15: each command's effect once its entry has started, and the ends it leads to. -/
theorem ringCommandsComplete : Obligations.RingCommandsComplete := by
  unfold Obligations.RingCommandsComplete
  refine ⟨fun g pick c r j s u h hsheet hloc hfree hres hfields hcontract hlimit => ?_, fun g k r x j s u h hname hst => ?_,
    fun g k r x y j s u h hname hne hloc hst hy => ?_, fun g left r s hr hst hjobs => ?_,
    fun g r s hr hst hidle hquiet => ?_, fun g k r x j s u h hname hst hidle => ?_, fun g k r x j s u h hname => ?_,
    fun g k c r x j s u h hname hvec hcontract => ?_, fun g r j s u h => congrArg Host.Outcome.next (runEntry_ends h rfl)⟩
  · refine congrArg Host.Outcome.next (runEntry_ends h ?_)
    simp only [hsheet]
    rw [if_neg (by simp [u.ringReach_self]), if_neg (by simp [hloc, hfree, hres]), if_neg (by simp [hfields]), hcontract]
    dsimp only
    rw [if_neg (by omega)]
  · refine congrArg Host.Outcome.next (runEntry_ends h ?_)
    simp only [hname]
    rw [if_neg (by simp [hst])]
  · refine congrArg Host.Outcome.next (startEntry_runs _ h ?_)
    simp only [hname]
    rw [if_neg (by simp [hne, hloc, hst]), if_pos hst, hy]
  · change execRingQuiesceEnd g left s = _
    unfold execRingQuiesceEnd
    simp only [hr]
    rw [if_pos ⟨hst, hjobs⟩]
    split <;> rfl
  · change execRingIdle g s = _
    simp only [execRingIdle, hr]
    rw [if_pos ⟨hst, hidle, hquiet⟩]
  · refine congrArg Host.Outcome.next (runEntry_ends h ?_)
    simp only [hname]
    rw [if_pos ⟨hst, hidle⟩]
  · refine congrArg Host.Outcome.next (runEntry_ends h ?_)
    simp only [hname]
  · refine congrArg Host.Outcome.next (runEntry_ends h ?_)
    simp only [hname]
    rw [if_neg (by omega), hcontract]

end Sys2Proof.Machine

/-! PROOFS. Doorbells, entry reads and admin rings (chapter 7). -/

namespace Sys2Proof.Machine

/-- Settles O16: an index accepted, an entry read, the coalescing timer, and the admin rings. -/
theorem doorbellsAndAdminRingsComplete : Obligations.DoorbellsAndAdminRingsComplete := by
  unfold Obligations.DoorbellsAndAdminRingsComplete
  refine ⟨fun n loc pi g r s hn hloc hpi hactive hfind hpiok => ?_, fun g r s hr hfetch hroom htags => ?_,
    fun g r s hr htimer hun => ?_, fun n pick one s hfree hnone hvec hlimit => ?_, fun n g r s hfree hdesc hst => ?_,
    fun n g r s hfree hdesc hst hidle => ?_, fun s hs => ?_⟩
  · rw [exec_doorbellWrite_wide s hloc hpi, doorbell, if_pos (.inl hactive), hfind]
    dsimp only
    rw [ringDoorbell_of_accepted g s hpiok]
  · change Host.Outcome.next (issueFetch g s) = _
    simp only [issueFetch, hr]
    rw [if_pos ⟨hfetch, hroom, htags⟩]
  · change execCoalTimerExpiry g s = _
    simp only [execCoalTimerExpiry, hr]
    rw [if_pos ⟨htimer, hun⟩]
  · change Host.Outcome.next (adminOpen n pick one s) = _
    unfold adminOpen
    rw [if_neg hfree, if_neg (by simp [hnone]), if_neg (by omega), if_neg (by omega)]
  · change Host.Outcome.next (adminEnable n s) = _
    unfold adminEnable
    rw [if_neg hfree, hdesc]
    dsimp only
    rw [if_pos hst]
  · change Host.Outcome.next (adminClose n s) = _
    unfold adminClose
    rw [if_neg hfree, hdesc]
    dsimp only
    rw [if_pos ⟨hst, hidle⟩]
  · exact ⟨_, rfl, State.rd_wr_fits hs.1 RNG_DB_DROP_COUNT rfl (Nat.two_pow_pos _), State.wr_rings .., State.wr_sheets ..⟩

end Sys2Proof.Machine

/-! PROOFS. Entries that move data (R195, R203-R206). -/

namespace Sys2Proof.Machine

/-- A packet that is not throttled and may read is read and sent (R204). -/
theorem startTx_sends {g : Nat} {bs : Bytes} {r : Ring} {j : Job} {s u : State} (h : s.Starts g 0x80 r j u)
    (hthr : s.throttled r j = false) (hroom : s.flight.room .rd = true) (hlen : txLenOk j = true) :
    startTx g (.ok bs) s = sendTx g r j bs (readSegments r j (takeBench r.sheet (txLen j) u)) := by
  have hbegin : beginJob g (· == 0x80) (some .dma) s = (some (r, j), u) := h
  simp only [startTx, h.cases.1, hbegin]
  rw [if_neg (by simp [hthr, hroom]), if_neg (by simp [hlen])]

/-- Settles O17: a packet read and sent, a buffer posted, host memory copied and filled. -/
theorem dataEntriesComplete : Obligations.DataEntriesComplete := by
  unfold Obligations.DataEntriesComplete
  refine ⟨fun g bs r j s u h hthr hroom hlen => ?_, fun g r j s h hmin hmax => ?_, fun g bs r j s u hroom h hpos hmax => ?_,
    fun g bs r j s u h halign hmod hmin hmax => ?_⟩
  · exact ⟨congrArg Host.Outcome.next (startTx_sends h hthr hroom hlen), congrArg Host.Outcome.next (startTx_sends h hthr hroom hlen)⟩
  · change execRxBuf g s = _
    simp only [execRxBuf, h]
    rw [if_neg (by omega)]
  · refine (if_pos hroom).trans (congrArg Host.Outcome.next (runEntry_ends h ?_))
    unfold copyEntry
    dsimp only
    rw [if_neg (by omega)]
  · refine congrArg Host.Outcome.next (runEntry_ends h ?_)
    unfold fillEntry
    dsimp only
    rw [if_neg (by omega)]

end Sys2Proof.Machine

/-! PROOFS. Configuration of network ports (R211-R225, R232). -/

namespace Sys2Proof.Machine

/-- A configuration that passes its tests is written, and the port started or stopped as ENABLE says. -/
theorem netCfgWrite_of_fits {p : Nat} {v : BitVec 64} {s : State}
    (hmode : s.cfgMode p v = s.rd (NET_PORT_CFG_MODE p) ∨ s.modeFits p (s.cfgMode p v) = true)
    (hnamed : s.bit (NET_PORT_CFG_ENABLE p) = true → (s.cfgWritten p v).bit (NET_PORT_CFG_ENABLE p) = false → s.portNamed p = false)
    (hhead : s.netState p ≠ 0 → (s.cfgWritten p v).headroomChange p = true)
    (hframe : s.rd (NET_PORT_CFG_MAX_FRAME p) < (s.cfgWritten p v).rd (NET_PORT_CFG_MAX_FRAME p) →
      (s.cfgWritten p v).portRecheck p = true) :
    netCfgWrite p v s = (let u := applyHeadroom p (grownFrame p s ((s.cfgWritten p v).wr (NET_PORT_STATUS_CFG_ERR p) 0))
      followPrbs p s (if u.bit (NET_PORT_CFG_ENABLE p) then startPort p u else if s.netState p = 0 then u else moveNet p 0 0 u)) := by
  unfold netCfgWrite
  dsimp only
  rw [if_neg ?_, if_neg ?_]
  · simp only [Bool.and_eq_true, decide_eq_true_eq, Bool.not_eq_true', not_and, Bool.not_eq_false]
    exact hframe
  · simp only [Bool.and_eq_true, bne_iff_ne, Bool.not_eq_true', not_or, not_and, Bool.not_eq_false, decide_eq_false_iff_not]
    exact ⟨fun h => hmode.resolve_left h, fun h => by simp [hnamed h.1 h.2], hhead⟩

/-- Settles O18: a configuration is written when it fits, a PRBS test counts its errors, and the counters are cleared. -/
theorem netConfigurationCompletes : Obligations.NetConfigurationCompletes := by
  unfold Obligations.NetConfigurationCompletes
  refine ⟨fun p m v s t u hmode hnamed hhead hframe hu ht => ?_, fun p reg v a s hreg hhead => ?_, fun p test rate errors s => ?_,
    fun p s => rfl⟩
  · have hwrite : netCfgWrite p v s = t := by rw [netCfgWrite_of_fits hmode hnamed hhead hframe, ht, hu]
    refine ⟨fun h => ?_, fun h => ?_, fun h => ?_, fun h => ?_⟩ <;> rw [← hwrite, h] <;> rfl
  · have hhead' : ¬(s.netState p ≠ 0 ∧ (s.plainWrite a (BitVec.ofNat 64 v)).headroomChange p = false) :=
      fun ⟨hon, hbad⟩ => by simp [hhead hon] at hbad
    have hwrite : netHeadWrite a p (BitVec.ofNat 64 v) s = refreshPressure
        (applyHeadroom p ((s.plainWrite a (BitVec.ofNat 64 v)).wr (NET_PORT_STATUS_CFG_ERR p) 0)) := if_neg hhead'
    rcases hreg with ⟨rfl, rfl⟩ | ⟨rfl, rfl⟩ <;> rw [← hwrite] <;> rfl
  · change execNetPrbsTest p test rate errors s = _
    unfold execNetPrbsTest
    dsimp only
    generalize netCfgWrite p _ s = u
    by_cases h : (u.prbsOf p).1 = 0
    · rw [if_neg (not_not.2 h), if_pos h]
    · rw [if_pos h, if_neg h]

end Sys2Proof.Machine

/-! PROOFS. States of a network port, Table 8.4 (R221-R228). -/

namespace Sys2Proof.Machine

/-- Settles O19: each event that the port's present state takes moves the port as Table 8.4 says. -/
theorem netStatesComplete : Obligations.NetStatesComplete := by
  unfold Obligations.NetStatesComplete
  refine ⟨fun p s hoff hmod => ?_, fun p s hst hnone => ?_, fun p s hst hclk => ?_, fun p s hst hfit => ?_, fun p n s hst => ?_,
    fun p s hst hpause => ?_, fun p s hst hready => ?_, fun p s hst => ?_⟩
  · exact congrArg Host.Outcome.next (if_neg (not_or.2 ⟨hoff, hmod⟩))
  · exact congrArg Host.Outcome.next (if_pos ⟨hst, hnone⟩)
  · exact congrArg Host.Outcome.next (if_pos ⟨hst, hclk⟩)
  · exact (if_pos hst).trans (if_pos hfit)
  · exact congrArg Host.Outcome.next (if_pos (.inr (.inl hst)))
  · exact if_pos ⟨hst, hpause⟩
  · exact if_pos ⟨hst, hready⟩
  · exact congrArg Host.Outcome.next (if_pos hst)

end Sys2Proof.Machine

/-! PROOFS. Flow control of network ports (R216-R220). -/

namespace Sys2Proof.Machine

/-- A MAC control frame of a port that runs and whose island is released is taken by its opcode. -/
theorem macControl_of_sendsPfc {p op en : Nat} {q : List Nat} {s : State} (hup : s.sendsPfc p = true)
    (hout : (s.island p).inReset = false) :
    macControl p op en q s = (if op = 0x0101 then
        showPaused p ((List.range 8).foldl (fun t k => if en.testBit k then pausePrio p k (q.getD k 0) t else t) (s.count (NET_RX_PFC p) 1))
      else if op = 0x0001 then (let u := s.count (NET_RX_PFC p) 1
        if u.bit (NET_PFC_CFG_RX_PAUSE_EN p) then
          showPaused p (((List.range 8).filter (fun c => (u.rd (NET_PFC_CFG_RX_PFC_EN p)).testBit c)).foldl
            (fun t c => let t := pauseClass p c (q.getD 0 0) t
                        if q.getD 0 0 = 0 then t else markPaused p c t) u)
        else u)
      else s.count (NET_RX_CTRL_OTHER p) 1) := by
  have hup' : s.netState p = 5 ∨ s.netState p = 6 := by simpa [State.sendsPfc, State.netState] using hup
  have hcal : s.netState p ≠ 4 := by omega
  exact (if_neg hcal).trans (if_neg (by simp [hup, hout]))

/-- Settles O20: each MAC control frame of a running port takes its effect, a pause ends, and a pause sent is refreshed. -/
theorem flowControlCompletes : Obligations.FlowControlCompletes := by
  unfold Obligations.FlowControlCompletes
  refine ⟨fun p en q s hup hout => ?_, fun p en q s hup hout hen => ?_, fun p op en q s hup hout hpfc hpause => ?_,
    fun p c s hwf => ⟨_, rfl, ?_, rfl, rfl, rfl⟩, fun p s hup hxoff => ?_⟩
  · exact congrArg Host.Outcome.next ((macControl_of_sendsPfc hup hout).trans (if_pos rfl))
  · refine congrArg Host.Outcome.next ((macControl_of_sendsPfc hup hout).trans ((if_neg (by decide)).trans
      ((if_pos rfl).trans ((if_pos hen).trans ?_))))
    by_cases hq : q.getD 0 0 = 0
    · simp only [hq]
    · simp only [if_neg hq]
  · exact congrArg Host.Outcome.next ((macControl_of_sendsPfc hup hout).trans ((if_neg hpfc).trans (if_neg hpause)))
  · exact tblGet_tblDel_same hwf
  · exact congrArg Host.Outcome.next (if_pos ⟨hup, hxoff⟩)

end Sys2Proof.Machine

/-! PROOFS. The module manager of the network cages (R228-R231). -/

namespace Sys2Proof.Machine

/-- What one port's turn does when a ready module within the cage's power matches it: the port is marked ready. -/
def markReady (t : State) (p : Nat) : State :=
  { t with net := { t.net with ready := if t.net.ready.contains p then t.net.ready else p :: t.net.ready } }

theorem mem_markReady {p q : Nat} {t : State} : q ∈ (markReady t p).net.ready ↔ q = p ∨ q ∈ t.net.ready := by
  unfold markReady
  by_cases h : t.net.ready.contains p
  · simp only [h, if_true]
    exact ⟨.inr, fun hq => hq.elim (fun e => e ▸ List.contains_iff_mem.1 h) id⟩
  · simp only [h, if_false, List.mem_cons, Bool.false_eq_true]

theorem mem_foldl_markReady {l : List Nat} {q : Nat} {t : State} :
    q ∈ (l.foldl markReady t).net.ready ↔ q ∈ l ∨ q ∈ t.net.ready := by
  induction l generalizing t with
  | nil => simp
  | cons p l ih => rw [List.foldl_cons, ih, mem_markReady, List.mem_cons]; tauto

theorem foldl_markReady_frame (l : List Nat) (t : State) : (l.foldl markReady t).regs = t.regs
    ∧ (l.foldl markReady t).contracts = t.contracts ∧ (l.foldl markReady t).voqs = t.voqs := by
  induction l generalizing t with
  | nil => exact ⟨rfl, rfl, rfl⟩
  | cons p l ih => exact ih (markReady t p)

/-- A module within the cage's power that matches every port of a list marks each of them ready. -/
theorem foldl_moduleReady {k pw : Nat} {ports l : List Nat} (hports : ∀ p ∈ l, ports.contains p = true) (t : State)
    (hpw : pw ≤ t.rd (NET_CAGE_CFG_MAX_POWER k)) :
    l.foldl (fun t p => if t.rd (NET_CAGE_CFG_MAX_POWER k) < pw then initFailed p 2 t
      else if ports.contains p then
        { t with net := { t.net with ready := if t.net.ready.contains p then t.net.ready else p :: t.net.ready } }
      else initFailed p 1 t) t = l.foldl markReady t := by
  induction l generalizing t with
  | nil => rfl
  | cons p l ih =>
    rw [List.foldl_cons, List.foldl_cons, if_neg (not_lt.2 hpw), if_pos (hports p List.mem_cons_self)]
    exact ih (fun q hq => hports q (List.mem_cons_of_mem p hq)) (markReady t p) hpw

/-- The free value that the input supplies next is what it was before a register's field was written. -/
theorem State.draw_wr (s : State) (f : Fld) (n : Nat) : (s.wr f n).draw = s.draw := rfl

/-- Settles O21: presence, readiness, failures, removal, alarms and page accesses of a module answer what chapter 8 gives. -/
theorem modulesComplete : Obligations.ModulesComplete := by
  unfold Obligations.ModulesComplete
  refine ⟨fun k ven i3c ser s hpres hnew => ?_, fun k pw ports s u hpres hu hpw hports => ?_, fun k s hport hfew => ?_,
    fun k s hport hthird => ?_, fun k s hpres => ?_, fun k fl st s hpres => ?_, fun k v a s hidle hgo ha hwr => ?_,
    fun k data a s ha => ?_⟩
  · exact if_neg (by simp [hpres, hnew])
  · refine ⟨u.cagePortsIn k [2] |>.foldl markReady u, ?_, fun p hp => mem_foldl_markReady.2 (.inl hp), ?_⟩
    · refine (if_neg (by simp [hpres])).trans (congrArg Host.Outcome.next ?_)
      subst hu
      exact foldl_moduleReady hports _ hpw
    · obtain ⟨hregs, hcon, hvoqs⟩ := foldl_markReady_frame (u.cagePortsIn k [2]) u
      subst hu
      exact ⟨hregs, hcon, hvoqs⟩
  · exact (if_neg hport).trans (if_pos (by omega))
  · exact (if_neg hport).trans (if_neg (by omega))
  · exact if_neg (by simp [hpres])
  · exact if_pos hpres
  · subst ha
    refine congrArg Host.Outcome.next ((if_neg (by simp [hidle, hgo])).trans (if_neg ?_))
    rintro ⟨hw, hbad⟩
    obtain ⟨hlow, hpage⟩ := hwr hw
    exact hbad.elim (not_lt.2 hlow) hpage
  · constructor
    · change execCageAccessDone k true data s = _
      unfold execCageAccessDone
      rw [ha]
      simp only [if_true]
    · change execCageAccessDone k false data s = _
      unfold execCageAccessDone
      rw [ha]
      simp only [Bool.false_eq_true, if_false, State.draw_wr]

end Sys2Proof.Machine

/-! PROOFS. Profile sets, moves and faults of benches (R240-R254). -/

namespace Sys2Proof.Machine

/-- A bench that serves is in state 2. -/
theorem State.state_of_benchServes {s : State} {k : Nat} (h : s.benchServes k = true) : s.rd (BNC_STATUS_STATE k) = 2 := by
  simp only [State.benchServes, Bool.and_eq_true, beq_iff_eq] at h
  exact h.1

/-- A bench that serves is neither a spare nor out of service. -/
theorem State.not_spare_of_benchServes {s : State} {k : Nat} (h : s.benchServes k = true) :
    s.rd (BNC_STATUS_STATE k) ≠ 1 ∧ ¬s.benchServes k = false := by
  simp [State.state_of_benchServes h, h]

/-- Settles O22: profile commit, retirement, default actions, moves, markers and bench faults answer what chapter 9 gives. -/
theorem benchCommandsComplete : Obligations.BenchCommandsComplete := by
  unfold Obligations.BenchCommandsComplete
  refine ⟨fun s hret hgood => ?_, fun s hret hfly hwait => ?_, fun i v s hout hprog => ?_, fun b dest force s hidle hst => ?_,
    fun i m s hmove hmark hpast => ?_, fun k s hspare => ?_, fun k sp s hserves hspare => ?_, fun k s hserves hspare => ?_⟩
  · change execBncProfCommit s = _
    unfold execBncProfCommit profCommit
    rw [if_neg (by simp [hret]), hgood]
  · exact if_pos ⟨hret, hfly, hwait⟩
  · refine congrArg Host.Outcome.next (if_neg ?_)
    rintro (⟨hact, hbad⟩ | ⟨hact, hbad⟩)
    · exact Bool.false_ne_true (hbad.symm.trans (hout hact))
    · exact hbad (hprog hact)
  · exact congrArg Host.Outcome.next ((if_neg (by simp [hidle])).trans (if_neg (by simp [hst])))
  · change execDrainMarkerPass i s = _
    unfold execDrainMarkerPass
    rw [hmove]
    dsimp only
    rw [if_neg (by simp [hpast, List.contains_iff_mem.1 hmark])]
  · exact congrArg Host.Outcome.next (if_pos hspare)
  · obtain ⟨hnospare, hserves⟩ := State.not_spare_of_benchServes hserves
    refine congrArg Host.Outcome.next ((if_neg hnospare).trans ((if_neg hserves).trans ?_))
    simp only [hspare]
  · obtain ⟨hnospare, hserves⟩ := State.not_spare_of_benchServes hserves
    refine congrArg Host.Outcome.next ((if_neg hnospare).trans ((if_neg hserves).trans ?_))
    simp only [hspare]

end Sys2Proof.Machine

/-! PROOFS. Exact-match tables (R264-R275). -/

namespace Sys2Proof.Machine

/-- A table command that the manager gives for a table of its types completes with what the table answers. -/
theorem tblCommand_answers {g op st : Nat} {types : List Nat} {ok : State → Entry → Bool} {r : Ring} {j : Job} {s u w : State}
    {f : Nat → Entry → State → State × Nat × TblReply} {reply : TblReply} (h : s.Starts g op r j u)
    (hmgr : u.managerSheet r.sheet = true) (htype : types.contains (u.rd (TBL_DESC_TYPE (tblTable j.first))) = true)
    (hok : ok u j.first = true) (hf : f (tblTable j.first) j.first u = (w, st, reply)) :
    tblCommand g op types ok f s = done g j st (tblBody w (tblTable j.first) reply) w := by
  refine runEntry_ends h ?_
  dsimp only
  rw [if_neg (by simp [hmgr]), if_neg (by simp only [htype]; decide), if_neg (by simp [hok]), hf]

/-- No fault of the HBM tier meets an access that is not in it. -/
theorem not_hbm_fault {hb inHbm : Bool} (h : hb = false ∨ inHbm = false) : ¬(hb = true ∧ inHbm = true) := by
  rcases h with rfl | rfl <;> simp

/-- Settles O23: each exact-match command of the manager completes with what its table answers. -/
theorem exactMatchCompletes : Obligations.ExactMatchCompletes := by
  unfold Obligations.ExactMatchCompletes
  refine ⟨fun g t hb key r j e pl q s u hfree h hmgr ht htype hkey he hhbm hnew hroom hins hpl => ?_,
    fun g t hb key r j old s u hfree h hmgr ht htype hkey hhbm hold => ?_,
    fun g t hb key r j s u hfree h hmgr ht htype hkey hhbm hold => ?_, fun g t key r j s u h hmgr ht htype hkey => ?_⟩ <;>
    subst ht hkey
  · subst he
    refine (if_neg (by simp [hfree])).trans (congrArg Host.Outcome.next (tblCommand_answers h hmgr htype rfl ?_))
    dsimp only
    rw [if_neg (not_not.2 hnew), if_neg (not_hbm_fault hhbm)]
    unfold insertEntry
    dsimp only
    rw [if_neg (not_lt.2 hroom), hins]
    cases pl with
    | failed => exact absurd rfl hpl
    | _ => rfl
  · refine (if_neg (by simp [hfree])).trans (congrArg Host.Outcome.next (tblCommand_answers h hmgr htype rfl ?_))
    dsimp only
    rw [hold]
    exact if_neg (not_hbm_fault hhbm)
  · refine (if_neg (by simp [hfree])).trans (congrArg Host.Outcome.next (tblCommand_answers h hmgr htype rfl ?_))
    dsimp only
    rw [if_neg hold, if_neg (not_hbm_fault hhbm)]
  · refine congrArg Host.Outcome.next (tblCommand_answers h hmgr htype rfl ?_)
    dsimp only
    cases (u.partition (u.inHbm (tblTable j.first))).lookup (tblTable j.first) (tblKey j.first (u.keyLen (tblTable j.first))) <;> rfl

end Sys2Proof.Machine

/-! PROOFS. LPM tables (R267-R273). -/

namespace Sys2Proof.Machine

theorem lpm_type_accepted {u : State} {t : Nat} (htype : u.rd (TBL_DESC_TYPE t) = 3) :
    [3].contains (u.rd (TBL_DESC_TYPE t)) = true := by
  rw [htype]
  rfl

/-- A slice that has the length it is given, or fewer lengths than the limit, is not full for it. -/
theorem not_slice_full {lens : List Nat} {n limit : Nat} (h : lens.contains n = true ∨ lens.length ≤ limit) :
    ¬(lens.contains n = false ∧ limit + 1 < lens.length + 1) := by
  rintro ⟨hnot, hfull⟩
  rcases h with h | h
  · exact Bool.false_ne_true (hnot.symm.trans h)
  · omega

/-- Settles O24: prefixes of either tier are added, replaced and removed, and an address is looked up. -/
theorem lpmCompletes : Obligations.LpmCompletes := by
  unfold Obligations.LpmCompletes
  refine ⟨fun g t n hb addr r j s u hfree h hmgr ht hn htype hok hshort haddr hnew hroom => ?_,
    fun g t n hb addr old r j s u hfree h hmgr ht hn htype hok hshort haddr hold => ?_,
    fun g t n hb addr r j s u hfree h hmgr ht hn htype hok hshort haddr hold => ?_,
    fun g t n addr r j s u hfree h hmgr ht hn htype hok hlong haddr hnew hroom hslice => ?_,
    fun g t n addr old r j s u hfree h hmgr ht hn htype hok hlong haddr hold => ?_,
    fun g t n addr r j s u hfree h hmgr ht hn htype hok hlong haddr hold => ?_,
    fun g t r j s u h hmgr ht htype => ?_⟩
  · subst ht hn haddr
    refine (if_neg (by simp [hfree])).trans (congrArg Host.Outcome.next (tblCommand_answers h hmgr (lpm_type_accepted htype) hok ?_))
    dsimp only
    rw [if_pos hshort, hnew]
    exact if_neg (not_le.2 hroom)
  · subst ht hn haddr
    refine (if_neg (by simp [hfree])).trans (congrArg Host.Outcome.next (tblCommand_answers h hmgr (lpm_type_accepted htype) hok ?_))
    dsimp only
    rw [if_pos hshort, hold]
    rfl
  · subst ht hn haddr
    refine (if_neg (by simp [hfree])).trans (congrArg Host.Outcome.next (tblCommand_answers h hmgr (lpm_type_accepted htype) hok ?_))
    dsimp only
    rw [if_pos hshort]
    exact if_neg (by simp only [hold]; decide)
  · subst ht hn haddr
    refine (if_neg (by simp [hfree])).trans (congrArg Host.Outcome.next (tblCommand_answers h hmgr (lpm_type_accepted htype) hok ?_))
    dsimp only
    rw [if_neg (not_le.2 hlong), hnew]
    dsimp only
    rw [if_neg (not_le.2 hroom), if_neg (not_slice_full hslice), if_neg Bool.false_ne_true]
  · subst ht hn haddr
    refine (if_neg (by simp [hfree])).trans (congrArg Host.Outcome.next (tblCommand_answers h hmgr (lpm_type_accepted htype) hok ?_))
    dsimp only
    rw [if_neg (not_le.2 hlong), hold]
    exact if_neg Bool.false_ne_true
  · subst ht hn haddr
    refine (if_neg (by simp [hfree])).trans (congrArg Host.Outcome.next (tblCommand_answers h hmgr (lpm_type_accepted htype) hok ?_))
    dsimp only
    rw [if_neg (not_le.2 hlong), if_neg hold, if_neg Bool.false_ne_true]
  · subst ht
    refine congrArg Host.Outcome.next (tblCommand_answers h hmgr (lpm_type_accepted htype) rfl ?_)
    dsimp only
    cases u.lpmLookup (tblTable j.first) (tblKey j.first (u.keyLen (tblTable j.first))) <;> rfl

end Sys2Proof.Machine

/-! PROOFS. Learning, aging, table programs and descriptors (R260, R272-R275). -/

namespace Sys2Proof.Machine

theorem getField_lt (v : BitVec 64) (lo w : Nat) : getField v lo w < 2 ^ w := Nat.mod_lt _ (Nat.two_pow_pos w)

/-- The register part of a table descriptor's write. -/
def describeTable (t : Nat) (v : BitVec 64) (s : State) : State :=
  (((((s.wr (TBL_DESC_TYPE t) (getField v 0 2)).wr (TBL_DESC_KEY_LEN t) (getField v 2 6)).wr (TBL_DESC_FAMILY t)
    (getField v 8 1)).wr (TBL_DESC_LEN_MAX t) (getField v 9 2)).wr (TBL_DESC_LEARN t) (getField v 11 1)).wr
    (TBL_DESC_LEARN_RESULT t) (getField v 32 32)

/-- A descriptor that passes its tests is written. -/
theorem descWrite_of_fits {t : Nat} {v : BitVec 64} {s : State} (hempty : s.tableEntries t = 0)
    (hlen : getField v 0 2 = 1 ∨ getField v 0 2 = 2 → getField v 2 6 ≠ 0 ∧ getField v 2 6 ≤ 48)
    (hlpm : getField v 0 2 = 3 → s.lpmTables t < 4) (hlearn : getField v 11 1 = 1 → getField v 0 2 = 1) :
    descWrite t v s = describeTable t v s := by
  have hfits : ¬(((getField v 0 2 = 1 ∨ getField v 0 2 = 2) ∧ (getField v 2 6 = 0 ∨ 48 < getField v 2 6))
      ∨ (getField v 0 2 = 3 ∧ 4 ≤ s.lpmTables t) ∨ (getField v 11 1 = 1 ∧ getField v 0 2 ≠ 1)) := by
    rintro (⟨hexact, hbad⟩ | ⟨htype, hbad⟩ | ⟨hone, hbad⟩)
    · obtain ⟨hlo, hhi⟩ := hlen hexact
      exact hbad.elim hlo (not_lt.2 hhi)
    · exact not_le.2 (hlpm htype) hbad
    · exact hbad (hlearn hone)
  simp only [descWrite, describeTable, ne_eq, hempty, not_true, if_false, if_neg hfits]

theorem describeTable_tables (t : Nat) (v : BitVec 64) (s : State) : (describeTable t v s).tables = s.tables := by
  unfold describeTable
  rw [State.wr_tables, State.wr_tables, State.wr_tables, State.wr_tables, State.wr_tables, State.wr_tables]

/-- A table descriptor that is written holds what its fields are given. -/
theorem descWrite_fields {s : State} (hs : regsWf s.regs) (t : Nat) (v : BitVec 64) {w : State} (hw : w = describeTable t v s) :
    w.rd (TBL_DESC_TYPE t) = getField v 0 2 ∧ w.rd (TBL_DESC_KEY_LEN t) = getField v 2 6
      ∧ w.rd (TBL_DESC_FAMILY t) = getField v 8 1 ∧ w.rd (TBL_DESC_LEN_MAX t) = getField v 9 2
      ∧ w.rd (TBL_DESC_LEARN t) = getField v 11 1 ∧ w.rd (TBL_DESC_LEARN_RESULT t) = getField v 32 32 := by
  have h1 := regsWf_wr (f := TBL_DESC_TYPE t) (x := getField v 0 2) hs
  have h2 := regsWf_wr (f := TBL_DESC_KEY_LEN t) (x := getField v 2 6) h1
  have h3 := regsWf_wr (f := TBL_DESC_FAMILY t) (x := getField v 8 1) h2
  have h4 := regsWf_wr (f := TBL_DESC_LEN_MAX t) (x := getField v 9 2) h3
  have h5 := regsWf_wr (f := TBL_DESC_LEARN t) (x := getField v 11 1) h4
  subst hw
  unfold describeTable
  refine ⟨?_, ?_, ?_, ?_, ?_, ?_⟩
  · rw [State.rd_wr_beside h5 (by rfl) (by rfl), State.rd_wr_beside h4 (by rfl) (by rfl), State.rd_wr_beside h3 (by rfl) (by rfl),
      State.rd_wr_beside h2 (by rfl) (by rfl), State.rd_wr_beside h1 (by rfl) (by rfl)]
    exact State.rd_wr_fits hs _ rfl (getField_lt v 0 2)
  · rw [State.rd_wr_beside h5 (by rfl) (by rfl), State.rd_wr_beside h4 (by rfl) (by rfl), State.rd_wr_beside h3 (by rfl) (by rfl),
      State.rd_wr_beside h2 (by rfl) (by rfl)]
    exact State.rd_wr_fits h1 _ rfl (getField_lt v 2 6)
  · rw [State.rd_wr_beside h5 (by rfl) (by rfl), State.rd_wr_beside h4 (by rfl) (by rfl), State.rd_wr_beside h3 (by rfl) (by rfl)]
    exact State.rd_wr_fits h2 _ rfl (getField_lt v 8 1)
  · rw [State.rd_wr_beside h5 (by rfl) (by rfl), State.rd_wr_beside h4 (by rfl) (by rfl)]
    exact State.rd_wr_fits h3 _ rfl (getField_lt v 9 2)
  · rw [State.rd_wr_beside h5 (by rfl) (by rfl)]
    exact State.rd_wr_fits h4 _ rfl (getField_lt v 11 1)
  · exact State.rd_wr_fits h5 _ rfl (getField_lt v 32 32)

/-- The learning configuration that is written holds what its fields are given. -/
theorem learnCfgWrite_fields {s : State} (hs : regsWf s.regs) (v : BitVec 64) {w : State}
    (hw : w.regs = ((s.wr TBL_LEARN_CFG_SLOTS (getField v 0 2)).wr TBL_LEARN_CFG_AGE_LIMIT (getField v 2 15)).regs) :
    w.rd TBL_LEARN_CFG_SLOTS = getField v 0 2 ∧ w.rd TBL_LEARN_CFG_AGE_LIMIT = getField v 2 15 := by
  have h1 := regsWf_wr (f := TBL_LEARN_CFG_SLOTS) (x := getField v 0 2) hs
  rw [State.rd_of_regs hw, State.rd_of_regs hw]
  constructor
  · rw [State.rd_wr_beside h1 (by rfl) (by rfl)]
    exact State.rd_wr_fits hs _ rfl (getField_lt v 0 2)
  · exact State.rd_wr_fits h1 _ rfl (getField_lt v 2 15)

/-- Settles O25: learned entries are flushed, inserted and aged, and the checked table registers take what passes. -/
theorem learningCompletes : Obligations.LearningCompletes := by
  unfold Obligations.LearningCompletes
  refine ⟨fun g r j s u hfree h hmgr htype hlearn hmask => ?_, fun n k v s w hn hw hh hkey hlearn => ?_,
    fun t v s hs ht hempty hlen hlpm hlearn => ?_, fun v s hs hempty hslots => ?_,
    fun k q rest pl p s u hqueue hu hnew hroom hins hpl => ?_, fun k s haged => if_neg haged⟩
  · refine (if_neg (by simp [hfree])).trans (congrArg Host.Outcome.next (runEntry_ends h ?_))
    dsimp only
    rw [if_neg (by simp [hmgr]), if_neg (by simp [htype, hlearn]), if_neg hmask]
  · subst hw
    refine congrArg Host.Outcome.next ((if_neg hn).trans (if_neg ?_))
    rintro (hbad | ⟨hkind, hbad⟩ | ⟨hkind, hbad⟩)
    · exact not_lt.2 hh hbad
    · exact not_lt.2 (hkey hkind) hbad
    · exact Bool.false_ne_true (hbad.symm.trans (hlearn hkind))
  · obtain ⟨htype, hkey, hfam, hmax, hlrn, hres⟩ := descWrite_fields hs.1 t v rfl
    exact ⟨_, congrArg Host.Outcome.next (descWrite_of_fits hempty hlen hlpm hlearn), htype, hkey, hfam, hmax, hlrn, hres,
      describeTable_tables t v s⟩
  · refine ⟨_, congrArg Host.Outcome.next ((if_neg hslots).trans (if_neg (not_not.2 hempty))), ?_⟩
    obtain ⟨hslots', hage⟩ := learnCfgWrite_fields (w := { (s.wr TBL_LEARN_CFG_SLOTS (getField v 0 2)).wr TBL_LEARN_CFG_AGE_LIMIT
      (getField v 2 15) with tables := { s.tables with learned := [] } }) hs.1 v rfl
    exact ⟨hslots', hage, rfl⟩
  · change execLearnInsert k s = _
    unfold execLearnInsert
    rw [hqueue]
    dsimp only
    rw [← hu, if_neg (by simp [hnew]), if_neg (by simp [hroom]), hins]
    cases pl with
    | failed => exact absurd rfl hpl
    | _ => rfl

end Sys2Proof.Machine

/-! PROOFS. Switch-core commands (R281, R303, R304, R312-R314). -/

namespace Sys2Proof.Machine

/-- A switch-core command of the manager that nothing holds completes with what it answers behind the names of its entry. -/
theorem runSwitch_answers {g op st : Nat} {r : Ring} {j : Job} {s u w : State} {b : Body}
    {f : Ring → Entry → State → State × Nat × Body} (hfree : s.writeHeld op = false) (h : s.Starts g op r j u)
    (hmgr : u.managerSheet r.sheet = true) (hf : f r j.first u = (w, st, b)) :
    runSwitch g op f s = done g j st ([(8, 2, swIndex j.first), (10, 1, swPart j.first)] ++ b) w := by
  refine (if_neg (by simp [hfree])).trans (runEntry_ends h ?_)
  dsimp only
  rw [if_neg (by simp [hmgr]), hf]

/-- Settles O26: each switch-core command stores or reports its part. -/
theorem switchCommandsComplete : Obligations.SwitchCommandsComplete := by
  unfold Obligations.SwitchCommandsComplete
  refine ⟨fun g r j s u hfree h hmgr hidx hzero hok hnames hreach => ?_, fun g r j s u h hmgr hidx => ?_,
    fun g r j s u hfree h hmgr hidx hpart => ?_, fun g r j s u hfree h hmgr hidx hpart hmem => ?_,
    fun g r j s u hfree h hmgr hidx hout => ?_, fun g r j s u h hmgr hidx => ?_⟩
  · refine congrArg Host.Outcome.next (runSwitch_answers hfree h hmgr ?_)
    dsimp only
    rw [if_neg (by simp [hok, not_lt.2 hidx]), if_neg (by simp [hzero, hnames]), if_neg (by simp [hreach])]
  · exact congrArg Host.Outcome.next (runSwitch_answers rfl h hmgr (if_neg (not_lt.2 hidx)))
  · exact congrArg Host.Outcome.next (runSwitch_answers hfree h hmgr (if_neg (not_or.2 ⟨not_lt.2 hidx, not_lt.2 hpart⟩)))
  · refine congrArg Host.Outcome.next (runSwitch_answers hfree h hmgr ?_)
    dsimp only
    rw [if_neg (not_or.2 ⟨not_lt.2 hidx, not_lt.2 hpart⟩), if_neg (by simp only [hmem]; decide)]
  · refine congrArg Host.Outcome.next (runSwitch_answers hfree h hmgr ?_)
    dsimp only
    rw [if_neg (not_lt.2 hidx), if_neg (by simp only [hout]; decide)]
  · exact congrArg Host.Outcome.next (runSwitch_answers rfl h hmgr (if_neg (not_lt.2 hidx)))

end Sys2Proof.Machine

/-! PROOFS. Bank groups, alternates and unpinning of the switch core (R289, R305, R308). -/

namespace Sys2Proof.Machine

/-- Settles O27: a bank group fails and leaves service, an alternate is written, and an outlet is unpinned. -/
theorem storeAndAlternatesComplete : Obligations.StoreAndAlternatesComplete := by
  unfold Obligations.StoreAndAlternatesComplete
  refine ⟨fun k s u hk hu => ⟨fun hspare => ?_, fun hspare => ?_⟩, fun k s hk => ?_, fun o v s ho hok hkeep => ?_,
    fun o s ho hpin hup => ?_, fun v o p rest s hqueue hmark => ?_⟩
  · subst hu
    exact (if_neg (not_lt.2 hk)).trans (if_pos hspare)
  · subst hu
    exact (if_neg (not_lt.2 hk)).trans (if_neg hspare)
  · change execBankGroupDrained s = _
    unfold execBankGroupDrained
    rw [hk]
  · refine (if_neg (not_lt.2 ho)).trans (congrArg Host.Outcome.next ((if_neg (by simp [hok])).trans (if_neg ?_)))
    simp [hkeep]
  · exact (if_neg (not_lt.2 ho)).trans (congrArg Host.Outcome.next (if_pos ⟨hpin, hup⟩))
  · change execUnpinMarkerServed v s = _
    unfold execUnpinMarkerServed
    rw [hqueue]
    dsimp only
    rw [hmark]

end Sys2Proof.Machine

/-! PROOFS. Cipher commands (R334-R346). -/

namespace Sys2Proof.Machine

/-- A read that succeeds fails no command. -/
theorem accessStatus_ok (bs : Bytes) : ¬accessStatus (.ok bs) ≠ 0 := fun h => h rfl

/-- A cipher command that names a sheet in its ring's reach completes with what it answers. -/
theorem runCipher_answers {g op st n : Nat} {r : Ring} {j : Job} {s u w : State} {b : Body}
    {f : Nat → Nat → Entry → State → State × Nat × Body} (h : s.Starts g op r j u)
    (hname : u.namedSheet r.sheet (eN j.first 8 2) = some n) (hf : f r.sheet n j.first u = (w, st, b)) :
    runCipher g op f s = done g j st b w := by
  refine runEntry_ends h ?_
  rw [hname]
  exact hf

theorem State.namedSa_of_sheet {s : State} {n k : Nat} {x : SA} (hx : tblGet s.sas k = some x) (hsheet : x.sheet = n) :
    s.namedSa n k = .inl (k, x) := by
  unfold State.namedSa
  rw [hx]
  exact if_pos hsheet

/-- Settles O28: each cipher command on a sheet in reach completes, and the end of a drain erases the SA. -/
theorem cipherCommandsComplete : Obligations.CipherCommandsComplete := by
  unfold Obligations.CipherCommandsComplete
  refine ⟨fun g pick n bs r j s u h hname hpar halign huse hdrbg => ?_, fun g n r j x s u h hname hx hsheet hst husers => ?_,
    fun k x s hx hst hprep => ?_, fun g n bs r j x s u h hname hx hsheet hst halign hdrbg => ?_,
    fun g n r j x s u h hname hx hsheet => ?_, fun g n bs r j s u h hname halign hmod hlo hhi hdrbg => ?_⟩
  · refine congrArg Host.Outcome.next (runCipher_answers h hname ?_)
    dsimp only
    rw [if_neg (by simp [hpar, halign]), if_neg (by omega), if_neg (by simp [hdrbg]), if_neg (accessStatus_ok bs)]
    rfl
  · refine congrArg Host.Outcome.next (startEntry_runs _ h ?_)
    dsimp only
    simp only [hname, State.namedSa_of_sheet hx hsheet]
    rw [if_neg (by simp [hst, husers])]
  · change execSaRetireDone k s = _
    unfold execSaRetireDone
    rw [hx]
    dsimp only
    rw [if_pos ⟨hst, hprep⟩]
    cases x.waiter <;> rfl
  · refine congrArg Host.Outcome.next (runCipher_answers h hname ?_)
    dsimp only
    rw [State.namedSa_of_sheet hx hsheet]
    dsimp only
    rw [if_neg hst, if_neg (not_not.2 halign), if_neg (by simp [hdrbg]), if_neg (accessStatus_ok bs)]
    rfl
  · refine congrArg Host.Outcome.next (runCipher_answers h hname ?_)
    dsimp only
    rw [State.namedSa_of_sheet hx hsheet]
  · refine congrArg Host.Outcome.next (runCipher_answers h hname ?_)
    dsimp only
    rw [if_neg (by omega), if_neg (by simp [hdrbg]), if_neg (accessStatus_ok bs)]

end Sys2Proof.Machine

/-! PROOFS. Entropy, the key cache and the re-wrap (R321-R325). -/

namespace Sys2Proof.Machine

/-- Settles O29: a noise source fails, the DRBG reseeds, a cache error is reloaded, and a re-wrap ends. -/
theorem entropyAndKeysComplete : Obligations.EntropyAndKeysComplete := by
  unfold Obligations.EntropyAndKeysComplete
  refine ⟨fun k s hk hlast => ?_, fun k s u hk hleft hu => ?_, fun s hs => if_neg hs, fun s => rfl, fun s hwrap => if_pos hwrap⟩
  · change execNoiseSourceFail k s = _
    unfold execNoiseSourceFail
    rw [if_pos hk]
    simp only [hlast, if_true]
  · change execNoiseSourceFail k s = _
    unfold execNoiseSourceFail
    rw [if_pos hk]
    simp only [hleft, if_false, hu]

end Sys2Proof.Machine

/-! PROOFS. Connection commands (R355-R359, Table 14.5). -/

namespace Sys2Proof.Machine

/-- A RALUSH command that names a sheet in its ring's reach completes with what it answers. -/
theorem runConn_answers {g op st n : Nat} {r : Ring} {j : Job} {s u w : State} {b : Body}
    {f : Nat → Nat → Entry → State → State × Nat × Body} (hready : s.bit RLT_STATUS_READY = true) (h : s.Starts g op r j u)
    (hname : u.namedSheet r.sheet (eN j.first 8 2) = some n) (hf : f r.sheet n j.first u = (w, st, b)) :
    runConn g op f s = done g j st b w := by
  refine (if_neg (by simp [hready])).trans (runEntry_ends h ?_)
  rw [hname]
  exact hf

/-- A path is enabled beside another when one of the other fifteen is. -/
theorem othersEnabled_of {x : Conn} {p k : Nat} (hk : k < 16) (hne : k ≠ p) (hen : (x.path k).enabled = true) :
    (List.range 16).any (fun k => k != p && (x.path k).enabled) = true :=
  List.any_eq_true.2 ⟨k, List.mem_range.2 hk, by simp [hne, hen]⟩

/-- A source port that no other enabled path has is not in use. -/
theorem sport_not_in_use {x : Conn} {p sport : Nat} (h : ∀ k, k < 16 → k ≠ p → (x.path k).enabled = true → (x.path k).sport ≠ sport) :
    (List.range 16).any (fun k => (k != p && (x.path k).enabled) && (x.path k).sport == sport) = false := by
  refine List.any_eq_false.2 fun k hk hused => ?_
  simp only [Bool.and_eq_true, bne_iff_ne, beq_iff_eq] at hused
  obtain ⟨⟨hne, hen⟩, heq⟩ := hused
  exact h k (List.mem_range.1 hk) hne hen heq

/-- Settles O30: each connection command completes, and the end of a drain frees the connection. -/
theorem connectionCommandsComplete : Obligations.ConnectionCommandsComplete := by
  unfold Obligations.ConnectionCommandsComplete
  refine ⟨fun g pick n sr rr bs r j s u hready h hname hkind hsp hrp halign hsr hrr huse => ?_,
    fun g n c r j x y s u hready h hname hconn hy => ?_, fun c x s hconn hst hsends => ?_,
    fun g n c r j x s u hready h hname hconn => ?_, fun g n c r j x s u hready h hname hconn hsport hother hcon hlast => ?_,
    fun g n c r j x s u hready h hname hconn => ?_⟩
  · refine congrArg Host.Outcome.next (runConn_answers hready h hname ?_)
    dsimp only
    rw [if_neg (by simp [hkind, hsp, hrp, halign]), hsr, hrr]
    dsimp only
    rw [if_neg (by omega), if_neg (accessStatus_ok bs)]
    rfl
  · refine (if_neg (by simp [hready])).trans (congrArg Host.Outcome.next (startEntry_runs _ h ?_))
    dsimp only
    rw [hname]
    dsimp only
    rw [hconn, hy]
  · change execCloseDrainEnd c s = _
    unfold execCloseDrainEnd
    rw [hconn]
    exact if_pos ⟨hst, hsends⟩
  · refine congrArg Host.Outcome.next (runConn_answers hready h hname ?_)
    dsimp only
    rw [hconn]
  · refine congrArg Host.Outcome.next (runConn_answers hready h hname ?_)
    dsimp only
    rw [hconn]
    dsimp only
    rw [if_neg ?_, hcon]
    · refine if_neg ?_
      rintro ⟨hoff, hen, hnone⟩
      rcases hlast with hone | hdis | ⟨k, hk, hne, hk'⟩
      · simp [hone] at hoff
      · exact Bool.false_ne_true (hdis.symm.trans hen)
      · exact Bool.false_ne_true (hnone.symm.trans (othersEnabled_of hk hne hk'))
    · rintro (hzero | ⟨hone, hused⟩)
      · exact hsport hzero
      · exact Bool.false_ne_true ((sport_not_in_use (hother (beq_iff_eq.1 hone))).symm.trans hused)
  · refine congrArg Host.Outcome.next (runConn_answers hready h hname ?_)
    dsimp only
    rw [hconn]

end Sys2Proof.Machine

/-! PROOFS. Sending of messages, timers of connections and of paths (R354-R367, R392). -/

namespace Sys2Proof.Machine

/-- Settles O31: a message starts, its packets are released and repeated, and each timer takes its effect. -/
theorem sendingAndPathTimersComplete : Obligations.SendingAndPathTimersComplete := by
  unfold Obligations.SendingAndPathTimersComplete
  refine ⟨fun g c path data bs r j x m s u hstart hmsg hst hpath hcount hqueue hdata hbegin hm hpay => ?_,
    fun c path data bs k rest x m s hconn hqueue hpath hact hdata hm hpay => ?_,
    fun c path x s hconn hen hcon => ?_, fun c msn x m s hconn hm => ?_, fun c msn x m s hconn hm hact hqueue hretry htries => ?_,
    fun c path x s hconn hdue => ?_, fun c x s hconn hst => ?_, fun c path x s hconn hact hen hup hpsn => ?_,
    fun c x s hconn hst hdown => ?_⟩
  · change execMsgSend g data s = _
    unfold execMsgSend
    simp only [hstart, hmsg, hst, hpath]
    rw [if_neg (by simp [hqueue, hdata, hcount]), hbegin]
    subst hm
    simp only [hpay]
  · change execPacingRelease c data s = _
    unfold execPacingRelease
    simp only [hconn, hqueue, hpath]
    rw [if_neg (by simp [hact, hdata])]
    simp only [hm, hpay]
  · change execRateIncrease c path s = _
    unfold execRateIncrease
    rw [hconn]
    exact if_pos ⟨hen, hcon⟩
  · change execRnrRetryExpiry c msn s = _
    unfold execRnrRetryExpiry
    simp only [hconn, hm]
  · change execPollTimerExpiry c msn s = _
    unfold execPollTimerExpiry
    simp only [hconn, hm]
    rw [if_neg (by simp only [hact, hqueue, hretry]; decide), if_neg (not_le.2 htries)]
  · change execProbeTimer c path s = _
    unfold execProbeTimer
    rw [hconn]
    exact if_pos hdue
  · change execOpenTimeout c s = _
    unfold execOpenTimeout
    rw [hconn]
    exact if_pos hst
  · change execPathDownTimeout c path s = _
    unfold execPathDownTimeout
    rw [hconn]
    exact if_pos ⟨hact, hen, hup, hpsn⟩
  · change execPathsDownTimeout c s = _
    unfold execPathsDownTimeout
    rw [hconn]
    refine if_pos ⟨hst, List.all_eq_true.2 fun t ht => ?_⟩
    cases hen : t.2.enabled
    · rfl
    · rw [hdown t ht hen]
      rfl

end Sys2Proof.Machine

/-! PROOFS. Control packets of the peer (R354, R360, R365-R367). -/

namespace Sys2Proof.Machine

/-- A packet that is handed to a connection which takes it is handled by the packet's own rule. -/
theorem receiveRlt_hands {type : RltType} {c : Nat} {x : Conn} {h : RltHdr} {s u : State} (hands : s.Hands type c x h u)
    (f : Nat → Conn → RltHdr → State → State) : receiveRlt type f s = f c x h u := by
  obtain ⟨p, hfront, rfl, hver, htype, hconn, hauth, herr, rfl⟩ := hands
  unfold receiveRlt
  rw [hfront]
  dsimp only
  rw [if_neg (by simp [hver, htype]), hconn]
  exact if_neg (by simp [hauth, herr])

/-- Settles O32: each control packet that a connection takes has its own effect. -/
theorem controlPacketsComplete : Obligations.ControlPacketsComplete := by
  unfold Obligations.ControlPacketsComplete
  refine ⟨fun c x y h s u v hands hv hconn => ?_, fun c x h m s u hands hm hcode => ?_, fun c x h m s u hands hm => ?_,
    fun c x h s u hands => ?_, fun c x y h s u hands hconn hst => ?_, fun c x y h s u hands hconn hst hen hup => ?_,
    fun c x h s u hands hst => ?_⟩
  · subst hv
    refine congrArg Host.Outcome.next ((receiveRlt_hands hands _).trans ?_)
    dsimp only
    rw [hconn]
  · refine congrArg Host.Outcome.next ((receiveRlt_hands hands _).trans ?_)
    dsimp only
    rw [hm, hcode]
    rfl
  · refine congrArg Host.Outcome.next ((receiveRlt_hands hands _).trans ?_)
    dsimp only
    rw [hm]
  · obtain ⟨p, hfront, hp, hver, htype, hx, hauth, herr, hu⟩ := hands
    change execProbeReceive s = _
    unfold execProbeReceive
    simp only [hfront, hp, hver, htype, hx, RltType.code, and_self, if_true, Option.map_some, if_neg herr]
    exact congrArg Host.Outcome.next (receiveRlt_hands ⟨p, hfront, hp, hver, htype, hx, hauth, herr, hu⟩ _)
  · refine congrArg Host.Outcome.next ((receiveRlt_hands hands _).trans ?_)
    dsimp only
    rw [hconn]
    exact if_pos hst
  · refine congrArg Host.Outcome.next ((receiveRlt_hands hands _).trans ?_)
    dsimp only
    rw [hconn]
    exact (if_neg hst).trans (if_pos ⟨hen, hup⟩)
  · exact congrArg Host.Outcome.next ((receiveRlt_hands hands _).trans (if_pos hst))

end Sys2Proof.Machine

/-! PROOFS. Receiving of messages (R349, R363-R368). -/

namespace Sys2Proof.Machine

/-- Settles O33: a receive is bound, data and polls are answered, and each timer takes its effect. -/
theorem messageReceivingCompletes : Obligations.MessageReceivingCompletes := by
  unfold Obligations.MessageReceivingCompletes
  refine ⟨fun g c r j x s hstart hmsg hst hreg => ?_, fun absent c p x h s hfront hh hver htype hx hauth herr hlack => ?_,
    fun c msn x m s hconn hm hfull hend hact hjob => ?_, fun c x h s u hands hdone => ?_,
    fun c msn x m s hconn hm htimer hend hstall hfull htries => ?_, fun c path x s hconn hun herr => ?_,
    fun p s hfront hbad => ?_⟩
  · have hlive : ¬(x.state = .closing ∨ x.state = .error) := by rcases hst with hst | hst <;> simp [hst]
    change execMsgRecv g s = _
    unfold execMsgRecv
    simp only [hstart, hmsg, if_neg hlive, hreg]
  · subst hh
    change execDataReceive absent s = _
    unfold execDataReceive
    rw [hfront]
    dsimp only
    rw [if_neg (by simp [hver, htype]), hx]
    dsimp only
    rw [if_neg (by simp [hauth, herr]), if_neg (by simp [hlack])]
  · change execRecvComplete c msn s = _
    unfold execRecvComplete
    simp only [hconn, hm]
    rw [if_neg (by simp [hfull, hend, hact]), if_neg (by simp [hjob])]
  · exact congrArg Host.Outcome.next ((receiveRlt_hands hands _).trans (if_pos hdone))
  · change execReasmTimerExpiry c msn s = _
    unfold execReasmTimerExpiry
    simp only [hconn, hm]
    rw [if_neg (by simp [htimer, hend, hstall, hfull]), if_neg (not_le.2 htries)]
  · change execAckTimerExpiry c path s = _
    unfold execAckTimerExpiry
    rw [hconn]
    exact if_pos ⟨hun, herr⟩
  · change execRalushMalformedDiscard s = _
    unfold execRalushMalformedDiscard
    rw [hfront]
    exact if_pos hbad

end Sys2Proof.Machine

/-! PROOFS. Regions and on-demand pages (R373-R385). -/

namespace Sys2Proof.Machine

/-- Settles O34: each region command completes, a drain frees its region, and an unanswered page request fails its messages. -/
theorem regionCommandsComplete : Obligations.RegionCommandsComplete := by
  unfold Obligations.RegionCommandsComplete
  refine ⟨fun g pick n r j s u hready h hname hbase hlen hlo hhi hmode hserved hroom => ?_,
    fun g n k r j x s u hready h hname hreg hlive => ?_, fun k x s hx hdrain hfenced hsheet => ?_,
    fun g n k r j x s u hready h hname hreg hmode hlive hserved => ?_, fun g n k r j x s u hready h hname hreg => ?_,
    fun port pf pasid page q s hq => ?_⟩
  · refine congrArg Host.Outcome.next (runConn_answers hready h hname ?_)
    dsimp only
    rw [if_neg (by omega), if_neg (by simp [hserved]), if_neg (not_le.2 hroom)]
  · refine (if_neg (by simp [hready])).trans (congrArg Host.Outcome.next (startEntry_runs _ h ?_))
    simp only [hname, hreg, hlive, Bool.false_eq_true, if_false]
  · change execRevokeDone k s = _
    unfold execRevokeDone
    rw [hx]
    dsimp only
    rw [if_neg (by simp [hdrain, hfenced, hsheet])]
    cases x.revoker <;> rfl
  · refine congrArg Host.Outcome.next (runConn_answers hready h hname ?_)
    dsimp only
    rw [hreg]
    dsimp only
    rw [if_neg hmode, if_neg (by simp [hlive]), if_neg (by simp [hserved])]
  · refine congrArg Host.Outcome.next (runConn_answers hready h hname ?_)
    dsimp only
    rw [hreg]
  · change execOdpWaitTimeout port pf pasid page s = _
    unfold execOdpWaitTimeout
    rw [hq]

end Sys2Proof.Machine

/-! PROOFS. Presented controllers (R399-R403). -/

namespace Sys2Proof.Machine

/-- A storage command of a sheet in its ring's reach completes with what it answers. -/
theorem runSto_answers {g op st n : Nat} {r : Ring} {j : Job} {s u w : State} {b : Body} {mgr : Bool}
    {f : Nat → Nat → Entry → State → State × Nat × Body} (h : s.Starts g op r j u)
    (hmgr : mgr = true → u.managerSheet r.sheet = true) (hname : u.namedSheet r.sheet (eN j.first 8 2) = some n)
    (hf : f r.sheet n j.first u = (w, st, b)) : runSto g op mgr f s = done g j st b w := by
  refine runEntry_ends h ((if_neg ?_).trans ?_)
  · rintro ⟨hm, hno⟩
    exact Bool.false_ne_true (hno.symm.trans (hmgr hm))
  · rw [hname]
    exact hf

section
variable {g op n k : Nat} {r : Ring} {j : Job} {c : Ctrl} {s u w : State} {f : Nat → Ctrl → Nat × Nat → State → State × Option Nat}
  (h : s.Starts g 0x61 r j u) (hname : u.namedSheet r.sheet (eN j.first 8 2) = some n)
  (hctrl : u.namedCtrl n (ctrlNo j.first) = .inl (k, c)) (hop : eN j.first 16 1 = op)
include h hname hctrl hop

/-- A CTRL_SET entry whose change ends at once completes with its status. -/
theorem ctrlSet_ends {st : Nat} (hf : f k c (g, j.idx) u = (w, some st)) :
    ctrlSet g op f s = done g j st (stoFields w n (some k) none) w := by
  unfold ctrlSet
  rw [h.cases.1]
  dsimp only
  rw [if_neg fun hother => hother.1 hop]
  refine startEntry_ends _ h ?_
  rw [hname]
  dsimp only
  rw [hctrl]
  exact (if_neg (not_not.2 hop)).trans (by rw [hf])

/-- A CTRL_SET entry whose change takes time waits with it. -/
theorem ctrlSet_runs (hf : f k c (g, j.idx) u = (w, none)) : ctrlSet g op f s = flushRing g w := by
  unfold ctrlSet
  rw [h.cases.1]
  dsimp only
  rw [if_neg fun hother => hother.1 hop]
  refine startEntry_runs _ h ?_
  rw [hname]
  dsimp only
  rw [hctrl]
  exact (if_neg (not_not.2 hop)).trans (by rw [hf])

end

/-- A queue that is reset changes no register, memory, sheet, contract, volume or request. -/
theorem resetQueue_frame (g : Nat) (st : RingState) (s : State) : (resetQueue g st s).regs = s.regs ∧ (resetQueue g st s).mem = s.mem
    ∧ (resetQueue g st s).sheets = s.sheets ∧ (resetQueue g st s).contracts = s.contracts ∧ (resetQueue g st s).sto = s.sto := by
  unfold resetQueue
  cases s.ring? g <;> exact ⟨rfl, rfl, rfl, rfl, rfl⟩

theorem foldl_resetQueue_frame (l : List Nat) (st : RingState) (s : State) :
    (l.foldl (fun t g => resetQueue g st t) s).regs = s.regs ∧ (l.foldl (fun t g => resetQueue g st t) s).mem = s.mem
      ∧ (l.foldl (fun t g => resetQueue g st t) s).sheets = s.sheets ∧ (l.foldl (fun t g => resetQueue g st t) s).contracts = s.contracts
      ∧ (l.foldl (fun t g => resetQueue g st t) s).sto = s.sto := by
  induction l generalizing s with
  | nil => exact ⟨rfl, rfl, rfl, rfl, rfl⟩
  | cons g l ih =>
    obtain ⟨hregs, hmem, hsheets, hcon, hsto⟩ := resetQueue_frame g st s
    rw [← hregs, ← hmem, ← hsheets, ← hcon, ← hsto]
    exact ih (resetQueue g st s)

/-- Only the admin queue is left of the queues that a reset keeps. -/
theorem key_of_mem_admin {α : Type} {l : Tbl α} {q : Nat × α} (h : q ∈ l.filter (fun q => q.1 == 0)) : q.1 = 0 :=
  beq_iff_eq.1 (List.mem_filter.1 h).2

/-- The controller that the end of a reset leaves: DISABLED with its admin queue alone. -/
def Ctrl.afterReset (c : Ctrl) : Ctrl :=
  { c with
    state := .disabled
    sqs := c.sqs.filter (fun q => q.1 == 0)
    cqs := c.cqs.filter (fun q => q.1 == 0)
    feats := [], ps := 0, lastOp := 0, entering := none, leaving := false, aers := [], lastSq := 0, burst := 0, credit := [] }

/-- The admin queues of a controller. -/
def Ctrl.adminRings (c : Ctrl) : List Nat :=
  (c.sqs.filter (fun q => q.1 == 0)).map (fun q => q.2.ring) ++ (c.cqs.filter (fun q => q.1 == 0)).map (fun q => q.2.ring)

/-- What the end of a controller's reset does to the device, before its waiters are told. -/
def resetEnded (k : Nat) (c : Ctrl) (s : State) : State :=
  let io := c.rings.filter (fun g => !c.adminRings.contains g)
  let t := { s with rings := s.rings.filter (fun r => !io.contains r.1) }
  (c.adminRings.foldl (fun t g => resetQueue g .closed t) t).setCtrl k c.afterReset

theorem resetEnded_frame (k : Nat) (c : Ctrl) (s : State) : (resetEnded k c s).regs = s.regs ∧ (resetEnded k c s).mem = s.mem
    ∧ (resetEnded k c s).sheets = s.sheets ∧ (resetEnded k c s).contracts = s.contracts ∧ (resetEnded k c s).sto = s.sto := by
  exact foldl_resetQueue_frame c.adminRings .closed
    { s with rings := s.rings.filter (fun r => !(c.rings.filter (fun g => !c.adminRings.contains g)).contains r.1) }

theorem exec_ctrlResetDone_of_idle {k : Nat} {c : Ctrl} {s : State} (hc : s.ctrl? k = some c) (hst : c.state = .resetting)
    (hcmds : s.ctrlCmds k = []) :
    exec (.ctrlResetDone k) s = .next (endSetter k 0 (resolveShrinks c.sheet (resetEnded k c s))) := by
  change execCtrlResetDone k s = _
  unfold execCtrlResetDone
  rw [hc]
  exact if_pos ⟨hst, List.isEmpty_iff.2 hcmds⟩

/-- Settles O35: a controller is created, enabled, shut down, reset and destroyed, and each change ends. -/
theorem controllersComplete : Obligations.ControllersComplete := by
  unfold Obligations.ControllersComplete
  refine ⟨fun g pick sq cq n r j s u h hname hok hfree huse hrings => ?_,
    fun g n k r j c s u hready h hname hctrl hop hst hsheet => ?_,
    fun g n k r j c s u h hname hctrl hst => ⟨fun hop => ?_, fun hop => ?_⟩,
    fun g n k r j c d s u h hname hctrl hop hst hd => ?_, fun k c s hc hst hcmds hdirty => ?_,
    fun k c s hc hst hcmds => ?_, fun g n k r j c s u h hname hctrl hst => ?_⟩
  · refine congrArg Host.Outcome.next (runSto_answers h (fun hm => absurd hm Bool.false_ne_true) hname ?_)
    dsimp only
    rw [if_neg (by simp [hok]), if_neg (by simp [hfree]), if_neg (by omega), if_neg (by omega)]
  · refine (if_neg (by simp [hready])).trans (congrArg Host.Outcome.next (ctrlSet_ends h hname hctrl hop ?_))
    exact if_pos ⟨hst, hsheet⟩
  · exact congrArg Host.Outcome.next (ctrlSet_runs h hname hctrl hop (if_pos hst))
  · exact congrArg Host.Outcome.next (ctrlSet_runs h hname hctrl hop (if_pos hst))
  · refine congrArg Host.Outcome.next (ctrlSet_runs h hname hctrl hop ((if_pos hst).trans ?_))
    dsimp only
    rw [hd]
  · change execCtrlShutdownDone k s = _
    unfold execCtrlShutdownDone
    rw [hc]
    exact if_pos ⟨hst, hcmds, hdirty⟩
  · exact ⟨_, exec_ctrlResetDone_of_idle hc hst hcmds, resetEnded k c s, c.afterReset, rfl, tblGet_tblPut_same .., rfl, rfl, rfl,
      rfl, rfl, rfl, rfl, fun q hq => key_of_mem_admin hq, fun q hq => key_of_mem_admin hq, resetEnded_frame k c s⟩
  · refine congrArg Host.Outcome.next (runSto_answers h (fun hm => absurd hm Bool.false_ne_true) hname ?_)
    dsimp only
    rw [hctrl]
    exact if_neg (not_not.2 hst)

end Sys2Proof.Machine

/-! PROOFS. Volumes and attachments (R398-R418). -/

namespace Sys2Proof.Machine

/-- Settles O36: each volume command completes, and a detachment waits for its commands. -/
theorem volumesComplete : Obligations.VolumesComplete := by
  unfold Obligations.VolumesComplete
  refine ⟨fun g pick n ident r j out inn s u h hmgr hname hzero hsize hkind htimed hout hinn hroom hback => ?_,
    fun g n v r j x s u h hmgr hname hvol hatt => ?_, fun g n v r j x s u h hmgr hname hvol hrem hconn => ?_,
    fun g n k v r j c x s u h hmgr hname hctrl hvol hlo hhi hfree hroom => ?_,
    fun g n k r j c a s u h hmgr hname hctrl hatt hwait => ?_, fun g n k r j c s u h hname hwhat hctrl => ?_,
    fun g n v r j x s u h hmgr hname hwhat hvol => ?_⟩
  · refine congrArg Host.Outcome.next (runSto_answers h (fun _ => hmgr) hname ?_)
    dsimp only
    rw [if_neg (not_or.2 ⟨hzero, not_or.2 ⟨not_lt.2 hsize, not_or.2 ⟨hkind, by simp [htimed]⟩⟩⟩), hout, hinn]
    dsimp only
    rw [if_neg (not_le.2 hroom), hback]
  · refine congrArg Host.Outcome.next (runSto_answers h (fun _ => hmgr) hname ?_)
    dsimp only
    rw [hvol]
    exact if_neg (not_not.2 hatt)
  · refine congrArg Host.Outcome.next (runSto_answers h (fun _ => hmgr) hname ?_)
    dsimp only
    rw [hvol]
    dsimp only
    rw [if_neg (by simp [hrem]), if_neg (by simp [hconn])]
  · have hfits : ¬(16 ≤ ((u.attachments v).map (fun a => a.1)).dedup.length ∧ ¬(u.attachments v).any (fun a => a.1 == k) = true) :=
      fun ⟨hfull, hnew⟩ => hroom.elim (not_lt.2 hfull) hnew
    refine congrArg Host.Outcome.next (runSto_answers h (fun _ => hmgr) hname ?_)
    dsimp only
    rw [hctrl, hvol]
    dsimp only
    rw [if_neg (by omega), if_neg (by simp [hfree]), if_neg hfits]
  · refine congrArg Host.Outcome.next (startEntry_runs _ h ?_)
    dsimp only
    rw [if_neg (by simp [hmgr, hname]), hctrl]
    dsimp only
    rw [hatt]
    exact if_neg (by simp [hwait])
  · refine congrArg Host.Outcome.next (runSto_answers h (fun hm => absurd hm Bool.false_ne_true) hname ?_)
    rw [if_pos hwhat, hctrl]
  · refine congrArg Host.Outcome.next (runSto_answers h (fun hm => absurd hm Bool.false_ne_true) hname ?_)
    rw [if_neg (by omega), if_neg (by simp [hmgr]), hvol]

end Sys2Proof.Machine

/-! PROOFS. Presented I/O commands, backend requests and write-back (R399-R415). -/

namespace Sys2Proof.Machine

/-- Data of the length asked for is taken as it is. -/
theorem take_append_replicate_of_length {bs : Bytes} {n : Nat} (h : bs.length = n) :
    bs.take n ++ List.replicate (n - bs.length) 0 = bs := by
  subst h
  simp

/-- Blocks that are all cached leave none to read. -/
theorem filter_not_cached_eq_nil {s : State} {vol : Nat} {l : List Nat} (h : ∀ b ∈ l, s.cached vol b ≠ none) :
    l.filter (fun b => (s.cached vol b).isNone) = [] :=
  List.filter_eq_nil_iff.2 fun b hb hnone => h b hb (Option.isNone_iff_eq_none.1 hnone)

/-- A request of ranges in the volume, written through, goes to the backend for its first one. -/
theorem atBackend_issues {cmd vol op : Nat} {m : NvmeCmd} {a : Attach} {x : Volume} {r : Nat × Nat} {rest : List (Nat × Nat)}
    {s : State} (hrw : a.readOnly = false) (hin : ∀ k ∈ r :: rest, k.1 + k.2 ≤ x.blocks) (hup : s.volDown x = false)
    (htakes : s.backendTakes x op = true) :
    atBackend cmd m vol a x op (r :: rest) s
      = issueBackend vol x (some cmd) op r.1 r.2 [] 0 (s.setCmd cmd { m with ranges := rest }) := by
  have hany : ¬(r :: rest).any (fun r => decide (x.blocks < r.1 + r.2)) = true := fun hany => by
    obtain ⟨k, hk, hout⟩ := List.any_eq_true.1 hany
    exact not_lt.2 (hin k hk) (of_decide_eq_true hout)
  unfold atBackend
  rw [if_neg (by simp [hrw]), if_neg hany, if_neg (List.cons_ne_nil r rest), if_neg (by simp [hup])]
  exact if_pos htakes

/-- Settles O37: presented commands, their backend requests and the write-back of dirty blocks take their effects. -/
theorem presentedIoCompletes : Obligations.PresentedIoCompletes := by
  unfold Obligations.PresentedIoCompletes
  refine ⟨fun n q es c r s hc hfetch hr => ?_, fun n q i ranges c c' m s t hctrl hc hsq hold => ?_, fun l s hl => ?_,
    fun i vol pages a x y m s hm hns hok hprp hy hlost hall => ?_,
    fun i vol b rest pages a x y m s hm hns hok hprp hy hlost hmiss hup htakes => ?_,
    fun i vol pages l bs a x m s t hm hns hok hrw hprp hlen ht hcop hup htakes => ?_,
    fun i vol k pages l bs a x m s t u hm hns hok hrw hprp hlen ht hcop hcache => ?_, fun i v m s hm hns => ?_,
    fun i vol a x m s hm hns hrw hin hup htakes => ?_, fun i vol r rest a x m s hm hns had hrw hranges hin hup htakes => ?_,
    fun i v m s hm hns had => ?_, fun k st bs b x s hb hx hlocal hnew => ?_, fun k i b x m s hb hx hop hcmd hm hph => ?_,
    fun k b x s t hb ht hx hop => ?_, fun vol lo n x s hx hn hdirty hfree hup htakes => ?_,
    fun c req bs rest s t hin ht hreq => ?_⟩
  · change execSqFetch n q es s = _
    unfold execSqFetch
    rw [hc]
    dsimp only
    rw [hr]
    exact if_neg (by simp [hfetch])
  · change execStorageCommandStart ranges s = _
    unfold execStorageCommandStart
    simp only [hctrl, hc, hsq, hold]
  · subst hl
    rfl
  · refine ⟨_, ?_, { m with got := _, pages := pages }, rfl, rfl, rfl, rfl, rfl⟩
    change execNvmeRead i pages [] s = _
    unfold execNvmeRead
    simp only [hm, hns, hok, List.filter_nil, List.foldl_nil, hy, hlost, Bool.false_eq_true, if_false]
    rw [if_neg (by simpa using hprp), filter_not_cached_eq_nil hall]
  · change execNvmeRead i pages [] s = _
    unfold execNvmeRead
    simp only [hm, hns, hok, List.filter_nil, List.foldl_nil, hy, hlost, Bool.false_eq_true, if_false]
    rw [if_neg (by simpa using hprp)]
    simp only [hmiss, hup, htakes, Bool.false_eq_true, if_false, Bool.true_eq_false]
  · change execNvmeWrite i pages (.ok bs) s = _
    unfold execNvmeWrite
    simp only [hm, hns, hok, hrw, hprp, ← ht, hcop, hup, htakes, take_append_replicate_of_length hlen, Bool.false_eq_true, if_false,
      Bool.true_eq_false]
  · change execNvmeWrite i pages (.ok bs) s = _
    unfold execNvmeWrite
    simp only [hm, hns, hok, hrw, hprp, ← ht, hcop, hcache, take_append_replicate_of_length hlen, Bool.false_eq_true, if_false]
  · change execNvmeFlush i s = _
    unfold execNvmeFlush
    simp only [hm, hns]
    split <;> rfl
  · change execNvmeWriteZeroes i s = _
    unfold execNvmeWriteZeroes
    simp only [hm, hns]
    refine congrArg Host.Outcome.next (atBackend_issues hrw ?_ hup htakes)
    simpa using hin
  · change execNvmeDatasetManagement i s = _
    unfold execNvmeDatasetManagement
    simp only [hm, hns]
    rw [if_pos had, hranges]
    exact congrArg Host.Outcome.next (atBackend_issues hrw (hranges ▸ hin) hup htakes)
  · change execNvmeDatasetManagement i s = _
    unfold execNvmeDatasetManagement
    simp only [hm, hns]
    exact if_neg (by omega)
  · change execBackendCompletion k st bs s = _
    unfold execBackendCompletion
    simp only [hb, hx]
    rw [if_neg (by simp [hlocal, hnew])]
    by_cases hread : b.op = 0 ∧ st = 0
    · rw [if_pos hread, if_pos hread]
    · have hx' : (dropReq k s).vol? b.vol = some x := hx
      rw [if_neg hread, if_neg hread]
      simp only [endRequest, hb, hx']
  · change execBackendTimeout k s = _
    unfold execBackendTimeout
    simp only [hb, hx, if_neg hop, hcmd, hm, if_pos hph]
  · change execBackendTimeout k s = _
    unfold execBackendTimeout
    simp only [hb, ← ht, hx, if_pos hop]
    by_cases htries : b.tries = 0
    · rw [if_pos htries, if_neg (not_not.2 htries)]
      split <;> rfl
    · rw [if_neg htries, if_pos htries]
  · have hall : (blockRange lo n).all (fun b => s.blockDirty vol b) = true := List.all_eq_true.2 hdirty
    change execWriteBack vol lo n [] s = _
    unfold execWriteBack
    simp only [hx]
    rw [if_neg (by simp only [hn, hall, hfree, hup, htakes]; decide)]
    exact if_neg (not_not.2 hall)
  · subst ht
    change execRemoteResponse s = _
    unfold execRemoteResponse
    simp only [hin, hreq]

end Sys2Proof.Machine

/-! PROOFS. Presented admin commands and power states (R399-R413). -/

namespace Sys2Proof.Machine

/-- An admin command without reserved bits ends with what its rule answers. -/
theorem runAdmin_ends {i op st d : Nat} {f : NvmeCmd → Ctrl → State → State × Nat × Nat} {m : NvmeCmd} {c : Ctrl} {s t : State}
    (hm : s.adminStarted i op = some (m, c)) (hok : badFields m.sqe = false) (hf : f m c s = (t, st, d)) :
    runAdmin i op f s = finishCmd i st d t := by
  unfold runAdmin
  rw [hm]
  exact (if_neg (by simp [hok])).trans (by rw [hf])

theorem placeAdmin_of_pieces {m : NvmeCmd} {c : Ctrl} {pages : List Nat} {bs : Bytes} {s : State} {l : List (Nat × Nat)}
    (hl : prpPieces m.sqe pages bs.length = some l) : placeAdmin m c pages bs s = (placePieces c.sheet l bs s, 0, 0) := by
  unfold placeAdmin
  rw [hl]

/-- The page that Identify answers for each CNS it serves, and the free bytes that the page draws. -/
theorem identify_answers {i cns : Nat} {l : List (Nat × Nat)} {bs : Bytes} {m : NvmeCmd} {c : Ctrl} {a : Attach} {x : Volume} {s t : State}
    (hm : s.adminStarted i 6 = some (m, c)) (hok : badFields m.sqe = false) (hcns : cns = eN m.sqe 40 1)
    (hpage : cns = 0 ∧ t = s ∧ 1 ≤ nvNsid m.sqe ∧ nvNsid m.sqe ≤ 256 ∧ tblGet c.attach (nvNsid m.sqe) = some a ∧ s.vol? a.vol = some x
        ∧ bs = identifyNs x a
      ∨ cns = 0 ∧ t = s ∧ 1 ≤ nvNsid m.sqe ∧ nvNsid m.sqe ≤ 256 ∧ tblGet c.attach (nvNsid m.sqe) = none ∧ bs = pageOf []
      ∨ cns = 1 ∧ (bs, t) = identifyCtrl m.ctrl s
      ∨ cns = 2 ∧ t = s ∧ nvNsid m.sqe < 0xFFFFFFFE ∧ bs = nsList c (nvNsid m.sqe)
      ∨ cns = 3 ∧ tblGet c.attach (nvNsid m.sqe) = some a ∧ s.vol? a.vol = some x ∧ t = (drawBytes 2 s).2
        ∧ bs = pageOf [(0, [3, 16, 0, 0] ++ (drawBytes 2 s).1)])
    (hl : prpPieces m.sqe [] bs.length = some l) :
    exec (.nvmeIdentify i) s = .next (finishCmd i 0 0 (placePieces c.sheet l bs t)) := by
  subst hcns
  refine congrArg Host.Outcome.next (runAdmin_ends hm hok ?_)
  dsimp only
  rcases hpage with ⟨hc, ht, hlo, hhi, ha, hx, hbs⟩ | ⟨hc, ht, hlo, hhi, ha, hbs⟩ | ⟨hc, hpage⟩ | ⟨hc, ht, hns, hbs⟩
    | ⟨hc, ha, hx, ht, hbs⟩
  · simp only [hc, ha, hx, Option.bind_some, Option.map_some]
    rw [if_neg (by omega), ht, ← hbs]
    exact placeAdmin_of_pieces hl
  · simp only [hc, ha, Option.bind_none]
    rw [if_neg (by omega), ht, ← hbs]
    exact placeAdmin_of_pieces hl
  · simp only [hc, ← hpage]
    exact placeAdmin_of_pieces hl
  · simp only [hc]
    rw [if_neg (by omega), ht, ← hbs]
    exact placeAdmin_of_pieces hl
  · simp only [hc, ha, hx, Option.bind_some, Option.map_some]
    rw [← hbs, ← ht]
    exact placeAdmin_of_pieces hl

/-- Settles O38: each admin command of a presented controller ends with its effect, and power states and coalescing end. -/
theorem presentedAdminCompletes : Obligations.PresentedAdminCompletes := by
  unfold Obligations.PresentedAdminCompletes
  refine ⟨fun i pick n m c s hm hok hlo hhi hnew hsize hvec halign hroom => ?_,
    fun i pick n k m c s hm hok hlo hhi hnew hcq hk hsize halign hsqs hroom => ?_,
    fun i k m c d s u hm hok hq hk hu hnone hd => ?_, fun i k m c s hm hok hq hk hfree => ?_,
    fun i cns l bs m c a x s t hm hok hcns hpage hl => identify_answers hm hok hcns hpage hl,
    fun i pages l bs m c s hm hok hlid hbs hl => ?_, fun i pages l bs m c s t hm hok hlo hhi hdraw hl => ?_,
    fun i k m x c s hm hok hfew hk hcaught hent => ?_, fun i m c s hm hok hfew hk => ?_,
    fun i fid m c s hm hok hsave hfid hserved => ?_, fun i m c s hm hok hsave hfid hps hent hleave => ?_,
    fun i m c s hm hok hsave hfid hsqs hcqs hlo hhi => ?_, fun i fid m c s hm hok hfid hserved => ?_, fun i m c s hm hroom => ?_,
    fun i m s hm hph hop => ?_, fun n ps k m c s hc hent hm hbefore => ?_, fun n c s hc hleave => ?_, fun n q k c s hc hk hun => ?_⟩
  · refine congrArg Host.Outcome.next (runAdmin_ends hm hok ?_)
    dsimp only
    rw [if_neg (by simp [hnew, hhi]; omega), hsize]
    dsimp only
    rw [if_neg (not_lt.2 hvec), if_neg (not_not.2 halign), if_neg (by omega)]
  · refine congrArg Host.Outcome.next (runAdmin_ends hm hok ?_)
    dsimp only
    rw [if_neg (by simp [hnew, hhi, hcq]; omega), hk, hsize]
    dsimp only
    rw [if_neg (not_not.2 halign), if_neg (not_or.2 ⟨not_le.2 hsqs, by omega⟩)]
  · subst hu
    change execNvmeDeleteIoSq i s = _
    unfold execNvmeDeleteIoSq
    simp only [hm, hok, hk, if_neg hq, if_neg (not_not.2 hnone), hd, Bool.false_eq_true, if_false]
  · refine congrArg Host.Outcome.next (runAdmin_ends hm hok ?_)
    dsimp only
    rw [hk]
    dsimp only
    rw [if_neg hq, if_neg (by simp only [hfree]; decide)]
  · refine congrArg Host.Outcome.next (runAdmin_ends hm hok ?_)
    subst hbs
    dsimp only
    rw [if_pos hlid, placeAdmin_of_pieces hl]
    by_cases hkeep : eBits m.sqe 41 0 1 = 1
    · simp only [if_pos hkeep]
    · simp only [if_neg hkeep]
  · refine congrArg Host.Outcome.next (runAdmin_ends hm hok ?_)
    dsimp only
    rw [if_neg (by omega), if_pos (by omega), hdraw]
    exact placeAdmin_of_pieces hl
  · change execNvmeAbort i s = _
    refine congrArg Host.Outcome.next (runAdmin_ends hm hok ?_)
    dsimp only
    rw [if_neg (not_le.2 hfew), hk]
    dsimp only
    rw [if_neg (by simp [hcaught])]
    cases hc : c.entering with
    | none => simp only [Bool.false_eq_true, if_false]
    | some e =>
      obtain ⟨ps, k'⟩ := e
      have hother : (k' == k) = false := beq_eq_false_iff_ne.2 (hent _ hc)
      simp only [hother, Bool.false_eq_true, if_false]
  · refine congrArg Host.Outcome.next (runAdmin_ends hm hok ?_)
    dsimp only
    rw [if_neg (not_le.2 hfew)]
    cases htarget : s.abortTarget i m.ctrl (eN m.sqe 40 2) (eN m.sqe 42 2) with
    | none => rfl
    | some k => exact if_pos (hk k htarget)
  · subst hfid
    change execNvmeSetFeatures i s = _
    unfold execNvmeSetFeatures
    simp only [hm, hok, hsave, Bool.false_eq_true, if_false, zero_ne_one]
    rw [if_neg (by omega), if_neg (by omega), if_pos hserved]
  · change execNvmeSetFeatures i s = _
    unfold execNvmeSetFeatures
    simp only [hm, hok, hsave, Bool.false_eq_true, if_false, zero_ne_one]
    rw [if_pos hfid, if_neg (by omega), if_neg (by simp [hent, hleave])]
  · change execNvmeSetFeatures i s = _
    unfold execNvmeSetFeatures
    simp only [hm, hok, hsave, Bool.false_eq_true, if_false, zero_ne_one]
    rw [if_neg (by omega), if_pos hfid, if_neg ?_, if_neg (by omega)]
    rintro (hany | hany) <;> obtain ⟨q, hq, hne⟩ := List.any_eq_true.1 hany
    · exact bne_iff_ne.1 hne (hsqs q hq)
    · exact bne_iff_ne.1 hne (hcqs q hq)
  · subst hfid
    refine congrArg Host.Outcome.next (runAdmin_ends hm hok ?_)
    dsimp only
    by_cases hps : eN m.sqe 40 1 = 2
    · rw [if_pos hps, if_pos hps]
    · rw [if_neg hps, if_neg hps]
      by_cases hqueues : eN m.sqe 40 1 = 7
      · rw [if_pos hqueues, if_pos hqueues]
      · rw [if_neg hqueues, if_neg hqueues, if_pos (by omega)]
  · change execNvmeAsyncEventRequest i s = _
    unfold execNvmeAsyncEventRequest
    rw [hm]
    exact if_neg (not_le.2 hroom)
  · change execNvmeUnsupportedOpcode i s = _
    unfold execNvmeUnsupportedOpcode
    rw [hm]
    exact if_pos ⟨hph, hop⟩
  · change execPowerStateEntryEnd n s = _
    unfold execPowerStateEntryEnd
    simp only [hc, hent, hm]
    rw [if_neg (by simp [hbefore])]
  · change execPowerStateExitEnd n s = _
    unfold execPowerStateExitEnd
    rw [hc]
    exact if_pos hleave
  · change execInterruptCoalescingExpiry n q s = _
    unfold execInterruptCoalescingExpiry
    simp only [hc, hk]
    exact if_neg hun

end Sys2Proof.Machine

/-! PROOFS. Penlith instructions (R424, R430, R435). -/

namespace Sys2Proof.Machine

/-- An instruction of a thread that runs finishes with the value and the state that it answers. -/
theorem runPn_of_runs {t rd : Nat} {v : BitVec 64} {f : State → BitVec 64 × State} {s u : State} (hruns : s.runs t = true)
    (hf : f s = (v, u)) : runPn t rd f s = finishPn t rd v u := by
  unfold runPn
  rw [if_pos hruns, hf]

/-- Settles O39: each instruction of a thread that runs finishes with its result, and an illegal word raises exception 2. -/
theorem penlithInstructionsComplete : Obligations.PenlithInstructionsComplete := by
  unfold Obligations.PenlithInstructionsComplete
  refine ⟨fun t rd hit v s hruns hhit => ?_, fun t rd mask hit s harm hst hhit hne => ?_, fun t u v s hruns hu => ?_,
    fun t rd k g i v s hruns hk hg hen hkind hfree => ?_, fun t rd k g i v s hruns hslot hres => ?_,
    fun t rd g i v s hruns hk hg hen hkind hold => ?_, fun t k g i c v s hruns hslot htaken hkind => ?_,
    fun t rd s hruns => congrArg Host.Outcome.next (runPn_of_runs hruns rfl), fun t w s hruns hill => ?_⟩
  · subst hhit
    refine (if_pos hruns).trans ?_
    dsimp only
    split <;> rfl
  · subst hhit
    change execWfeWake t s = _
    unfold execWfeWake
    rw [harm]
    exact if_pos ⟨hst, hne⟩
  · subst hu
    refine congrArg Host.Outcome.next (runPn_of_runs hruns ?_)
    simp only [Bool.and_eq_true, decide_eq_true_eq, beq_iff_eq, bne_iff_ne, and_assoc]
  · subst hk hg
    refine congrArg Host.Outcome.next (runPn_of_runs hruns ?_)
    dsimp only
    rw [if_pos ⟨hen, hkind⟩, hfree]
  · refine congrArg Host.Outcome.next (runPn_of_runs hruns ?_)
    dsimp only
    rw [hslot]
    simp only [hres, SlotUse.isOf, beq_self_eq_true, if_true]
  · subst hg
    refine congrArg Host.Outcome.next (runPn_of_runs hruns ?_)
    dsimp only
    rw [hk, if_pos ⟨rfl, hen, hkind⟩, hold]
  · refine congrArg Host.Outcome.next (runPn_of_runs hruns ?_)
    rw [hslot]
    simp only [htaken]
    exact if_pos ⟨rfl, hkind⟩
  · refine ⟨_, if_pos ⟨hruns, hill⟩, _, ?_, rfl⟩
    by_cases hdraw : s.draw.getLsbD 0
    · exact .inl (if_pos hdraw)
    · exact .inr (if_neg hdraw)

end Sys2Proof.Machine

/-! PROOFS. Timers, deadlock, thread control and migration (R427-R446). -/

namespace Sys2Proof.Machine

/-- Settles O40: each timer, deadlock, control of a thread, migration and cluster write takes its effect. -/
theorem threadControlCompletes : Obligations.ThreadControlCompletes := by
  unfold Obligations.ThreadControlCompletes
  refine ⟨fun t s ht harm hdue => if_pos ⟨ht, harm, hdue⟩, fun k g t rest s hk hg hthreads hstuck hnew => ?_, fun k s hk => if_pos hk,
    fun t s ht hst hrel hcore => ?_, fun t s u ht hu hst => ?_, fun t s ht hst hok => ?_, fun t s ht hst => ?_, fun t s ht => ?_,
    fun k t g s hk ht hg hst hlong => ?_, fun k t u s hk ht hu hidle hcores => ?_, fun k t u st su s hmove => ?_,
    fun k v s hk => ?_⟩
  · change execWaitDeadlock k g s = _
    unfold execWaitDeadlock
    rw [hthreads]
    exact if_pos ⟨hk, hg, List.all_eq_true.2 hstuck, hnew⟩
  · refine congrArg Host.Outcome.next ((if_pos ht).trans ((if_neg ?_).trans (if_neg ?_)))
    · simp [hst, hrel]
    · rw [hcore]
      exact Bool.false_ne_true
  · subst hu
    exact congrArg Host.Outcome.next ((if_pos ht).trans (if_neg hst))
  · refine congrArg Host.Outcome.next ((if_pos ht).trans ((if_neg ?_).trans (if_neg ?_)))
    · omega
    · rw [hok]
      exact Bool.false_ne_true
  · exact congrArg Host.Outcome.next ((if_pos ht).trans (if_pos hst))
  · exact congrArg Host.Outcome.next (if_pos ht)
  · exact (if_pos ⟨hk, ht, hg⟩).trans (congrArg Host.Outcome.next (if_pos ⟨hst, hlong⟩))
  · refine (if_pos ⟨hk, ht, hu⟩).trans (congrArg Host.Outcome.next (if_neg ?_))
    simp [hidle, hcores]
  · change execMigrateDone k s = _
    unfold execMigrateDone
    rw [hmove]
  · exact if_pos hk

end Sys2Proof.Machine

/-! PROOFS. Galleries, failed cores and cairns (R291, R436-R447, R479). -/

namespace Sys2Proof.Machine

/-! ## The claim register of a cairn -/

theorem findReg_crnClaim : ∀ k < 8, ∀ t < 32,
    (findReg (CRN_CLAIM k t)).map (fun x => (x.1.bytes, x.2)) = some (4, CRN_CLAIM k t) := by decide +kernel

theorem cairnClaimAt_crnClaim : ∀ k < 8, ∀ t < 32, cairnClaimAt (CRN_CLAIM k t) = some (k, t) := by decide +kernel

theorem placeOf_crnClaim : ∀ k < 8, ∀ t < 32, placeOf (CRN_CLAIM k t) = .registers := by decide +kernel

/-- An island other than the bindings' that runs holds no access and refuses none. -/
theorem State.open_of_runs {s : State} {a n : Nat} (ha : s.islandAt a = some n) (hne : n ≠ 0xA2) (hruns : s.islandRuns n = true) :
    s.heldBy a = none ∧ s.unreleased a = false := by
  simp only [State.islandRuns, Bool.and_eq_true, Bool.not_eq_true'] at hruns
  obtain ⟨hrel, hin⟩ := hruns
  exact ⟨by simp [State.heldBy, ha, hin], by simp [State.unreleased, ha, hrel, hne]⟩

section
variable {k t : Nat} (hk : k < 8) (ht : t < 32)
include hk ht

theorem islandAt_crnClaim (s : State) : s.islandAt (CRN_CLAIM k t) = some (0x90 + k) := by
  have haddr : CRN_CLAIM k t = 0xf802000 + 0x100000 * k + 0x4 * t := rfl
  have hblock : CRN_CLAIM k t / 0x1000000 = 15 := by omega
  simp only [State.islandAt, hblock]
  exact congrArg some (by omega)

/-- A read of a claim register claims the source that the register's thread is given. -/
theorem readReg_crnClaim (who : Party) (s : State) : readReg who (CRN_CLAIM k t) s = claimCairn k t s := by
  have haddr : CRN_CLAIM k t = 0xf802000 + 0x100000 * k + 0x4 * t := rfl
  have hmail : claimAt (CRN_CLAIM k t) = none := if_neg (by omega)
  obtain ⟨⟨r, b⟩, hfind, hb⟩ := Option.map_eq_some_iff.1 (findReg_crnClaim k hk t ht)
  obtain ⟨-, rfl⟩ := Prod.mk.inj hb
  unfold readReg
  simp only [hmail, hfind, cairnClaimAt_crnClaim k hk t ht]
  rw [if_neg (by unfold DTM_NOW; omega), if_neg (by unfold SVY_DP_LOCK; omega)]

/-- A read of a claim register that its party and island allow answers the claim. -/
theorem access_crnClaim {who : Party} {s : State} (hruns : s.islandRuns (0x90 + k) = true)
    (hreach : s.reaches who (CRN_CLAIM k t) = true) (hout : s.outputOf who (CRN_CLAIM k t) = none) :
    access ⟨who, false, CRN_CLAIM k t, 4, 0, 0⟩ s = (claimCairn k t s).2.emit (.reply who (leBytes 4 (claimCairn k t s).1)) := by
  have haddr : CRN_CLAIM k t = 0xf802000 + 0x100000 * k + 0x4 * t := rfl
  obtain ⟨hheld, hrel⟩ := State.open_of_runs (islandAt_crnClaim hk ht s) (by omega) hruns
  have halign : CRN_CLAIM k t % 4 = 0 := by omega
  have hrec : s.recordBytes (CRN_CLAIM k t) 4 = none := by
    unfold State.recordBytes
    rw [if_neg (by omega), if_neg (by omega)]
  have hbytes : regBytes (CRN_CLAIM k t) = 4 := by
    obtain ⟨⟨r, b⟩, hfind, hb⟩ := Option.map_eq_some_iff.1 (findReg_crnClaim k hk t ht)
    rw [regBytes, hfind]
    exact congrArg Prod.fst hb
  unfold access
  simp only [hout, s.holderOf_aligned (.inl rfl) halign, hheld]
  rw [perform_read_aligned (.inl rfl) halign hreach hrel (placeOf_crnClaim k hk t ht) hbytes hrec, readReg_crnClaim hk ht]

end

/-- Settles O41: packets leave and enter galleries, a core fails, and cairns are claimed, completed and raised. -/
theorem galleriesAndCairnsComplete : Obligations.GalleriesAndCairnsComplete := by
  unfold Obligations.GalleriesAndCairnsComplete
  refine ⟨fun k g i len cls s hk hg hgal hold hlen hcls hlo hhi hfits hcredit hstop => ?_,
    fun k g i p s hk hp hgal hfree => ?_, fun k g v w s hk hg hoff hw hen hok hfits => ?_, fun c on s hc hnew hon => ?_,
    fun k t n who s hk ht hruns hreach hout hsource => ?_, fun k n c s hk hn hc hserv => ?_, fun k n s hk hlo hhi => ?_⟩
  · subst hlen hcls
    change execGallerySend k g s = _
    unfold execGallerySend
    rw [if_neg (by simp [hgal]; omega), hold]
    dsimp only
    rw [if_neg (by omega), if_neg (not_or.2 ⟨not_lt.2 hcredit, fun h => Bool.false_ne_true (hstop.symm.trans h)⟩)]
  · change execGalleryDelivery k s = _
    unfold execGalleryDelivery
    dsimp only
    rw [if_neg (not_le.2 hk), hp]
    dsimp only
    rw [hgal]
    dsimp only
    rw [hfree]
  · refine (if_pos ⟨hk, hg⟩).trans (congrArg Host.Outcome.next ?_)
    unfold galWrite
    dsimp only
    rw [← hw, if_neg (by simp [hoff]), if_neg (by simp [hok, hfits]), if_pos hen]
  · subst hon
    change execCoreFault c s = _
    unfold execCoreFault
    rw [if_neg (not_or.2 ⟨not_le.2 hc, fun h => Bool.false_ne_true (hnew.symm.trans h)⟩)]
  · refine (if_pos ⟨hk, ht⟩).trans (congrArg Host.Outcome.next ((access_crnClaim hk ht hruns hreach hout).trans ?_))
    unfold claimCairn
    rw [hsource]
  · refine (if_pos hk).trans (congrArg Host.Outcome.next ?_)
    unfold completeCairn
    rw [Nat.mod_eq_of_lt hn, hc]
    exact if_pos hserv
  · exact (if_pos hk).trans (congrArg Host.Outcome.next (if_pos ⟨hlo, hhi⟩))

end Sys2Proof.Machine

/-! PROOFS. Boot (R453-R462, R529, R530). -/

namespace Sys2Proof.Machine

/-- The last unit of a class that reports lets boot go on. -/
theorem execUnitReady_ready {c k : Nat} {x : Load} {s t : State} (hx : s.load? c = some x) (hmatch : x.matched = true)
    (hk : k < unitsOf c) (hnew : x.ready.contains k = false) (ht : t = s.setLoad c { x with ready := k :: x.ready }) :
    execUnitReady c k true s = (if t.classReady c = false then .next t
      else if c = 0 then
        if t.imgState 1 = 0 ∨ t.imgState 1 = 4 then
          .next (if (loadClass 1 t).1 then (loadClass 1 t).2 else classFails 1 (loadClass 1 t).2)
        else .next (if t.classReady 1 then privilegedReady t else t)
      else if c = 1 then .next (if t.classReady 0 then privilegedReady t else t)
      else .next (fullService (stepSeven (loadNext t)))) := by
  have hfirst : ¬(x.matched = false ∨ unitsOf c ≤ k ∨ x.ready.contains k = true) := by
    rw [hmatch, hnew]
    exact not_or.2 ⟨Bool.true_eq_false_eq_False, not_or.2 ⟨not_le.2 hk, Bool.false_ne_true⟩⟩
  subst ht
  unfold execUnitReady
  rw [hx]
  dsimp only
  rw [if_neg hfirst]
  simp only [Bool.not_true, Bool.and_false, Bool.false_eq_true, if_false]

/-- Settles O42: each event of boot takes its step. -/
theorem bootCompletes : Obligations.BootCompletes := by
  unfold Obligations.BootCompletes
  refine ⟨fun f s => rfl, fun s hup htrip => ?_, fun c x s hx hmatch hmore => ?_, fun c x s hx hmatch hstart hall => ?_,
    fun c k x s hx hmatch hk hnew hwait => ?_, fun c k x s t hx hmatch hk hnew ht hready => ?_, fun c k x s hx hmatch hk hnew => ?_,
    fun c a who x s hx hchunks => ?_, fun c s hst hcause hacc hc hload => ?_⟩
  · exact if_neg (by simp [hup, htrip])
  · change execImageChunkWritten c true s = _
    unfold execImageChunkWritten
    rw [hx]
    dsimp only
    rw [if_neg (by simp [hmatch, hmore]), if_neg Bool.true_eq_false.mp]
  · have hdue : ¬(x.matched = true ∨ x.started = false ∨ x.chunks * 65536 < hdrLen (s.header c x.copy)) := by
      simp [hmatch, hstart, hall]
    refine ⟨?_, fun hc => ?_, fun hc hne => ?_, fun hc => ?_⟩
    · change execImageTagCheck c false s = _
      unfold execImageTagCheck
      rw [hx]
      exact (if_neg hdue).trans (if_pos rfl)
    all_goals
      change execImageTagCheck c true s = _
      unfold execImageTagCheck
      rw [hx]
      dsimp only
      rw [if_neg hdue, if_neg (by decide)]
    · rw [if_neg (by omega), if_neg (by omega)]
    · rw [if_neg hne, if_pos hc]
    · rw [if_pos hc, if_pos (by omega)]
  · exact (execUnitReady_ready hx hmatch hk hnew rfl).trans (if_pos hwait)
  · have hgo := (execUnitReady_ready hx hmatch hk hnew ht).trans (if_neg (by rw [hready]; decide))
    refine ⟨fun hc => hgo.trans ((if_neg (by omega)).trans (if_neg (by omega))),
      fun hc hzero => hgo.trans ((if_neg (by omega)).trans ((if_pos hc).trans (congrArg Host.Outcome.next (if_pos hzero)))),
      fun hc h0 h4 hone => hgo.trans ((if_pos hc).trans ((if_neg (by omega)).trans (congrArg Host.Outcome.next (if_pos hone)))),
      fun hc hst hload => hgo.trans ((if_pos hc).trans ((if_pos hst).trans (congrArg Host.Outcome.next (if_pos hload))))⟩
  · change execUnitReadyTimeout c k s = _
    unfold execUnitReadyTimeout
    rw [hx]
    dsimp only
    rw [if_neg (by simp only [hmatch, hnew]; simp [hk])]
  · change execHoldRegionWriteFault c who a s = _
    unfold execHoldRegionWriteFault
    rw [hx]
    exact if_neg hchunks
  · change execMinimalRetry s = _
    unfold execMinimalRetry
    rw [if_neg (by simp [hst, hcause, hacc]), hc]
    exact congrArg Host.Outcome.next (if_pos hload)

end Sys2Proof.Machine

/-! PROOFS. Commits, packages, epochs and owner keys (R323, R465-R473). -/

namespace Sys2Proof.Machine

/-- The party that holds the data port reaches the port's registers and those of packages. -/
theorem State.reaches_of_holdsPort {s : State} {who : Party} {a : Nat} (hport : s.holdsPort who = true) (hbmc : bmcReach a = true)
    (hlow : a < 0x2000) (hfuse : isFuse a = false) : s.reaches who a = true := by
  cases who with
  | surveyor => rfl
  | firmware k => simp [State.holdsPort] at hport
  | bmc => exact hbmc
  | host p f =>
    have hf : f = 0 := by simpa using (Bool.and_eq_true_iff.1 hport).2
    subst hf
    have hpage : s.pageSheet a = none := by
      unfold State.pageSheet
      rw [if_neg (by omega), if_neg (by omega), if_neg (by omega), if_neg (by omega)]
    have hspace : a < 0x12000000 := by omega
    simp [State.reaches, State.pageOn, hpage, hfuse, hspace]

/-- Settles O43: copies are committed, packages checked and installed, epochs advanced and owner keys revoked. -/
theorem packagesComplete : Obligations.PackagesComplete := by
  unfold Obligations.PackagesComplete
  refine ⟨fun c x s hx hmatch htrial => ?_, fun c s hx => ?_, fun s hup hsome => if_neg (by simp [hup, hsome]),
    fun who s hport hupd hidle => ?_, fun s hinst hupd => ?_, fun s hinst => ?_, fun s hinst => if_neg (not_not.2 hinst), fun s => rfl⟩
  · change Host.Outcome.next (commitClass c s) = _
    unfold commitClass
    rw [hx]
    exact congrArg Host.Outcome.next (if_pos ⟨hmatch, htrial⟩)
  · change Host.Outcome.next (commitClass c s) = _
    unfold commitClass
    rw [hx]
  · have hreach := State.reaches_of_holdsPort (a := SVY_RECOV_CTRL) hport (by decide) (by decide) (by decide)
    refine congrArg Host.Outcome.next ((if_pos hreach).trans ((if_neg ?_).trans (if_neg ?_)))
    · simp [hport, hupd]
    · rw [hidle]
      exact Bool.false_ne_true
  · have hgo : ¬(s.boot.installing ≠ 1 ∨ s.mgmt.update.isSome = true) := by simp [hinst, hupd]
    exact ⟨if_neg hgo, if_neg hgo⟩
  · exact ⟨(if_neg (not_not.2 hinst)).trans (if_neg (by decide)), (if_neg (not_not.2 hinst)).trans (if_pos rfl)⟩

end Sys2Proof.Machine

/-! PROOFS. Repairs, errors, lockstep and logs (R76, R477-R488). -/

namespace Sys2Proof.Machine

/-- Settles O44: repairs, errors, lockstep mismatches, held messages and the protection log take their effects. -/
theorem faultsAndLogsComplete : Obligations.FaultsAndLogsComplete := by
  unfold Obligations.FaultsAndLogsComplete
  refine ⟨fun ch bank row b used s hb hused hfew => ?_, fun ch lines s u hu => ?_, fun n s => rfl,
    fun recent s u hst hrecent hu => ?_, fun s hst => ?_, fun s hrestart hready => if_pos ⟨hrestart, hready⟩,
    fun p held s hheld => ?_, fun s => rfl⟩
  · subst hb hused
    exact if_neg (not_le.2 hfew)
  · subst hu
    rfl
  · subst hu hrecent
    refine (if_pos hst).trans ?_
    simp only [decide_eq_true_eq]
  · have hstate : s.rd SVY_BOOT_STATUS_STATE ≠ 3 := by omega
    exact (if_neg hstate).trans (if_pos hst)
  · change execHealthCoalExpiry p s = _
    unfold execHealthCoalExpiry
    rw [hheld]

end Sys2Proof.Machine

/-! PROOFS. Survey, wear and the health commands (R490-R498). -/

namespace Sys2Proof.Machine

/-! ## What an event that is raised leaves of the consumables -/

theorem foldl_keeps {α β : Type} {f : State → α → State} {g : State → β} (hf : ∀ s a, g (f s a) = g s) (l : List α) (s : State) :
    g (l.foldl f s) = g s := by
  induction l generalizing s with
  | nil => rfl
  | cons a l ih => exact (ih (f s a)).trans (hf s a)

theorem cairnEventIn_health (k src : Nat) (s : State) : (cairnEventIn k src s).health = s.health := by
  unfold cairnEventIn
  dsimp only
  split <;> rfl

theorem cairnEvent_health (src : Nat) (s : State) : (cairnEvent src s).health = s.health :=
  foldl_keeps (g := State.health) (fun t k => cairnEventIn_health k src t) _ s

theorem sendVector_health (s : State) (p f v : Nat) : (s.sendVector p f v).health = s.health := by
  unfold State.sendVector
  dsimp only
  split_ifs <;> rfl

theorem notifyPort_cons (p : Nat) (s : State) : (notifyPort p s).health.cons = s.health.cons := by
  unfold notifyPort
  split_ifs
  · rfl
  · split
    · rfl
    · change (s.sendVector p 0 (s.rd (HLT_PORT_CFG_VEC p))).health.cons = s.health.cons
      rw [sendVector_health]

/-- An event that is raised leaves the consumables' records. -/
theorem raise_cons (f : Fld) (s : State) : (raise f s).health.cons = s.health.cons := by
  unfold raise
  split_ifs
  · rfl
  · unfold notifyAll
    rw [foldl_keeps (g := fun t => t.health.cons) (fun t p => notifyPort_cons p t), cairnEvent_health]
    rfl

/-- A read pointer that is written holds the record named, or where writing stands (R490, Table 18.6). -/
theorem rd_surveyAdvance {v : Nat} {s : State} (hs : regsWf s.regs) (hv : v < 2 ^ 32) :
    (surveyAdvance v s).rd HLT_SURV_RD_COUNT
      = (if (v + 2 ^ 32 - s.rd HLT_SURV_RD_COUNT) % 2 ^ 32 ≤ s.unreadSurvey then v else s.rd HLT_SURV_WR_COUNT) := by
  have hwidth : HLT_SURV_RD_COUNT.width = 32 := rfl
  have hwr : s.rd HLT_SURV_WR_COUNT < 2 ^ 32 := getField_lt _ _ 32
  unfold surveyAdvance
  rw [Nat.mod_eq_of_lt hv]
  refine State.rd_wr_fits hs _ rfl ?_
  rw [hwidth]
  split
  · exact hv
  · exact hwr

/-! ## Wear -/

/-- A consumable whose reading fits its kind takes the sample, and a record that becomes due is reported. -/
theorem exec_wearSample_of_fits {i : Nat} {reading : WearReading} {c : Consumable} {s : State}
    (hc : tblGetD Consumable.fresh s.health.cons i = c) (hpres : c.present = true) (hfits : readingFits c.kind reading = true) :
    exec (.wearSample i reading) s = .next (
      let t : State := { s with health := { s.health with cons := tblPut s.health.cons i (sampleWear c reading s) } }
      let u := drawReading reading t
      if (sampleWear c reading s).soon = true ∧ c.soon = false then raise HLT_EVENT_CONS u else u) := by
  subst hc
  exact if_neg (by simp [hpres, hfits])

/-- A health command of an accepted ring completes with what it answers. -/
theorem healthGate_answers {g op st : Nat} {r : Ring} {j : Job} {s u w : State} {b : Body}
    {f : Ring → Entry → State → State × Nat × Body} (hup : s.health.restarting = false) (h : s.Starts g op r j u)
    (hpf : u.sheetPf r.sheet = 0) (hf : f r j.first u = (w, st, b)) :
    healthGate g op f s = .next (done g j st b w) := by
  refine (if_neg (by simp [hup])).trans (congrArg Host.Outcome.next (runEntry_ends h ?_))
  exact (if_neg (not_not.2 hpf)).trans hf

/-- Settles O45: the survey is read, wear is sampled and saved, and the health commands write what fits. -/
theorem surveyAndHealthCommandsComplete : Obligations.SurveyAndHealthCommandsComplete := by
  unfold Obligations.SurveyAndHealthCommandsComplete
  refine ⟨fun v s hs hv => ?_, fun i used units c s hc hpres hkind => ?_, fun i reading c d s hc hpres hfits hd => ?_,
    fun s hup => if_neg (by simp [hup]), fun g r j s u hup h hpf halign hlen => ?_,
    fun g n r j s u hup h hpf halign hsome hmost hlen hn => ?_⟩
  · exact ⟨_, rfl, rd_surveyAdvance hs.1 hv, by unfold surveyAdvance; rw [State.wr_health], by unfold surveyAdvance; rw [State.wr_mem]⟩
  · refine ⟨_, exec_wearSample_of_fits hc hpres (by rw [hkind]; rfl), sampleWear c (.nvme used units) s, ?_, rfl, rfl, ⟨_, rfl⟩, ?_,
      ?_, ?_⟩
    · dsimp only [drawReading]
      split_ifs
      · rw [raise_cons]
        exact tblGet_tblPut_same ..
      · exact tblGet_tblPut_same ..
    · intro hfull
      exact Bool.or_eq_true_iff.2 (.inl (beq_iff_eq.2 hfull))
    · dsimp only [drawReading]
      split_ifs
      · rw [raise_mem]
      · rfl
    · dsimp only [drawReading]
      split_ifs
      · rw [raise_contracts]
      · rfl
  · subst hd
    exact exec_wearSample_of_fits hc hpres hfits
  · change execHltSnapshot g true s = _
    unfold execHltSnapshot
    refine healthGate_answers hup h hpf ?_
    rw [if_neg (not_not.2 halign), if_neg (not_lt.2 hlen), if_neg Bool.true_eq_false.mp]
    rfl
  · subst hn
    change execSurveyDrain g true s = _
    unfold execSurveyDrain
    refine healthGate_answers hup h hpf ?_
    dsimp only
    rw [if_neg (by omega), if_neg (not_lt.2 hlen), if_neg Bool.true_eq_false.mp]
    rfl

end Sys2Proof.Machine

/-! PROOFS. Management messages (R501-R508). -/

namespace Sys2Proof.Machine

/-- A request on a binding that is served is handled. -/
theorem serve_of_ready {b kind code : Nat} {f : State → State} {s u : State} (hb : s.hasBinding b = true)
    (hready : s.mgmtReady b = true) (hf : f s = u) : serve b kind code f s = .next u := by
  unfold serve
  rw [if_neg (by simp [hb]), if_pos hready, hf]

/-- A request on a binding that is not served is answered as not ready. -/
theorem serve_not_ready {b kind code : Nat} {f : State → State} {s : State} (hb : s.hasBinding b = true)
    (hready : s.mgmtReady b = false) : serve b kind code f s = .next (notReady b kind code s) := by
  unfold serve
  rw [if_neg (by simp [hb]), if_neg (by simp [hready])]

/-- The event of a sensor that no other entry names is the first of the ones not acknowledged. -/
theorem filter_other_sensors {k : Nat} {rest : List (Nat × Nat × Nat)} (h : ∀ x ∈ rest, x.1 ≠ k) (v sent : Nat) :
    ((k, v, sent) :: rest).filter (fun x => x.1 != k) = rest := by
  rw [List.filter_cons_of_neg (by simp)]
  exact List.filter_eq_self.2 fun x hx => bne_iff_ne.2 (h x hx)

/-- Settles O46: each message on a binding that is served is answered, and events are repeated until acknowledged. -/
theorem managementMessagesComplete : Obligations.ManagementMessagesComplete := by
  unfold Obligations.ManagementMessagesComplete
  refine ⟨fun b op eid s hb hop hlo hhi => ?_, fun b op eid s hb => ⟨?_, ?_, ?_⟩, fun static a s hstatic => ?_,
    fun b code s hb hready => ⟨?_, ?_, ?_⟩, fun s => rfl, fun b a s hb hready halign hreach hport => ?_,
    fun b a d s hb hready hreach hst => ?_, fun b off n s hb hready hst => ?_, fun b off d s hb hready hst => ?_,
    fun b h s hb hready => serve_of_ready hb hready rfl, fun b k v s hb hready hv => ?_, fun b k v s hb hready hv => ?_,
    fun b eid en s hb hready => ?_, fun k v sent b eid rest s hun hother hrec => ?_,
    fun b tid s hb hready h0 hff => ?_, fun b arg s hb hready => ⟨?_, ?_, fun hcmds => ?_⟩⟩
  · exact congrArg Host.Outcome.next ((if_pos hb).trans (if_pos ⟨hop, hlo, hhi⟩))
  · exact congrArg Host.Outcome.next (if_pos hb)
  · exact congrArg Host.Outcome.next (if_pos hb)
  · exact congrArg Host.Outcome.next (if_pos hb)
  · cases static with
    | none => rfl
    | some x => exact if_pos (hstatic.resolve_left (Option.some_ne_none x))
  · exact serve_not_ready hb hready
  · exact serve_not_ready hb hready
  · exact serve_not_ready hb hready
  · change execTheivoRegRead b a s = _
    refine serve_of_ready hb hready ?_
    have hheld : ¬(bmcReach a = false ∨ isAperture a = true ∧ s.holdsPort .bmc = false) := by
      rintro (hno | ⟨hap, hno⟩)
      · exact Bool.false_ne_true (hno.symm.trans hreach)
      · exact Bool.false_ne_true (hno.symm.trans (hport hap))
    dsimp only
    rw [if_neg (not_not.2 halign), if_neg hheld]
    rfl
  · change execTheivoRegWrite b a d s = _
    refine serve_of_ready hb hready ?_
    dsimp only
    rw [if_neg hst, if_neg (by simp [hreach])]
  · change execTheivoDpRead b off n s = _
    refine serve_of_ready hb hready ?_
    dsimp only
    rw [if_neg (not_not.2 hst)]
  · change execTheivoDpWrite b off d s = _
    refine serve_of_ready hb hready ?_
    dsimp only
    rw [hst]
    rfl
  · change execPldmGetSensorReading b k s = _
    refine serve_of_ready hb hready ?_
    rw [hv]
  · change execPldmGetStateSensorReadings b k s = _
    refine serve_of_ready hb hready ?_
    rw [hv]
  · change execPldmSetEventReceiver b eid en s = _
    exact serve_of_ready hb hready rfl
  · have hfind : s.mgmt.unacked.find? (fun x => x.1 == k) = some (k, v, sent) := by
      rw [hun]
      exact List.find?_cons_of_pos (beq_self_eq_true k)
    have hothers : s.mgmt.unacked.filter (fun x => x.1 != k) = rest := by
      rw [hun]
      exact filter_other_sensors hother v sent
    refine ⟨?_, fun hfew => ⟨{ sendMctp b 1 k (leBytes 2 v ++ leBytes 1 eid) s with
      mgmt := { (sendMctp b 1 k (leBytes 2 v ++ leBytes 1 eid) s).mgmt with unacked := rest ++ [(k, v, sent + 1)] } }, ?_, rfl, rfl⟩⟩
    · change execPldmEventRetry k true s = _
      unfold execPldmEventRetry
      simp only [hfind, hrec, hothers, true_or, if_true]
    · change execPldmEventRetry k false s = _
      unfold execPldmEventRetry
      simp only [hfind, hrec, hothers, Bool.false_eq_true, false_or]
      rw [if_neg (not_le.2 hfew)]
  · exact serve_of_ready hb hready (if_neg (not_or.2 ⟨h0, hff⟩))
  · exact serve_of_ready hb hready rfl
  · exact serve_of_ready hb hready rfl
  · exact serve_of_ready hb hready (if_neg (by simp [hcmds]))

end Sys2Proof.Machine

/-! PROOFS. Firmware update and attestation (R509-R513). -/

namespace Sys2Proof.Machine

/-- An SPDM request of a session that has agreed on its algorithms is handled. -/
theorem spdmServe_of_ready {b code : Nat} {f : State → State} {s u : State} (hb : s.hasBinding b = true)
    (hready : s.mgmtReady b = true) (hstep : 3 ≤ s.spdmStep b) (hf : f s = u) : spdmServe b code f s = .next u :=
  serve_of_ready hb hready ((if_neg (not_lt.2 hstep)).trans hf)

/-- Settles O47: an update moves through its steps, and each attestation request is answered. -/
theorem updateAndAttestationComplete : Obligations.UpdateAndAttestationComplete := by
  unfold Obligations.UpdateAndAttestationComplete
  refine ⟨fun b c len s hb hready hnone hlock hidle hc hlen hfits => ?_, fun b c len got d s u hb hready hupd hgot hd hu => ?_,
    fun b c len r ok s u hupd hres hr hu => ?_, fun b c len got s hb hready hupd hres => ?_,
    fun b c len got s hb hready hupd hres => ?_, fun b c len s hb hready hupd hres => ?_, fun s hupd hidle => ?_,
    fun b v o q s u hb hready hu => ?_, fun b v o q s u hb hready hstep hv hu => ?_, fun b v q s hb hready hstep => ?_,
    fun b off len q part s hb hready hstep hpart => ?_, fun b q body s hb hready hstep hbody => ?_,
    fun b i l sg q body s hb hready hstep hi hl hbody => ?_⟩
  · change execRequestUpdate b c len s = _
    refine serve_of_ready hb hready ?_
    dsimp only
    rw [if_neg (by simp [hnone]), if_neg (by simp [hlock, hidle]), if_neg (by omega)]
  · subst hu
    change execFirmwareDataReceive b d s = _
    refine serve_of_ready hb hready ?_
    dsimp only
    rw [hupd]
    dsimp only
    rw [if_neg (not_le.2 hgot), if_neg (not_not.2 hd)]
  · subst hu hr
    change execFirmwareVerifyApply b ok s = _
    unfold execFirmwareVerifyApply
    rw [hupd]
    dsimp only
    rw [if_neg (by simp [hres])]
    by_cases hbad : s.updateCheck c len ≠ 0
    · simp only [if_pos hbad]
    · simp only [if_neg hbad]
      cases ok <;> rfl
  · change execActivateFirmware b false s = _
    refine serve_of_ready hb hready ?_
    simp only [hupd, hres, Bool.false_eq_true, if_false, Bool.or_eq_true, beq_iff_eq]
  · change execCancelUpdate b s = _
    refine serve_of_ready hb hready ?_
    simp only [hupd]
    exact if_neg fun ⟨hall, hnone⟩ => hres.elim (fun h => h hall) (fun h => h hnone)
  · change execCancelUpdate b s = _
    refine serve_of_ready hb hready ?_
    simp only [hupd]
    exact if_pos ⟨trivial, hres⟩
  · exact if_pos ⟨Option.isSome_iff_ne_none.2 hupd, hidle⟩
  · subst hu
    exact serve_of_ready hb hready rfl
  · subst hu
    refine serve_of_ready hb hready ((if_neg hstep).trans (if_neg ?_))
    omega
  · exact serve_of_ready hb hready (if_neg (not_lt.2 hstep))
  · subst hpart
    change execSpdmGetCertificate b 0 off len q s = _
    refine spdmServe_of_ready hb hready hstep ?_
    by_cases hend : Config.certChain.length ≤ off
    · rw [if_pos hend]
      exact if_pos (.inr hend)
    · rw [if_neg hend]
      exact if_neg (not_or.2 ⟨not_not.2 rfl, hend⟩)
  · subst hbody
    change execSpdmChallenge b 0 q s = _
    exact spdmServe_of_ready hb hready hstep (if_neg (not_not.2 rfl))
  · subst hl
    change execSpdmGetMeasurements b i sg q s = _
    refine spdmServe_of_ready hb hready hstep ((if_neg ?_).trans ?_)
    · rintro ⟨h0, hff, hnone⟩
      exact hi.elim h0 (·.elim hff (· hnone))
    · subst hbody
      by_cases h0 : i = 0
      · simp only [if_pos h0, List.flatMap_nil]
        rfl
      · simp only [if_neg h0]

end Sys2Proof.Machine

/-! PROOFS. The data port, debug and the TAP (R514-R519). -/

namespace Sys2Proof.Machine

/-! ## Accesses of the data port's aperture -/

/-- The bytes that spell a number are its little-endian bytes. -/
theorem leBytes_ofLe (bs : Bytes) : leBytes bs.length (ofLe bs) = bs := by
  induction bs with
  | nil => rfl
  | cons b bs ih =>
    have hb : b.toNat < 256 := b.isLt
    have hdiv : (b.toNat + 256 * ofLe bs) / 256 = ofLe bs := by omega
    have hlow : BitVec.ofNat 8 (b.toNat + 256 * ofLe bs) = b := by
      apply BitVec.eq_of_toNat_eq
      rw [BitVec.toNat_ofNat]
      omega
    simp only [List.length_cons, leBytes, ofLe, hdiv, hlow, ih]

/-- An aligned part of the aperture lies inside it. -/
theorem bounds_of_dpAligned {off n : Nat} (h : dpAligned off n = true) : 0 < n ∧ off + n ≤ 2048 := by
  simp only [dpAligned, Bool.and_eq_true, decide_eq_true_eq] at h
  exact ⟨h.1.2, h.2⟩

/-- A party that holds the data port sends no access through a firmware's output buffer. -/
theorem State.outputOf_of_holdsPort {s : State} {who : Party} (h : s.holdsPort who = true) (a : Nat) : s.outputOf who a = none := by
  cases who with
  | firmware k => simp [State.holdsPort] at h
  | _ => rfl

/-- No island holds or refuses an access of the management block. -/
theorem State.open_of_management (s : State) {a : Nat} (ha : a < 0x1000000) : s.heldBy a = none ∧ s.unreleased a = false := by
  have hblock : a / 0x1000000 = 0 := by omega
  have hisland : s.islandAt a = none := by simp only [State.islandAt, hblock]
  exact ⟨by simp only [State.heldBy, hisland], by simp only [State.unreleased, hisland]⟩

section
variable {off n : Nat} (hal : dpAligned off n = true)
include hal

theorem placeOf_aperture {i : Nat} (hi : i < n) : placeOf (0x1800 + off + i) = .aperture := by
  obtain ⟨-, hend⟩ := bounds_of_dpAligned hal
  unfold placeOf
  have hslot : slotAt (0x1800 + off + i) = none := if_neg (by omega)
  have hap : isAperture (0x1800 + off + i) = true := by simp [isAperture]; omega
  rw [hslot]
  exact if_pos hap

theorem piecesOf_aperture : piecesOf (0x1800 + off) n = [(0x1800 + off, n)] := by
  obtain ⟨hpos, hend⟩ := bounds_of_dpAligned hal
  have hfirst := placeOf_aperture hal hpos
  have hlast := placeOf_aperture hal (i := n - 1) (by omega)
  have haddr : 0x1800 + off + n - 1 = 0x1800 + off + (n - 1) := by omega
  rw [Nat.add_zero] at hfirst
  unfold piecesOf
  rw [hfirst, haddr, hlast]
  exact if_pos ⟨rfl, rfl⟩

theorem holderOf_aperture (s : State) : s.holderOf (0x1800 + off) n = none := by
  obtain ⟨hpos, hend⟩ := bounds_of_dpAligned hal
  refine List.findSome?_eq_none_iff.2 fun i hi => (s.open_of_management ?_).1
  have hi' := List.mem_range.1 hi
  split <;> omega

/-- A party that holds the data port reaches the whole of an aligned part of the aperture. -/
theorem State.reachesAll_aperture {s : State} {who : Party} (hport : s.holdsPort who = true) :
    s.reachesAll who (0x1800 + off) n = true := by
  obtain ⟨hpos, hend⟩ := bounds_of_dpAligned hal
  refine List.all_eq_true.2 fun l hl => ?_
  obtain ⟨i, hi, rfl⟩ := List.mem_map.1 hl
  have hi' := List.mem_range.1 hi
  have hlow : max (0x1800 + off) (64 * ((0x1800 + off) / 64 + i)) < 0x2000 := by omega
  refine State.reaches_of_holdsPort hport ?_ hlow ?_
  · simp only [bmcReach, Bool.or_eq_true, Bool.and_eq_true, decide_eq_true_eq]
    omega
  · simp only [isFuse, Bool.and_eq_false_iff, decide_eq_false_iff_not]
    omega

/-- The port's holder reads through the aperture (R515). -/
theorem access_aperture_read {s : State} {who : Party} (hport : s.holdsPort who = true) :
    access ⟨who, false, 0x1800 + off, n, 0, 0⟩ s = (dpRead who off n s).2.emit (.reply who (dpRead who off n s).1) := by
  obtain ⟨hpos, hend⟩ := bounds_of_dpAligned hal
  have hplace := placeOf_aperture hal hpos
  rw [Nat.add_zero] at hplace
  have hpiece : readPiece who (0x1800 + off) n s = dpRead who off n s := by
    unfold readPiece
    rw [if_neg (by simp [State.reachesAll_aperture hal hport]), if_neg (by simp [(s.open_of_management (a := 0x1800 + off) (by omega)).2]),
      hplace]
    exact congrArg (dpRead who · n s) (by omega)
  unfold access
  simp only [State.outputOf_of_holdsPort hport, holderOf_aperture hal]
  unfold perform readSpace
  simp only [piecesOf_aperture hal, readPieces, hpiece, List.append_nil, Bool.false_eq_true, if_false]

/-- The port's holder writes through the aperture (R516). -/
theorem access_aperture_write {s : State} {who : Party} {bs : Bytes} (hlen : bs.length = n) (hport : s.holdsPort who = true) :
    access ⟨who, true, 0x1800 + off, n, ofLe bs, 0⟩ s = dpWrite who off bs s := by
  obtain ⟨hpos, hend⟩ := bounds_of_dpAligned hal
  have hplace := placeOf_aperture hal hpos
  rw [Nat.add_zero] at hplace
  have hpiece : writePiece who (0x1800 + off) bs s = dpWrite who off bs s := by
    unfold writePiece
    rw [hlen, if_neg (by simp [State.reachesAll_aperture hal hport]),
      if_neg (by simp [(s.open_of_management (a := 0x1800 + off) (by omega)).2]), hplace]
    exact congrArg (dpWrite who · bs s) (by omega)
  subst hlen
  unfold access
  simp only [State.outputOf_of_holdsPort hport, holderOf_aperture hal]
  unfold perform writeSpace
  simp only [piecesOf_aperture hal, writePieces, leBytes_ofLe, List.take_length, hpiece, if_true]

end

/-! ## The lock of the data port -/

theorem findReg_dpLock : (findReg SVY_DP_LOCK).map (fun x => (x.1.bytes, x.2)) = some (4, SVY_DP_LOCK) := by decide +kernel

/-- A read of the lock claims a free port and answers the lock (R514). -/
theorem readReg_dpLock (who : Party) (s : State) : readReg who SVY_DP_LOCK s = ((dpClaim who s).dpLock who, dpClaim who s) := by
  obtain ⟨⟨r, b⟩, hfind, hb⟩ := Option.map_eq_some_iff.1 findReg_dpLock
  obtain ⟨-, rfl⟩ := Prod.mk.inj hb
  have hmail : claimAt SVY_DP_LOCK = none := by decide
  unfold readReg
  simp only [hmail, hfind]
  rw [if_neg (by decide), if_pos trivial]

theorem exec_dpLockClaim {who : Party} {s : State} (hreach : s.reaches who SVY_DP_LOCK = true) (hout : s.outputOf who SVY_DP_LOCK = none) :
    exec (.dpLockClaim who) s = .next ((dpClaim who s).emit (.reply who (leBytes 4 ((dpClaim who s).dpLock who)))) := by
  obtain ⟨hheld, hrel⟩ := s.open_of_management (a := SVY_DP_LOCK) (by decide)
  have hbytes : regBytes SVY_DP_LOCK = 4 := by decide +kernel
  change Host.Outcome.next (access _ s) = _
  unfold access
  simp only [hout, s.holderOf_aligned (.inl rfl) (show SVY_DP_LOCK % 4 = 0 by decide), hheld]
  rw [perform_read_aligned (.inl rfl) (by decide) hreach hrel (by decide) hbytes rfl, readReg_dpLock]

/-- Settles O48: the data port is claimed, used and freed, and debug and the TAP take their steps. -/
theorem dataPortAndDebugComplete : Obligations.DataPortAndDebugComplete := by
  unfold Obligations.DataPortAndDebugComplete
  refine ⟨fun p s hfree => ⟨?_, ?_⟩, fun who s hport => ?_, fun s hheld hidle => if_pos ⟨hheld, hidle⟩,
    fun who off n s u hport hal hu => ?_, fun who off n bs s hport hal => ?_, fun who s hport => ?_, fun s hbusy => if_pos hbusy,
    fun s => rfl, fun s => rfl, fun r s t hbusy hr ht => ?_, fun s => rfl, fun k s hlevel => if_pos hlevel⟩
  · have hclaim : dpClaim (.host p 0) s = dpTouch (.host p 0) ((s.wr SVY_DP_LOCK_OWNER 1).wr SVY_DP_LOCK_PORT p) :=
      if_neg (by simp [dpParty, hfree])
    rw [exec_dpLockClaim (by rfl) rfl, hclaim]
  · have hclaim : dpClaim .bmc s = dpTouch .bmc ((s.wr SVY_DP_LOCK_OWNER 2).wr SVY_DP_LOCK_PORT 0) :=
      if_neg (by simp [dpParty, hfree])
    rw [exec_dpLockClaim (by rfl) rfl, hclaim]
  · have hreach := State.reaches_of_holdsPort (a := SVY_DP_LOCK) hport (by decide) (by decide) (by decide)
    exact congrArg Host.Outcome.next ((if_pos hreach).trans (if_pos hport))
  · subst hu
    obtain ⟨-, hend⟩ := bounds_of_dpAligned hal
    refine (if_neg (not_lt.2 hend)).trans (congrArg Host.Outcome.next ((access_aperture_read hal hport).trans ?_))
    unfold dpRead
    rw [if_neg (by simp [hport]), if_neg (by simp [hal])]
  · obtain ⟨-, hend⟩ := bounds_of_dpAligned hal
    exact (if_neg (not_lt.2 hend)).trans (congrArg Host.Outcome.next (access_aperture_write hal rfl hport))
  · have hreach := State.reaches_of_holdsPort (a := SVY_DP_CTRL) hport (by decide) (by decide) (by decide)
    exact congrArg Host.Outcome.next ((if_pos hreach).trans (if_pos hport))
  · subst hr ht
    exact if_neg (by simp [hbusy])

end Sys2Proof.Machine

/-! PROOFS. Supply, sensors, voltage and clocks (R526-R539). -/

namespace Sys2Proof.Machine

/-! ## A temperature in 12 bits -/

theorem unsigned_lt (x : Int) : unsigned 12 x < 2 ^ 12 := by unfold unsigned; omega

theorem signed_unsigned {x : Int} (hlo : -2048 ≤ x) (hhi : x ≤ 2047) : signed 12 (unsigned 12 x) = x := by
  unfold signed unsigned
  split <;> omega

/-! ## The sensors' registers -/

/-- The registers of the sensors, which stand behind those of the thermal status, the power and the rails. -/
def inSensors (a : Nat) : Bool := decide (0x3040 ≤ a)

theorem canonAddr_temp {n : Nat} (hn : n < 24) : canonAddr (SVY_TEMP n) = 0x3040 + 4 * n := canonAddr_of_lt (by unfold SVY_TEMP; omega)

theorem rd_putTemp_same {n : Nat} {s : State} (hs : regsWf s.regs) (x : Int) :
    (putTemp n x s).rd (SVY_TEMP_TEMP n) = unsigned 12 x := by
  unfold putTemp
  rw [State.rd_wr_beside (regsWf_wr _ _ hs) (by rfl) (by rfl)]
  exact State.rd_wr_fits hs _ rfl (unsigned_lt x)

theorem rd_putTemp_ne {n m : Nat} {s : State} (hn : n < 24) (hm : m < 24) (hne : m ≠ n) (x : Int) :
    (putTemp n x s).rd (SVY_TEMP_TEMP m) = s.rd (SVY_TEMP_TEMP m) := by
  have hcanon : canonAddr (SVY_TEMP m) ≠ canonAddr (SVY_TEMP n) := by
    rw [canonAddr_temp hn, canonAddr_temp hm]
    omega
  unfold putTemp
  rw [State.rd_wr_ne _ hcanon, State.rd_wr_ne _ hcanon]

theorem putTemp_frame (n : Nat) (x : Int) (s : State) : (putTemp n x s).contracts = s.contracts ∧ (putTemp n x s).mem = s.mem := by
  unfold putTemp
  rw [State.wr_contracts, State.wr_contracts, State.wr_mem, State.wr_mem]
  exact ⟨rfl, rfl⟩

/-- The first sensors' registers hold the sample, and nothing but registers has changed. -/
structure SampledTo (temps : List Int) (s : State) (k : Nat) (t : State) : Prop where
  regs : regsWf t.regs
  temp : ∀ n < k, t.rd (SVY_TEMP_TEMP n) = unsigned 12 (temps.getD n 0)
  contracts : t.contracts = s.contracts
  mem : t.mem = s.mem

theorem SampledTo.putTemp {temps : List Int} {s t : State} {k : Nat} (h : SampledTo temps s k t) (hk : k < 24) :
    SampledTo temps s (k + 1) (putTemp k (temps.getD k 0) t) where
  regs := regsWf_wr _ _ (regsWf_wr _ _ h.regs)
  temp n hn := by
    by_cases hnk : n = k
    · subst hnk
      exact rd_putTemp_same h.regs _
    · rw [rd_putTemp_ne hk (show n < 24 by omega) hnk]
      exact h.temp n (by omega)
  contracts := (putTemp_frame k _ t).1.trans h.contracts
  mem := (putTemp_frame k _ t).2.trans h.mem

theorem sampledTo_foldl {temps : List Int} {s : State} (hs : regsWf s.regs) {k : Nat} (hk : k ≤ 24) :
    SampledTo temps s k ((List.range k).foldl (fun t n => putTemp n (temps.getD n 0) t) s) := by
  induction k with
  | zero => exact ⟨hs, fun n hn => absurd hn (Nat.not_lt_zero n), rfl, rfl⟩
  | succ k ih =>
    rw [List.range_succ, List.foldl_append]
    exact (ih (by omega)).putTemp (by omega)

/-! ## The thermal status, the power and the rails -/

/-- What a sample writes of the thermal status and the power, once the sensors' registers hold it. -/
def thermalStatus (power : Nat) (s : State) : State :=
  let (m, k) := (s.hottest (List.range 20)).getD (0, 0)
  let s := (s.wr SVY_THERM_STATUS_MAX (unsigned 12 m)).wr SVY_THERM_STATUS_MAX_SENSOR k
  let s := s.wr SVY_THERM_STATUS_WARN_NOW (if (s.rd SVY_THERM_CFG_WARN : Nat) * 8 ≤ m then 1 else 0)
  let thr := (if s.dieThrottled 0 then 1 else 0) + (if s.dieThrottled 1 then 2 else 0)
  (s.wr SVY_THERM_STATUS_THROTTLE thr).wr SVY_POWER_PKG (min power 8191)

/-- The thermal status is four fields of its register, written before the power. -/
theorem thermalStatus_writes (power : Nat) (s : State) : ∃ a b c d : Nat, thermalStatus power s
    = ((((s.wr SVY_THERM_STATUS_MAX a).wr SVY_THERM_STATUS_MAX_SENSOR b).wr SVY_THERM_STATUS_WARN_NOW c).wr
      SVY_THERM_STATUS_THROTTLE d).wr SVY_POWER_PKG (min power 8191) := ⟨_, _, _, _, rfl⟩

theorem thermalStatus_sensors (power : Nat) (s : State) : KeepsRegs inSensors s (thermalStatus power s) := by
  obtain ⟨a, b, c, d, h⟩ := thermalStatus_writes power s
  rw [h]
  exact (((((KeepsRegs.refl inSensors s).wr rfl).wr rfl).wr rfl).wr rfl).wr rfl

theorem thermalStatus_power {s : State} (hs : regsWf s.regs) (power : Nat) :
    (thermalStatus power s).rd SVY_POWER_PKG = min power 8191 := by
  obtain ⟨a, b, c, d, h⟩ := thermalStatus_writes power s
  have hfits : min power 8191 < 2 ^ 13 := by omega
  rw [h]
  exact State.rd_wr_fits (regsWf_wr _ _ (regsWf_wr _ _ (regsWf_wr _ _ (regsWf_wr _ _ hs)))) _ rfl hfits

theorem thermalStatus_frame (power : Nat) (s : State) :
    (thermalStatus power s).contracts = s.contracts ∧ (thermalStatus power s).mem = s.mem := by
  obtain ⟨a, b, c, d, h⟩ := thermalStatus_writes power s
  rw [h]
  rw [State.wr_contracts, State.wr_contracts, State.wr_contracts, State.wr_contracts, State.wr_contracts,
    State.wr_mem, State.wr_mem, State.wr_mem, State.wr_mem, State.wr_mem]
  exact ⟨rfl, rfl⟩

/-- A step of a rail's voltage writes no register. -/
theorem stepAvs_regs (rail : Nat) (s : State) : (stepAvs rail s).regs = s.regs := by
  unfold stepAvs
  dsimp only
  split_ifs <;> rfl

/-- A state whose power and outputs alone differ: its contracts and memory stand. -/
theorem emit_power_frame (x : Power) (o : Out) (s : State) :
    (State.emit { s with power := x } o).contracts = s.contracts ∧ (State.emit { s with power := x } o).mem = s.mem := ⟨rfl, rfl⟩

theorem stepAvs_frame (rail : Nat) (s : State) : (stepAvs rail s).contracts = s.contracts ∧ (stepAvs rail s).mem = s.mem := by
  unfold stepAvs
  dsimp only
  split_ifs
  · exact ⟨rfl, rfl⟩
  · exact emit_power_frame _ _ s
  · exact emit_power_frame _ _ s

/-- Aiming a rail steps it to the target that it writes, once the cluster image runs. -/
theorem aimAvs_cases (rail : Nat) (s : State) :
    aimAvs rail s = s ∨ ∃ x : Nat, aimAvs rail s = stepAvs rail (s.wr (SVY_AVS_STATUS_TARGET_MV rail) x) := by
  unfold aimAvs
  by_cases h : s.imgState 0 ≠ 2
  · exact .inl (if_pos h)
  · exact .inr ⟨_, if_neg h⟩

/-- Aiming a rail writes its target alone. -/
theorem aimAvs_keeps {p : Nat → Bool} {s t : State} (h : KeepsRegs p s t) {rail : Nat} (hp : p (canonAddr (SVY_AVS_STATUS rail)) = false) :
    KeepsRegs p s (aimAvs rail t) := by
  obtain haim | ⟨x, haim⟩ := aimAvs_cases rail t
  · rw [haim]
    exact h
  · have hregs : (aimAvs rail t).regs = (t.wr (SVY_AVS_STATUS_TARGET_MV rail) x).regs := by rw [haim, stepAvs_regs]
    unfold KeepsRegs
    rw [hregs]
    exact h.wr (f := SVY_AVS_STATUS_TARGET_MV rail) hp

theorem aimAvs_frame (rail : Nat) (s : State) : (aimAvs rail s).contracts = s.contracts ∧ (aimAvs rail s).mem = s.mem := by
  obtain haim | ⟨x, haim⟩ := aimAvs_cases rail s
  · rw [haim]
    exact ⟨rfl, rfl⟩
  · obtain ⟨hcon, hmem⟩ := stepAvs_frame rail (s.wr (SVY_AVS_STATUS_TARGET_MV rail) x)
    rw [haim]
    exact ⟨hcon.trans (State.wr_contracts ..), hmem.trans (State.wr_mem ..)⟩

/-- Aiming the rails writes below the sensors' registers and beside the power's. -/
theorem aimRails_keeps {p : Nat → Bool} (s : State) (hp : ∀ rail < 3, p (canonAddr (SVY_AVS_STATUS rail)) = false) :
    KeepsRegs p s (aimRails s) :=
  aimAvs_keeps (aimAvs_keeps (aimAvs_keeps (KeepsRegs.refl p s) (hp 0 (by decide))) (hp 1 (by decide))) (hp 2 (by decide))

theorem aimRails_frame (s : State) : (aimRails s).contracts = s.contracts ∧ (aimRails s).mem = s.mem := by
  obtain ⟨hc0, hm0⟩ := aimAvs_frame 0 s
  obtain ⟨hc1, hm1⟩ := aimAvs_frame 1 (aimAvs 0 s)
  obtain ⟨hc2, hm2⟩ := aimAvs_frame 2 (aimAvs 1 (aimAvs 0 s))
  exact ⟨hc2.trans (hc1.trans hc0), hm2.trans (hm1.trans hm0)⟩

/-! ## A sample -/

/-- The sensors' registers after a sample, before the trips are tested. -/
def sampled (temps : List Int) (power : Nat) (s : State) : State :=
  thermalStatus power ((List.range 24).foldl (fun t n => putTemp n (temps.getD n 0) t) s)

theorem temp_of_keeps {s t : State} (h : KeepsRegs inSensors s t) {n : Nat} (hn : n < 24) : t.temp n = s.temp n := by
  have hcanon : inSensors (canonAddr (SVY_TEMP n)) = true := by
    rw [canonAddr_temp hn]
    simp [inSensors]
  unfold State.temp
  rw [h.rd (f := SVY_TEMP_TEMP n) hcanon]

section
variable {temps : List Int} {s : State} (hs : regsWf s.regs)
include hs

theorem temp_sampled (power : Nat) (hrange : ∀ n, n < 24 → -2048 ≤ temps.getD n 0 ∧ temps.getD n 0 ≤ 2047) {n : Nat} (hn : n < 24) :
    (sampled temps power s).temp n = temps.getD n 0 := by
  obtain ⟨hlo, hhi⟩ := hrange n hn
  unfold sampled
  rw [temp_of_keeps (thermalStatus_sensors power _) hn]
  unfold State.temp
  rw [(sampledTo_foldl hs (Nat.le_refl 24)).temp n hn, signed_unsigned hlo hhi]

theorem power_sampled (power : Nat) : (sampled temps power s).rd SVY_POWER_PKG = min power 8191 :=
  thermalStatus_power (sampledTo_foldl hs (Nat.le_refl 24)).regs power

theorem sampled_frame (power : Nat) : (sampled temps power s).contracts = s.contracts ∧ (sampled temps power s).mem = s.mem := by
  obtain ⟨hcon, hmem⟩ := thermalStatus_frame power ((List.range 24).foldl (fun t n => putTemp n (temps.getD n 0) t) s)
  have hfold := sampledTo_foldl (temps := temps) hs (Nat.le_refl 24)
  exact ⟨hcon.trans hfold.contracts, hmem.trans hfold.mem⟩

/-- A sample whose memory stacks stay below their trip aims the rails. -/
theorem exec_sensorSample_cool {power : Nat} (hup : s.power.inReset = false) (hlen : temps.length = 24)
    (hrange : ∀ n, n < 24 → -2048 ≤ temps.getD n 0 ∧ temps.getD n 0 ≤ 2047)
    (hcool : ∀ n, 20 ≤ n → n < 24 → temps.getD n 0 < 840) :
    exec (.sensorSample temps power) s = .next (aimRails (sampled temps power s)) := by
  have hnone : ¬[20, 21, 22, 23].any (fun n => decide (840 ≤ (sampled temps power s).temp n)) = true := by
    intro hany
    obtain ⟨n, hn, hhot⟩ := List.any_eq_true.1 hany
    have hbounds : 20 ≤ n ∧ n < 24 := by
      simp only [List.mem_cons, List.not_mem_nil, or_false] at hn
      omega
    have hn' := temp_sampled hs power hrange hbounds.2
    rw [hn'] at hhot
    exact not_lt.2 (of_decide_eq_true hhot) (hcool n hbounds.1 hbounds.2)
  refine (if_neg ?_).trans (if_neg hnone)
  simp [hup, hlen]

end

/-- Settles O49: supply, sensors, voltage steps and clocks take their effects. -/
theorem powerAndClocksComplete : Obligations.PowerAndClocksComplete := by
  unfold Obligations.PowerAndClocksComplete
  refine ⟨fun s => rfl, fun s hup => if_neg (by simp [hup]), fun temps power s hs hup hlen hrange hcool => ?_,
    fun rail mv s hmv => ⟨?_, ?_⟩, fun c s hc => ⟨if_pos hc, if_pos hc⟩, fun m s t hm ht => ?_, fun s => ⟨rfl, rfl⟩, fun m s hm => ?_⟩
  · obtain ⟨hcon, hmem⟩ := aimRails_frame (sampled temps power s)
    obtain ⟨hcon', hmem'⟩ := sampled_frame (temps := temps) hs.1 power
    refine ⟨_, exec_sensorSample_cool hs.1 hup hlen hrange hcool, fun n hn => ?_, ?_, hcon.trans hcon', hmem.trans hmem'⟩
    · rw [temp_of_keeps (aimRails_keeps _ (by decide)) hn]
      exact temp_sampled hs.1 power hrange hn
    · rw [(aimRails_keeps (p := (· == SVY_POWER)) _ (by decide)).rd rfl]
      exact power_sampled hs.1 power
  · change execAvsStepAck rail s = _
    unfold execAvsStepAck
    rw [hmv]
  · change execAvsTimeout rail true s = _
    unfold execAvsTimeout
    rw [hmv]
    exact if_neg fun h => Bool.true_eq_false.mp h.1
  · subst ht
    change execRefclkLoss (12 + m) s = _
    unfold execRefclkLoss
    rw [if_neg (by omega), if_pos (by omega), Nat.add_sub_cancel_left]
  · change execRefclkReturn (12 + m) s = _
    unfold execRefclkReturn
    rw [if_neg (by omega), if_pos (by omega), Nat.add_sub_cancel_left]

end Sys2Proof.Machine
